-- ==== Sys2Proof/Word.lean ====
section
/-! DEFINITION. The word types of the ZF6440 model: bytes, the widths of the spec's type codes
(00 Table 0-3), and the sparse banks that hold memory and parameters. -/

namespace Sys2Proof

/-- A byte of a frame, a record or memory. -/
abbrev Byte := BitVec 8
/-- A 16-bit field. -/
abbrev U16 := BitVec 16
/-- A 32-bit field or register. -/
abbrev U32 := BitVec 32
/-- A 64-bit field, also the value container of 02 R48. -/
abbrev U64 := BitVec 64
/-- A span of monotonic time in nanoseconds (00 R4). -/
abbrev Nanos := Nat
/-- Sparse data by key in one canonical form: keys strictly rising, no entry equal to what an
unlisted key reads as. -/
abbrev Bank (α : Type) := List (Nat × α)

end Sys2Proof
end

