-- ==== Sys2Proof/Syntax.lean ====
section
/-! DEFINITION. The commands of the block: one constructor of `Instr` per row of the opcode table,
with the operands the row carries from outside. -/

namespace Sys2Proof

/-- A transport of a mailbox frame (02 Table 2-2, OWN_TRANSPORTS bit order). -/
inductive Transport where
  /-- SMU with an AES-256-GCM tag. -/
  | smuAuth
  /-- SMU with CRC only. -/
  | smuCrc
  /-- The TW0 register window. -/
  | tw0
  /-- The service UART. -/
  | uart
  deriving DecidableEq, Repr

/-- Where a frame came from, so that its response goes back there (02 R42, 17 R465). -/
structure Via where
  /-- The transport. -/
  transport : Transport
  /-- The Ethernet port of an SMU frame; 0 on the other transports. -/
  port : Fin 2
  /-- IPv4 source address of an SMU frame. -/
  addr : U32
  /-- UDP source port of an SMU frame. -/
  udp : U16
  deriving DecidableEq, Repr

/-- An accepted request whose opcode the row names: it is executed by Burpol at its point of
effect (02 R39). -/
structure Req where
  /-- The owner that sent it. -/
  owner : Fin 16
  /-- How it came. -/
  via : Via
  /-- The tag of 02 Table 2-3. -/
  tag : BitVec 12
  /-- The sequence number of 02 Table 2-3. -/
  seq : U32
  /-- Flag [12]. -/
  notifyQueued : Bool
  /-- Flag [13]. -/
  noReply : Bool
  /-- The payload bytes, without header and tag. -/
  payload : List Byte
  deriving DecidableEq, Repr

/-- A sample of a quantity that a sensor outside the block presents, in the row's own unit. -/
abbrev Reading := Int

/-- One bit of a modulator stream as the two edges of its clock find it: at the rising edge, and at the falling edge. -/
abbrev Capture := Bool × Bool

/-- What a chain receiver gets in the time of one symbol (09 R256). -/
inductive ChainRx where
  /-- A comma, K28.5 or K28.1, at the alignment. -/
  | comma
  /-- Another valid symbol. -/
  | symbol
  /-- A code error. -/
  | error
  /-- No input amplitude. -/
  | silent
  deriving DecidableEq, Repr

/-- How the device's attention message on TW0 ended (17 R476). -/
inductive AttnOutcome where
  | sent
  | arbitrationLost
  | nacked
  deriving DecidableEq, Repr

/-- What a TW1 transfer found on the bus (17 R477). -/
inductive Tw1Outcome where
  /-- The target acknowledged everything; the bytes it returned. -/
  | done (bytes : List Byte)
  /-- The address, or a byte, was not acknowledged. -/
  | nackAddress
  /-- A data byte was not acknowledged after this many that were. -/
  | nackData (acked : Nat)
  /-- A target stretches SCL: the transfer goes on. -/
  | stretched
  deriving DecidableEq, Repr

/-- What the partner's pairing handshake reports of its waiting PAIR_ENABLE (05 R154, R155): the spec gives the
handshake no byte layout. -/
structure PeerEnable where
  identity : U64
  /-- Identity and group that its command names. -/
  names : U64
  namesGroup : Fin 8
  group : Fin 8
  fsw : Nat
  droop : Nat
  fault : Bool
  /-- In STANDBY, or its power mode with a current below 2 % of C_cap. -/
  mode : Nat
  low : Bool
  lead : Nat
  strap : Bool
  deriving DecidableEq, Repr

/-- What NODE_INFO returned from one position (09 Table 9-6 to 9-8). -/
structure NodeInfo where
  /-- Position counted from the port that reached it. -/
  pos : Nat
  /-- Reached from port A, from port B. -/
  fromA : Bool
  fromB : Bool
  uid : U64
  latency : U16
  nCellMax : Byte
  tMaskMax : Byte
  version : U16
  cap : Byte
  /-- Δ of PROBE_READ, ns. -/
  delta : Reading
  deriving DecidableEq, Repr

/-- What a received Ethernet frame carries. -/
inductive EthPayload where
  /-- ARP with the sender's and the target's address. -/
  | arp (sender target : U32) (request : Bool)
  /-- ICMP echo request to an address. -/
  | icmpEcho (dest : U32)
  /-- UDP datagram: source address and port, destination address and port. -/
  | udp (srcAddr : U32) (srcPort : U16) (destAddr : U32) (destPort : U16) (bytes : List Byte)
  /-- PTP Announce: domain, what the best-master rule compares, stepsRemoved, and logMessageInterval. -/
  | ptpAnnounce (domain : Nat) (identity : U64) (priority1 clockClass priority2 steps : Nat) (logInterval : Int)
  /-- PTP Delay_Req, answered by a MASTER port. -/
  | ptpDelayReq (domain : Nat)
  /-- PTP Delay_Resp: (t2' − t1') + (t4 − t3) of the exchange as stamped at the PHY interface, ns, and the master's
  logMinDelayReqInterval. -/
  | ptpDelayResp (domain : Nat) (sum : Reading) (minInterval : Int)
  /-- PRP supervision frame of a peer. -/
  | prpSupervision (peer : U64)
  | other
  deriving DecidableEq, Repr

/-- An Ethernet frame at a port. -/
structure EthFrame where
  dest : U64
  src : U64
  /-- 802.1Q tag: VLAN identifier. -/
  vlan : Option Nat
  /-- PRP trailer: sequence number and LAN (0 A, 1 B). -/
  prp : Option (U16 × Fin 2)
  length : Nat
  fcsOk : Bool
  /-- The checksums of IP and UDP, where the frame has them, are right. -/
  sumOk : Bool
  /-- The receiver overflowed in this frame. -/
  overflow : Bool
  payload : EthPayload
  deriving DecidableEq, Repr

/-- The sources that feed the ring writer, one queue of 16 records each (16 R454). -/
inductive RingSource where
  | burpol
  | plumb
  | screed (g : Fin 8)
  | float (m : Fin 64)
  | adc
  | host
  deriving DecidableEq, Repr

/-- The commands of the block, one per row of the opcode table, in its order. -/
inductive Instr where
  /-- SMU_DATAGRAM (R465). -/
  | smuDatagram (port : Fin 2) (addr : U32) (udp : U16) (frame : List Byte)
  /-- SMU_SEGMENT_REASSEMBLY_TIMEOUT (R466). -/
  | smuSegmentReassemblyTimeout (port : Fin 2) (addr : U32) (udp : U16) (id : U16)
  /-- SERVICE_UART_FRAME (R491). -/
  | serviceUartFrame (coded : List Byte) (fe : Nat)
  /-- UART_INTER_BYTE_TIMEOUT (R491). -/
  | uartInterByteTimeout (part : List Byte)
  /-- TW0_SUBMIT_REQUEST (R474). -/
  | tw0SubmitRequest (buffer : List Byte)
  /-- TW0_RELEASE_RESPONSE (R474). -/
  | tw0ReleaseResponse
  /-- TW0_STATUS_READ (R476). -/
  | tw0StatusRead
  /-- TW0_ATTN_CAUSE_READ (R9). -/
  | tw0AttnCauseRead
  /-- ATTENTION_WRITE (R476). -/
  | attentionWrite (outcome : AttnOutcome)
  /-- TW0_ISLAND_RESET_RELEASE (R473). -/
  | tw0IslandResetRelease (addr0 addr1 : BitVec 8)
  /-- TW0_ISLAND_CYCLE (R475). -/
  | tw0IslandCycle
  /-- OWNER_ATTACH (R38). -/
  | ownerAttach (r : Req)
  /-- OWNER_DETACH (R563). -/
  | ownerDetach (r : Req)
  /-- OWNER_RESET (R46). -/
  | ownerReset (r : Req)
  /-- OWNER_PROVISION (R517). -/
  | ownerProvision (r : Req)
  /-- LEASE_ACQUIRE (R31). -/
  | leaseAcquire (r : Req)
  /-- LEASE_RENEW (R32). -/
  | leaseRenew (r : Req)
  /-- LEASE_RELEASE (R563). -/
  | leaseRelease (r : Req)
  /-- LEASE_LAPSE (R32). -/
  | leaseLapse
  /-- PARAM_GET (R52). -/
  | paramGet (r : Req)
  /-- PARAM_SET (R49). -/
  | paramSet (r : Req)
  /-- PARAM_GET_BLOCK (R48). -/
  | paramGetBlock (r : Req)
  /-- PARAM_SAVE (R53). -/
  | paramSave (r : Req)
  /-- PARAM_DEFAULTS (R53). -/
  | paramDefaults (r : Req)
  /-- PARAM_DESCRIBE (R565). -/
  | paramDescribe (r : Req)
  /-- TABLE_INFO (R564). -/
  | tableInfo (r : Req)
  /-- TABLE_OPEN (R55). -/
  | tableOpen (r : Req)
  /-- TABLE_WRITE (R55). -/
  | tableWrite (r : Req)
  /-- TABLE_COMMIT (R56). -/
  | tableCommit (r : Req)
  /-- TABLE_ABORT (R55). -/
  | tableAbort (r : Req)
  /-- TABLE_READ (R564). -/
  | tableRead (r : Req)
  /-- TABLE_DELETE (R59). -/
  | tableDelete (r : Req)
  /-- PHASE_STATUS (R87). -/
  | phaseStatus (r : Req)
  /-- PHASE_TELEMETRY (R87). -/
  | phaseTelemetry (r : Req)
  /-- PHASE_COUNTERS (R87). -/
  | phaseCounters (r : Req)
  /-- PHASE_RESTORE (R88). -/
  | phaseRestore (r : Req)
  /-- PHASE_REPLACED (R89). -/
  | phaseReplaced (r : Req)
  /-- PHASE_FAULT_INJECT (R90). -/
  | phaseFaultInject (r : Req)
  /-- DFLT_ASSERTED (R78). -/
  | dfltAsserted (p : Fin 64) (held : Nat)
  /-- FAST_TRIP (R76). -/
  | fastTrip (p : Fin 64) (bits : List Bool)
  /-- SD_STUCK_DETECT (R77). -/
  | sdStuckDetect (p : Fin 64)
  /-- SD_CLK_LOST_DETECT (R77). -/
  | sdClkLostDetect (k : Fin 8)
  /-- SENSE_FLAG_CLEAR (R77). -/
  | senseFlagClear (p : Fin 64) (stuck clock : Bool)
  /-- TROWEL_UPDATE (R107). -/
  | trowelUpdate (p : Fin 64) (bits : List Bool)
  /-- DEADTIME_LIMIT (R70). -/
  | deadtimeLimit (p : Fin 64)
  /-- COMMIT_BOUNDARY (R16). -/
  | commitBoundary (g : Fin 8) (half : Bool)
  /-- PERIOD_START (R63). -/
  | periodStart (g : Fin 8) (ripple : List (Fin 64 × List Bool × List Bool))
  /-- OPEN_LEG_DETECT (R128). -/
  | openLegDetect (p : Fin 64)
  /-- SENSE_IMPLAUSIBLE_DETECT (R130). -/
  | senseImplausibleDetect (p : Fin 64)
  /-- ZERO_CURRENT_OFFSET_DETECT (R131). -/
  | zeroCurrentOffsetDetect (p : Fin 64)
  /-- SENSE_SUM_RECORD (R130). -/
  | senseSumRecord (g : Fin 8)
  /-- SHADOW_END (R137). -/
  | shadowEnd (p : Fin 64)
  /-- WEAR_LIMIT_REACHED (R133). -/
  | wearLimitReached (p : Fin 64)
  /-- PHASE_THERMAL_INPUT (R132). -/
  | phaseThermalInput (p : Fin 64)
  /-- OUTER_LOOP_SAMPLE (R102). -/
  | outerLoopSample (g : Fin 8) (inputs : List (Fin 20 × List Capture))
  /-- LIGHT_LOAD_STAGE_ENTRY (R111). -/
  | lightLoadStageEntry (g : Fin 8)
  /-- RAMP_DOWN_COMPLETE (R96). -/
  | rampDownComplete (g : Fin 8)
  /-- SCHEDULED_SETPOINT_EFFECT (R123). -/
  | scheduledSetpointEffect
  /-- GROUP_STATUS (R122). -/
  | groupStatus (r : Req)
  /-- GROUP_TELEMETRY (R126). -/
  | groupTelemetry (r : Req)
  /-- GROUP_SETPOINT (R123). -/
  | groupSetpoint (r : Req)
  /-- GROUP_CANCEL (R124). -/
  | groupCancel (r : Req)
  /-- GROUP_FAULT_ACK (R125). -/
  | groupFaultAck (r : Req)
  /-- GROUP_LIMITS (R568). -/
  | groupLimits (r : Req)
  /-- TELEMETRY_WINDOW_END (R126). -/
  | telemetryWindowEnd (g : Fin 8)
  /-- SYNC_IN_EDGE (R117). -/
  | syncInEdge (time : Nat)
  /-- SYNC_LOSS_TIMEOUT (R117). -/
  | syncLossTimeout (g : Fin 8)
  /-- LIMIT_SET_CHECK (R127). -/
  | limitSetCheck (means : List (Fin 8 × Reading × Reading)) (vLink : Reading)
  /-- PAIR_FRAME_SEND (R149). -/
  | pairFrameSend
  /-- PAIR_FRAME_RECEIVE (R151). -/
  | pairFrameReceive (bytes : List Byte) (good : Bool) (peer : Option PeerEnable) (handover : Bool)
  /-- PAIR_LOST (R163). -/
  | pairLost
  /-- PAIR_TRANSACTION_TIMEOUT (R153). -/
  | pairTransactionTimeout (tag : Byte)
  /-- PAIR_STATUS (R166). -/
  | pairStatus (r : Req)
  /-- PAIR_ENABLE (R154). -/
  | pairEnable (r : Req)
  /-- PAIR_TAKE_EFFECT (R154). -/
  | pairTakeEffect (g : Fin 8)
  /-- PAIR_ENABLE_TIMEOUT (R154). -/
  | pairEnableTimeout (g : Fin 8)
  /-- PAIR_DISABLE (R166). -/
  | pairDisable (r : Req)
  /-- PAIR_DISABLE_EFFECT (R166). -/
  | pairDisableEffect (g : Fin 8)
  /-- PAIR_HANDOVER (R161). -/
  | pairHandover (r : Req)
  /-- PAIR_HANDOVER_EFFECT (R161). -/
  | pairHandoverEffect (g : Fin 8)
  /-- STRING_EVALUATION (R170). -/
  | stringEvaluation (p : Fin 4)
  /-- STRING_STATUS (R184). -/
  | stringStatus (r : Req)
  /-- CHARGE_FAULT_READ (R183). -/
  | chargeFaultRead (r : Req)
  /-- PROFILE_RESTART (R174). -/
  | profileRestart (r : Req)
  /-- SLEEP_ENTER (R186). -/
  | sleepEnter (r : Req) (wakeN : Bool)
  /-- DUST_SHEET_ENTER (R187). -/
  | dustSheetEnter (r : Req) (wakeN : Bool)
  /-- LOW_POWER_STATE_REACHED (R190). -/
  | lowPowerStateReached
  /-- WAKE (R192). -/
  | wake (r : Req)
  /-- WAKE_SOURCE (R188). -/
  | wakeSource (code : Fin 9)
  /-- REAL_TIME_ALARM (R188). -/
  | realTimeAlarm
  /-- CC_WAKE_THRESHOLD (R248). -/
  | ccWakeThreshold (c : Fin 4)
  /-- WAKE_COMPLETE (R192). -/
  | wakeComplete (chainOk : Bool)
  /-- FEED_EVALUATION (R199). -/
  | feedEvaluation (okA okB : Bool) (inputs : List (Fin 20 × List Capture))
  /-- FEED_OVERCURRENT_TRIP (R203). -/
  | feedOvercurrentTrip (f : Fin 2) (bits : List Capture)
  /-- FEED_REVERSE_TURN_OFF (R206). -/
  | feedReverseTurnOff (f : Fin 2) (bits : List Capture)
  /-- FEED_BLOCKING_REARM (R206). -/
  | feedBlockingRearm (f : Fin 2)
  /-- FEED_BLOCK_TIMEOUT (R206). -/
  | feedBlockTimeout (f : Fin 2)
  /-- FEED_RETRY_WAIT_END (R204). -/
  | feedRetryWaitEnd (f : Fin 2)
  /-- FEED_BUS_OV (R202). -/
  | feedBusOv (f : Fin 2)
  /-- FEED_SWITCH_LOST (R202). -/
  | feedSwitchLost (f : Fin 2)
  /-- FEED_PG_DELAY_EXPIRY (R207). -/
  | feedPgDelayExpiry (f : Fin 2)
  /-- FEED_RETRY_CLEAR (R204). -/
  | feedRetryClear (f : Fin 2)
  /-- FEED_STATUS (R215). -/
  | feedStatus (r : Req)
  /-- FEED_ARM (R216). -/
  | feedArm (r : Req)
  /-- FEED_OPEN (R217). -/
  | feedOpen (r : Req)
  /-- CONTACTOR_STATUS (R215). -/
  | contactorStatus (r : Req)
  /-- CONTACTOR_CLOSE (R218). -/
  | contactorClose (r : Req)
  /-- CONTACTOR_OPEN (R218). -/
  | contactorOpen (r : Req)
  /-- CONTACTOR_WELD_TEST (R218). -/
  | contactorWeldTest (r : Req)
  /-- CONTACTOR_WELD_CLEAR (R218). -/
  | contactorWeldClear (r : Req)
  /-- CONTACTOR_AUTO_PRECHARGE (R213). -/
  | contactorAutoPrecharge (p : Fin 4)
  /-- PRECHARGE_COMPLETE (R211). -/
  | prechargeComplete (p : Fin 4)
  /-- PRECHARGE_TIMEOUT (R211). -/
  | prechargeTimeout (p : Fin 4)
  /-- CONTACTOR_FEEDBACK_CHANGE (R212). -/
  | contactorFeedbackChange (p : Fin 4) (closed : Bool)
  /-- CONTACTOR_CLOSE_TIMEOUT (R212). -/
  | contactorCloseTimeout (p : Fin 4)
  /-- CONTACTOR_OPEN_TIMEOUT (R212). -/
  | contactorOpenTimeout (p : Fin 4)
  /-- CONTACTOR_DROPPED (R212). -/
  | contactorDropped (p : Fin 4)
  /-- WELD_TEST_TIMEOUT (R212). -/
  | weldTestTimeout (p : Fin 4)
  /-- HOUSEKEEPING_RUN (R221). -/
  | housekeepingRun (k : Fin 2) (readings : List (U16 × Reading)) (amps : List Reading)
  /-- SELF_CALIBRATION_COMPLETE (R232). -/
  | selfCalibrationComplete (k : Fin 2) (good : Bool)
  /-- SEQUENCE_TRIGGER (R226). -/
  | sequenceTrigger (i : Fin 16)
  /-- SEQUENCE_RUN_COMPLETE (R227). -/
  | sequenceRunComplete (i : Fin 16) (codes : List (U16 × Reading))
  /-- SEQUENCE_TABLE_ACTIVATION (R229). -/
  | sequenceTableActivation
  /-- BOARD_CALIBRATION_COMPLETE (R233). -/
  | boardCalibrationComplete (sum : Nat) (least most : U16)
  /-- COMPARATOR_ASSERT (R234). -/
  | comparatorAssert (n : Fin 12) (uv : Nat)
  /-- COMPARATOR_RELEASE (R234). -/
  | comparatorRelease (n : Fin 12) (uv : Nat)
  /-- VSD_INPUT_INVALID (R241). -/
  | vsdInputInvalid (v : Fin 20)
  /-- VSD_INPUT_VALID (R240). -/
  | vsdInputValid (v : Fin 20)
  /-- MODULATOR_CLOCK_LOST (R242). -/
  | modulatorClockLost (cc : Bool) (lost : Bool)
  /-- COULOMB_TICK (R243). -/
  | coulombTick (counts : List Reading)
  /-- COULOMB_TELEMETRY_INTERVAL (R448). -/
  | coulombTelemetryInterval (c : Fin 4)
  /-- MEAS_READ (R250). -/
  | measRead (r : Req)
  /-- MEAS_VSD_READ (R250). -/
  | measVsdRead (r : Req)
  /-- MEAS_TRIGGER (R251). -/
  | measTrigger (r : Req)
  /-- MEAS_CALIBRATE (R233). -/
  | measCalibrate (r : Req)
  /-- MEAS_CMP_STATUS (R250). -/
  | measCmpStatus (r : Req)
  /-- MEAS_CMP_CLEAR (R234). -/
  | measCmpClear (r : Req)
  /-- CC_READ (R249). -/
  | ccRead (r : Req)
  /-- CC_RESET (R252). -/
  | ccReset (r : Req)
  /-- MEAS_SEQ_STATUS (R250). -/
  | measSeqStatus (r : Req)
  /-- CHAIN_RECEIVER_LOCK (R256). -/
  | chainReceiverLock (q : Fin 2) (symbols : List ChainRx)
  /-- RING_STATE_CHANGE (R264). -/
  | ringStateChange (q origin : Fin 2)
  /-- ENUMERATION_END (R266). -/
  | enumerationEnd (found : List NodeInfo) (reachA reachB : Nat) (a b : Nat)
  /-- DELAY_MEASUREMENT (R270). -/
  | delayMeasurement (a b : Nat) (deltas : List (Fin 64 × Reading))
  /-- MARK_SEND (R271). -/
  | markSend (q : Fin 2)
  /-- SAMPLE_INSTANT (R271). -/
  | sampleInstant
  /-- SWEEP_READS_START (R277). -/
  | sweepReadsStart
  /-- CHAIN_REPLY (R278). -/
  | chainReply (q : Fin 2) (frame : List Byte)
  /-- CHAIN_READ_TIMEOUT (R278). -/
  | chainReadTimeout (q : Fin 2)
  /-- SWEEP_COMPLETE (R280). -/
  | sweepComplete
  /-- SWEEP_DEADLINE (R280). -/
  | sweepDeadline
  /-- MODULE_CHAIN_LOST (R282). -/
  | moduleChainLost (m : Fin 64)
  /-- BALANCE_REQUEST_SEND (R283). -/
  | balanceRequestSend (q : Fin 2)
  /-- CHAIN_PORT_STOP (R286). -/
  | chainPortStop (q : Fin 2)
  /-- CHAIN_STATUS (R288). -/
  | chainStatus (r : Req)
  /-- CHAIN_ENUMERATE (R289). -/
  | chainEnumerate (r : Req)
  /-- CHAIN_MODULE_READ (R288). -/
  | chainModuleRead (r : Req)
  /-- CHAIN_BALANCE (R289). -/
  | chainBalance (r : Req)
  /-- CHAIN_NODE_CMD (R289). -/
  | chainNodeCmd (r : Req)
  /-- CHAIN_PROBE (R270). -/
  | chainProbe (r : Req)
  /-- MODULE_ACCEPT (R289). -/
  | moduleAccept (r : Req)
  /-- FLOAT_UPDATE (R293). -/
  | floatUpdate (m : Fin 64)
  /-- CELL_DIVERGED (R302). -/
  | cellDiverged (m : Fin 64) (c : Fin 24)
  /-- TEMP_STALE (R294). -/
  | tempStale (m : Fin 64)
  /-- BALANCING_DECISION (R308). -/
  | balancingDecision
  /-- LEARNING_INTERVAL (R312). -/
  | learningInterval
  /-- REDUCED_RATE_ENTRY (R315). -/
  | reducedRateEntry
  /-- FULL_RATE_RESUME (R315). -/
  | fullRateResume
  /-- HIBERNATE_ENTRY (R316). -/
  | hibernateEntry
  /-- HIBERNATE_RECORD (R316). -/
  | hibernateRecord
  /-- END_OF_LIFE (R314). -/
  | endOfLife (p : Fin 4)
  /-- EST_STATUS_READ (R318). -/
  | estStatusRead (r : Req)
  /-- EST_CELL_READ (R318). -/
  | estCellRead (r : Req)
  /-- EST_LEARN_NOW (R312). -/
  | estLearnNow (r : Req)
  /-- EST_SET_SOC (R319). -/
  | estSetSoc (r : Req)
  /-- EST_RELEARN (R313). -/
  | estRelearn (r : Req)
  /-- STIPPLE_SWEEP_START (R328). -/
  | stippleSweepStart (p : Fin 4)
  /-- STIPPLE_POINT_START (R323). -/
  | stipplePointStart (p : Fin 4)
  /-- STIPPLE_POINT_END (R335). -/
  | stipplePointEnd (p : Fin 4) (amps : List (List Capture × List Capture × Nat))
  /-- STIPPLE_DEFER_TIMEOUT (R334). -/
  | stippleDeferTimeout (p : Fin 4)
  /-- STIPPLE_SWEEP_END (R338). -/
  | stippleSweepEnd (p : Fin 4)
  /-- STIPPLE_START (R343). -/
  | stippleStart (r : Req)
  /-- STIPPLE_ABORT (R336). -/
  | stippleAbort (r : Req)
  /-- STIPPLE_STATUS (R342). -/
  | stippleStatus (r : Req)
  /-- STIPPLE_RESULT (R343). -/
  | stippleResult (r : Req)
  /-- AUX_RISE (R356). -/
  | auxRise (aux : U16)
  /-- SEQUENCER_STAGE_START (R356). -/
  | sequencerStageStart
  /-- RAIL_POWER_GOOD (R348). -/
  | railPowerGood (rail : Fin 32) (mv : U16)
  /-- RAIL_RISE_TIMEOUT (R358). -/
  | railRiseTimeout (rail : Fin 32) (cause : Fin 9) (mv : U16)
  /-- D_DIE_RESET_RELEASE (R357). -/
  | dDieResetRelease (pairRole bootSel0 : BitVec 8) (banks : List Nat)
  /-- CRITICAL_RAIL_FAULT (R361). -/
  | criticalRailFault (rail : Fin 32) (cause : Fin 9) (mv : U16)
  /-- NONCRITICAL_RAIL_FAULT (R362). -/
  | noncriticalRailFault (rail : Fin 32) (cause : Fin 9) (mv : U16)
  /-- DOWN_SEQUENCE_STAGE (R359). -/
  | downSequenceStage
  /-- SEQUENCE_RETRY_WAIT_END (R358). -/
  | sequenceRetryWaitEnd
  /-- LOCKOUT_EXIT (R358). -/
  | lockoutExit
  /-- SEQUENCE_RETRY_RESET (R358). -/
  | sequenceRetryReset
  /-- STEP_N_ADVANCE (R364). -/
  | stepNAdvance
  /-- STEP_N_TIMEOUT (R365). -/
  | stepNTimeout
  /-- AUX_BROWN_OUT (R346). -/
  | auxBrownOut (aux : U16)
  /-- AUX_RETURN (R346). -/
  | auxReturn (aux : U16)
  /-- RIDE_THROUGH_EXPIRY (R367). -/
  | rideThroughExpiry
  /-- HOLD_READY_CHANGE (R370). -/
  | holdReadyChange (hold : U16)
  /-- RETENTION_LOSS (R371). -/
  | retentionLoss
  /-- RAIL_STATUS (R374). -/
  | railStatus (r : Req)
  /-- RAIL_ON (R375). -/
  | railOn (r : Req)
  /-- RAIL_OFF (R375). -/
  | railOff (r : Req)
  /-- RAIL_HISTORY (R374). -/
  | railHistory (r : Req)
  /-- FAULT_N_EXTERNAL_LOW (R21). -/
  | faultNExternalLow (low : Bool)
  /-- FAULT_N_RELEASE (R366). -/
  | faultNRelease
  /-- DIE_LINK_TIMEOUT (R13). -/
  | dieLinkTimeout
  /-- REFERENCE_FAILURE (R377). -/
  | referenceFailure (refclk : Bool)
  /-- PPS_IN_EDGE (R385). -/
  | ppsInEdge (time : Nat) (falling : Bool)
  /-- PPS_SOURCE_LOSS (R380). -/
  | ppsSourceLoss
  /-- HOLDOVER_TIMEOUT (R380). -/
  | holdoverTimeout
  /-- PRIMARY_SOURCE_RETURN (R380). -/
  | primarySourceReturn
  /-- PPS_OUT_PULSE (R385). -/
  | ppsOutPulse
  /-- TB_STATUS_READ (R388). -/
  | tbStatusRead (r : Req)
  /-- TB_ALIGN_NOW (R388). -/
  | tbAlignNow (r : Req)
  /-- TB_SET_TOD (R388). -/
  | tbSetTod (r : Req)
  /-- THERMAL_EVALUATION (R391). -/
  | thermalEvaluation (samples : List Reading)
  /-- THERMAL_GRACE_EXPIRY (R391). -/
  | thermalGraceExpiry
  /-- THERMAL_RELEASE (R391). -/
  | thermalRelease
  /-- HARDWARE_THERMAL_TRIP (R395). -/
  | hardwareThermalTrip (dDie : Bool) (first second : Reading)
  /-- THERMAL_TRIP_RELEASE (R395). -/
  | thermalTripRelease
  /-- DIODE_BROKEN (R390). -/
  | diodeBroken (dDie : Bool) (mv : U16)
  /-- NVM_WRITE_HOLD (R397). -/
  | nvmWriteHold
  /-- NVM_WRITE_RESUME (R397). -/
  | nvmWriteResume
  /-- PVT_MEASUREMENT (R398). -/
  | pvtMeasurement (readings : List Reading) (counts : List Nat)
  /-- DROOP_EVENT (R400). -/
  | droopEvent (mv ns : Nat)
  /-- HOT_HOUR_COUNT (R401). -/
  | hotHourCount
  /-- TH_STATUS_READ (R402). -/
  | thStatusRead (r : Req)
  /-- TH_PVT_READ (R402). -/
  | thPvtRead (r : Req)
  /-- WATCHDOG_KICK (R404). -/
  | watchdogKick (hc1 : Bool)
  /-- WATCHDOG_WARNING (R405). -/
  | watchdogWarning
  /-- WATCHDOG_EXPIRY (R405). -/
  | watchdogExpiry (drained : Bool)
  /-- HAWK_RESET_HOLD_END (R407). -/
  | hawkResetHoldEnd
  /-- WATCHDOG_HOLD_TIMEOUT (R406). -/
  | watchdogHoldTimeout
  /-- LONG_OP_START (R408). -/
  | longOpStart
  /-- LONG_OP_END (R408). -/
  | longOpEnd
  /-- LONG_OP_SUSPEND_TIMEOUT (R408). -/
  | longOpSuspendTimeout
  /-- CUSTOMER_HEARTBEAT_MISSING (R411). -/
  | customerHeartbeatMissing
  /-- FIRMWARE_BOOT (R510). -/
  | firmwareBoot (validA validB : Bool) (badTables badSecure : List Nat) (badRegions : BitVec 8)
  /-- WD_STATUS_READ (R425). -/
  | wdStatusRead (r : Req)
  /-- IRQ_COUNTS (R414). -/
  | irqCounts (r : Req)
  /-- WD_TEST (R425). -/
  | wdTest (r : Req)
  /-- INTERRUPT_RAISE (R414). -/
  | interruptRaise (n : Fin 384)
  /-- INTERRUPT_ROUTING (R415). -/
  | interruptRouting
  /-- IRQ_COUNT_FOLD (R414). -/
  | irqCountFold
  /-- IC_CLAIM_READ (R416). -/
  | icClaimRead (k : Fin 4)
  /-- IC_EOI_WRITE (R417). -/
  | icEoiWrite (k : Fin 4) (value : U32)
  /-- IC_SWSET_WRITE (R419). -/
  | icSwsetWrite (core : Fin 4) (value : U32)
  /-- IC_SWCLR_WRITE (R419). -/
  | icSwclrWrite (core : Fin 4) (value : U32)
  /-- IC_CFG_WRITE (R420). -/
  | icCfgWrite (core : Fin 4) (n : Fin 384) (value : U32)
  /-- IC_STAT_READ (R414). -/
  | icStatRead (core : Fin 4) (n : Fin 384)
  /-- IC_THR_WRITE (R415). -/
  | icThrWrite (core : Fin 4) (k : Fin 4) (value : U32)
  /-- DMA_KICK (R443). -/
  | dmaKick (core : Fin 4) (value : U32)
  /-- DMA_HALT_WRITE (R443). -/
  | dmaHaltWrite (core : Fin 4) (value : U32)
  /-- DMA_CHANNEL_DISABLE (R440). -/
  | dmaChannelDisable (c : Fin 32)
  /-- DMA_GLOBAL_DISABLE (R443). -/
  | dmaGlobalDisable
  /-- DMA_RESUME (R439). -/
  | dmaResume (c : Fin 32)
  /-- DMA_CRING_RD_WRITE (R438). -/
  | dmaCringRdWrite (c : Fin 32) (value : U32)
  /-- DMA_BURST (R437). -/
  | dmaBurst (failing : Option Nat) (corrected : Option Nat)
  /-- DMA_DESCRIPTOR_COMPLETE (R438). -/
  | dmaDescriptorComplete (c : Fin 32)
  /-- MEM_DISCARD (R434). -/
  | memDiscard (count : U32)
  /-- MEM_FIRST_ERR_CLEAR (R430). -/
  | memFirstErrClear (value : U32)
  /-- RECORD_ACK (R527). -/
  | recordAck
  /-- CORE_MEMORY_ACCESS (R428). -/
  | coreMemoryAccess (core : Fin 4) (address : Nat) (write : Option (List Byte)) (length : Nat) (bad : Option Bool)
  /-- REGISTER_WRITE (R9). -/
  | registerWrite (core : Fin 4) (address : Nat) (value : U32)
  /-- RING_RECORD_APPEND (R446). -/
  | ringRecordAppend (source : RingSource)
  /-- STREAM_FLUSH_TIMEOUT (R471). -/
  | streamFlushTimeout (slot : Fin 32)
  /-- RING_CREATE (R456). -/
  | ringCreate (r : Req)
  /-- RING_DELETE (R456). -/
  | ringDelete (r : Req)
  /-- RING_STATUS (R455). -/
  | ringStatus (r : Req)
  /-- RING_READ (R456). -/
  | ringRead (r : Req)
  /-- RING_ACK (R456). -/
  | ringAck (r : Req)
  /-- RING_LIST (R455). -/
  | ringList (r : Req)
  /-- MEM_STATUS (R455). -/
  | memStatus (r : Req)
  /-- ETH_LINK_CHANGE (R460). -/
  | ethLinkChange (q : Fin 2) (up : Bool) (speed : Fin 3) (duplex : Bool)
  /-- ETH_FRAME_RECEIVED (R457). -/
  | ethFrameReceived (q : Fin 2) (frame : EthFrame)
  /-- ETH_PORT_RESTART (R459). -/
  | ethPortRestart (q : Fin 2)
  /-- PTP_SYNC_RECEIVED (R462). -/
  | ptpSyncReceived (q : Fin 2) (offset : Reading) (logSync : Reading)
  /-- PTP_DELAY_REQ_SEND (R462). -/
  | ptpDelayReqSend (q : Fin 2)
  /-- PTP_MASTER_SEND (R461). -/
  | ptpMasterSend (q : Fin 2)
  /-- PTP_SOURCE_LOSS (R463). -/
  | ptpSourceLoss (q : Fin 2)
  /-- PRP_SUPERVISION_SEND (R464). -/
  | prpSupervisionSend
  /-- PRP_LAN_TIMEOUT (R464). -/
  | prpLanTimeout (q : Fin 2)
  /-- LINK_STATUS (R479). -/
  | linkStatus (r : Req)
  /-- ETH_RESTART (R459). -/
  | ethRestart (r : Req)
  /-- TW_CYCLE (R475). -/
  | twCycle (r : Req)
  /-- TW1_XFER (R477). -/
  | tw1Xfer (r : Req) (outcome : Tw1Outcome)
  /-- TW1_STRETCH_TIMEOUT (R477). -/
  | tw1StretchTimeout (lost : Bool)
  /-- STREAM_CREATE (R470). -/
  | streamCreate (r : Req)
  /-- STREAM_DELETE (R479). -/
  | streamDelete (r : Req)
  /-- STREAM_STATUS (R479). -/
  | streamStatus (r : Req)
  /-- CC_ATTACH (R481). -/
  | ccAttach (source : Bool) (orient : Bool) (vbus : U16)
  /-- CC_DETACH (R481). -/
  | ccDetach (vbus : U16)
  /-- PD_SOURCE_CAPABILITIES (R486). -/
  | pdSourceCapabilities (objects : List U32)
  /-- PD_PS_RDY (R485). -/
  | pdPsRdy (vbus : U16)
  /-- PD_MESSAGE_RECEIVED (R483). -/
  | pdMessageReceived (bytes : List Byte) (crcOk : Bool)
  /-- PD_HARD_RESET_RECEIVED (R485). -/
  | pdHardResetReceived
  /-- PD_RETRIES_EXHAUSTED (R483). -/
  | pdRetriesExhausted
  /-- PD_ENTER_MODE (R489). -/
  | pdEnterMode (position : Nat)
  /-- PD_EXIT_MODE (R489). -/
  | pdExitMode
  /-- VBUS_MONITOR_BREACH (R484). -/
  | vbusMonitorBreach (vbus : U16) (ns : Nat)
  /-- MOISTURE_CHECK (R493). -/
  | moistureCheck (ohms : Nat)
  /-- SBU_CORROSION (R494). -/
  | sbuCorrosion (volts : Reading)
  /-- SP_STATUS_READ (R496). -/
  | spStatusRead (r : Req)
  /-- SP_POLICY_CLAIM (R487). -/
  | spPolicyClaim (r : Req)
  /-- SP_POLICY_RELEASE (R487). -/
  | spPolicyRelease (r : Req)
  /-- SP_PD_POLICY (R487). -/
  | spPdPolicy (r : Req)
  /-- SP_PD_SEND (R488). -/
  | spPdSend (r : Req)
  /-- NVM_RECORD_WRITE (R501). -/
  | nvmRecordWrite
  /-- NVM_SCRUB (R505). -/
  | nvmScrub (sector corrected : Nat) (uncorrectable : List Nat)
  /-- SECTOR_MIGRATION_COMPLETE (R505). -/
  | sectorMigrationComplete
  /-- TRIAL_TIMEOUT (R513). -/
  | trialTimeout
  /-- NVM_STATUS_READ (R521). -/
  | nvmStatusRead (r : Req)
  /-- FW_OPEN (R512). -/
  | fwOpen (r : Req)
  /-- FW_WRITE (R512). -/
  | fwWrite (r : Req)
  /-- FW_FINISH (R509). -/
  | fwFinish (r : Req) (sigOk hashOk keyOk : Bool)
  /-- FW_ACTIVATE (R513). -/
  | fwActivate (r : Req)
  /-- FW_COMMIT (R513). -/
  | fwCommit (r : Req)
  /-- FW_ABORT (R512). -/
  | fwAbort (r : Req)
  /-- LOG_READ (R521). -/
  | logRead (r : Req)
  /-- FUSE_READ (R521). -/
  | fuseRead (r : Req)
  /-- FUSE_BLOW (R508). -/
  | fuseBlow (r : Req) (copyA copyB : Bool)
  /-- CUST_COMMIT (R519). -/
  | custCommit (r : Req)
  /-- CUST_KEY_SET (R519). -/
  | custKeySet (r : Req)
  /-- DFLT_BLANKING_END (R79). -/
  | dfltBlankingEnd (p : Fin 64)
  /-- DFLT_DEASSERTED (R81). -/
  | dfltDeasserted (p : Fin 64)
  /-- PHASE_BANK_SUPPLY_WINDOW (R536). -/
  | phaseBankSupplyWindow (k : Fin 8) (mv : Nat) (ns : Nat)
  /-- DIE_LINK_RESTORED (R125). -/
  | dieLinkRestored
  /-- REFERENCE_RESTORED (R377). -/
  | referenceRestored (refclk : Bool)
  /-- PLL_LOCK_CHANGE (R389). -/
  | pllLockChange (lock : Bool)
  /-- DRP_TOGGLE (R481). -/
  | drpToggle
  /-- HOLD_UP_FLUSH_COMPLETE (R368). -/
  | holdUpFlushComplete
  deriving DecidableEq, Repr

end Sys2Proof
end

