-- ==== Sys2Proof/Decode.lean ====
section
/-! DEFINITION. Commands spelled by the opcode table's bits. The block has no instruction encoding:
no row of the table has fields, so no word spells a command (log entry 2). -/

namespace Sys2Proof

/-- The command that a word spells; none, since no row of the table gives bits. -/
def decodeTableWord (_nbits _w : Nat) : Option Instr := none

end Sys2Proof
end

