-- ==== Sys2Proof/Machine/Bits.lean ====
section
/-! DEFINITION. Bit fields, little-endian bytes (00 R5), rounding (00 R561), saturating counters,
CRC-32C (02 R35), and reading and writing a sparse bank in canonical form. -/

namespace Sys2Proof.Machine

/-- Bits [hi:lo] of a number. -/
def bitsOf (v hi lo : Nat) : Nat := (v >>> lo) % 2 ^ (hi + 1 - lo)

/-- Bit [i] of a number. -/
def bitAt (v i : Nat) : Bool := (v >>> i) % 2 == 1

/-- A flag as 0 or 1. -/
def flag (b : Bool) : Nat := if b then 1 else 0

/-- A number placed at bit `lo`, `w` bits wide. -/
def fieldAt (lo w v : Nat) : Nat := (v % 2 ^ w) <<< lo

/-- A number with bits [hi:lo] replaced. -/
def setBitsOf (v hi lo x : Nat) : Nat :=
  v - (bitsOf v hi lo <<< lo) + fieldAt lo (hi + 1 - lo) x

/-- A number with bit [i] set or cleared. -/
def setBitAt (v i : Nat) (b : Bool) : Nat := setBitsOf v i i (flag b)

/-- Two's complement reading of an `n`-bit number (00 R6). -/
def signedOf (n v : Nat) : Int :=
  let w := v % 2 ^ n
  if w < 2 ^ (n - 1) then (w : Int) else (w : Int) - (2 ^ n : Nat)

/-- Two's complement coding of an integer in `n` bits (00 R6). -/
def codeOf (n : Nat) (x : Int) : Nat := (x % ((2 ^ n : Nat) : Int)).toNat

/-- `n` bytes of a number, least significant first (00 R5). -/
def leBytes : Nat → Nat → List Byte
  | 0, _ => []
  | n + 1, v => BitVec.ofNat 8 v :: leBytes n (v / 256)

/-- The number whose little-endian bytes are given. -/
def ofLe : List Byte → Nat
  | [] => 0
  | b :: bs => b.toNat + 256 * ofLe bs

/-- `n` bytes of a number, most significant first (chain and pair link byte order). -/
def beBytes (n v : Nat) : List Byte := (leBytes n v).reverse

/-- `n` bytes from offset `off`, short where the list ends. -/
def slice (bs : List Byte) (off n : Nat) : List Byte := (bs.drop off).take n

/-- The little-endian number in the `n` bytes at `off`; bytes beyond the end count as 0. -/
def numAt (bs : List Byte) (off n : Nat) : Nat := ofLe (slice bs off n)

/-- The two's complement number in the `n` bytes at `off`. -/
def intAt (bs : List Byte) (off n : Nat) : Int := signedOf (8 * n) (numAt bs off n)

/-- All bytes of a span are zero. -/
def zeroAt (bs : List Byte) (off n : Nat) : Bool := (slice bs off n).all (· == 0#8)

/-- `n` zero bytes. -/
def zeros (n : Nat) : List Byte := List.replicate n 0#8

/-- A counter that stays at its top value (saturates). -/
def satInc {n : Nat} (c : BitVec n) : BitVec n :=
  if c.toNat + 1 < 2 ^ n then c + 1#n else c

/-- A counter raised by `k` that stays at its top value. -/
def satAdd {n : Nat} (c : BitVec n) (k : Nat) : BitVec n :=
  if c.toNat + k < 2 ^ n then BitVec.ofNat n (c.toNat + k) else BitVec.allOnes n

/-- The lower and the upper end of a range, applied to an integer. -/
def clampI (lo hi x : Int) : Int := max lo (min hi x)

/-- floor(x), 00 R561. -/
def floorQ (x : Rat) : Int := x.num / (x.den : Int)

/-- ceil(x), 00 R561. -/
def ceilQ (x : Rat) : Int := -(floorQ (-x))

/-- trunc(x), 00 R561: the fraction dropped towards zero. -/
def truncQ (x : Rat) : Int := if x < 0 then -(floorQ (-x)) else floorQ x

/-- round(x), 00 R561: nearest integer, a half away from zero. -/
def roundQ (x : Rat) : Int :=
  if x < 0 then -(floorQ (-x + 1 / 2)) else floorQ (x + 1 / 2)

/-- |x| of a rational. -/
def absQ (x : Rat) : Rat := if x < 0 then -x else x

/-- A rational held between two ends. -/
def clampQ (lo hi x : Rat) : Rat := max lo (min hi x)

/-- The natural number of an integer, 0 below zero. -/
def nat0 (x : Int) : Nat := x.toNat

/-- An integer held in the range of an unsigned `n`-bit field. -/
def fitU (n : Nat) (x : Int) : Nat := (clampI 0 ((2 ^ n : Nat) - 1 : Int) x).toNat

/-- An integer held in the range of a signed `n`-bit field, then coded. -/
def fitS (n : Nat) (x : Int) : Nat :=
  codeOf n (clampI (-((2 ^ (n - 1) : Nat) : Int)) ((2 ^ (n - 1) : Nat) - 1 : Int) x)

/-- Newton's integer square root with a fuel. -/
def isqrtLoop : Nat → Nat → Nat → Nat
  | 0, _, x => x
  | f + 1, n, x =>
    let y := (x + n / x) / 2
    if y < x then isqrtLoop f n y else x

/-- The integer part of the square root of a natural number. -/
def isqrt (n : Nat) : Nat := if n = 0 then 0 else isqrtLoop 256 n (2 ^ (n.log2 / 2 + 1))

/-- A square root of a non-negative rational, exact to 2^-64 (DESIGN CHOICE, log entry 30: the engines' number
format is not stated). -/
def sqrtQ (x : Rat) : Rat :=
  if x ≤ 0 then 0
  else ((isqrt ((floorQ (x * (2 ^ 128 : Nat))).toNat) : Nat) : Rat) / ((2 ^ 64 : Nat) : Rat)

/-- e^x for x ≤ 0 as a fixed-point series with argument halving, error below 2^-60
(DESIGN CHOICE, log entry 30: the engines' number format is not stated). -/
def expNegSeries : Nat → Rat → Rat → Rat → Nat → Rat
  | 0, _, _, acc, _ => acc
  | f + 1, x, term, acc, k =>
    let t := ((floorQ (term * x / ((k : Nat) : Rat) * ((2 ^ 96 : Nat) : Rat)) : Int) : Rat) /
      ((2 ^ 96 : Nat) : Rat)
    expNegSeries f x t (acc + t) (k + 1)

/-- Repeated squaring of a rational held to 96 fraction bits. -/
def squareTimes : Nat → Rat → Rat
  | 0, x => x
  | n + 1, x =>
    squareTimes n (((floorQ (x * x * ((2 ^ 96 : Nat) : Rat)) : Int) : Rat) / ((2 ^ 96 : Nat) : Rat))

/-- e^x. -/
def expQ (x : Rat) : Rat :=
  let e (y : Rat) : Rat := squareTimes 8 (expNegSeries 24 (y / 256) 1 1 1)
  if x < -64 then 0 else if x ≤ 0 then e x else 1 / e (-x)

/-- ln of a rational between 1/2 and 2 by the series of 2·atanh((x−1)/(x+1)). -/
def lnSeries : Nat → Rat → Rat → Rat → Nat → Rat
  | 0, _, _, acc, _ => acc
  | f + 1, z2, p, acc, k =>
    let p' := ((floorQ (p * z2 * ((2 ^ 96 : Nat) : Rat)) : Int) : Rat) / ((2 ^ 96 : Nat) : Rat)
    lnSeries f z2 p' (acc + p / ((2 * k + 1 : Nat) : Rat)) (k + 1)

/-- ln 2 to 30 decimal places. -/
def ln2 : Rat := 693147180559945309417232121458 / 1000000000000000000000000000000

/-- ln x for x in [1/2, 2]. -/
def lnNear (x : Rat) : Rat :=
  let z := (x - 1) / (x + 1)
  2 * lnSeries 40 (z * z) z 0 0

/-- Halves or doubles x into [1/2, 2], counting the doublings taken out. -/
def lnReduce : Nat → Rat → Int → Rat × Int
  | 0, x, k => (x, k)
  | f + 1, x, k =>
    if x > 2 then lnReduce f (x / 2) (k + 1)
    else if x < 1 / 2 then lnReduce f (x * 2) (k - 1) else (x, k)

/-- ln x of a positive rational. -/
def lnQ (x : Rat) : Rat :=
  let (y, k) := lnReduce 128 x 0
  lnNear y + (k : Rat) * ln2

/-- 2π to 30 decimal places. -/
def twoPi : Rat := 6283185307179586476925286766559 / 1000000000000000000000000000000

/-- Taylor sum of sine or cosine, from the first term given. -/
def trigSeries : Nat → Rat → Rat → Rat → Nat → Rat
  | 0, _, _, acc, _ => acc
  | f + 1, x2, term, acc, k =>
    let t := ((floorQ (-(term * x2) / (((k + 1) * (k + 2) : Nat) : Rat) *
      ((2 ^ 96 : Nat) : Rat)) : Int) : Rat) / ((2 ^ 96 : Nat) : Rat)
    trigSeries f x2 t (acc + t) (k + 2)

/-- sin(2π·u) of a fraction of a turn. -/
def sinTurn (u : Rat) : Rat :=
  let f := u - (floorQ u : Rat)
  let g := if f > 1 / 2 then f - 1 else f
  let x := g * twoPi
  trigSeries 20 (x * x) x x 1

/-- cos(2π·u) of a fraction of a turn. -/
def cosTurn (u : Rat) : Rat := sinTurn (u + 1 / 4)

/-- The value of an IEEE 754 binary32 pattern (00 R6); none for infinities and NaN. -/
def f32Val (w : Nat) : Option Rat :=
  let sgn : Rat := if bitAt w 31 then -1 else 1
  let e := bitsOf w 30 23
  let m := bitsOf w 22 0
  if e = 255 then none
  else if e = 0 then some (sgn * ((m : Nat) : Rat) / ((2 ^ 149 : Nat) : Rat))
  else if e ≥ 150 then some (sgn * (((2 ^ 23 + m) * 2 ^ (e - 150) : Nat) : Rat))
  else some (sgn * ((2 ^ 23 + m : Nat) : Rat) / ((2 ^ (150 - e) : Nat) : Rat))

/-- The value of a binary32 pattern that is a number, 0 otherwise. -/
def f32Rat (w : Nat) : Rat := (f32Val w).getD 0

/-- Scales a positive rational into [1, 2) and counts the exponent. -/
def f32Scale : Nat → Rat → Int → Rat × Int
  | 0, x, e => (x, e)
  | f + 1, x, e =>
    if x ≥ 2 then f32Scale f (x / 2) (e + 1)
    else if x < 1 then f32Scale f (x * 2) (e - 1) else (x, e)

/-- Nearest integer, a tie to the even one. -/
def roundEven (x : Rat) : Int :=
  let n := x.floor
  let d := x - n
  if d < 1 / 2 then n else if 1 / 2 < d then n + 1 else if n % 2 = 0 then n else n + 1

/-- The binary32 pattern nearest to a rational, a tie to the even one (normal numbers; smaller magnitudes give 0; DESIGN CHOICE, log
entry 10: the spec does not say how an exact value is rounded into an f32 field). -/
def f32Code (x : Rat) : Nat :=
  if x = 0 then 0
  else
    let sgn := if x < 0 then 2 ^ 31 else 0
    let (m, e) := f32Scale 300 (absQ x) 0
    let q := (roundEven (m * ((2 ^ 23 : Nat) : Rat))).toNat
    let (q, e) := if q ≥ 2 ^ 24 then (2 ^ 23, e + 1) else (q, e)
    if e < -126 then sgn
    else if e > 127 then sgn + 255 * 2 ^ 23
    else sgn + (e + 127).toNat * 2 ^ 23 + (q - 2 ^ 23)

/-- One bit of the reflected CRC-32C (02 R35, polynomial 0x82F6_3B78). -/
def crcBit (c : U32) : U32 :=
  if c.getLsbD 0 then (c >>> 1) ^^^ 0x82F63B78#32 else c >>> 1

/-- One byte of the reflected CRC-32C. -/
def crcByte (c : U32) (b : Byte) : U32 :=
  crcBit (crcBit (crcBit (crcBit (crcBit (crcBit (crcBit (crcBit (c ^^^ b.setWidth 32))))))))

/-- CRC-8 with polynomial 0x07, not reflected, from 0 (09 R257). -/
def crc8 (bs : List Byte) : Byte :=
  bs.foldl (fun c b => (List.range 8).foldl (fun (c : Byte) _ => if c.msb then (c <<< 1) ^^^ 7#8 else c <<< 1) (c ^^^ b)) 0

/-- CRC-32C of 02 R35: initial value and final exclusive-OR of 0xFFFF_FFFF. -/
def crc32c (bs : List Byte) : U32 := bs.foldl crcByte 0xFFFFFFFF#32 ^^^ 0xFFFFFFFF#32

/-- The value listed for a key. -/
def bankGet? {α : Type} (k : Nat) : Bank α → Option α
  | [] => none
  | (j, x) :: rest => if k = j then some x else if k < j then none else bankGet? k rest

/-- The value of a key, `d` where none is listed. -/
def bankGet {α : Type} (d : α) (k : Nat) (b : Bank α) : α := (bankGet? k b).getD d

/-- The bank with a key listed in its place. -/
def bankPut {α : Type} (k : Nat) (x : α) : Bank α → Bank α
  | [] => [(k, x)]
  | (j, y) :: rest =>
    if k = j then (k, x) :: rest
    else if k < j then (k, x) :: (j, y) :: rest
    else (j, y) :: bankPut k x rest

/-- The bank with a key not listed. -/
def bankDrop {α : Type} (k : Nat) : Bank α → Bank α
  | [] => []
  | (j, y) :: rest =>
    if k = j then rest else if k < j then (j, y) :: rest else (j, y) :: bankDrop k rest

/-- Writes a key of a bank whose unlisted keys read as `d`, keeping the canonical form. -/
def bankSet {α : Type} [DecidableEq α] (d : α) (k : Nat) (x : α) (b : Bank α) : Bank α :=
  if x = d then bankDrop k b else bankPut k x b

/-- Keys strictly rising, all above `lo`. -/
def bankRising {α : Type} : Nat → Bank α → Bool
  | _, [] => true
  | lo, (j, _) :: rest => decide (lo ≤ j) && bankRising (j + 1) rest

/-- The canonical form: keys strictly rising, no entry equal to the unlisted value. -/
def bankWf {α : Type} [DecidableEq α] (d : α) (b : Bank α) : Bool :=
  bankRising 0 b && b.all (fun e => decide (e.2 ≠ d))

/-- The numbers below `n` whose bit is set in a mask, ascending. -/
def maskList (n m : Nat) : List Nat := (List.range n).filter (bitAt m)

end Sys2Proof.Machine
end

