-- ==== Sys2Proof/Machine/Edge.lean ====
section
/-! DEFINITION. The arithmetic of edges: the edge word (03 R65, R66), dead time (R70), the predictive
current law (04 R107), diode emulation (R112, R566) and the model ripple (05 R130). Currents are in A,
voltages in V, inductances in H, times of the law in s, times of edges in edge units. -/

namespace Sys2Proof.Machine

/-- An edge word in its fields (03 Table 3-2). -/
structure EdgeWord where
  e : Nat
  fall : Bool
  noEdge : Bool
  compOff : Bool
  bothOff : Bool
  dt : Nat
  epoch : Nat
  deriving DecidableEq, Repr

/-- The 64-bit word of 03 Table 3-2; reserved bits are 0. -/
def EdgeWord.code (w : EdgeWord) : U64 :=
  BitVec.ofNat 64 (fieldAt 0 24 w.e + fieldAt 24 1 (flag w.fall) + fieldAt 25 1 (flag w.noEdge) +
    fieldAt 26 1 (flag w.compOff) + fieldAt 27 1 (flag w.bothOff) + fieldAt 32 14 w.dt +
    fieldAt 48 16 w.epoch)

/-- The fields of a word. -/
def EdgeWord.ofCode (x : U64) : EdgeWord where
  e := bitsOf x.toNat 23 0
  fall := bitAt x.toNat 24
  noEdge := bitAt x.toNat 25
  compOff := bitAt x.toNat 26
  bothOff := bitAt x.toNat 27
  dt := bitsOf x.toNat 45 32
  epoch := bitsOf x.toNat 63 48

/-- A word that keeps both outputs low. -/
def EdgeWord.off (epoch : Nat) : EdgeWord := ⟨0, false, false, false, true, 0, epoch⟩

/-- The clamp of 03 R66: E into [h_start, h_end − DT − 128]. -/
def clampEdge (hs he dt e : Nat) : Nat := max hs (min e (he - dt - 128))

/-- The transition times of a half-period's words as placed: time low and time high, edge units, from the level
before (none: both off). -/
def levelTimes (hs he : Nat) : List EdgeWord → Option Bool → Nat × Nat
  | [], some false => (he - hs, 0)
  | [], some true => (0, he - hs)
  | [], none => (0, 0)
  | w :: ws, lv =>
    if w.bothOff then (0, 0)
    else if w.noEdge then levelTimes hs he ws lv
    else
      let e := max hs (min w.e he)
      let next : Option Bool := if w.compOff then none else some (!w.fall)
      let (a, b) := levelTimes e he ws next
      match lv with
      | some false => (a + (e - hs), b)
      | some true => (a, b + (e - hs))
      | none => (a, b)

/-- The level after a half-period's words. -/
def levelAfter : List EdgeWord → Option Bool → Option Bool
  | [], lv => lv
  | w :: ws, lv =>
    if w.bothOff then none
    else if w.noEdge then levelAfter ws lv
    else levelAfter ws (if w.compOff then none else some (!w.fall))

/-- What R70 needs to know of a phase: minimum times and DT_MAX in its own units, QSW nC, ITH A. -/
structure DeadTimeCfg where
  riseMin : Nat
  fallMin : Nat
  en : Bool
  fallback : Bool
  qsw : Nat
  dtMax : Nat
  ith : Rat
  deriving DecidableEq, Repr

/-- Dead time of an edge (03 R70): the time, whether the edge is assisted, whether it was clamped. -/
def deadTime (c : DeadTimeCfg) (fall : Bool) (i : Rat) : Nat × Bool × Bool :=
  let dmin := if fall then c.fallMin else c.riseMin
  let assisted : Bool := if fall then decide (i < -c.ith) else decide (c.ith < i)
  if !c.en || c.fallback || !assisted then (dmin, assisted, false)
  else
    let need := (ceilQ (16 * (c.qsw : Rat) / absQ i)).toNat
    if need > 16 * c.dtMax then (16 * c.dtMax, true, true) else (max dmin need, true, false)

/-- Edge units in a number of seconds, rounded (00 R561). -/
def unitsOf (t : Rat) : Nat := (roundQ (16000000000 * t)).toNat

/-- Seconds in a number of edge units. -/
def secondsOf (u : Nat) : Rat := (u : Rat) / 16000000000

/-- Inputs of the law of 04 R107 for one update. -/
structure LawIn where
  vStr : Rat
  vBus : Rat
  l : Rat
  /-- Predicted current at the start of the governed half-period (or period). -/
  i : Rat
  iRef : Rat
  pk : Rat
  avg : Rat
  nT : Nat
  epoch : Nat
  dead : DeadTimeCfg
  compOff : Bool
  deriving DecidableEq, Repr

/-- Slope with PWML on, A/s. -/
def LawIn.sL (x : LawIn) : Rat := x.vStr / x.l
/-- Slope with PWMH on, A/s. -/
def LawIn.sH (x : LawIn) : Rat := (x.vStr - x.vBus) / x.l
/-- H of 03 R64. -/
def LawIn.half (x : LawIn) : Nat := x.nT / 2
/-- The reference held to ±PH_ILIM_AVG. -/
def LawIn.ir (x : LawIn) : Rat := clampQ (-x.avg) x.avg x.iRef

/-- What an engine publishes: words with their edge's dead-time result. -/
structure LawOut where
  words : List EdgeWord
  /-- Per edge: assisted, clamped, and |i|. -/
  edges : List (Bool × Bool × Rat)
  deriving DecidableEq, Repr

/-- One edge of the law: dead time at the predicted current; the network clamps E (03 R66). -/
def LawIn.edge (x : LawIn) (fall : Bool) (e : Nat) (iE : Rat) : EdgeWord × (Bool × Bool × Rat) :=
  let (dt, as, cl) := deadTime x.dead fall iE
  (⟨e, fall, false, x.compOff, false, dt, x.epoch⟩, (as, cl, absQ iE))

/-- First half-period up to 1 MHz: the rising edge. -/
def LawIn.firstHalf (x : LawIn) : LawOut :=
  let th := secondsOf x.half
  let t := clampQ 0 th ((x.ir - x.i - x.sH * th) * x.l / x.vBus)
  let t := if x.i + x.sL * t > x.pk then (x.pk - x.i) / x.sL else t
  let (w, d) := x.edge false (unitsOf t) (x.i + x.sL * t)
  ⟨[w], [d]⟩

/-- Second half-period up to 1 MHz: the falling edge. -/
def LawIn.secondHalf (x : LawIn) : LawOut :=
  let th := secondsOf (x.nT - x.half)
  let t := clampQ 0 th ((x.i + x.sL * th - x.ir) * x.l / x.vBus)
  let t := if x.i + x.sH * t < -x.pk then (x.i + x.pk) / (-x.sH) else t
  let (w, d) := x.edge true (x.half + unitsOf t) (x.i + x.sH * t)
  ⟨[w], [d]⟩

/-- Above 1 MHz: both edges of the period, centred on H. -/
def LawIn.whole (x : LawIn) : LawOut :=
  let tp := secondsOf x.nT
  let hS := secondsOf x.half
  let t := clampQ 0 tp ((x.i + x.sL * tp - x.ir) * x.l / x.vBus)
  let t := if x.i + x.sL * (hS - t / 2) > x.pk then min (2 * (hS - (x.pk - x.i) / x.sL)) tp else t
  let t := if x.i + x.sL * (hS - t / 2) + x.sH * t < -x.pk then
      max ((x.pk + x.i + x.sL * hS) / (x.sL / 2 - x.sH)) 0 else t
  let w := unitsOf t
  let e1 := x.half - w / 2
  let e2 := e1 + w
  let (w1, d1) := x.edge false e1 (x.i + x.sL * (hS - t / 2))
  let (w2, d2) := x.edge true e2 (x.i + x.sL * (hS - t / 2) + x.sH * t)
  ⟨[w1, w2], [d1, d2]⟩

/-- The on-time of diode emulation (04 R112), none where its expression has no positive real value. -/
def LawIn.dcmOn (x : LawIn) : Option Rat :=
  if x.vBus ≤ x.vStr ∨ x.vStr ≤ 0 then none
  else
    let t := secondsOf x.nT
    let a := absQ x.ir
    some (sqrtQ (if x.ir ≥ 0 then 2 * t * x.l * a * (x.vBus - x.vStr) / (x.vStr * x.vBus)
      else 2 * t * x.l * a * x.vStr / ((x.vBus - x.vStr) * x.vBus)))

/-- The three words of 04 R566, none where R112 gives the period to R107. -/
def LawIn.dcm (x : LawIn) : Option LawOut :=
  match x.dcmOn with
  | none => none
  | some tOn =>
    let dis : Bool := decide (x.ir ≥ 0)
    let tp := secondsOf x.nT
    let ccmOn := if dis then tp * (x.vBus - x.vStr) / x.vBus else tp * x.vStr / x.vBus
    if tOn > ccmOn then none
    else
      let tR := if dis then tOn * x.vStr / (x.vBus - x.vStr) else tOn * (x.vBus - x.vStr) / x.vStr
      let peak := if dis then x.sL * tOn else x.sH * tOn
      let (d1, a1, c1) := deadTime x.dead dis 0
      let (d2, a2, c2) := deadTime x.dead (!dis) peak
      let (d3, a3, c3) := deadTime x.dead dis 0
      let e2 := d1 + unitsOf tOn
      let e3 := e2 + d2 + unitsOf tR
      if e3 + 128 > x.nT then none
      else some ⟨[⟨0, dis, false, false, false, d1, x.epoch⟩, ⟨e2, !dis, false, false, false, d2, x.epoch⟩,
        ⟨e3, dis, false, true, false, d3, x.epoch⟩], [(a1, c1, 0), (a2, c2, absQ peak), (a3, c3, 0)]⟩

/-- The shadow's word of 05 R137: high-side time centred on H. -/
def shadowWord (second : Bool) (nT tHi epoch dead : Nat) : EdgeWord :=
  let h := nT / 2
  if second then ⟨h + (tHi - tHi / 2), true, false, false, false, dead, epoch⟩
  else ⟨h - tHi / 2, false, false, false, false, dead, epoch⟩

/-- The coefficients of the third-order sinc filter of length n (03, control filter). -/
def boxFilter (n : Nat) (h : List Nat) : List Nat :=
  (List.range (h.length + n - 1)).map (fun k => (((List.range n).filter (fun j => j ≤ k ∧ k - j < h.length)).map
    (fun j => h.getD (k - j) 0)).sum)

/-- The raw value of a trip filter of length m whose current is i: i = gain × (2r − m²) / m² − ofs. -/
def rawOf (m : Nat) (gain ofs i : Rat) : Rat := ((i + ofs) / gain + 1) * ((m ^ 2 : Nat) : Rat) / 2

/-- h of the trip filter (03 R74): two boxes of length M. -/
def sinc2 (m : Nat) : List Nat := boxFilter m (List.replicate m 1)

/-- S of a filter: the coefficients times the captured bits, newest first (03, Control filter). -/
def filterOf (h : List Nat) (bits : List Bool) : Nat := ((h.zip bits).map (fun e => if e.2 then e.1 else 0)).sum

/-- The raw values of a filter of length m nearest to −LEVEL and +LEVEL that, converted back, do not exceed LEVEL in
magnitude (03 R74, 08 R239). -/
def rawLevels (m : Nat) (gain ofs lvl : Rat) : Int × Int :=
  (ceilQ (rawOf m gain ofs (-lvl)), floorQ (rawOf m gain ofs lvl))

/-- h of 03 R73's filter: three boxes of length N. -/
def sinc3 (n : Nat) : List Nat := boxFilter n (boxFilter n (List.replicate n 1))

/-- Model current at a time of the (periodic) period: PWML on, then PWMH on from e1 to e2. -/
def modelCurrent (sL sH : Rat) (nT e1 e2 : Nat) (t : Rat) : Rat :=
  let u := t - (floorQ (t / nT) : Rat) * nT
  let lo := if u < e1 then u else if u < e2 then (e1 : Rat) else u - (e2 - e1 : Int)
  let hi := if u < e1 then 0 else if u < e2 then u - e1 else ((e2 - e1 : Int) : Rat)
  (sL * lo + sH * hi) / 16000000000

/-- The model current after the control filter, window centred on an edge (05 R130). -/
def filteredModel (sL sH : Rat) (nT e1 e2 n div : Nat) (centre : Nat) : Rat :=
  let h := sinc3 n
  let step : Rat := 16 * (div : Rat)
  let first : Rat := (centre : Rat) - step * ((3 * n - 3 : Nat) : Rat) / 2
  ((h.zipIdx.map (fun e => (e.1 : Rat) * modelCurrent sL sH nT e1 e2 (first + step * e.2))).sum) / ((n ^ 3 : Nat) : Rat)

end Sys2Proof.Machine
end

