-- ==== Sys2Proof/Machine/ConverterState.lean ====
section
/-! DEFINITION. The state of phase channels, converter groups and pairs (03, 04, 05). Physical
quantities are exact rationals in A, V, W and s; times of edges are in edge units of 62.5 ps. -/

namespace Sys2Proof.Machine

/-- Phase roles of 03 Table 3-5, in code order. -/
inductive Role where
  | off
  | active
  | filler
  | retired
  | shadow
  deriving DecidableEq, Repr

/-- Group modes of 04 Table 4-1. -/
inductive Mode where
  | off
  | standby
  | precharge
  | power
  | busVoltage
  | stringCurrent
  | fault
  deriving DecidableEq, Repr

/-- Light-load stages of 04 Table 4-7, in code order. -/
inductive Light where
  | ccm
  | diode
  | shed
  | burst
  deriving DecidableEq, Repr

/-- Why the epoch moved since the last commit boundary, as 03/01 R16 distinguishes it. -/
inductive Bump where
  | none
  | tripOrFaultN
  | other
  deriving DecidableEq, Repr

/-- The gate outputs from an instant of device time, in edge units, on (01 R15, 03 R65). -/
structure PinEdge where
  at_ : Nat
  h : Bool
  l : Bool
  deriving DecidableEq, Repr

/-- A wet edge (03 R65): the commit boundaries still to come up to its own (R67), and whether it is one of the words of a
whole period. -/
structure Wet where
  due : Nat
  whole : Bool
  word : U64
  deriving DecidableEq, Repr

/-- The SHADOW interval of a phase (05 R136, R137). -/
structure Shadow where
  nb1 : Fin 64
  nb2 : Fin 64
  /-- î_s, the mean of the neighbours' currents at entry. -/
  cur : Rat
  /-- Number of the running period of the interval; 0 before its first period start. -/
  k : Nat
  /-- Period SHADOW_PER has ended; the phase retires at the boundary of the next period start. -/
  ended : Bool
  deriving DecidableEq, Repr

/-- Saturating counters of 03 Table 3-15. -/
structure PhaseCounters where
  cycles : U64
  thermal : U32
  late : U32
  trips : U32
  dflt : U32
  clamps : U32
  deriving DecidableEq, Repr

/-- One phase channel (03) with its fault detectors (05). -/
structure Phase where
  role : Role
  /-- A written role waiting for the next commit boundary (03 R83). -/
  roleWrite : Option Role
  /-- PHASE_RESTOREs waiting for the next commit boundary (03 R88), oldest first. -/
  restore : List Req
  cause : BitVec 8
  /-- CAUSE has been written since the last commit boundary (03 R80). -/
  causeFresh : Bool
  /-- Retirement at the next commit boundary, with its cause; 0 none. -/
  retire : BitVec 8
  /-- SHADOW entry (or retirement when not switching) at the next commit boundary; 0 none. -/
  senseFail : BitVec 8
  /-- Outputs held low until the next phase period start (03 R76). -/
  heldLow : Bool
  /-- Level of DFLTnn at the ball. -/
  dfltPin : Bool
  /-- DFLTnn asserted, at the polarity and enable that the channel holds (03 Table 3-13). -/
  dfltLevel : Bool
  /-- An assertion inside a blanking interval, which acts at its end (03 R79). -/
  dfltWait : Bool
  /-- Raw thresholds of the trip comparator, for the negative and the positive sign (03 R74). -/
  tripLo : Int
  tripHi : Int
  sdStuck : Bool
  sdClkLost : Bool
  dtFallback : Bool
  wearCycSat : Bool
  wearThcSat : Bool
  wearWarn : Bool
  /-- Ages, in periods, of the trips of the last 64 periods. -/
  tripAges : List Nat
  counters : PhaseCounters
  /-- Wet edges published and not yet due. -/
  wet : List Wet
  /-- Newest word published since the last pair frame left (05 R150). -/
  linkWord : Option U64
  /-- Set edges in force; none before the first commit since switching began (01 R16). -/
  set : Option (List U64)
  /-- Latest set edges of a first half-period (or a whole period) and of a second one. -/
  setA : Option (List U64)
  setB : Option (List U64)
  /-- The running period has the words of a whole period. -/
  wholeRun : Bool
  /-- Which switch is commanded on at the start of the running half-period and at its end (true: PWMH), dead times
  left out, as the law counts (04 R107). -/
  lvStart : Option Bool
  lvEnd : Option Bool
  /-- PWMHnn and PWMLnn before the first entry of `line`. -/
  pwmH : Bool
  pwmL : Bool
  /-- The transitions placed on PWMHnn and PWMLnn (01 R15, 03 R65), ascending in device time. -/
  line : List PinEdge
  /-- Count of clamped periods (03 R70). -/
  clampRun : Nat
  /-- Assisted edge seen in this period, and whether all of them were clamped above 10 %. -/
  clampSeen : Option Bool
  phi : Nat
  /-- Start of the running phase period, edge units of device time (03 R63). -/
  perStart : Nat
  depth : Nat
  dtRise : U16
  dtFall : U16
  duty : U16
  /-- Latest control sample, A (03 R73). -/
  sample : Rat
  /-- Control sample at the start of the present period, A. -/
  sampleAtStart : Rat
  /-- The samples of the latest periods with their update instants in edge units, newest first (05 R130). -/
  recent : List (Nat × Rat)
  /-- Residual offset of the latest sample, edge units. -/
  residual : Int
  /-- Sum and number of samples in the telemetry window. -/
  winSum : Rat
  winCount : Nat
  meanCur : Rat
  peakCur : Rat
  lateInWindow : U32
  openFails : Nat
  attrRun : Nat
  zeroRun : Nat
  shadow : Option Shadow
  /-- Regrout base and reference, A (05 R139). -/
  base : Rat
  iRef : Rat
  overTemp : Bool
  /-- The 1 s mean has been below 10 % since the last thermal cycle (03 Table 3-15). -/
  cool : Bool
  /-- PHASE_REPLACED has completed since WEAR_LIMIT (03 R88). -/
  replaced : Bool
  /-- Periods left of an injected stuck bitstream (03 R90 kind 3). -/
  injStuck : Nat
  /-- Periods left of an injected open-leg mismatch (03 R90 kind 4). -/
  injOpen : Nat
  /-- Period starts since the phase began to switch. -/
  started : Nat
  /-- First period, counted as `started` counts, whose words carry no COMP_OFF (04 R115, 05 R142); none before the first
  update. -/
  compUntil : Option Nat
  /-- An ACTIVE phase that shedding keeps from switching: it receives BOTH_OFF words (04 R113). -/
  shed : Bool
  /-- The thermal-cycle counter has reached the wear limit (05 R133). -/
  wearDue : Bool
  /-- The phase switches (an ACTIVE phase not shed and not stopped). -/
  switching : Bool
  /-- A written OFF is in work: the phase has left closed-loop control and stops at its next current
  zero crossing (03 Table 3-6). -/
  stopping : Bool
  /-- High-side and low-side times between the switching events E of the running period and of the most recently completed
  one, edge units (04 R107, 05 R128, R137). -/
  hiNow : Nat
  loNow : Nat
  hiLast : Nat
  loLast : Nat
  /-- abs(i) over the running second: sum, samples, start (03 Table 3-15). -/
  absSum : Rat
  absCount : Nat
  absSince : Nanos
  deriving DecidableEq, Repr

/-- One row of the arbitration (04 Table 4-10); `none` is an unbounded edge. -/
structure LimitRow where
  code : Nat
  level : Nat
  applies : Bool
  binding : Bool
  lo : Option Rat
  hi : Option Rat
  deriving DecidableEq, Repr

/-- One entry of GROUP_SETPOINT (04 Table 4-12). -/
structure SetpointEntry where
  group : Fin 8
  /-- Requested mode; none keeps G_MODE. -/
  mode : Option Mode
  setpoint : Int
  slew : Nat
  deriving DecidableEq, Repr

/-- A scheduled GROUP_SETPOINT (04 R123). -/
structure Scheduled where
  req : Req
  at_ : Nat
  entries : List SetpointEntry
  deriving DecidableEq, Repr

/-- Means of the last complete telemetry window (04 R126). -/
structure GroupMeans where
  vStr : Rat
  vBus : Rat
  iGrp : Rat
  p : Rat
  deriving DecidableEq, Repr

/-- A PARAM_SET that holds a G_MODE item and waits for its commit boundary (04 R95). -/
structure WaitingSet where
  req : Req
  items : List (Nat × U64)
  deriving DecidableEq, Repr

/-- Synchronisation of a group (04 R117). -/
structure SyncState where
  /-- After a loss of lock the group's own timer: the instant of its last period start at the nominal length, and the
  periods since (04 R117). -/
  timer : Option (Nat × Nat)
  lastEdge : Option Nat
  good : Nat
  bad : Nat
  /-- The lock rule of 8 intervals has been met and not lost. -/
  tracking : Bool
  locked : Bool
  /-- Last interval between edges of the source, edge units. -/
  interval : Nat
  /-- Lock has been lost: the period glides to nominal. -/
  gliding : Bool
  /-- Period start against the sync source, edge units. -/
  err : Int
  deriving DecidableEq, Repr

/-- Pairing of a group (05 R154 to R166). -/
structure PairGroup where
  paired : Bool
  leader : Bool
  lost : Bool
  partnerId : U64
  partnerGroup : Fin 8
  /-- CONTROL section of the partner's last good frame, 64 bytes (05 Table 5-6). -/
  control : List Byte
  /-- Own PAIR_ENABLE waiting for the partner's (05 R154), with its start instant. -/
  enable : Option (Req × Nanos)
  /-- The partner's PAIR_ENABLE as its handshake reports it. -/
  peer : Option PeerEnable
  /-- PAIRED of the partner's last good frame. -/
  partnerPaired : Bool
  disable : Option Req
  handover : Option Req
  /-- SEQ of the first frame after the PAIR_HANDOVER that waits, and whether the partner's echo shows it received (05 R161). -/
  handoverSeq : Byte
  handoverHeard : Bool
  /-- The partner's handshake has announced a handover (at the follower). -/
  handoverAsked : Bool
  /-- Next pair period start in local device time, edge units (05 R156, at the follower). -/
  nextPs : Option Nat
  /-- Arbitration share assigned by the leader, A (at the follower). -/
  share : Rat
  /-- Frames and losses counted for this group (05 Table 5-10). -/
  losses : U32
  /-- The pairing has ended; the half starts to run alone at its next outer-loop sample (05 R164). -/
  split : Bool
  deriving DecidableEq, Repr

/-- Why the control lease was last lost, the cause of the group event of 02 R33. -/
inductive LeaseLoss where
  | none
  | lapse
  | release
  | reset
  | detach
  deriving DecidableEq, Repr

/-- One group and its screed engine (04). -/
structure Group where
  mode : Mode
  cause : BitVec 8
  light : Light
  ready : Bool
  notReady : Nat
  limit : Nat
  charging : Bool
  epoch : U16
  bump : Bump
  /-- PARAM_SETs with a G_MODE item waiting for this group's commit boundary. -/
  waiting : List WaitingSet
  /-- Mode a ramp-down leads to (04 R96). -/
  rampDown : Option Mode
  /-- PRECHARGE ends at the next commit boundary: the contactor has closed (07 Table 7-19). -/
  endPre : Bool
  /-- Instant at which the reference last moved. -/
  refMoved : Nanos
  refAtTarget : Bool
  /-- Since when abs(i_cmd) has been below the thresholds of DIODE_EMULATION, SHED, BURST with the ramp
  at rest (04 R111). -/
  deSince : Option Nanos
  shedSince : Option Nanos
  burstSince : Option Nanos
  /-- The ramp state moved at the last outer-loop sample. -/
  moved : Bool
  entrySign : Int
  ref : Rat
  integ : Rat
  /-- Current command of this half, A; without a pair the group's. -/
  iCmd : Rat
  /-- Command of the whole pair, at the leader (05 R157). -/
  iPair : Rat
  /-- i_cmd with the perturbation of 11 R322, and that perturbation filtered. -/
  iTot : Rat
  pertF : Rat
  iLo : Rat
  iHi : Rat
  rows : List LimitRow
  vStr : Rat
  vBus : Rat
  iStr : Rat
  iGrp : Rat
  /-- Sums over the running packet cycle of BURST (04 R114); `p` holds I_str. -/
  cycSum : GroupMeans
  cycN : Nat
  /-- A packet cycle has ended since the last outer-loop sample. -/
  cycEnd : Bool
  kCount : Nat
  regrout : Nat
  nOn : Nat
  burstPos : Nat
  burstGap : Nat
  winSums : GroupMeans
  winCount : Nat
  means : GroupMeans
  window : U32
  winStart : Nanos
  peakI : Vector Rat 16
  peakP : Vector Rat 16
  /-- The second half-period is running. -/
  half : Bool
  /-- Number of the present period, and its start in edge units of device time. -/
  period : Nat
  periodStart : Nat
  periodLen : Nat
  /-- 48-bit remainder accumulator of 03 R63. -/
  acc : Nat
  sync : SyncState
  /-- SYNC_OUT as this group drives it. -/
  syncOut : Bool
  faultAck : Option Req
  /-- Consecutive limit-set breaches: I_grp, V_str, V_link (04 R127). -/
  breachI : Nat
  breachV : Nat
  breachB : Nat
  /-- Sum-residual run with no phase attributed and its sum (05 R130). -/
  sumRun : Nat
  sumAcc : Rat
  sumWritten : Bool
  /-- Fold-back and loop tables in force (04 R105, R116): their bodies. -/
  fold : Option (List Byte)
  loop : Option (List Byte)
  /-- Thermal derate table in force (14 R393). -/
  derate : Option (List Byte)
  /-- GROUP_SETPOINTs at once that wait for this group's next outer-loop sample (04 R123). -/
  setpoints : List Scheduled
  /-- PRECHARGE: its start, and since when the match of 07 R211 has held. -/
  preSince : Nanos
  matchSince : Option Nanos
  /-- Commit boundaries since the last edge capture record (16 Table 16-13). -/
  captureSkip : Nat
  /-- The captures that the group feeds have closed in a ramp-down (04 R96). -/
  captureClosed : Bool
  /-- Cause of the latest group event of a lost lease (02 R33). -/
  leaseLoss : LeaseLoss
  /-- The pair's current that the leader predicts for its next outer-loop sample, A (05 R147). -/
  pairNext : Rat
  pair : PairGroup
  deriving DecidableEq, Repr

/-- A request outstanding on the pair link's VC0 (05 R152, R153). -/
structure PairRequest where
  tag : Byte
  slot : List Byte
  age : Nat
  deriving DecidableEq, Repr

/-- The pair link (05 R149 to R153). -/
structure PairLink where
  linkUp : Bool
  goodRun : Nat
  missRun : Nat
  good : U32
  missing : U32
  /-- This half has declared PAIR_LOST; a frame with LOST_RX has arrived. -/
  lostRx : Bool
  lostSeen : Bool
  txSeq : Byte
  lastGood : Byte
  /-- One-way latencies of the last 64 good frames that have one, newest first, edge units (05 R151). -/
  delays : List Rat
  /-- Number of the next frame since the release of the D-die reset (05 R149). -/
  frame : Nat
  /-- Local SOF_TIME of the frames sent, by SEQ, newest first, at most 64. -/
  sofTimes : List (Byte × Nat)
  lastGoodAt : Nanos
  credit0 : Nat
  credit1 : Nat
  return0 : Nat
  return1 : Nat
  outstanding : List PairRequest
  /-- Requests the firmware has ready for VC0, and responses ready for VC1. -/
  queue0 : List (List Byte)
  queue1 : List (List Byte)
  /-- Frames sent, newest first, at most one kept. -/
  lastSent : Option (List Byte)
  /-- VERSION of the last good frame: the partner's PAIR_VER (05 Table 5-5, 19 R514). -/
  partnerVer : Option Byte
  /-- The partner's wet edges kept for prediction: phase to edge word (05 R147). -/
  partnerEdges : Bank U64
  /-- PAIR_ROLE strap (21 R539). -/
  roleStrap : Bool
  deriving DecidableEq, Repr

/-- A phase bank of octet k (21 R536). -/
structure PhaseBank where
  /-- True at the 3.3 V level. -/
  high : Bool
  /-- The supply is valid; otherwise the outputs of the octet are at high impedance (03 R60). -/
  inWindow : Bool
  deriving DecidableEq, Repr

/-- Everything of chapters 03 to 05. -/
structure ConverterState where
  phases : Vector Phase 64
  groups : Vector Group 8
  schedule : List Scheduled
  link : PairLink
  banks : Vector PhaseBank 8
  /-- The limit set in force in the screed engines and the Plumb core (04 R127): its body. -/
  limitSet : Option (List Byte)
  syncIn : Bool
  deriving DecidableEq, Repr

/-- A phase channel at reset: OFF, outputs low, counters 0. -/
def Phase.initial : Phase where
  role := .off
  roleWrite := none
  restore := []
  cause := 0
  causeFresh := false
  retire := 0
  senseFail := 0
  heldLow := false
  dfltPin := true
  dfltLevel := false
  dfltWait := false
  tripLo := 7
  tripHi := 57
  sdStuck := false
  sdClkLost := false
  dtFallback := false
  wearCycSat := false
  wearThcSat := false
  wearWarn := false
  tripAges := []
  counters := { cycles := 0, thermal := 0, late := 0, trips := 0, dflt := 0, clamps := 0 }
  wet := []
  linkWord := none
  set := none
  setA := none
  setB := none
  wholeRun := false
  lvStart := none
  lvEnd := none
  pwmH := false
  pwmL := false
  line := []
  clampRun := 0
  clampSeen := none
  phi := 0
  perStart := 0
  depth := 0
  dtRise := 0
  dtFall := 0
  duty := 0
  sample := 0
  sampleAtStart := 0
  recent := []
  residual := 0
  winSum := 0
  winCount := 0
  meanCur := 0
  peakCur := 0
  lateInWindow := 0
  openFails := 0
  attrRun := 0
  zeroRun := 0
  shadow := none
  base := 0
  iRef := 0
  overTemp := false
  cool := true
  replaced := false
  injStuck := 0
  injOpen := 0
  started := 0
  compUntil := none
  shed := false
  wearDue := false
  switching := false
  stopping := false
  hiNow := 0
  loNow := 0
  hiLast := 0
  loLast := 0
  absSum := 0
  absCount := 0
  absSince := 0

/-- No pairing. -/
def PairGroup.initial : PairGroup where
  paired := false
  leader := false
  lost := false
  partnerId := 0
  partnerGroup := 0
  control := []
  enable := none
  peer := none
  partnerPaired := false
  disable := none
  handover := none
  handoverSeq := 0
  handoverHeard := false
  handoverAsked := false
  nextPs := none
  share := 0
  losses := 0
  split := false

/-- A group at reset: OFF, epoch 0. -/
def Group.initial : Group where
  mode := .off
  cause := 0
  light := .ccm
  ready := false
  notReady := 0
  limit := 0
  charging := false
  epoch := 0
  bump := .none
  waiting := []
  rampDown := none
  endPre := false
  refMoved := 0
  refAtTarget := true
  deSince := none
  shedSince := none
  burstSince := none
  moved := false
  entrySign := 0
  ref := 0
  integ := 0
  iCmd := 0
  iPair := 0
  iTot := 0
  pertF := 0
  iLo := 0
  iHi := 0
  rows := []
  vStr := 0
  vBus := 0
  iStr := 0
  iGrp := 0
  cycSum := { vStr := 0, vBus := 0, iGrp := 0, p := 0 }
  cycN := 0
  cycEnd := false
  kCount := 0
  regrout := 8
  nOn := 0
  burstPos := 0
  burstGap := 0
  winSums := { vStr := 0, vBus := 0, iGrp := 0, p := 0 }
  winCount := 0
  means := { vStr := 0, vBus := 0, iGrp := 0, p := 0 }
  window := 0
  winStart := 0
  peakI := Vector.replicate 16 0
  peakP := Vector.replicate 16 0
  half := false
  period := 0
  periodStart := 0
  periodLen := 160000
  acc := 0
  sync := { timer := none, lastEdge := none, good := 0, bad := 0, tracking := false, locked := false, interval := 0, gliding := false, err := 0 }
  syncOut := false
  faultAck := none
  breachI := 0
  breachV := 0
  breachB := 0
  sumRun := 0
  sumAcc := 0
  sumWritten := false
  fold := none
  loop := none
  derate := none
  setpoints := []
  preSince := 0
  matchSince := none
  captureSkip := 0
  captureClosed := false
  leaseLoss := .none
  pairNext := 0
  pair := PairGroup.initial

/-- The pair link at reset: down, 16 credits per channel. -/
def PairLink.initial : PairLink where
  linkUp := false
  goodRun := 0
  missRun := 0
  good := 0
  missing := 0
  lostRx := false
  lostSeen := false
  txSeq := 0
  lastGood := 0
  delays := []
  frame := 0
  sofTimes := []
  lastGoodAt := 0
  credit0 := 16
  credit1 := 16
  return0 := 0
  return1 := 0
  outstanding := []
  queue0 := []
  queue1 := []
  lastSent := none
  partnerVer := none
  partnerEdges := []
  roleStrap := false

/-- Phases, groups and link at reset. -/
def ConverterState.initial : ConverterState where
  phases := Vector.replicate 64 Phase.initial
  groups := Vector.replicate 8 Group.initial
  schedule := []
  link := PairLink.initial
  banks := Vector.replicate 8 { high := false, inWindow := false }
  limitSet := none
  syncIn := false

end Sys2Proof.Machine
end

