-- ==== Sys2Proof/Machine/Gates.lean ====
section
/-! DEFINITION. The gate outputs in device time (01 R15; 03 R61, R64 to R66, R79): the edge-timer network places the
transitions of committed words, the interlock delays a rising edge, and a pulse too short is not produced. All times are
edge units of device time. -/

namespace Sys2Proof.Machine

/-- PWMHnn and PWMLnn at an instant. -/
def Phase.pinsAt (x : Phase) (t : Nat) : Bool × Bool :=
  ((x.line.filter (fun e => e.at_ ≤ t)).getLast?.map (fun e => (e.h, e.l))).getD (x.pwmH, x.pwmL)

/-- The outputs after the last transition placed. -/
def Phase.pinsEnd (x : Phase) : Bool × Bool := (x.line.getLast?.map (fun e => (e.h, e.l))).getD (x.pwmH, x.pwmL)

/-- Places the outputs' levels from an instant on; what was placed later is withdrawn. At most one output is high: PWMH
wins (03 R61). -/
def Phase.place (t : Nat) (h l : Bool) (x : Phase) : Phase :=
  { x with line := x.line.filter (fun e => e.at_ < t) ++ [⟨t, h, l && !h⟩] }

/-- Both outputs low from an instant on. -/
def Phase.low (t : Nat) (x : Phase) : Phase :=
  if x.pinsAt t == (false, false) && x.line.all (fun e => e.at_ ≤ t) then x else x.place t false false

/-- The last instant at which an output fell, PWMH or PWML; none where the line shows no fall of it. -/
def lastFall (high : Bool) : Bool → List PinEdge → Option Nat
  | _, [] => none
  | was, e :: es =>
    let is := if high then e.h else e.l
    match lastFall high is es with
    | some t => some t
    | none => if was && !is then some e.at_ else none

/-- The rising edges of either output on a line. -/
def rises : Bool → Bool → List PinEdge → List Nat
  | _, _, [] => []
  | h, l, e :: es => (if (e.h && !h) || (e.l && !l) then [e.at_] else []) ++ rises e.h e.l es

/-- Time for which PWMH is high between two instants, from the level before. -/
def highTime (a b : Nat) : Bool → Nat → List PinEdge → Nat
  | h, last, [] => if h then min b (max a b) - max a (min b last) else 0
  | h, last, e :: es =>
    (if h then min b (max a e.at_) - max a (min b last) else 0) + highTime a b e.h e.at_ es

/-- A pulse of PWMH (`h`) or PWML (`l`) that would be shorter than 128 units when its output is to fall at `t` is withdrawn,
if it has not begun (03 R66). -/
def Phase.dropShort (now t : Nat) (h l : Bool) (x : Phase) : Phase :=
  match x.line.getLast? with
  | some e =>
    if ((h && e.h) || (l && e.l)) && now ≤ e.at_ && t < e.at_ + 128 then { x with line := x.line.dropLast } else x
  | none => x

/-- One edge word acts on the outputs (03 R65): the output of the other side falls at E, its own rises at E + DT, later where the
interlock delays it, which counts (R61). `base` is the start of the phase period. -/
def Phase.actWord (now base riseMin fallMin : Nat) (w : EdgeWord) (x : Phase) : Phase :=
  let e := base + w.e
  let x := x.dropShort now e w.fall (!w.fall)
  let (h, l) := x.pinsEnd
  let own := if w.fall then l else h
  let other := if w.fall then h else l
  if own then x
  else
    let x := if other then x.place e false false else x
    if w.compOff then x
    else
      let least := if w.fall then fallMin else riseMin
      let wish := e + w.dt
      let at_ := match lastFall w.fall (if w.fall then x.pwmH else x.pwmL) x.line with
        | some t => max wish (t + least)
        | none => wish
      let y := x.place at_ (!w.fall) w.fall
      if wish < at_ then { y with counters := { y.counters with clamps := satInc y.counters.clamps } } else y

/-- Where the network clamps a word (03 R66, 04 R566): its half-period, or the whole period for the three words of diode
emulation. -/
def wordSpan (nT : Nat) (whole half : Bool) (n : Nat) (fall : Bool) : Nat × Nat :=
  if whole then (if 3 ≤ n then (0, nT) else if fall then (nT / 2, nT) else (0, nT / 2))
  else if half then (nT / 2, nT) else (0, nT / 2)

/-- The words as the network places them: E clamped. -/
def placed (nT : Nat) (whole half : Bool) (ws : List EdgeWord) : List EdgeWord :=
  ws.map (fun w =>
    let s := wordSpan nT whole half ws.length w.fall
    { w with e := clampEdge s.1 s.2 w.dt w.e })

/-- The words of a half-period (or period) act in their order; BOTH_OFF keeps both outputs low from its start (03 Table 3-2). -/
def Phase.actWords (now base hs riseMin fallMin : Nat) : List EdgeWord → Phase → Phase
  | [], x => x
  | w :: ws, x =>
    if w.bothOff then (x.dropShort now (base + hs) true true).low (base + hs)
    else if w.noEdge then x.actWords now base hs riseMin fallMin ws
    else (x.actWord now base riseMin fallMin w).actWords now base hs riseMin fallMin ws

/-- Transitions older than an instant are no longer kept apart. -/
def Phase.prune (t : Nat) (x : Phase) : Phase :=
  let p := x.pinsAt t
  { x with pwmH := p.1, pwmL := p.2 && !p.1, line := x.line.filter (fun e => t < e.at_) }

/-- The end of the blanking that runs at an instant, if any: `b` units after each rising edge of an output (03 R79). -/
def Phase.blankEnd (b t : Nat) (x : Phase) : Option Nat :=
  let r := (rises x.pwmH x.pwmL x.line).foldl (fun (e : Nat) (r : Nat) => if r ≤ e then max e (r + b) else e) t
  if t < r then some r else none

/-- Blanking runs at an instant. -/
def Phase.blanked (b t : Nat) (x : Phase) : Bool :=
  (rises x.pwmH x.pwmL x.line).any (fun r => decide (r ≤ t) && decide (t < r + b))

end Sys2Proof.Machine
end

