-- ==== Sys2Proof/Config.lean ====
section
/-! DEFINITION. What the spec leaves to the part or leaves open: fused values and free values.
None has a body, so nothing can be proved of the value itself. -/

namespace Sys2Proof.Config

/-- Fuse DEV_ID (19 R507), fixed per part. -/
opaque devId : BitVec 64
/-- Fuse MFG (19 R507): 128 bits written at manufacture. -/
opaque mfg : BitVec 128
/-- Fuse ROOT_HASH (19 R507). -/
opaque rootHash : BitVec 384
/-- Fuse SVID (18, 19 R507). -/
opaque svid : BitVec 16
/-- Fuse MAC_BASE (17, 19 R507). -/
opaque macBase : BitVec 48
/-- Build number of the Burpol image that runs after reset: "may be any value" (20 Table 20-1). -/
opaque fwBuild : BitVec 16
/-- Engine set and level the factory images carry (not stated). -/
opaque factoryImage : BitVec 32

/-- Draws of the device's random source (02 R38, 19 R518), by number of the draw. -/
opaque freeRandom : Nat → BitVec 256
/-- Bytes whose value the spec leaves undefined (16 R436), by number of the draw and place. -/
opaque freeByte : Nat → Nat → BitVec 8
/-- HKDF over SHA-384 (19 R516 names it, RFC 5869 defines it): byte n of the 32 bytes derived from an input key, a salt and
an info string. -/
opaque hkdfByte : List (BitVec 8) → List (BitVec 8) → List (BitVec 8) → Nat → BitVec 8
/-- AES-256-GCM (02 R35 names it): byte n of the key stream of a key and a nonce. -/
opaque gcmPad : List (BitVec 8) → List (BitVec 8) → Nat → BitVec 8
/-- Byte n of the 16 of the GCM tag of a key, a nonce, associated data and ciphertext. -/
opaque gcmTagByte : List (BitVec 8) → List (BitVec 8) → List (BitVec 8) → List (BitVec 8) → Nat → BitVec 8
/-- Ciphertext that a core or a DMA channel finds in the ring pool (16 R451, R452): the key is
never visible, so the bytes are open. -/
opaque cipherByte : Nat → Nat → BitVec 8
/-- A byte of MRAM whose content the spec does not lay out (calibration, shipped images, sector headers, fill of a
record's last line), by window offset and generation of its sector. -/
opaque mediaByte : Nat → Nat → BitVec 8
/-- A line of a slot section that holds a shipped image is written, by window offset / 64. -/
opaque mediaWritten : Nat → Bool
/-- A byte of the Boot ROM, by its address: the spec does not give its content (16 Table 16-1). -/
opaque romByte : Nat → BitVec 8
/-- Low half of the CRC of the sequencer store, by its content: the spec does not lay the store out (12 Table 12-14). -/
opaque storeCrc : List (BitVec 8) → BitVec 16
/-- Words of engine memories and of Burpol's own memory that the spec does not lay out. -/
opaque freeWord : Nat → BitVec 32

/-- Temperature in 0.1 °C of an NTC channel for a corrected code to which 08 R223 gives no value (the resistance is
not a positive number), by corrected code and the three scale words. -/
opaque openNtc : Int → Nat → Nat → Nat → Int

/-- A quotient whose divisor is 0, by its dividend (10 R303, R307: the spec states no value). -/
opaque openRatio : Rat → Rat
/-- Open-circuit voltage, V, and slope, V per unit of z, of an OCV surface at a z outside 0 to 1 (10 R297 states
none), by z, temperature and h. -/
opaque openOcv : Rat → Rat → Rat → Rat
/-- The slope of the same. -/
opaque openSlope : Rat → Rat → Rat → Rat
/-- z to which a voltage inverts that the curve does not take, or takes on a whole segment (10 R300, R301 state
none), by voltage, temperature and h. -/
opaque openInverse : Rat → Rat → Rat → Rat

/-- The pair's current, A, that a leader predicts for its next outer-loop sample (05 R147: how is not stated), by its own current,
the partner's, the partner's wet edges, V_str and V_bus. -/
opaque pairPrediction : Rat → Rat → List (Nat × BitVec 64) → Rat → Rat → Rat

/-- The voltage of a comparator's pin in µV, before any command has reported it (log entry 31). -/
opaque cmpInput : Nat → Nat → Nat

/-- What a learned record does not hold of a restored cell, its covariance and polarisation voltage (10 R300, R311
state none), by number of the draw and place. -/
opaque restored : Nat → Nat → Rat

end Sys2Proof.Config
end

