-- ==== Sys2Proof/Machine/HostState.lean ====
section
/-! DEFINITION. The state of owners, sessions, the control lease, the command record, responses,
parameters and tables (02, 20). -/

namespace Sys2Proof.Machine

/-- OWN_STATE of 02 Table 2-2. -/
inductive OwnState where
  | unprovisioned
  | provisioned
  | attached
  | resetting
  deriving DecidableEq, Repr

/-- What a command answers. -/
structure Reply where
  status : Nat
  limit : Nat
  detail : Nat
  payload : List Byte
  deriving DecidableEq, Repr

/-- The common table header of 02 Table 2-12. -/
structure TableHeader where
  type : Byte
  index : Byte
  version : U16
  length : U32
  crc : U32
  flags : U32
  deriving DecidableEq, Repr

/-- An owner's staging buffer (02 R55): the header, the body bytes written, and the version of the
table that was active at TABLE_OPEN (none when it was absent). -/
structure Staging where
  header : TableHeader
  body : List Byte
  /-- One flag per body byte written. -/
  written : List Bool
  /-- A byte has been written beyond the body length. -/
  tooLong : Bool
  /-- Stamp of the active TT:II when it was opened, 0 when it was absent (check 3 of 02 R56). -/
  seenCommit : Nat
  /-- A TABLE_COMMIT of it is in flight. -/
  held : Bool
  deriving DecidableEq, Repr

/-- One owner instance (02 Table 2-2, R37, R38, 19 R517). -/
structure Owner where
  priv : BitVec 8
  qdepth : U16
  transports : BitVec 8
  ringQuota : U32
  epoch : U32
  state : OwnState
  /-- Session number of R38. -/
  session : U32
  /-- h of R37. -/
  high : U32
  /-- The replay window: bit i records whether h − i has been accepted. -/
  window : BitVec 1024
  /-- End of the owner reset that runs (02 R46). -/
  resetEnd : Option Nanos
  /-- SMU session key of the last session opened, and its session number (02 R35, 19 Table 19-6). -/
  key : List Byte
  keyNo : U32
  /-- Transport of the last OWNER_ATTACH, while attached. -/
  attachVia : Option Via
  /-- Sequence number of the last OWNER_ATTACH, kept in the security store (19 R516). -/
  lastAttach : Option U32
  staging : Option Staging
  /-- The owner secret has been set (19 R517). -/
  secretSet : Bool
  /-- The 32-byte owner secret S_o, as provisioned. -/
  secret : List Byte
  /-- The epoch salt of 19 R518, drawn from the device's random source. -/
  epochSalt : BitVec 256
  /-- Streams created by this owner (17 R470). -/
  streamCreations : U32
  /-- Notices sent in this session (17 Table 17-6). -/
  notices : U32
  deriving DecidableEq, Repr

/-- One command in flight in the command record of 02 R40. -/
structure Cmd where
  req : Req
  opcode : U16
  /-- Instant of its acceptance. -/
  at_ : Nanos
  /-- Its real outcome, once its point of effect has been marked. -/
  outcome : Option Reply
  deriving DecidableEq, Repr

/-- A response or notice frame the device has formed (02 Table 2-4). -/
structure Response where
  owner : Fin 16
  via : Via
  /-- Header bytes 0 to 3 as received, where a check before the execution answers (02 Table 2-4). -/
  raw : Option U32
  tag : BitVec 12
  /-- Sequence number of the request, or the session's notice count; it enters the nonce of 17 Table 17-6. -/
  seq : U32
  notifyQueued : Bool
  noReply : Bool
  opcode : U16
  status : BitVec 8
  limit : BitVec 8
  detail : U16
  payload : List Byte
  /-- The integrity field is a CRC even on authenticated SMU (a BAD_AUTH response, 02 R36). -/
  crcOnly : Bool
  /-- A RING_NOTICE, flag bit [14] (17 R469). -/
  notice : Bool
  /-- The bytes that leave on the transport. -/
  wire : List Byte
  deriving DecidableEq, Repr

/-- The control lease (02 R30 to R32). -/
structure Lease where
  holder : Option (Fin 16)
  /-- Monotonic instant of the holder's last acquire or renew. -/
  since : Nanos
  /-- DEV_CNT_LEASE. -/
  count : U32
  deriving DecidableEq, Repr

/-- A table TT:II, stored or arriving (02 R54, R56 to R58). -/
structure Table where
  header : TableHeader
  body : List Byte
  /-- The record in MRAM is complete. -/
  inMram : Bool
  /-- A LOCKED table's seal held at the last load (R57). -/
  sealOk : Bool
  /-- Consumers that have still to take an arriving table (R58): bits 0 to 7 groups, 8 to 11 string ports, 12 and 13 feeds,
  14 sequencer store, 15 measurement, 16 float engines, 17 node map, 18 MRAM. -/
  left : Nat
  /-- TABLE_COMMIT of an arriving table, which completes when no consumer is left. -/
  waiter : Option Req
  /-- Stamp of the commit that made it active, so that check 3 of R56 sees a change. -/
  commits : Nat
  deriving DecidableEq, Repr

/-- Parameters, their image, and the identity counters of 20 Table 20-1. -/
structure ParamState where
  /-- Values that differ from their default, by ID (02 R48, R53). -/
  values : Bank U64
  /-- PARAM_SAVE commands whose image waits for the NVM controller. -/
  saveWaits : List Req
  /-- Values the engines hold: picked up at commit boundaries (02 R52, 03 R69). -/
  engine : Bank U64
  dirty : Bool
  cntSave : U32
  cntSet : U32
  deriving DecidableEq, Repr

/-- The state behind the mailboxes. -/
structure HostState where
  owners : Vector Owner 16
  lease : Lease
  record : List Cmd
  /-- MB_POE_CNT: points of effect marked; wraps. -/
  poeCnt : U32
  /-- RECORD_PENDING of 20 R527. -/
  recordPending : Bool
  /-- Frames sent on SMU and the service UART, oldest first. -/
  sent : List Response
  /-- Acceptance is closed by entry into a low-power mode (06 R186, R187). -/
  closed : Bool
  params : ParamState
  tables : Bank Table
  /-- Committed tables that some consumer has still to take, by key: the table in force until then is the one of `tables`
  (02 R39, R58). -/
  arriving : Bank Table
  /-- Tables committed whose MRAM record waits for the NVM controller (02 R56), by key. -/
  committing : List (Nat × Table)
  /-- Stamp of the last commit that made a table active. -/
  tableCount : Nat
  deriving DecidableEq, Repr

/-- The owner parameters' defaults of 02 Table 2-2; no session is open. -/
def Owner.initial (o : Fin 16) : Owner where
  priv := if o = 0 then 0x1F else 0
  qdepth := 256
  transports := if o = 0 then 0x0D else 0x01
  ringQuota := if o = 0 then 262144 else 0
  epoch := 0
  state := if o = 0 then .provisioned else .unprovisioned
  session := 0
  high := 0
  window := 0
  resetEnd := none
  key := []
  keyNo := 0
  attachVia := none
  lastAttach := none
  staging := none
  secretSet := false
  secret := []
  epochSalt := 0
  streamCreations := 0
  notices := 0

/-- Owners, record and parameters at reset. -/
def HostState.initial : HostState where
  owners := Vector.ofFn Owner.initial
  lease := { holder := none, since := 0, count := 0 }
  record := []
  poeCnt := 0
  recordPending := false
  sent := []
  closed := false
  params :=
    { values := [], saveWaits := [], engine := [], dirty := false, cntSave := 0, cntSet := 0 }
  tables := []
  arriving := []
  committing := []
  tableCount := 0

end Sys2Proof.Machine
end

