-- ==== Sys2Proof/Machine/Crypto.lean ====
section
/-! DEFINITION. Keys and sealed data (02 R35; 17 R467; 19 R516). HKDF and AES-256-GCM are standards that the spec names and does
not give: both are uninterpreted. What is computed here is what the spec states: which key, nonce and data they are applied to. -/

namespace Sys2Proof.Machine

/-- ASCII bytes of a context string. -/
def ascii (s : String) : List Byte := s.toList.map (fun c => BitVec.ofNat 8 c.toNat)

/-- A derived key of 256 bits. -/
def hkdf (key salt info : List Byte) : List Byte := (List.range 32).map (Config.hkdfByte key salt info)

/-- The exclusive-OR of data with the key stream: it seals and opens alike. -/
def gcmText (key nonce data : List Byte) : List Byte := data.zipIdx.map (fun (b, i) => b ^^^ Config.gcmPad key nonce i)

/-- The tag over associated data and ciphertext. -/
def gcmTag (key nonce aad cipher : List Byte) : List Byte := (List.range 16).map (Config.gcmTagByte key nonce aad cipher)

/-- K_oe of 19 Table 19-6. -/
def Owner.epochKey (o : Fin 16) (x : Owner) : List Byte :=
  hkdf x.secret (leBytes 8 Config.devId.toNat) (ascii "own" ++ leBytes 1 o.val ++ leBytes 4 x.epoch.toNat)

/-- The attach key of the owner's present epoch. -/
def Owner.attachKey (o : Fin 16) (x : Owner) : List Byte := hkdf (x.epochKey o) [] (ascii "attach")

/-- The SMU session key of a session number and starting sequence number. -/
def Owner.smuKey (o : Fin 16) (session start : U32) (x : Owner) : List Byte :=
  hkdf (x.epochKey o) (leBytes 4 session.toNat ++ leBytes 4 start.toNat) (ascii "smu")

/-- The stream key of the owner's present epoch. -/
def Owner.streamKey (o : Fin 16) (x : Owner) : List Byte := hkdf (x.epochKey o) [] (ascii "stream")

/-- The SMU nonce of 17 Table 17-6. -/
def smuNonce (session owner kind seq : Nat) : List Byte :=
  leBytes 4 session ++ leBytes 1 (owner + 16 * kind) ++ zeros 3 ++ leBytes 4 seq

/-- Key and session number of a frame on authenticated SMU: OWNER_ATTACH and its response under the attach key, every other
frame under the session key (02 R35, 17 Table 17-6). -/
def Owner.frameKey (o : Fin 16) (attach : Bool) (x : Owner) : List Byte × Nat :=
  if attach then (x.attachKey o, 0xFFFFFFFF) else (x.key, x.keyNo.toNat)

end Sys2Proof.Machine
end

