-- ==== Sys2Proof/Machine/ParamMap.lean ====
section
/-! DEFINITION. The parameter map: every ID of 20 Tables 20-1 and 20-3 with its type code
(02 Table 2-11) and its default or reset value. -/

namespace Sys2Proof.Machine

/-- One parameter: type code, read-only, default or reset value as stored (two's complement in the
type's own width). -/
structure PEntry where
  ty : Nat
  ro : Bool
  dflt : Nat
  deriving DecidableEq, Repr

/-- A writable parameter. -/
def rw (ty dflt : Nat) : PEntry := { ty := ty, ro := false, dflt := dflt }
/-- A read-only parameter and its reset value. -/
def ro (ty : Nat) (dflt : Nat := 0) : PEntry := { ty := ty, ro := true, dflt := dflt }

/-- Width in bits of a type code. -/
def typeWidth : Nat → Nat
  | 0 => 8 | 1 => 16 | 2 => 32 | 3 => 64 | 4 => 16 | 5 => 32 | 6 => 32 | _ => 32

/-- Signed types are sign-extended in the container (02 R48). -/
def typeSigned (t : Nat) : Bool := t == 4 || t == 5 || t == 6

/-- The 8-byte container of a stored value (02 R48). -/
def container (ty v : Nat) : Nat :=
  if typeSigned ty then codeOf 64 (signedOf (typeWidth ty) v) else v % 2 ^ typeWidth ty

/-- Device parameters, 20 Table 20-1, by ID. -/
def deviceEntries : List PEntry :=
  [ro 3 Config.devId.toNat, ro 2 0x6440, ro 1 0x00B1, ro 2, ro 2, ro 0 3, ro 2, ro 0] ++
  List.replicate 8 (rw 3 0) ++
  [ro 0, ro 3, ro 2, ro 1, ro 3, ro 0, ro 2, ro 2, rw 2 10000, rw 0 1, ro 0 0xFF, ro 2, ro 2] ++
  List.replicate 19 (rw 2 0)

/-- Owner parameters (02 Table 2-2). -/
def ownerEntries (o : Nat) : List PEntry :=
  [rw 0 (if o = 0 then 0x1F else 0), rw 1 256, rw 0 (if o = 0 then 0x0D else 0x01),
   rw 2 (if o = 0 then 262144 else 0), ro 2, ro 0 (if o = 0 then 1 else 0)]

/-- Phase parameters (03 Table 3-7). -/
def phaseEntries (p : Nat) : List PEntry :=
  [rw 0 0, rw 0 (p / 8), rw 1 2500, rw 1 1500, rw 6 0x00320000, rw 4 0, rw 1 1600, rw 1 1600,
   rw 2 0x00190000, rw 2 0x03080FA0, rw 2 0x00010032, rw 2 0x00000002, rw 2 100000, ro 2]

/-- Group parameters (04 Table 4-3). -/
def groupEntries : List PEntry :=
  [rw 0 0, rw 2 100000, rw 0 0xFF, rw 0 3] ++ List.replicate 8 (rw 2 0) ++
  [rw 1 100, rw 2 0x201050A3, rw 0 0xFF, rw 0 0xFF, rw 2 0x00001001, rw 0 1, rw 2 0x000A1400,
   rw 2 10000, rw 5 0, rw 2 0, rw 2 0x40456014, ro 2]

/-- String port parameters (06). -/
def stringEntries (s : Nat) : List PEntry :=
  [rw 2 (0x11 * s), rw 0 0xFF, rw 2 0x01C20000, rw 2 0x0226FF38, rw 1 50, rw 1 3650, rw 1 2500,
   rw 2 28800, rw 1 2000, rw 1 100, rw 1 9500, rw 2 5000, rw 1 20, ro 2, ro 2, ro 2]

/-- Feed parameters (07). -/
def feedEntries (f : Nat) : List PEntry :=
  [rw 2 (if f = 0 then 0xFF088542 else 0xFF088762), rw 2 0, rw 2 0, rw 2 2000, rw 2 1000,
   rw 2 80000, rw 2 0, rw 2 0x640500C8, rw 1 10, rw 2 0x003C0503, ro 2, ro 2]

/-- Contactor parameters (07). -/
def contactorEntries : List PEntry := [rw 2 0x0032320A, rw 2 0x320503E8, rw 2 0x00001414, ro 2]

/-- Measurement parameters 0x0B00 to 0x0B7F (08). -/
def measureEntry? (k : Nat) : Option PEntry :=
  if k < 0x60 then some (if k % 2 = 0 then rw 6 0x00010000 else rw 4 0)
  else if k < 0x6C then some (rw 2 0)
  else if k < 0x70 then some (rw 2 0x0401)
  else if k < 0x74 then some (rw 2 0x00320A00)
  else if k = 0x74 then some (rw 2 0xFF)
  else if k = 0x75 then some (ro 2)
  else if k = 0x76 then some (ro 2)
  else if k = 0x77 then some (rw 2 0x6432)
  else if k < 0x7C then some (ro 2)
  else if k < 0x80 then some (rw 6 0x03E80000)
  else none

/-- Module position parameters (09). -/
def moduleEntries : List PEntry := [rw 2 0x0008FF60, rw 3 0, ro 2 0xFFFFFFFF, ro 2]

/-- Chain parameters 0x0D00 to 0x0D1F (09). -/
def chainEntries : List PEntry :=
  [rw 2 0x00300007, rw 2 1000, rw 1 60, rw 1 100, rw 1 40, rw 1 60, rw 0 64, ro 2, ro 2, ro 0,
   ro 3, ro 2, rw 1 20, rw 4 1500, ro 2, ro 2] ++ List.replicate 16 (ro 2)

/-- Estimation parameters per module (10). -/
def estModuleEntries : List PEntry := [rw 2 3, rw 1 30200, ro 2, ro 2, ro 2]

/-- Estimation parameters 0x1200 to 0x1217 (10); the f32 defaults as binary32 patterns. -/
def estimationEntries : List PEntry :=
  [rw 2 1, rw 1 300, rw 1 200, rw 1 100, rw 2 21600, rw 7 0x2EDBE6FF, rw 7 0x322BCC77,
   rw 7 0x24E69595, rw 7 0x368637BD ] ++
  [rw 7 0x3983126F, rw 7 0x399D4952, rw 7 0x42700000, rw 1 1800, rw 1 200, rw 1 300, rw 1 500,
   rw 2 0x64030A01, rw 2 0x00C83C01, rw 1 7000, ro 2, ro 3, ro 3, ro 3, ro 2]

/-- Stipple parameters 0x1400 to 0x140F (11). -/
def stippleEntries : List PEntry :=
  [rw 2 3, rw 1 200, rw 0 50, rw 1 0, rw 1 1, rw 0 2, rw 1 60, rw 1 10, rw 0 50, rw 1 30, rw 0 50,
   rw 0 4, ro 2, ro 2, ro 2, ro 2]

/-- Stipple parameters of a port (11). -/
def stipplePortEntries : List PEntry := [rw 0 0xFF, ro 2, ro 2, ro 3]

/-- Rating of Undercoat rail u in units of UC_ILIM (12 Table 12-2). -/
def railRating (u : Nat) : Nat := ([1500, 400, 300, 200, 1200, 300, 150, 30, 10, 20] : List Nat).getD u 0

/-- Undercoat rail parameters (12). -/
def railEntries (u : Nat) : List PEntry :=
  [rw 2 (if u = 0 then 0x2852 else 0x52), rw 4 0, rw 2 0x000A3232, rw 1 (railRating u * 110 / 100),
   ro 2, ro 2]

/-- EX slot parameters (12). -/
def exEntries : List PEntry := [rw 2 0x0502, rw 2 0x05780460, rw 1 1, ro 2]

/-- Timebase parameters (13). -/
def timebaseEntries : List PEntry :=
  [rw 2 0x02C0, rw 2 1000000, rw 1 1000, rw 1 10000, rw 7 0x3D4CCCCD, rw 7 0x3A03126F, rw 2 86400,
   rw 2 0x6402, rw 5 0, rw 5 0, rw 4 0, rw 2 1000, ro 2, ro 5, ro 5, ro 3, ro 3, ro 3, ro 3, ro 2,
   ro 2, ro 2, ro 2, ro 2]

/-- Thermal parameters (14). -/
def thermalEntries : List PEntry :=
  [rw 2 0x000C0801, rw 4 1100, rw 1 50, rw 1 30, rw 4 1250, rw 4 1350, rw 1 60, rw 2 0xFFFFFFFF,
   rw 4 0xFE70, rw 4 1150, rw 1 690, ro 2, ro 2, ro 4, ro 2, ro 4, ro 2, ro 2, ro 2, ro 1]

/-- Watchdog parameters (15 Table 15-3). -/
def watchdogEntries : List PEntry :=
  [rw 2 3, rw 1 2000, rw 1 250, rw 1 0, rw 0 1, rw 1 60, rw 1 10000, rw 0 3, rw 1 1000, ro 2, ro 2,
   ro 2]

/-- Ethernet parameters of a port (17). -/
def etherEntries (q : Nat) : List PEntry :=
  [rw 2 (if q = 0 then 0x4001 else 0x4101), rw 3 (Config.macBase.toNat + q), rw 2 0, rw 2 0xFFFFFF00,
   rw 2 0, rw 2 0, rw 2 0x03100001, rw 2 0, rw 1 400, rw 1 100, ro 2, ro 2, ro 2, ro 2, ro 2, ro 2]

/-- Two-wire parameters (17). -/
def twoWireEntries : List PEntry :=
  [rw 2 0x0A2F0000, rw 2 0x2632, rw 2 0x00321901, ro 2, ro 2, ro 2, ro 2, ro 2]

/-- Service port parameters (18). -/
def serviceEntries : List PEntry :=
  [rw 2 0x143F, rw 1 2000, rw 1 300, rw 1 150, rw 1 150, rw 2 115200, rw 2 0x0002260A,
   rw 2 0x00030A0A, ro 1 Config.svid.toNat, ro 2 1, ro 2, ro 2, ro 1, ro 0 0xFF, ro 1] ++
  List.replicate 9 (ro 2)

/-- NVM and security parameters (19). -/
def nvmEntries : List PEntry :=
  [rw 2 0x00181001, ro 2, ro 0 0x40, ro 1, ro 1, ro 2, ro 2, ro 2, ro 2, ro 3, ro 1, ro 1, ro 2,
   rw 2 0x00030258, ro 2, ro 2, ro 2, ro 2, ro 2, rw 2 1, ro 2, ro 2, ro 2, ro 1, ro 2,
   ro 3 (Config.rootHash.toNat % 2 ^ 64), ro 3, ro 2, ro 2, ro 2]

/-- The entry `k` of the block that starts at `base` and repeats every `stride` IDs, `n` times. -/
def inBlock (id base stride n : Nat) (es : Nat → List PEntry) : Option PEntry :=
  let i := (id - base) / stride
  if i < n then (es i)[(id - base) % stride]? else none

/-- The parameter of an ID; none where the ID does not exist (20 R523). -/
def paramEntry? (id : Nat) : Option PEntry :=
  if id < 0x0100 then inBlock id 0 0x30 1 (fun _ => deviceEntries)
  else if id < 0x0400 then inBlock id 0x0100 6 16 ownerEntries
  else if id < 0x0800 then inBlock id 0x0400 16 64 phaseEntries
  else if id < 0x0900 then inBlock id 0x0800 32 8 (fun _ => groupEntries)
  else if id < 0x0A00 then inBlock id 0x0900 16 4 stringEntries
  else if id < 0x0A18 then inBlock id 0x0A00 12 2 feedEntries
  else if id < 0x0B00 then inBlock id 0x0A18 4 4 (fun _ => contactorEntries)
  else if id < 0x0C00 then measureEntry? (id - 0x0B00)
  else if id < 0x0D00 then inBlock id 0x0C00 4 64 (fun _ => moduleEntries)
  else if id < 0x1000 then inBlock id 0x0D00 0x20 1 (fun _ => chainEntries)
  else if id < 0x1200 then inBlock id 0x1000 8 64 (fun _ => estModuleEntries)
  else if id < 0x1400 then inBlock id 0x1200 0x18 1 (fun _ => estimationEntries)
  else if id < 0x1410 then inBlock id 0x1400 16 1 (fun _ => stippleEntries)
  else if id < 0x1500 then inBlock id 0x1410 4 4 (fun _ => stipplePortEntries)
  else if id < 0x1580 then inBlock id 0x1500 8 10 railEntries
  else if id < 0x1600 then inBlock id 0x1580 4 16 (fun _ => exEntries)
  else if id < 0x1700 then inBlock id 0x1600 0x18 1 (fun _ => timebaseEntries)
  else if id < 0x1780 then inBlock id 0x1700 0x14 1 (fun _ => thermalEntries)
  else if id < 0x1A00 then inBlock id 0x1780 12 1 (fun _ => watchdogEntries)
  else if id < 0x1A20 then inBlock id 0x1A00 16 2 etherEntries
  else if id < 0x1B00 then inBlock id 0x1A20 8 1 (fun _ => twoWireEntries)
  else if id < 0x1C00 then inBlock id 0x1B00 0x18 1 (fun _ => serviceEntries)
  else inBlock id 0x1C00 0x1E 1 (fun _ => nvmEntries)

/-- Type code of a parameter. -/
def paramType (id : Nat) : Nat := ((paramEntry? id).map (·.ty)).getD 0

/-- Default or reset value of a parameter, 0 where the ID does not exist. -/
def paramDefault (id : Nat) : Nat := ((paramEntry? id).map (·.dflt)).getD 0

/-- The ID belongs to the owner block 0x0100 to 0x015F (02 Table 2-2). -/
def isOwnerParam (id : Nat) : Bool := decide (0x0100 ≤ id) && decide (id < 0x0160)

end Sys2Proof.Machine
end

