-- ==== Sys2Proof/Machine/BusState.lean ====
section
/-! DEFINITION. The state of bus feeds and string contactors (07). -/

namespace Sys2Proof.Machine

/-- FEED_STATE of 07 Table 7-6, in code order. -/
inductive FeedRun where
  | open_
  | window
  | delay
  | match_
  | gate
  | on
  | blocking
  | tripped
  | lockedOut
  | held
  deriving DecidableEq, Repr

/-- FEED_OPEN in progress (07 R217). -/
inductive FeedOpening where
  | none
  /-- Groups whose next sample removes the feed's term. -/
  | removing (left : BitVec 8)
  /-- FEEDx_ON falls at the next sample of a group that names the feed. -/
  | opensNext
  deriving DecidableEq, Repr

/-- One feed (07). -/
structure Feed where
  run : FeedRun
  retries : Nat
  cause : BitVec 8
  dir : Nat
  /-- FEEDx_OK input, as of the last evaluation. -/
  ok : Bool
  /-- Evaluations since which FEEDx_OK has been deasserted, and V_bus above FEED_OV (R202). -/
  okLostSince : Option Nanos
  ovSince : Option Nanos
  pg : Bool
  /-- GATE was entered from BLOCKING. -/
  gateFromBlocking : Bool
  /-- End of the retry wait; 0 when none is pending. -/
  retryEnd : Nanos
  /-- Entry to the state. -/
  since : Nanos
  opening : FeedOpening
  openReq : Option Req
  /-- Insertion table in force: the body, none for the built-in. -/
  table : Option (List Byte)
  /-- For each condition bit of 07 Table 7-11, the instant it last became true. -/
  conds : List (Option Nanos)
  /-- FEED_STATUS [2:0] as of the last evaluation. -/
  win : Bool
  matched : Bool
  below : Bool
  /-- The trip filter's length and the raw thresholds of the trip and reverse comparators, as loaded (07 R195, 08 R239). -/
  tripLen : Nat
  tripLo : Int
  tripHi : Int
  revLo : Int
  revHi : Int
  /-- The reverse comparator fires; the instant it fell silent (07 R206). -/
  revFires : Bool
  silentSince : Nanos
  /-- In BLOCKING: since when MATCHED or LINK_BELOW has held. -/
  closable : Option Nanos
  deriving DecidableEq, Repr

/-- CONT_STATUS.STATE of 07 Table 7-18, in code order. -/
inductive ContRun where
  | open_
  | precharging
  | closing
  | closed
  | opening
  | weldTest
  | fault
  deriving DecidableEq, Repr

/-- One string contactor (07). -/
structure Contactor where
  run : ContRun
  fb : Bool
  fbSince : Nanos
  welded : Bool
  weldUntested : Bool
  cause : BitVec 8
  loadOpens : U16
  coil : Bool
  group : Option (Fin 8)
  since : Nanos
  testV : Int
  /-- A CONTACTOR_OPEN with WELD_AUTO leads to the test. -/
  testAfter : Bool
  /-- AUTO has had its turn since the start or wake (R213). -/
  autoDone : Bool
  /-- Waiting command: close, open or weld test. -/
  waiting : Option Req
  deriving DecidableEq, Repr

/-- The level of an output pin (07 R193, 03 R60). -/
inductive PinLevel where
  /-- High impedance, with its internal pull-down: the bank supply is not valid. -/
  | highZ
  | low
  | high
  deriving DecidableEq, Repr

/-- Chapter 7. -/
structure BusState where
  feeds : Vector Feed 2
  conts : Vector Contactor 4
  /-- BUS_PG output. -/
  busPg : Bool
  calDone : Bool
  deriving DecidableEq, Repr

/-- A feed at reset: OPEN. -/
def Feed.initial : Feed where
  run := .open_
  retries := 0
  cause := 0
  dir := 0
  ok := false
  okLostSince := none
  ovSince := none
  pg := false
  gateFromBlocking := false
  retryEnd := 0
  since := 0
  opening := .none
  openReq := none
  table := none
  conds := []
  win := false
  matched := false
  below := false
  tripLen := 8
  tripLo := 0
  tripHi := 64
  revLo := 0
  revHi := 64
  revFires := false
  silentSince := 0
  closable := none

/-- A contactor at reset: OPEN, coil released. -/
def Contactor.initial : Contactor where
  run := .open_
  fb := false
  fbSince := 0
  welded := false
  weldUntested := false
  cause := 0
  loadOpens := 0
  coil := false
  group := none
  since := 0
  testV := 0
  testAfter := false
  autoDone := false
  waiting := none

/-- Chapter 7 at reset. -/
def BusState.initial : BusState where
  feeds := Vector.replicate 2 Feed.initial
  conts := Vector.replicate 4 Contactor.initial
  busPg := false
  calDone := false

end Sys2Proof.Machine
end

