-- ==== Sys2Proof/Machine/ChainState.lean ====
section
/-! DEFINITION. The state of the lath chain (09), of estimation (10) and of stipple sweeps (11). -/

namespace Sys2Proof.Machine

/-- LATH_STATUS.STATE of 09 Table 9-11, in code order. -/
inductive RingRun where
  | down
  | enumerating
  | closed
  | broken
  deriving DecidableEq, Repr

/-- What a chain request is for. -/
inductive ReadKind where
  | sweep
  | balance
  | diagnostic
  deriving DecidableEq, Repr

/-- A request whose reply is awaited (09 R278). -/
structure ChainRequest where
  port : Fin 2
  kind : ReadKind
  module_ : Nat
  seq : Byte
  cmd : Byte
  addr : Byte
  /-- Repeats made on the primary port, and whether this is the reissue on the other. -/
  tries : Nat
  reissued : Bool
  req : Option Req
  payload : List Byte
  /-- Device time at which its frame starts, and at which its reply slot ends (R261). -/
  start : Nat
  slotEnd : Nat
  deriving DecidableEq, Repr

/-- One sweep of a module (09 R281). -/
structure SweepItem where
  id : Byte
  time : U64
  flags : Byte
  /-- [0] REROUTED, [1] OVERRUN of the sweep (R280). -/
  sweepFlags : Byte
  /-- The 72-byte response payload of a whole answer; the payload as received. -/
  data : List Byte
  raw : List Byte
  deriving DecidableEq, Repr

/-- LATH_M_STATUS.STATE of 09 Table 9-15, in code order. -/
inductive ModuleRun where
  | disabled
  | absent
  | ok
  | missed
  | chainLost
  | uidMismatch
  | incompatible
  deriving DecidableEq, Repr

/-- One module position (09). -/
structure Module where
  run : ModuleRun
  viaB : Bool
  markSkew : Bool
  fault : BitVec 8
  posA : Nat
  posB : Nat
  aReach : Bool
  bReach : Bool
  missRun : Nat
  goodRun : Nat
  uid : U64
  latency : Nat
  nCellMax : Nat
  tMaskMax : Byte
  version : Nat
  cap : Byte
  dA : U16
  dB : U16
  /-- Last 4 sweeps, newest first. -/
  sweeps : List SweepItem
  /-- In the running sweep: the accepted payload, and whether the reissue gave it. -/
  answer : Option (List Byte)
  reroutedNow : Bool
  /-- Bleed mask that the node last told; the firmware's decision, the mask last sent and its instant; the
  override of CHAIN_BALANCE and its end. -/
  bleed : BitVec 24
  mask : BitVec 24
  maskSent : BitVec 24
  sentAt : Nanos
  override_ : Option (BitVec 24 × Nanos)
  deriving DecidableEq, Repr

/-- An entry of the node map (09 Table 9-5). -/
structure MapEntry where
  module_ : Nat
  port : Nat
  pos : Nat
  deriving DecidableEq, Repr

/-- What a receiver has seen towards lock and its loss (R256). -/
structure RxLock where
  /-- Commas since the last code error. -/
  commas : Nat
  /-- Symbols since the last comma. -/
  quiet : Nat
  /-- Ages, in symbols, of the code errors of the last 64. -/
  errors : List Nat
  /-- Symbol times without amplitude. -/
  silent : Nat
  deriving DecidableEq, Repr

/-- One chain port. -/
structure ChainPort where
  rx : RxLock
  lock : Bool
  /-- LATH_CNT_q_j. -/
  counters : Vector U32 8
  seq : Byte
  transmitting : Bool
  /-- Sweep ID of the last mark sent. -/
  markFor : Option Byte
  /-- The bytes of that mark after its K28.1 (Table 9-2). -/
  mark : List Byte
  /-- Device time up to which frames and reply slots occupy the transmitter (R261). -/
  busyUntil : Nat
  deriving DecidableEq, Repr

/-- Chapter 9. -/
structure ChainState where
  run : RingRun
  ports : Vector ChainPort 2
  modules : Vector Module 64
  timingRaised : Bool
  reachA : Nat
  reachB : Nat
  found : Nat
  ringDelay : U32
  sweepId : Byte
  sweepTime : U64
  lastRerouted : Bool
  lastOverrun : Bool
  lastId : Byte
  lastMissed : Nat
  lastReissued : Nat
  cntSweeps : U32
  cntRerouted : U32
  outstanding : List ChainRequest
  /-- CHAIN_BALANCE and CHAIN_NODE_CMD requests not yet sent, oldest first. -/
  balance : List Req
  node : List Req
  /-- The reads of the latest sample are still to start. -/
  toRead : Bool
  /-- Reads of the present sweep are under way, and those of them reissued. -/
  sweeping : Bool
  reissuedNow : Nat
  map : List MapEntry
  /-- An enumeration runs, with the CHAIN_ENUMERATE that it completes. -/
  enumerate : Option (Option Req)
  /-- CHAIN_PROBEs that the delay measurement in work completes. -/
  probing : Bool
  probeWaits : List Req
  /-- Instant of the last delay measurement (R270). -/
  probedAt : Nanos
  /-- Seen since the present sweep's reads began: port-A frames or marks at LATHB_RX, port-B ones at LATHA_RX, and any at the
  port it came from (R264). -/
  crossA : Bool
  crossB : Bool
  returned : Bool
  /-- Sweep period in force, ns, and the next sample instant, device time (0: the next whole multiple). -/
  period : Nat
  nextSample : Nat
  deriving DecidableEq, Repr

/-- The covariance of a cell's three states (10 R293): symmetric. -/
structure Cov where
  zz : Rat
  zv : Rat
  zr : Rat
  vv : Rat
  vr : Rat
  rr : Rat
  deriving DecidableEq, Repr

/-- An anchor (10 R301): z, the cell's counted discharge charge in C, and device time (negative when it was taken before
this start). -/
structure Anchor where
  z : Rat
  counted : Rat
  time : Int
  deriving DecidableEq, Repr

/-- Three-state estimate of one cell with its covariance (10). -/
structure Cell where
  /-- The cell has its first values (10 R300). -/
  started : Bool
  z : Rat
  vp : Rat
  r : Rat
  cov : Cov
  /-- Learned capacity, Ah; polarisation resistance, Ω; time constant, s; hysteresis position. -/
  q : Rat
  rPol : Rat
  tau : Rat
  h : Rat
  /-- Discharge charge counted, C. -/
  counted : Rat
  anchor : Option Anchor
  /-- A GAP window, a CHAIN_LOST or a restore of unknown outage lies after the anchor (10 R310). -/
  cut : Bool
  /-- Time of its last anchor and of the last sweep that bled it. -/
  anchoredAt : Option Nanos
  bledAt : Option Nanos
  learned : Bool
  badRun : Nat
  goodRun : Nat
  diverged : Bool
  /-- r_pol and tau of an impedance summary, taken at the next update. -/
  fit : Option (Rat × Rat)
  deriving DecidableEq, Repr

/-- One float engine's module estimate (10). -/
structure ModuleEst where
  cells : Vector Cell 24
  valid : Bool
  predictOnly : Bool
  blind : Bool
  tempStale : Bool
  gap : Bool
  diverged : Bool
  weakest : Nat
  fullest : Nat
  /-- Last defined T, 0.1 °C, and since when a T is missing. -/
  temp : Rat
  tempAt : Nanos
  /-- Device time of the last update. -/
  updatedAt : Nat
  /-- Completed sweeps not yet used by an update, newest first; charge counted since, µC, and ticks that added
  nothing. -/
  window : List SweepItem
  dq : Int
  gaps : Nat
  /-- qdis and qchg after the prediction and after the correction, Ah. -/
  qDisP : Rat
  qChgP : Rat
  qDis : Rat
  qChg : Rat
  /-- Estimate and reported value, 0.01%. -/
  x : Option Rat
  r : Option Rat
  /-- r follows x at once at the next update. -/
  jump : Bool
  /-- Values have changed since the last record. -/
  changed : Bool
  deriving DecidableEq, Repr

/-- One string's estimate (10). -/
structure StringEst where
  qDis : Rat
  qChg : Rat
  x : Option Rat
  r : Option Rat
  jump : Bool
  /-- Charge counted since the last update or evaluation, µC. -/
  dq : Int
  avail : Rat
  rejects : U16
  eol : Bool
  eolSince : Option Nanos
  /-- The present rest: its start, and that a known outage counts as rest. -/
  restSince : Option Nanos
  outageRest : Bool
  anchoredRaised : Bool
  deriving DecidableEq, Repr

/-- Estimation rate of 10 Table 10-12. -/
inductive EstRate where
  | full
  | reduced
  | hibernate
  deriving DecidableEq, Repr

/-- An EST_SET_SOC that waits for the next update of the modules still named. -/
structure SetSoc where
  req : Req
  left : List Nat
  deriving DecidableEq, Repr

/-- Chapter 10. -/
structure EstState where
  modules : Vector ModuleEst 64
  strings : Vector StringEst 4
  rate : EstRate
  quietSince : Option Nanos
  reducedSince : Nanos
  /-- An event of R315 asks for the full rate. -/
  leave : Bool
  lastRecord : Nanos
  lastLearn : Nanos
  lastBalance : Nanos
  learnCnt : U32
  sets : List SetSoc
  /-- EST_LEARN_NOWs waiting for their records to be written. -/
  learnWaits : List Req
  deriving DecidableEq, Repr

/-- STP_P_STATE.STATE of 11 Table 11-8, in code order. -/
inductive SweepRun where
  | idle
  | scheduled
  | waiting
  | settling
  | measuring
  | gap
  deriving DecidableEq, Repr

/-- What a point gave for one module (11 R332, R337). -/
structure SweepRecord where
  point : Nat
  module_ : Nat
  /-- F_MHZ; module flags of Table 11-4; per cell Z in Ω and the flags of Table 11-5. -/
  freq : Nat
  flags : Nat
  cells : List (Rat × Rat × Nat)
  bytes : List Byte
  deriving DecidableEq, Repr

/-- A cell's voltage sums of 11 R331. -/
structure CellSum where
  sx : Rat
  sd : Rat
  sq : Rat
  ss : Rat
  sc : Rat
  deriving DecidableEq, Repr

/-- What a module's float engine holds of the point being measured (11 R330, R331, R335). -/
structure ModuleSum where
  module_ : Nat
  /-- Samples with data. -/
  count : Nat
  rerouted : Bool
  bled : BitVec 24
  /-- Mean temperature of each sample, 0.1 °C. -/
  temps : List Rat
  cells : List CellSum
  deriving DecidableEq, Repr

/-- The sweep of one port (11). -/
structure StippleSweep where
  run : SweepRun
  plant : Bool
  /-- Point in progress; the number of points once all are over. -/
  point : Nat
  repeats : Nat
  planId : Nat
  plan : List Byte
  at_ : U64
  number : U16
  /-- e of R328, T_0 and T_m of the point, ns of device time; amplitude in A. -/
  base : Rat
  t0 : Rat
  tm : Nat
  amp : Rat
  perturbing : Bool
  /-- The instant at which the perturbation ends. -/
  stopAt : Option Rat
  /-- The point in progress is discarded (11 R333). -/
  discard : Bool
  deferSince : Option Nanos
  sums : List ModuleSum
  discards : Nat
  skips : Nat
  donePoints : BitVec 32
  records : List SweepRecord
  lastNumber : U16
  lastPoints : Nat
  lastCause : BitVec 8
  /-- Abort cause of 11 Table 11-3 that ends the sweep; 0 none. -/
  abort : BitVec 8
  /-- STP_AMP to STP_LEARN_MINPT (0x1401 to 0x140B) as the point in progress took them (11 R341). -/
  pars : List Nat
  /-- Δ of the point, ns (11 R326). -/
  step : Nat
  /-- The newest records that the firmware has still to write (11 R336). -/
  unwritten : Nat
  deriving DecidableEq, Repr

/-- Chapter 11. -/
structure StippleState where
  sweeps : Vector StippleSweep 4
  cntSweeps : U32
  cntAborts : U32
  cntPoints : U32
  deriving DecidableEq, Repr

/-- Chapters 9 to 11. -/
structure StackState where
  chain : ChainState
  est : EstState
  stp : StippleState
  deriving DecidableEq, Repr

/-- A module position at reset. -/
def Module.initial : Module where
  run := .disabled
  viaB := false
  markSkew := false
  fault := 0
  posA := 0
  posB := 0
  aReach := false
  bReach := false
  missRun := 0
  goodRun := 0
  uid := 0
  latency := 0
  nCellMax := 0
  tMaskMax := 0
  version := 0
  cap := 0
  dA := 0xFFFF
  dB := 0xFFFF
  sweeps := []
  answer := none
  reroutedNow := false
  bleed := 0
  mask := 0
  maskSent := 0
  sentAt := 0
  override_ := none

/-- A chain port at reset. -/
def ChainPort.initial : ChainPort where
  lock := false
  counters := Vector.replicate 8 0
  seq := 0
  transmitting := true
  markFor := none
  mark := []
  busyUntil := 0
  rx := { commas := 0, quiet := 0, errors := [], silent := 0 }

/-- The chain at reset: DOWN, no node map. -/
def ChainState.initial : ChainState where
  run := .down
  ports := Vector.replicate 2 ChainPort.initial
  modules := Vector.replicate 64 Module.initial
  timingRaised := false
  reachA := 0
  reachB := 0
  found := 0
  ringDelay := 0
  sweepId := 0
  sweepTime := 0
  lastRerouted := false
  lastOverrun := false
  lastId := 0
  lastMissed := 0
  lastReissued := 0
  cntSweeps := 0
  cntRerouted := 0
  outstanding := []
  balance := []
  node := []
  toRead := false
  sweeping := false
  reissuedNow := 0
  map := []
  enumerate := none
  probing := false
  probeWaits := []
  probedAt := 0
  crossA := false
  crossB := false
  returned := false
  period := 1000000
  nextSample := 0

/-- A cell before its first values. -/
def Cell.initial : Cell where
  started := false
  z := 0
  vp := 0
  r := 0
  cov := { zz := 0, zv := 0, zr := 0, vv := 0, vr := 0, rr := 0 }
  q := 0
  rPol := 0
  tau := 0
  h := 0
  counted := 0
  anchor := none
  cut := false
  anchoredAt := none
  bledAt := none
  learned := false
  badRun := 0
  goodRun := 0
  diverged := false
  fit := none

/-- A module before its first update. -/
def ModuleEst.initial : ModuleEst where
  cells := Vector.replicate 24 Cell.initial
  valid := false
  predictOnly := false
  blind := false
  tempStale := false
  gap := false
  diverged := false
  weakest := 0
  fullest := 0
  temp := 0
  tempAt := 0
  updatedAt := 0
  window := []
  dq := 0
  gaps := 0
  qDisP := 0
  qChgP := 0
  qDis := 0
  qChg := 0
  x := none
  r := none
  jump := false
  changed := false

/-- A string before its first update. -/
def StringEst.initial : StringEst where
  qDis := 0
  qChg := 0
  x := none
  r := none
  jump := false
  dq := 0
  avail := 0
  rejects := 0
  eol := false
  eolSince := none
  restSince := none
  outageRest := false
  anchoredRaised := false

/-- Estimation at reset. -/
def EstState.initial : EstState where
  modules := Vector.replicate 64 ModuleEst.initial
  strings := Vector.replicate 4 StringEst.initial
  rate := .full
  quietSince := none
  reducedSince := 0
  leave := false
  lastRecord := 0
  lastLearn := 0
  lastBalance := 0
  learnCnt := 0
  sets := []
  learnWaits := []

/-- No sweep. -/
def StippleSweep.initial : StippleSweep where
  run := .idle
  plant := false
  point := 0
  repeats := 0
  planId := 0
  plan := []
  at_ := 0
  number := 0
  base := 0
  t0 := 0
  tm := 0
  amp := 0
  perturbing := false
  stopAt := none
  discard := false
  deferSince := none
  sums := []
  discards := 0
  skips := 0
  donePoints := 0
  records := []
  lastNumber := 0
  lastPoints := 0
  lastCause := 0
  abort := 0
  pars := [200, 50, 0, 1, 2, 60, 10, 50, 30, 50, 4]
  step := 1000000
  unwritten := 0

/-- Chapters 9 to 11 at reset. -/
def StackState.initial : StackState where
  chain := ChainState.initial
  est := EstState.initial
  stp := { sweeps := Vector.replicate 4 StippleSweep.initial, cntSweeps := 0, cntAborts := 0, cntPoints := 0 }

end Sys2Proof.Machine
end

