-- ==== Sys2Proof/Machine/LinkState.lean ====
section
/-! DEFINITION. The state of the Ethernet ports, streams and two-wire links (17) and of the service
port (18). -/

namespace Sys2Proof.Machine

/-- ETH_STATUS.PTP_STATE of 17 Table 17-4, in code order. -/
inductive PtpRun where
  | disabled
  | listening
  | uncalibrated
  | slave
  | preMaster
  | master
  | passive
  | faulty
  deriving DecidableEq, Repr

/-- A configuration that a port took at its last restart (17 R459). -/
structure EthSettings where
  cfg : U32
  mac : U64
  ip : U32
  mask : U32
  gw : U32
  vlan : U32
  deriving DecidableEq, Repr

/-- The parent that a port has found in the Announce messages (17 R461, R463). -/
structure PtpParent where
  identity : U64
  priority1 : Nat
  clockClass : Nat
  priority2 : Nat
  steps : Nat
  /-- Its announce interval, sync interval and logMinDelayReqInterval, log2 s. -/
  logAnn : Int
  logSync : Int
  logDreq : Int
  deriving DecidableEq, Repr

/-- One Ethernet port (17). -/
structure EthPort where
  set : EthSettings
  up : Bool
  /-- SPEED and FULL of ETH_STATUS while the link is up. -/
  speed : Nat
  duplex : Bool
  ptp : PtpRun
  lanOk : Bool
  addrConflict : Bool
  /-- The last 8 values of the delay exchanges, ns (17 R462). -/
  delays : List Rat
  parent : Option PtpParent
  lastSync : Option Nanos
  lastAnnounce : Nanos
  lastDelayReq : Nanos
  lastMaster : Nanos
  cntRx : U32
  cntTx : U32
  cntErr : U32
  cntDrop : U32
  /-- The second in which IS237 + 8q was last raised. -/
  errSecond : Option Nat
  /-- A restart is due (17 R459). -/
  restarting : Bool
  /-- Last frame of a known PRP peer. -/
  lanSeen : Nanos
  /-- Stream datagrams of the last 10 ms: instant and bytes (17 R471). -/
  streamLog : List (Nanos × Nat)
  deriving DecidableEq, Repr

/-- An open reassembly (17 R466). -/
structure Reassembly where
  port : Fin 2
  addr : U32
  udp : U16
  id : U16
  count : Nat
  total : Nat
  /-- Index, offset and bytes of each segment. -/
  parts : List (Nat × Nat × List Byte)
  since : Nanos
  deriving DecidableEq, Repr

/-- A PRP duplicate-table entry (17 R464). -/
structure PrpEntry where
  source : U64
  seq : U16
  at_ : Nanos
  deriving DecidableEq, Repr

/-- A push stream (17 R470 to R472). -/
structure Stream where
  owner : Fin 16
  ring : Nat
  portMask : Nat
  addr : U32
  udp : U16
  records : Nat
  flushMs : Nat
  createNo : U32
  dseq : U64
  deferrals : U32
  paused : Bool
  /-- Since when the oldest waiting record has waited. -/
  oldest : Option Nanos
  deriving DecidableEq, Repr

/-- What the device hands to a MAC beside mailbox frames. -/
inductive EthOut where
  | arpReply (q : Fin 2) (target : U32)
  | arpRequest (q : Fin 2) (target : U32)
  /-- A datagram of a mailbox frame, whole or one segment. -/
  | smu (q : Fin 2) (addr : U32) (udp : U16) (bytes : List Byte)
  | echoReply (q : Fin 2) (dest : U64)
  | stream (q : Fin 2) (addr : U32) (udp : U16) (bytes : List Byte)
  | delayReq (q : Fin 2)
  | delayResp (q : Fin 2)
  /-- Sync of a MASTER port, with device time as its timestamp. -/
  | sync (q : Fin 2) (oneStep : Bool) (time : Nat)
  /-- Announce: clockClass and stepsRemoved. -/
  | announce (q : Fin 2) (clockClass steps : Nat)
  | supervision (seq : U16)
  deriving DecidableEq, Repr

/-- What a MAC puts around one frame that the device originates (17 R458, R464): the VLAN tag as VID and PCP, and the redundancy
control trailer as sequence number and LanId. -/
structure FrameOut where
  port : Fin 2
  vlan : Option (Nat × Nat)
  prp : Option (U16 × Fin 2)
  deriving DecidableEq, Repr

/-- TW0 and TW1 (17 R473 to R478). -/
structure TwoWire where
  /-- Address sampled at the island's reset release; none in reset. -/
  address : Option (BitVec 7)
  /-- TW_VIO is valid, since when the island may be released. -/
  vio : Bool
  releaseFrom : Nanos
  /-- The request buffer as last submitted. -/
  request : List Byte
  /-- REQ_BUSY lasts until then. -/
  busyUntil : Nanos
  queue : List Response
  /-- ATTN_PENDING, and the earliest instant of the next attempt. -/
  attn : Bool
  attnFrom : Nanos
  attnCause : BitVec 8
  /-- The byte the host last read. -/
  data : BitVec 8
  /-- The pointer in force. -/
  pointer : U16
  /-- Attention messages that were acknowledged: the address written to, and the two bytes. -/
  attnOut : List (BitVec 7 × List Byte)
  /-- The TW1 transfer of a host under way. -/
  tw1 : Option Req
  /-- What TW1 last sent for a host: target address, bytes written, bytes to be read. -/
  tw1Out : Option (BitVec 7 × List Byte × Nat)
  cntTx : U32
  cntErr : U32
  cntArb : U32
  cntCycles : U32
  deriving DecidableEq, Repr

/-- Links of chapter 17. -/
structure LinkState where
  eth : Vector EthPort 2
  reassemblies : List Reassembly
  prpTable : List PrpEntry
  prpSeq : U16
  prpSent : Nanos
  /-- Peers known from their supervision frames, by MAC address. -/
  prpPeers : List U64
  streams : Vector (Option Stream) 32
  out : List EthOut
  /-- The frames that left the ports, as the MACs tagged them. -/
  frames : List FrameOut
  /-- Next hops whose hardware address a port knows (17 R458, R468). -/
  arp : List (Fin 2 × U32)
  /-- MSG_ID of the next segmented frame (17 Table 17-5). -/
  msgId : U16
  tw : TwoWire
  deriving DecidableEq, Repr

/-- SP_STATUS.STATE of 18 Table 18-6, in code order. -/
inductive SpRun where
  | disabled
  | unattached
  | attachedSnk
  | attachedSrc
  | wet
  deriving DecidableEq, Repr

/-- A policy record (18 R487). -/
structure PolicyRecord where
  snkV : Nat
  snkI : Nat
  snkImin : Nat
  srcI : Nat
  swap : Nat
  alt : Nat
  deriving DecidableEq, Repr

/-- What the policy engine has sent (18 R482 to R489). -/
inductive PdSent where
  /-- Request: object position, operating current, Capability Mismatch. -/
  | request (position : Nat) (current : Nat) (mismatch : Bool)
  | sourceCapabilities (current : Nat)
  | sinkCapabilities (voltage current : Nat)
  | accept
  | reject
  | psRdy
  | notSupported
  | hardReset
  | softReset
  /-- Answers to structured VDMs: identity, SVIDs, modes, Enter Mode ACKed or NAKed. -/
  | identity
  | svids (svid : U16)
  | modes (vdo : U32)
  | enterMode (ack : Bool)
  | exitMode
  /-- A message of the claim holder. -/
  | message (header : Nat) (objects : List U32)
  deriving DecidableEq, Repr

/-- The service port (18). -/
structure ServicePort where
  run : SpRun
  orient : Bool
  contract : Bool
  snkOn : Bool
  srcOn : Bool
  alt : Bool
  corroded : Bool
  vbusFault : Bool
  /-- PS_RDY of the contract in force has been received and VBUS has stayed in its window since (18 R485). -/
  ready : Bool
  /-- MessageID of the next message sent, and of the last one received (18 R483). -/
  txId : Nat
  rxId : Option Nat
  /-- V_c and current of the contract, 0.01 V and 0.01 A. -/
  vc : Nat
  curr : Nat
  vbus : U16
  policyOwner : Option (Fin 16)
  transMs : U16
  transSince : Nanos
  /-- V_c before the transition under way. -/
  oldVc : Nat
  /-- The claim holder's record. -/
  record : Option PolicyRecord
  /-- The record in force, and whether it is the built-in one. -/
  inForce : PolicyRecord
  builtin : Bool
  reqVolt : Nat
  reqCurr : Nat
  /-- A Request waits for its Accept; an Accept has begun a transition. -/
  requested : Bool
  accepted : Bool
  /-- An atomic message sequence is under way (18 R487, R488). -/
  inSequence : Bool
  sends : List Req
  sent : List PdSent
  /-- Presents Rd; otherwise the Rp source. -/
  rd : Bool
  toggledAt : Nanos
  dryRun : Nat
  checkAt : Nanos
  cntAttach : U32
  cntRx : U32
  cntCrcErr : U32
  cntRetry : U32
  cntHardReset : U32
  cntUartFe : U32
  cntFrameErr : U32
  cntMoist : U32
  cntCorroded : U32
  /-- Complete UART frames held for the firmware, two at most (18 R491). -/
  heldFrames : List (List Byte)
  feSecond : Option Nat
  deriving DecidableEq, Repr

/-- Settings in force of a port at reset (the defaults). -/
def EthSettings.initial (q : Nat) : EthSettings where
  cfg := if q = 0 then 0x4001 else 0x4101
  mac := BitVec.ofNat 64 (Config.macBase.toNat + q)
  ip := 0
  mask := 0xFFFFFF00
  gw := 0
  vlan := 0

/-- A port at reset: no link. -/
def EthPort.initial (q : Nat) : EthPort where
  set := EthSettings.initial q
  up := false
  speed := 0
  duplex := false
  ptp := .disabled
  lanOk := false
  addrConflict := false
  delays := []
  parent := none
  lastSync := none
  lastAnnounce := 0
  lastDelayReq := 0
  lastMaster := 0
  cntRx := 0
  cntTx := 0
  cntErr := 0
  cntDrop := 0
  errSecond := none
  restarting := false
  lanSeen := 0
  streamLog := []

/-- TW0 and TW1 at reset. -/
def TwoWire.initial : TwoWire where
  address := none
  vio := false
  releaseFrom := 0
  request := []
  busyUntil := 0
  queue := []
  attn := false
  attnFrom := 0
  attnCause := 0
  data := 0
  pointer := 0
  attnOut := []
  tw1 := none
  tw1Out := none
  cntTx := 0
  cntErr := 0
  cntArb := 0
  cntCycles := 0

/-- Links at reset. -/
def LinkState.initial : LinkState where
  eth := #v[EthPort.initial 0, EthPort.initial 1]
  reassemblies := []
  prpTable := []
  prpSeq := 0
  prpSent := 0
  prpPeers := []
  streams := Vector.replicate 32 none
  out := []
  frames := []
  arp := []
  msgId := 0
  tw := TwoWire.initial

/-- The built-in record of the default parameters (18 Table 18-3). -/
def PolicyRecord.initial : PolicyRecord where
  snkV := 2000
  snkI := 300
  snkImin := 150
  srcI := 150
  swap := 0
  alt := 1

/-- The service port at reset: nothing attached. -/
def ServicePort.initial : ServicePort where
  run := .unattached
  orient := false
  contract := false
  snkOn := false
  srcOn := false
  alt := false
  corroded := false
  vbusFault := false
  ready := false
  txId := 0
  rxId := none
  vc := 0
  curr := 0
  vbus := 0
  policyOwner := none
  transMs := 0
  transSince := 0
  oldVc := 0
  record := none
  inForce := PolicyRecord.initial
  builtin := true
  reqVolt := 0
  reqCurr := 0
  requested := false
  accepted := false
  inSequence := false
  sends := []
  sent := []
  rd := true
  toggledAt := 0
  dryRun := 0
  checkAt := 0
  cntAttach := 0
  cntRx := 0
  cntCrcErr := 0
  cntRetry := 0
  cntHardReset := 0
  cntUartFe := 0
  cntFrameErr := 0
  cntMoist := 0
  cntCorroded := 0
  heldFrames := []
  feSecond := none

end Sys2Proof.Machine
end

