-- ==== Sys2Proof/Machine/MeasureState.lean ====
section
/-! DEFINITION. The state of the converters, comparators, modulator inputs and coulomb channels
(08). -/

namespace Sys2Proof.Machine

/-- Calibration status of a converter (08 Table 8-3), in code order. -/
inductive CalRun where
  | never
  | running
  | good
  | failed
  deriving DecidableEq, Repr

/-- One SAR converter. -/
structure Converter where
  cal : CalRun
  /-- Attempts of the present calibration that have failed. -/
  attempt : Nat
  /-- FAILED, and not calibrated with success since: a calibration that runs does not end it (R232). -/
  failed : Bool
  /-- The first housekeeping reading of BANDGAP after the last good calibration, 0.1 mV (R232). -/
  bandgap : Option Int
  /-- Device time at which the present or last calibration began and at which it ended. -/
  calStart : Nat
  calEnd : Nat
  /-- Device time of the start of the last housekeeping run (R221). -/
  housekeeping : Option Nat
  deriving DecidableEq, Repr

/-- One ADC channel's latest result (08 Table 8-5). -/
structure AdcChannel where
  raw : U16
  result : Int
  time : U64
  /-- No conversion since start-up. -/
  never : Bool
  /-- The last raw code of a temperature channel was out of the sensor's range (R224). -/
  broken : Bool
  deriving DecidableEq, Repr

/-- One isolated modulator input. -/
structure VsdInput where
  stuck : Bool
  value : Int
  time : U64
  deriving DecidableEq, Repr

/-- One sequence's run state (08 Table 8-13). -/
structure SeqState where
  /-- 0 idle, 1 pending, 2 running. -/
  run : Nat
  overruns : U16
  runs : U32
  trigger : U64
  /-- First sample instant of the present run, device time. -/
  start : Nat
  deriving DecidableEq, Repr

/-- One comparator (08 R234). -/
structure Comparator where
  asserted : Bool
  latched : Bool
  /-- The pin's voltage as last reported, µV. -/
  input : Option Nat
  /-- Since when the input is on its present side of LEVEL and of the release point; a write of them restarts it. -/
  since : Nanos
  deriving DecidableEq, Repr

/-- One coulomb channel (08 R243 to R249). -/
structure Coulomb where
  charge : Int
  thruDis : U64
  thruChg : U64
  winDis : Nat
  winChg : Nat
  /-- rem of R243, µC, and the remainders of the two windows, µC. -/
  rem : Rat
  remDis : Nat
  remChg : Nat
  /-- dq of the last tick, µC; i_tick, A; and the elapsed time at which it came. -/
  tick : Int
  iTick : Rat
  tickAt : Nanos
  /-- Fast-filter value, 0.01 A (R244). -/
  fast : Int
  time : U64
  stuck : Bool
  sat : Bool
  gapTicks : U16
  /-- The last tick added nothing because the stream was invalid. -/
  inGap : Bool
  /-- Ticks in a row above the wake level (R248). -/
  wakeRun : Nat
  /-- Fast values of the last 1,000 ticks without sign, 0.01 A, newest first. -/
  history : List Nat
  deriving DecidableEq, Repr

/-- A board calibration in progress (08 R233). -/
structure BoardCal where
  mode : Nat
  channel : Nat
  req : Req
  /-- V_k, 0.1 mV. -/
  volts : Int
  deriving DecidableEq, Repr

/-- Chapter 8. -/
structure MeasureState where
  convs : Vector Converter 2
  channels : Vector AdcChannel 64
  vsd : Vector VsdInput 16
  vsdClkLost : Bool
  ccClkLost : Bool
  seqs : Vector SeqState 16
  /-- Sequence table in force; none for the built-in setup. -/
  table : Option (List Byte)
  /-- CAL_TEMP, 0.1 °C. -/
  calTemp : Int
  cmps : Vector Comparator 12
  cc : Vector Coulomb 4
  selfCal : Option Req
  board : Option BoardCal
  /-- Corrections that a write replaced while a sequence of the channel's converter ran: parameter, value before, device time of
  the write (R225). -/
  oldScale : List (Nat × Nat × Nat)
  /-- CC_RESETs waiting for the next tick. -/
  tickWaits : List Req
  deriving DecidableEq, Repr

/-- A coulomb channel at reset. -/
def Coulomb.initial : Coulomb where
  charge := 0
  thruDis := 0
  thruChg := 0
  winDis := 0
  winChg := 0
  rem := 0
  remDis := 0
  remChg := 0
  tick := 0
  iTick := 0
  tickAt := 0
  fast := 0
  time := 0
  stuck := false
  sat := false
  gapTicks := 0
  inGap := false
  wakeRun := 0
  history := []

/-- Chapter 8 at reset. -/
def MeasureState.initial : MeasureState where
  convs := Vector.replicate 2 
    { cal := .never, attempt := 0, failed := false, bandgap := none, calStart := 0, calEnd := 0, housekeeping := none }
  channels := Vector.replicate 64 { raw := 0, result := 0, time := 0, never := true, broken := false }
  vsd := Vector.replicate 16 { stuck := false, value := 0, time := 0 }
  vsdClkLost := false
  ccClkLost := false
  seqs := Vector.replicate 16 { run := 0, overruns := 0, runs := 0, trigger := 0, start := 0 }
  table := none
  calTemp := 0
  cmps := Vector.replicate 12 { asserted := false, latched := false, input := none, since := 0 }
  cc := Vector.replicate 4 Coulomb.initial
  selfCal := none
  board := none
  oldScale := []
  tickWaits := []

end Sys2Proof.Machine
end

