-- ==== Sys2Proof/Machine/NvmState.lean ====
section
/-! DEFINITION. The state of the MRAM, the fuse array, the firmware images and the security store
(19). -/

namespace Sys2Proof.Machine

/-- A record of MRAM (19 Table 19-2), with the place where it lies; its region follows from its type. -/
structure NvmRecord where
  type : Byte
  key : U16
  seq : U32
  /-- Generation of its sector. -/
  gen : U16
  payload : List Byte
  /-- Logical sector and first 64-byte line in it. -/
  sector : Nat
  line : Nat
  /-- It contains an uncorrectable word (19 R505). -/
  bad : Bool
  deriving DecidableEq, Repr

/-- A record waiting for the NVM controller. -/
structure NvmWrite where
  type : Byte
  key : U16
  payload : List Byte
  deriving DecidableEq, Repr

/-- Records and wear (19 R498 to R506). -/
structure NvmState where
  /-- Valid records, in the order of their writing. -/
  records : List NvmRecord
  /-- Sector being filled and its lines in use, of the tables region, the journal and the event log. -/
  heads : Vector (Option (Nat × Nat)) 3
  /-- Generation of each logical sector that has been taken into use. -/
  gens : Bank U32
  /-- 64-byte lines of the firmware slots written by uploads, by window offset / 64. -/
  lines : Bank (List Byte)
  /-- Writes waiting, in arrival order: the deferral buffer while held (R504). -/
  waiting : List NvmWrite
  /-- The SRAM event queue of 1,024 entries (R503). -/
  queue : List NvmWrite
  /-- Losses not yet recorded: number, first and last device time. -/
  lost : Option (Nat × Nat × Nat)
  /-- Next sequence number of the tables region, the journal and the event log. -/
  seqs : Vector U32 3
  spares : Nat
  /-- Logical sectors retired read-only. -/
  retired : List Nat
  /-- Sectors to migrate; the first is under way. -/
  migrating : List Nat
  /-- Logical sectors and the physical spare that holds them now. -/
  remap : List (Nat × Nat)
  migrated : U16
  cntCorr : U32
  cntUncorr : U32
  cntTorn : U32
  cntEvtLost : U32
  kbWritten : U64
  /-- Bytes written that do not yet make a KB. -/
  kbRest : Nat
  /-- Event-log sequence number at each of the last 8 starts, newest first (12 R374). -/
  starts : List U32
  /-- Instant at which each sector was last read by a scrub. -/
  lastScrub : Bank Nat
  deriving DecidableEq, Repr

/-- One option fuse: its two copies, and what was latched at the last reading (19 R507). -/
structure Fuse where
  copyA : Bool
  copyB : Bool
  latched : Bool
  deriving DecidableEq, Repr

/-- An image in a slot section (19 Table 19-5). -/
structure Image where
  kind : Byte
  level : Nat
  version : U32
  engineSet : U32
  engineMin : U32
  pairVer : Byte
  /-- The customer key hash under which a customer image was checked. -/
  key : Option (List Byte)
  deriving DecidableEq, Repr

/-- An upload in progress (19 R512). -/
structure Upload where
  owner : Fin 16
  /-- 0 Burpol, 1 customer. -/
  section_ : Nat
  total : Nat
  /-- Bytes staged so far, by offset. -/
  bytes : Bank Byte
  /-- 4 KB units written to the slot. -/
  units : List Nat
  deriving DecidableEq, Repr

/-- CUST_STATUS [2:0] of 19 Table 19-7. -/
inductive CustRun where
  | disabled
  | noImage
  | running
  | rejected
  deriving DecidableEq, Repr

/-- Firmware and customer images (19 R509 to R515, R519). -/
structure FwState where
  /-- Slot that runs: 0 A, 1 B. -/
  run : Fin 2
  trial : Bool
  boots : Nat
  trialStart : Nanos
  /-- FW_CFG as taken at the start of the trial (R520). -/
  trialCfg : Nat
  /-- The BOOT record's slot. -/
  bootSlot : Fin 2
  upload : Option Upload
  /-- FW_FINISH has completed for the inactive slot since it last ran. -/
  ready : Bool
  /-- Slot 0 Burpol, slot 0 customer, slot 1 Burpol, slot 1 customer. -/
  images : Vector (Option Image) 4
  /-- Engine set running in the engines. -/
  engineSet : U32
  /-- PAIR_VER of that set: the VERSION of the pair frames sent (05 Table 5-5, 19 Table 19-5). -/
  pairVer : Byte
  /-- Groups and float engines whose change waits (FW_ENGINE_PEND). -/
  pendGroups : BitVec 8
  pendFloat : Bool
  /-- FW_ACTIVATE waiting for the new Burpol to answer it. -/
  activate : Option Req
  cust : CustRun
  custResets : BitVec 8
  custLevel : U16
  /-- Slot whose customer image HC2 and HC3 run. -/
  custSlot : Fin 2
  deriving DecidableEq, Repr

/-- Security store, fuses and seals (19 R507, R508, R516 to R519). -/
structure SecState where
  wdtHwstart : Fuse
  servicePortDisable : Fuse
  customerCores : Fuse
  debugLock : Fuse
  /-- The always-on latches of the option fuses have been loaded since the retention SRAM was lost (01 R12). -/
  loaded : Bool
  /-- Blown bits of ROLLBACK. -/
  rollback : Nat
  custKey : Option (List Byte)
  sealFail : U32
  authFail : U32
  storeGen : U32
  deriving DecidableEq, Repr

/-- Chapter 19's state. -/
structure KeepState where
  nvm : NvmState
  fw : FwState
  sec : SecState
  deriving DecidableEq, Repr

/-- MRAM with no record, no wear (19 Table 19-7). -/
def NvmState.initial : NvmState where
  records := []
  waiting := []
  queue := []
  lost := none
  heads := Vector.replicate 3 none
  gens := []
  lines := []
  seqs := Vector.replicate 3 0
  spares := 64
  retired := []
  migrating := []
  remap := []
  migrated := 0
  cntCorr := 0
  cntUncorr := 0
  cntTorn := 0
  cntEvtLost := 0
  kbWritten := 0
  kbRest := 0
  starts := []
  lastScrub := []

/-- An unblown fuse (19 R569). -/
def Fuse.intact : Fuse := { copyA := false, copyB := false, latched := false }

/-- The Burpol image the part is shipped with: release 1.4, build of `Config.fwBuild`
(DESIGN CHOICE, log entry 103: the spec does not say which slot holds it). -/
def Image.factory : Image where
  kind := 0
  level := 0
  version := BitVec.ofNat 32 (0x01040000 + Config.fwBuild.toNat)
  engineSet := Config.factoryImage
  engineMin := 0
  pairVer := 1
  key := none

/-- Firmware at reset: slot A runs the shipped image. -/
def FwState.initial : FwState where
  run := 0
  trial := false
  boots := 0
  trialStart := 0
  trialCfg := 0x00030258
  bootSlot := 0
  upload := none
  ready := false
  images := #v[some Image.factory, none, none, none]
  engineSet := Config.factoryImage
  pairVer := 1
  pendGroups := 0
  pendFloat := false
  activate := none
  cust := .disabled
  custResets := 0
  custLevel := 0
  custSlot := 0

/-- Fuses as shipped (19 R569), no seal failure. -/
def SecState.initial : SecState where
  wdtHwstart := Fuse.intact
  servicePortDisable := Fuse.intact
  customerCores := Fuse.intact
  debugLock := Fuse.intact
  loaded := true
  rollback := 0
  custKey := none
  sealFail := 0
  authFail := 0
  storeGen := 0

/-- Chapter 19 at reset. -/
def KeepState.initial : KeepState where
  nvm := NvmState.initial
  fw := FwState.initial
  sec := SecState.initial

end Sys2Proof.Machine
end

