-- ==== Sys2Proof/Machine/RailState.lean ====
section
/-! DEFINITION. The state of rails, sequencer, supplies, retention SRAM and the safety plane
(01 R13 to R21, 12). -/

namespace Sys2Proof.Machine

/-- UC_STATUS.STATE of 12 Table 12-12, in code order. -/
inductive RailRun where
  | off
  | rising
  | good
  | failed
  | fault
  | lowering
  deriving DecidableEq, Repr

/-- One undercoat rail or EX slot (12). -/
structure Rail where
  run : RailRun
  pg : Bool
  uv : Bool
  ov : Bool
  oc : Bool
  ot : Bool
  cause : BitVec 8
  faults : U16
  /-- Output in mV and output current in 10 mA, of the last housekeeping run. -/
  mv : U16
  amp : U16
  minMv : U16
  maxMv : U16
  /-- Instant at which it was enabled. -/
  enabledAt : Nanos
  /-- UC_CFG or EX_CFG as taken at the last rise or enable (12 R347, R373). -/
  cfg : Nat
  /-- Set output, mV, from which a change of the trim began to move it, and when (12 R347). -/
  setFrom : Option Rat
  setAt : Nanos
  deriving DecidableEq, Repr

/-- What the sequencer does. -/
inductive SeqRun where
  /-- No sequence has started since the always-on domain came up. -/
  | idle
  /-- Up-sequence, in `stage`. -/
  | up
  /-- Down-sequence, next stage below `stage`. -/
  | down
  /-- Waiting RETRY_WAIT_MS. -/
  | retryWait
  | lockout
  | complete
  /-- Hold-up: the safe state is taken and the flush runs. -/
  | holdUp
  deriving DecidableEq, Repr

/-- One entry of the sequencer table (12 Table 12-4). -/
structure SeqEntry where
  rail : Nat
  stage : Nat
  sleep : Bool
  critical : Bool
  deps : Nat
  riseMs : Nat
  delay : Nat
  deriving DecidableEq, Repr

/-- The sequencer table in the form of its fields (12 Tables 12-3 and 12-4). -/
structure SeqTable where
  stepEn : Bool
  retry : Nat
  gapUs : Nat
  stepTmoMs : Nat
  rideMs : Nat
  auxBo : Nat
  holdChg : Nat
  holdMin : Nat
  retryWaitMs : Nat
  entries : List SeqEntry
  deriving DecidableEq, Repr

/-- A rail fault record (12 Table 12-8). -/
structure RailFault where
  rtc : Nat
  rail : Nat
  cause : Nat
  stage : Nat
  attempt : Nat
  mv : Nat
  deriving DecidableEq, Repr

/-- A Plumb fault record. -/
structure PlumbRecord where
  cause : Nat
  time : Nat
  /-- FLUSH_SKIPPED (12 R368) or an abandoned drain (15 R405). -/
  flags : Nat
  deriving DecidableEq, Repr

/-- The sequencer and its store (12 R352 to R360). -/
structure Sequencer where
  run : SeqRun
  stage : Nat
  /-- The present stage has ended; the next has not started. -/
  stageEnded : Bool
  /-- Instant of the last stage start or end, retry, completion. -/
  since : Nanos
  retries : Nat
  /-- The present sequence is one of R360 (sleep) and not a whole one. -/
  sleepOnly : Bool
  stepAlone : Bool
  /-- This device holds STEP_N low. -/
  stepDriven : Bool
  /-- Level of the STEP_N line. -/
  stepLine : Bool
  /-- STEP_N has given its advance to the next stage. -/
  advanced : Bool
  /-- Table the running sequence uses. -/
  table : SeqTable
  /-- Table of the store, used by the next up-sequence. -/
  store : SeqTable
  /-- Body of 06:00 in the store, and the copy of the undercoat and EX parameters. -/
  storeBody : List Byte
  storeParams : Bank U64
  /-- After a down-sequence: what follows. -/
  after : SeqRun
  deriving DecidableEq, Repr

/-- Supplies into the device (12 R345, R346, R367, R370). -/
structure Supplies where
  /-- AUX is in its operating range. -/
  auxOk : Bool
  /-- AUX and HOLD in 0.1 V as last measured. -/
  aux : U16
  hold : U16
  kaOk : Bool
  onHold : Bool
  holdReady : Bool
  rideSince : Nanos
  deriving DecidableEq, Repr

/-- The safety plane. -/
structure Safety where
  /-- Safe-state causes present: bit c is code c of 20 Table 20-2. -/
  causes : BitVec 12
  /-- Instant of the last cause. -/
  lastCauseAt : Nanos
  cause : BitVec 8
  time : U64
  count : U32
  /-- This device drives FAULT_N low. -/
  driving : Bool
  /-- Another device holds FAULT_N low. -/
  external : Bool
  /-- The A-die clamps every D-die output (12 R349). -/
  clamp : Bool
  dieLinkUp : Bool
  /-- The D-die is out of reset; RESET_N is high. -/
  dieRunning : Bool
  bootSel0 : Bool
  deriving DecidableEq, Repr

/-- Retention SRAM (12 Table 12-7); the charge sessions, wake block and times it also holds are the
ports', the power state's and the estimator's own fields. -/
structure Retention where
  plumb : List PlumbRecord
  rail : List RailFault
  /-- Real-time counter at the last journal write. -/
  journalRtc : Nat
  /-- It has been lost since it was last read by a start. -/
  lost : Bool
  /-- Events that a hold-up could not flush: number, first and last device time (19 R503). -/
  evtLost : Option (Nat × Nat × Nat)
  deriving DecidableEq, Repr

/-- Chapter 12 and the safety plane. -/
structure PowerState where
  rails : Vector Rail 10
  slots : Vector Rail 16
  seq : Sequencer
  supply : Supplies
  safety : Safety
  keep : Retention
  /-- Instant at which the real-time counter was 0. -/
  rtcSince : Nanos
  /-- Instant of the last release of the D-die reset: device time counts from it (13 R378). -/
  releaseAt : Nanos
  deriving DecidableEq, Repr

/-- A rail at reset (12 Table 12-12). -/
def Rail.initial : Rail where
  run := .off
  pg := false
  uv := false
  ov := false
  oc := false
  ot := false
  cause := 0
  faults := 0
  mv := 0
  amp := 0
  minMv := 0
  maxMv := 0
  enabledAt := 0
  cfg := 0
  setFrom := none
  setAt := 0

/-- The built-in entries of 12 Table 12-5. -/
def builtInEntries : List SeqEntry :=
  [ ⟨1, 1, false, false, 0x01, 10, 0⟩, ⟨2, 1, true, true, 0x01, 10, 0⟩, ⟨3, 1, true, true, 0x01, 10, 0⟩,
    ⟨4, 2, true, true, 0x01, 10, 0⟩, ⟨7, 2, true, true, 0x04, 5, 0⟩, ⟨8, 2, true, true, 0x04, 5, 0⟩,
    ⟨9, 2, true, true, 0x08, 5, 0⟩, ⟨5, 3, true, true, 0x09, 10, 0⟩, ⟨6, 4, true, true, 0x21, 10, 0⟩ ]

/-- The built-in sequencer table (12 R355). -/
def SeqTable.builtIn : SeqTable where
  stepEn := true
  retry := 3
  gapUs := 200
  stepTmoMs := 100
  rideMs := 2
  auxBo := 165
  holdChg := 480
  holdMin := 400
  retryWaitMs := 1000
  entries := builtInEntries

/-- The sequencer: no sequence recorded. -/
def Sequencer.initial : Sequencer where
  run := .idle
  stage := 0
  stageEnded := false
  since := 0
  retries := 0
  sleepOnly := false
  stepAlone := false
  stepDriven := false
  stepLine := true
  advanced := false
  table := SeqTable.builtIn
  store := SeqTable.builtIn
  storeBody := []
  storeParams := []
  after := .idle

/-- Power and safety at reset of the D-die. -/
def PowerState.initial : PowerState where
  rails := Vector.replicate 10 Rail.initial
  slots := Vector.replicate 16 Rail.initial
  seq := Sequencer.initial
  supply :=
    { auxOk := true, aux := 0, hold := 0, kaOk := true, onHold := false, holdReady := false, rideSince := 0 }
  safety :=
    { causes := 0, lastCauseAt := 0, cause := 0, time := 0, count := 0, driving := false,
      external := false, clamp := false, dieLinkUp := true, dieRunning := true, bootSel0 := false }
  keep := { plumb := [], rail := [], journalRtc := 0, lost := false, evtLost := none }
  rtcSince := 0
  releaseAt := 0

end Sys2Proof.Machine
end

