-- ==== Sys2Proof/Machine/StringState.lean ====
section
/-! DEFINITION. The state of string ports and of the low-power states (06). -/

namespace Sys2Proof.Machine

/-- Profile states of 06 Table 6-3, in code order. -/
inductive ChargeRun where
  | idle
  | charging
  | paused
  | complete
  deriving DecidableEq, Repr

/-- One step of a charge profile (06 Table 6-6). -/
structure ProfileStep where
  kind : Nat
  iSet : Nat
  vCell : Nat
  endV : Nat
  endI : Nat
  endTs : Nat
  deriving DecidableEq, Repr

/-- Highest and lowest of a sweep (06 R170): 100 µV and 0.1 °C. -/
structure Extremes where
  vMax : Int
  vMin : Int
  tMax : Int
  tMin : Int
  deriving DecidableEq, Repr

/-- One string port (06). -/
structure Port where
  run : ChargeRun
  halfRate : Bool
  step : Nat
  /-- Safety-timer time, s. -/
  elapsed : Rat
  /-- Session charge, µC. -/
  session : Rat
  /-- Time in the step while CHARGING or PAUSED, s. -/
  stepTime : Rat
  /-- i_prof, 0.01 A. -/
  iProf : Rat
  /-- Evaluations in a row at or below END_I. -/
  endRun : Nat
  /-- Time with I_str above +1.00 A, s. -/
  disRun : Rat
  /-- Profile in force (none: NO_PROFILE), its index and the commit it came from. -/
  profile : Option (List ProfileStep)
  profileId : Nat
  profileCommit : Nat
  /-- PROFILE_RESTARTs waiting for the next evaluation. -/
  restart : List Req
  /-- Latched set, bits [6:0]. -/
  faults : BitVec 7
  first : Nat
  /-- STR_STATUS [7:0]. -/
  status : BitVec 8
  /-- v_max, v_min, t_max and t_min of the last sweep that gave any. -/
  seen : Option Extremes
  fc : Rat
  fd : Rat
  kHi : Rat
  kLo : Rat
  /-- Sweeps in a row with the condition of CELL_OV and CELL_DEEP. -/
  ovRun : Nat
  deepRun : Nat
  /-- A temperature input of the string reads open or short (R179). -/
  badSensor : Bool
  /-- Readings of the last 60 s: time, input (8 × module + place), 0.1 °C; newest first. -/
  temps : List (Nanos × Nat × Int)
  lastEval : Nanos
  deriving DecidableEq, Repr

/-- What the device as a whole does (06). -/
inductive PowerRun where
  | running
  | enteringSleep
  | enteringDustSheet
  | sleep
  | dustSheet
  | waking
  deriving DecidableEq, Repr

/-- The wake record of 06 Table 6-15. -/
structure WakeRecord where
  cause : Nat
  left : Nat
  seen : BitVec 16
  duration : Nat
  runTime : U64
  interrupted : Bool
  auxWait : Bool
  deriving DecidableEq, Repr

/-- The low-power states (06 R185 to R192). -/
structure LowPower where
  run : PowerRun
  keepCont : Bool
  mask : BitVec 16
  alarmS : U32
  enteredAt : Nanos
  /-- Real-time counter at the first source of the wake. -/
  first : Option Nat
  record : WakeRecord
  /-- Frames held during a wake: the transport and the whole frame. -/
  heldFrames : List (Via × List Byte)
  deriving DecidableEq, Repr

/-- Chapter 6. -/
structure ChargeState where
  ports : Vector Port 4
  low : LowPower
  deriving DecidableEq, Repr

/-- A port at reset. -/
def Port.initial : Port where
  run := .idle
  halfRate := false
  step := 0
  elapsed := 0
  session := 0
  stepTime := 0
  iProf := 0
  endRun := 0
  disRun := 0
  profile := none
  profileId := 0xFF
  profileCommit := 0
  restart := []
  faults := 0
  first := 0
  status := 0
  seen := none
  fc := 0
  fd := 0
  kHi := 0
  kLo := 0
  ovRun := 0
  deepRun := 0
  badSensor := false
  temps := []
  lastEval := 0

/-- Chapter 6 at reset: running, power-on without a low-power state. -/
def ChargeState.initial : ChargeState where
  ports := Vector.replicate 4 Port.initial
  low :=
    { run := .running, keepCont := false, mask := 0, alarmS := 0, enteredAt := 0, first := none,
      record := { cause := 0, left := 0, seen := 0, duration := 0, runTime := 0, interrupted := false,
                  auxWait := false },
      heldFrames := [] }

end Sys2Proof.Machine
end

