-- ==== Sys2Proof/Machine/SystemState.lean ====
section
/-! DEFINITION. The state of the watchdog, the interrupt controller, memory, the DMA channels and
the rings (15, 16). -/

namespace Sys2Proof.Machine

/-- WD_STATUS.STATE of 15 Table 15-5. -/
inductive WdRun where
  | off
  | running
  | suspended
  | paused
  deriving DecidableEq, Repr

/-- What the Hawk island does. -/
inductive Hawk where
  /-- Burpol runs. -/
  | running
  /-- Reset released; the Boot ROM has not yet started an image. -/
  | booting
  /-- Held in reset for 1 s (15 R407). -/
  | held
  /-- The Boot ROM's recovery loader runs (19 R511). -/
  | recovery
  /-- Unpowered: the D-die is in reset. -/
  | off
  deriving DecidableEq, Repr

/-- The watchdog (15 R403 to R412). -/
structure Watchdog where
  run : WdRun
  /-- Instant of the last restart of the count. -/
  restart : Nanos
  /-- Instant from which the count runs: that of the last restart, or of the last resumption after a suspension. -/
  resume : Nanos
  /-- What had been counted since the last restart when the count resumed, was suspended or was paused. -/
  counted : Nanos
  warned : Bool
  policy : Bool
  policySince : Nanos
  /-- RAMP has been applied under the policy in force. -/
  ramped : Bool
  consec : Nat
  kick0 : Bool
  kick1 : Bool
  longOp : Bool
  longOpSince : Nanos
  /-- Counting resumed with LONG_OP still asserted. -/
  longOpOver : Bool
  cntResets : U32
  lastCause : BitVec 8
  lastCores : BitVec 8
  withhold : Bool
  /-- Settings taken at the last restart: WD_CFG, WD_PERIOD_MS, WD_WARN_MS, WD_WIN_MIN_MS,
  WD_POLICY, WD_HOLD_S, WD_NVM_MAX_MS, WD_RESET_LIMIT, WD_CUST_PERIOD_MS. -/
  held : List Nat
  /-- IS201 is raised at the release of the Hawk reset. -/
  raiseAtRelease : Bool
  custBeat : Nanos
  /-- HC2 and HC3 are kept in reset: they are the customer's and no customer image runs (19 R519). -/
  custReset : Bool
  /-- Drains of the interconnect that had not ended after 100 µs, as the fault record counts them (15 R405). -/
  drainLost : Nat
  deriving DecidableEq, Repr

/-- One interrupt source (15 Tables 15-8, 15-9). -/
structure IrqSource where
  prio : BitVec 4
  fast : Bool
  en : Bool
  target : BitVec 4
  pin : BitVec 2
  pending : Bool
  active : Bool
  offered : Bool
  ovf : Bool
  core : Fin 4
  count : BitVec 8
  deriving DecidableEq, Repr

/-- What the controller holds for one core (15 R415 to R417). -/
structure IrqCore where
  /-- RUN: 0xFF while no source is active, 0x10 while a FAST source is. -/
  run : BitVec 8
  thr : BitVec 8
  /-- Sources claimed and still ACTIVE, most recent first, with the RUN held at the claim. -/
  stack : List (Nat × BitVec 8)
  offer : Option Nat
  deriving DecidableEq, Repr

/-- The interrupt controller (15 R413 to R424). -/
structure IrqState where
  /-- Sources that differ from an idle, unconfigured one. -/
  sources : Bank IrqSource
  cores : Vector IrqCore 4
  rot : Fin 4
  en : Bool
  eoiErr : Bool
  cfgErr : Bool
  swErr : Bool
  /-- Totals Burpol has folded: [30:0], with LOST in [31]. -/
  totals : Bank U32
  /-- The value the last controller read returned to a core. -/
  readData : U32
  deriving DecidableEq, Repr

/-- The kind of a core's exception (16 R428). -/
inductive MemCause where
  | bus
  | integrity
  | unwritten
  deriving DecidableEq, Repr

/-- The outcome of a core's last access. -/
structure CoreAccess where
  core : Fin 4
  /-- Bytes a load returned. -/
  data : List Byte
  /-- The precise exception taken, with the address of the access. -/
  exc : Option (MemCause × Nat)
  deriving DecidableEq, Repr

/-- DMA_STATUS.STATE of 16 Table 16-10. -/
inductive DmaRun where
  | idle
  | running
  | waitCring
  | halted
  deriving DecidableEq, Repr

/-- A transfer descriptor (16 Table 16-4). -/
structure DmaDesc where
  src : Nat
  dst : Nat
  len : Nat
  mode : Nat
  dir : Bool
  last : Bool
  irq : Bool
  esize : Nat
  tag : U16
  param : U32
  owner : BitVec 8
  deriving DecidableEq, Repr

/-- A completion entry waiting to be written (16 Table 16-5). -/
structure DmaEntry where
  tag : U16
  status : BitVec 8
  last : Bool
  irq : Bool
  bytes : Nat
  deriving DecidableEq, Repr

/-- One DMA channel (16 R437 to R443). -/
structure DmaChannel where
  en : Bool
  irqEn : Bool
  share : BitVec 8
  burst : BitVec 4
  cringLog2 : BitVec 4
  descLo : U32
  descHi : U32
  cringLo : U32
  cringHi : U32
  wr : U16
  rd : U16
  run : DmaRun
  cause : BitVec 8
  errAddr : Nat
  cnt : U32
  /-- Address of the descriptor in work. -/
  at_ : Nat
  desc : Option DmaDesc
  /-- Bytes of the descriptor done. -/
  done : Nat
  /-- A source granule read as unwritten. -/
  unwritten : Bool
  credit : Nat
  entry : Option DmaEntry
  /-- The channel goes to HALTED, or to IDLE, once the entry is written. -/
  haltAfter : Bool
  stopAfter : Bool
  /-- The channel's bits of DMA_KICK and DMA_HALT have been set since it was last idle (00 Table 0-4). -/
  kicked : Bool
  halted : Bool
  deriving DecidableEq, Repr

/-- Memory and its protection (16 R426 to R434). -/
structure MemState where
  /-- Bytes of SRAM, DRAM, engine memories and the MRAM window that are not 0. -/
  bytes : Bank Byte
  /-- Granules whose map bit reads WRITTEN, ascending. -/
  written : List Nat
  /-- Lines (by address / 64) whose tag or ECC fails until written. -/
  failing : List Nat
  cntCorr : U32
  cntUncorr : U32
  cntTagfail : U32
  cntUnwritten : U32
  firstErr : U32
  discardAddr : U32
  access : Option CoreAccess
  deriving DecidableEq, Repr

/-- Where a record of the ring writer goes (16 R448). -/
inductive RingDest where
  /-- Every EVENT ring. -/
  | everyEvent
  /-- O0's event ring, ring 1. -/
  | o0Event
  /-- Every EVENT ring of one owner. -/
  | ownerEvent (o : Fin 16)
  /-- O0's AUDIT rings. -/
  | audit
  /-- TELEMETRY rings with this SOURCE (kind and index bits). -/
  | telemetry (source : Nat)
  /-- CAPTURE rings with this SOURCE. -/
  | capture (source : Nat)
  /-- One ring by its ID. -/
  | ring (id : Nat)
  deriving DecidableEq, Repr

/-- A record on its way to the ring writer. -/
structure RingRecord where
  source : RingSource
  dest : RingDest
  /-- 64 bytes for each slot. -/
  bytes : List Byte
  deriving DecidableEq, Repr

/-- One ring (16 Table 16-12). -/
structure Ring where
  base : Nat
  sizeLog2 : Nat
  owner : Fin 16
  /-- 0 TELEMETRY, 1 EVENT, 2 CAPTURE, 3 COMPLETION, 4 AUDIT. -/
  kind : Nat
  stop : Bool
  fixed : Bool
  wr : U32
  rd : U32
  drop : U32
  notify : U32
  source : U32
  epoch : U32
  /-- Records from RD to WR, oldest first: first slot index and bytes. -/
  records : List (U32 × List Byte)
  /-- The fill has been at or above NOTIFY since the last raise. -/
  notified : Bool
  /-- Records discarded while its owner was RESETTING. -/
  dropLater : Nat
  /-- Next record of a COULOMB ring (R448). -/
  due : Nanos
  deriving DecidableEq, Repr

/-- Rings and the ring writer's queues. -/
structure RingState where
  rings : Bank Ring
  queue : List RingRecord
  /-- RING_NOTICE of 17 R469 already sent, by ring. -/
  noticed : List Nat
  deriving DecidableEq, Repr

/-- Everything of chapters 15 and 16. -/
structure SystemState where
  hawk : Hawk
  /-- Instant at which the Hawk island was held in reset. -/
  heldSince : Nanos
  /-- The D-die reset has been released and no image has started since. -/
  cold : Bool
  wd : Watchdog
  irq : IrqState
  mem : MemState
  dma : Vector DmaChannel 32
  dmaEn : Bool
  dmaTurn : Fin 32
  ring : RingState
  deriving DecidableEq, Repr

/-- The watchdog at reset: OFF. -/
def Watchdog.initial : Watchdog where
  run := .off
  restart := 0
  resume := 0
  counted := 0
  warned := false
  policy := false
  policySince := 0
  ramped := false
  consec := 0
  kick0 := false
  kick1 := false
  longOp := false
  longOpSince := 0
  longOpOver := false
  cntResets := 0
  lastCause := 0
  lastCores := 0
  withhold := false
  held := [3, 2000, 250, 0, 1, 60, 10000, 3, 1000]
  raiseAtRelease := false
  custBeat := 0
  custReset := false
  drainLost := 0

/-- A source at reset (TARGET of inter-core sources is fixed, 15 R419, and kept out of this). -/
def IrqSource.idle : IrqSource where
  prio := 0
  fast := false
  en := false
  target := 0
  pin := 0
  pending := false
  active := false
  offered := false
  ovf := false
  core := 0
  count := 0

/-- The interrupt controller at reset. -/
def IrqState.initial : IrqState where
  sources := []
  cores := Vector.replicate 4 { run := 0xFF, thr := 0xFF, stack := [], offer := none }
  rot := 0
  en := true
  eoiErr := false
  cfgErr := false
  swErr := false
  totals := []
  readData := 0

/-- A DMA channel at reset. -/
def DmaChannel.initial : DmaChannel where
  en := false
  irqEn := false
  share := 0x10
  burst := 0xF
  cringLog2 := 0x4
  descLo := 0
  descHi := 0
  cringLo := 0
  cringHi := 0
  wr := 0
  rd := 0
  run := .idle
  cause := 0
  errAddr := 0
  cnt := 0
  at_ := 0
  desc := none
  done := 0
  unwritten := false
  credit := 0
  entry := none
  haltAfter := false
  stopAfter := false
  kicked := false
  halted := false

/-- Memory at reset: zeroed, every granule unwritten. -/
def MemState.initial : MemState where
  bytes := []
  written := []
  failing := []
  cntCorr := 0
  cntUncorr := 0
  cntTagfail := 0
  cntUnwritten := 0
  firstErr := 0
  discardAddr := 0
  access := none

/-- One of the two rings that always exist (16 R450): 16 MB, OVERWRITE, FIXED, of O0. -/
def Ring.fixedOf (base kind : Nat) : Ring where
  base := base
  sizeLog2 := 24
  owner := 0
  kind := kind
  stop := false
  fixed := true
  wr := 0
  rd := 0
  drop := 0
  notify := 0
  source := 0
  epoch := 0
  records := []
  notified := false
  dropLater := 0
  due := 0

/-- Rings 0 and 1 (16 R450), at the last two blocks of the pool (DESIGN CHOICE, log entry 94: their place is not stated, and the worked
example of chapter 16 has a created ring at 0x4_0100). -/
def RingState.initial : RingState where
  rings := [(0, Ring.fixedOf 0x1BF000 4), (1, Ring.fixedOf 0x1BE000 1)]
  queue := []
  noticed := []

/-- Chapters 15 and 16 at reset; Burpol runs (DESIGN CHOICE, log entry 1). -/
def SystemState.initial : SystemState where
  hawk := .running
  heldSince := 0
  cold := false
  wd := Watchdog.initial
  irq := IrqState.initial
  mem := MemState.initial
  dma := Vector.replicate 32 DmaChannel.initial
  dmaEn := true
  dmaTurn := 0
  ring := RingState.initial

end Sys2Proof.Machine
end

