-- ==== Sys2Proof/Machine/TimeState.lean ====
section
/-! DEFINITION. The state of device time (13) and of the thermal, voltage and process monitors
(14). -/

namespace Sys2Proof.Machine

/-- TB_STATUS.STATE of 13 Table 13-6, in code order. -/
inductive TbRun where
  | free
  | acquiring
  | locked
  | holdover
  deriving DecidableEq, Repr

/-- The timebase (13). -/
structure Timebase where
  run : TbRun
  /-- Source in use: 0 none, 1 SRC1, 2 SRC2 of TB_CFG. -/
  src : Nat
  aligned : Bool
  alignPending : Bool
  /-- REFCLK is the reference in use. -/
  refclk : Bool
  /-- REF_SEL and REF_AUTO as the last release of the reset took them (13 R387). -/
  refSel : Bool
  refAuto : Bool
  refLost : Bool
  pllLock : Bool
  slewLimit : Bool
  /-- Device time minus elapsed time, ns: what steps and slews have added. -/
  step : Int
  /-- The last offset measured, ns. -/
  offset : Int
  /-- y, ppb. -/
  freq : Rat
  integ : Rat
  /-- Consecutive measurements inside TB_LOCK_TH. -/
  good : Nat
  /-- The slew profile of R381 is on. -/
  profile : Bool
  /-- y after each measurement of the last 64 s, newest first, with its instant. -/
  freqs : List (Nanos × Rat)
  lastMeas : Nanos
  stepLast : U64
  stepSize : U64
  ppsLast : U64
  cntSteps : U32
  cntLoss : U32
  ofsPeak : U32
  holdSince : Nanos
  refCnt : U32
  xtalOk : Bool
  refclkOk : Bool
  ppsPresent : Bool
  ptpPresent : Bool
  /-- Instant since which SRC1 has been present. -/
  src1Since : Option Nanos
  /-- Last qualified PPS_IN edge, and edges in a row more than 100 µs off. -/
  ppsAt : Option Nanos
  ppsOffRun : Nat
  /-- Offset of the last PTP measurement, ns. -/
  ptpOffset : Int
  ppsOut : Bool
  ppsOutAt : Nanos
  deriving DecidableEq, Repr

/-- TH_STATUS.STATE of 14 Table 14-5, in code order. -/
inductive ThRun where
  | normal
  | request
  | enforced
  | tripped
  deriving DecidableEq, Repr

/-- Temperature, voltage and process monitors (14). -/
structure Thermal where
  run : ThRun
  /-- Diode of the A-die, of the D-die, broken. -/
  brokenA : Bool
  brokenD : Bool
  nvmHold : Bool
  ageing : Bool
  /-- TJ_A and TJ_D, 0.1 °C. -/
  tjA : Int
  tjD : Int
  tjMax : Int
  /-- Samples of the A-die diode in the last 100 ms, newest first. -/
  winA : List Int
  graceSince : Option Nanos
  belowSince : Option Nanos
  belowTrip : Option Nanos
  /-- Corrected speeds of PM00 to PM15, 0.01%, and their raw counts. -/
  pvt : Vector Int 16
  pvtRaw : Vector Nat 16
  pvtWorst : Int
  pvtMean : Int
  avsOfs : Int
  cntDroop : U32
  cntTrips : U32
  hoursHot : U32
  /-- Instant since which Tj has been at 110 °C or above, and the hot time before it. -/
  hotSince : Option Nanos
  hotTime : Nanos
  /-- Second of the last IS198. -/
  droopSecond : Option Nat
  /-- The last evaluation, and the last count of the process monitors. -/
  evalAt : Nanos
  pvtAt : Nanos
  deriving DecidableEq, Repr

/-- Chapters 13 and 14. -/
structure ClockState where
  tb : Timebase
  th : Thermal
  deriving DecidableEq, Repr

/-- The timebase at reset: FREE. -/
def Timebase.initial : Timebase where
  run := .free
  src := 0
  aligned := false
  alignPending := false
  refclk := false
  refSel := false
  refAuto := true
  refLost := false
  pllLock := false
  slewLimit := false
  step := 0
  offset := 0
  freq := 0
  integ := 0
  good := 0
  profile := false
  freqs := []
  lastMeas := 0
  stepLast := 0
  stepSize := 0
  ppsLast := 0
  cntSteps := 0
  cntLoss := 0
  ofsPeak := 0
  holdSince := 0
  refCnt := 0
  xtalOk := true
  refclkOk := false
  ppsPresent := false
  ptpPresent := false
  src1Since := none
  ppsAt := none
  ppsOffRun := 0
  ptpOffset := 0
  ppsOut := false
  ppsOutAt := 0

/-- Monitors at reset. -/
def Thermal.initial : Thermal where
  run := .normal
  brokenA := false
  brokenD := false
  nvmHold := false
  ageing := false
  tjA := 0
  tjD := 0
  tjMax := 0
  winA := []
  graceSince := none
  belowSince := none
  belowTrip := none
  pvt := Vector.replicate 16 0
  pvtRaw := Vector.replicate 16 0
  pvtWorst := 0
  pvtMean := 0
  avsOfs := 0
  cntDroop := 0
  cntTrips := 0
  hoursHot := 0
  hotSince := none
  hotTime := 0
  droopSecond := none
  evalAt := 0
  pvtAt := 0

/-- Chapters 13 and 14 at reset. -/
def ClockState.initial : ClockState where
  tb := Timebase.initial
  th := Thermal.initial

end Sys2Proof.Machine
end

