-- ==== Sys2Proof/Machine/State.lean ====
section
/-! DEFINITION. The state of the whole block, the reasons a step can stop, and the state right after
the release of the D-die reset. -/

namespace Sys2Proof.Machine

/-- The block. -/
structure State where
  /-- Elapsed time, ns: monotonic, never reset; device time counts from `power.releaseAt`. -/
  clk : Nanos
  /-- The model's own field: number of the next draw of a free value. -/
  freeCtr : Nat
  /-- Owners, sessions, command record, parameters, tables (02). -/
  host : HostState
  /-- Phases, groups, pairs (03, 04, 05). -/
  conv : ConverterState
  /-- String ports, low-power states (06). -/
  chg : ChargeState
  /-- Feeds and contactors (07). -/
  bus : BusState
  /-- Converters, comparators, modulators, coulomb channels (08). -/
  meas : MeasureState
  /-- Chain, estimation, stipple (09, 10, 11). -/
  stack : StackState
  /-- Rails, sequencer, safety plane (01, 12). -/
  power : PowerState
  /-- Timebase and monitors (13, 14). -/
  clock : ClockState
  /-- Watchdog, interrupts, memory, DMA, rings (15, 16). -/
  sys : SystemState
  /-- Ethernet, streams, two-wire (17). -/
  link : LinkState
  /-- Service port (18). -/
  port : ServicePort
  /-- MRAM, fuses, firmware, keys (19). -/
  nv : KeepState
  /-- Commands waiting, first in first out. -/
  pending : List Instr
  deriving DecidableEq, Repr

/-- Reasons for which a command would stop the block. There is none: the spec answers every command
with a status or an effect, so no step faults. -/
inductive Fault where
  deriving DecidableEq, Repr

/-- Reasons for which the model has no meaning for a command. -/
inductive Refusal where
  /-- The row has no meaning in this model yet: raised by its arm of `exec` alone. Safe: the model
  stops where the hardware goes on. -/
  | notModelled (mnemonic : String)
  deriving DecidableEq, Repr

/-- Right after the release of the D-die reset with Burpol running (log entry 1). -/
def State.reset : State where
  clk := 0
  freeCtr := 0
  host := HostState.initial
  conv := ConverterState.initial
  chg := ChargeState.initial
  bus := BusState.initial
  meas := MeasureState.initial
  stack := StackState.initial
  power := PowerState.initial
  clock := ClockState.initial
  sys := SystemState.initial
  link := LinkState.initial
  port := ServicePort.initial
  nv := KeepState.initial
  pending := []

end Sys2Proof.Machine
end

