-- ==== Sys2Proof/Machine/Ops.lean ====
section
/-! DEFINITION. The named operations that many commands share: access to the parts of the state,
parameters, interrupts, records, the audit trail, responses, and the life of a command. -/

namespace Sys2Proof.Machine

/-- A meaning's outcome: the block always goes on. -/
abbrev Out := Host.Outcome State Fault Refusal

/-- A change of one element of a vector. -/
def vmod {α : Type} {n : Nat} (v : Vector α n) (i : Fin n) (f : α → α) : Vector α n :=
  v.set i.val (f v[i.val]) i.isLt

/-- Changes the part behind the mailboxes. -/
def State.modHost (f : HostState → HostState) (s : State) : State := { s with host := f s.host }
/-- Changes phases, groups, pairs. -/
def State.modConv (f : ConverterState → ConverterState) (s : State) : State := { s with conv := f s.conv }
/-- Changes string ports and low-power states. -/
def State.modChg (f : ChargeState → ChargeState) (s : State) : State := { s with chg := f s.chg }
/-- Changes feeds and contactors. -/
def State.modBus (f : BusState → BusState) (s : State) : State := { s with bus := f s.bus }
/-- Changes the measurement part. -/
def State.modMeas (f : MeasureState → MeasureState) (s : State) : State := { s with meas := f s.meas }
/-- Changes the chain. -/
def State.modChain (f : ChainState → ChainState) (s : State) : State :=
  { s with stack := { s.stack with chain := f s.stack.chain } }
/-- Changes estimation. -/
def State.modEst (f : EstState → EstState) (s : State) : State :=
  { s with stack := { s.stack with est := f s.stack.est } }
/-- Changes stipple sweeps. -/
def State.modStp (f : StippleState → StippleState) (s : State) : State :=
  { s with stack := { s.stack with stp := f s.stack.stp } }
/-- Changes rails, sequencer and safety plane. -/
def State.modPower (f : PowerState → PowerState) (s : State) : State := { s with power := f s.power }
/-- Changes the safety plane. -/
def State.modSafety (f : Safety → Safety) (s : State) : State :=
  s.modPower (fun p => { p with safety := f p.safety })
/-- Changes the timebase. -/
def State.modTb (f : Timebase → Timebase) (s : State) : State :=
  { s with clock := { s.clock with tb := f s.clock.tb } }
/-- Changes the monitors. -/
def State.modTh (f : Thermal → Thermal) (s : State) : State :=
  { s with clock := { s.clock with th := f s.clock.th } }
/-- Changes watchdog, interrupts, memory, DMA and rings. -/
def State.modSys (f : SystemState → SystemState) (s : State) : State := { s with sys := f s.sys }
/-- Changes the links. -/
def State.modLink (f : LinkState → LinkState) (s : State) : State := { s with link := f s.link }
/-- Changes the service port. -/
def State.modSp (f : ServicePort → ServicePort) (s : State) : State := { s with port := f s.port }
/-- Changes MRAM, firmware and keys. -/
def State.modNv (f : KeepState → KeepState) (s : State) : State := { s with nv := f s.nv }

/-- One phase. -/
def State.phase (s : State) (p : Fin 64) : Phase := s.conv.phases[p.val]
/-- One group. -/
def State.group (s : State) (g : Fin 8) : Group := s.conv.groups[g.val]
/-- One owner. -/
def State.owner (s : State) (o : Fin 16) : Owner := s.host.owners[o.val]
/-- One feed. -/
def State.feed (s : State) (f : Fin 2) : Feed := s.bus.feeds[f.val]
/-- One contactor. -/
def State.cont (s : State) (p : Fin 4) : Contactor := s.bus.conts[p.val]
/-- One string port. -/
def State.strPort (s : State) (p : Fin 4) : Port := s.chg.ports[p.val]

/-- Changes one phase. -/
def State.modPhase (p : Fin 64) (f : Phase → Phase) (s : State) : State :=
  s.modConv (fun c => { c with phases := vmod c.phases p f })
/-- Changes one group. -/
def State.modGroup (g : Fin 8) (f : Group → Group) (s : State) : State :=
  s.modConv (fun c => { c with groups := vmod c.groups g f })
/-- Changes one owner. -/
def State.modOwner (o : Fin 16) (f : Owner → Owner) (s : State) : State :=
  s.modHost (fun h => { h with owners := vmod h.owners o f })
/-- Changes one feed. -/
def State.modFeed (i : Fin 2) (f : Feed → Feed) (s : State) : State :=
  s.modBus (fun b => { b with feeds := vmod b.feeds i f })
/-- Changes one contactor. -/
def State.modCont (i : Fin 4) (f : Contactor → Contactor) (s : State) : State :=
  s.modBus (fun b => { b with conts := vmod b.conts i f })
/-- Changes one string port. -/
def State.modStrPort (i : Fin 4) (f : Port → Port) (s : State) : State :=
  s.modChg (fun c => { c with ports := vmod c.ports i f })

/-- Every group in turn. -/
def State.eachGroup (f : Fin 8 → State → State) (s : State) : State :=
  (List.finRange 8).foldl (fun t g => f g t) s
/-- Every phase in turn. -/
def State.eachPhase (f : Fin 64 → State → State) (s : State) : State :=
  (List.finRange 64).foldl (fun t p => f p t) s

/-- Device time, ns (13 R378): time since the release of the D-die reset, and the steps made. -/
def State.now (s : State) : Nat := ((s.clk - s.power.releaseAt : Nat) + s.clock.tb.step : Int).toNat

/-- The clock raised to an instant, so that a time-out row falls no earlier than its deadline
(DESIGN CHOICE, log entry 4). -/
def State.atLeast (t : Nanos) (s : State) : State := { s with clk := max s.clk t }

/-- The clock at a device time. -/
def State.atDevice (t : Nat) (s : State) : State := s.atLeast (s.power.releaseAt + nat0 ((t : Int) - s.clock.tb.step))

/-- The value of a parameter as stored (02 R48); owner parameters live with the owner. Read-only
parameters other than the owners' are computed in `Machine/ReadOnly.lean`. -/
def State.param (s : State) (id : Nat) : Nat :=
  if isOwnerParam id then
    let o := s.host.owners[(id - 0x100) / 6 % 16]'(Nat.mod_lt _ (by decide))
    match (id - 0x100) % 6 with
    | 0 => o.priv.toNat
    | 1 => o.qdepth.toNat
    | 2 => o.transports.toNat
    | 3 => o.ringQuota.toNat
    | 4 => o.epoch.toNat
    | _ => (match o.state with | .unprovisioned => 0 | .provisioned => 1 | .attached => 2 | .resetting => 3)
  else ((bankGet? id s.host.params.values).map (·.toNat)).getD (paramDefault id)

/-- The value as the number its type gives. -/
def State.paramI (s : State) (id : Nat) : Int :=
  if typeSigned (paramType id) then signedOf (typeWidth (paramType id)) (s.param id) else (s.param id : Int)

/-- The value of an f32 or q16.16 parameter as a rational. -/
def State.paramQ (s : State) (id : Nat) : Rat :=
  if paramType id = 6 then (signedOf 32 (s.param id) : Rat) / 65536 else f32Rat (s.param id)

/-- Stores one parameter other than an owner parameter, in canonical form. -/
def State.setParam (id v : Nat) (s : State) : State :=
  s.modHost (fun h =>
    { h with params := { h.params with
        values := bankSet (BitVec.ofNat 64 (paramDefault id)) id (BitVec.ofNat 64 v) h.params.values } })

/-- ID of parameter k of phase p. -/
def phId (p : Fin 64) (k : Nat) : Nat := 0x0400 + p.val * 16 + k
/-- ID of parameter k of group g. -/
def grId (g : Fin 8) (k : Nat) : Nat := 0x0800 + g.val * 32 + k
/-- ID of parameter k of string port s. -/
def stId (p : Fin 4) (k : Nat) : Nat := 0x0900 + p.val * 16 + k
/-- ID of parameter k of feed f. -/
def fdId (f : Fin 2) (k : Nat) : Nat := 0x0A00 + f.val * 12 + k
/-- ID of parameter k of the contactor of string port s. -/
def ctId (p : Fin 4) (k : Nat) : Nat := 0x0A18 + p.val * 4 + k
/-- ID of parameter k of module position m. -/
def moId (m : Fin 64) (k : Nat) : Nat := 0x0C00 + m.val * 4 + k

/-- The value an engine holds: picked up at the instant that its chapter gives (02 R52; 03 R69, 04 R100 and the like). -/
def State.held (s : State) (id : Nat) : Nat :=
  ((bankGet? id s.host.params.engine).map (·.toNat)).getD (paramDefault id)

/-- The signed value an engine holds. -/
def State.heldI (s : State) (id : Nat) : Int :=
  if typeSigned (paramType id) then signedOf (typeWidth (paramType id)) (s.held id) else (s.held id : Int)

/-- The value of an f32 or q16.16 parameter that an engine holds. -/
def State.heldQ (s : State) (id : Nat) : Rat :=
  if paramType id = 6 then (signedOf 32 (s.held id) : Rat) / 65536 else f32Rat (s.held id)

/-- The engine takes the stored value of a parameter. -/
def ParamState.pick (id : Nat) (p : ParamState) : ParamState :=
  { p with engine :=
      match bankGet? id p.values with
      | some v => bankSet (BitVec.ofNat 64 (paramDefault id)) id v p.engine
      | none => bankDrop id p.engine }

/-- An engine takes one parameter. -/
def State.pickParam (id : Nat) (s : State) : State :=
  s.modHost (fun h => { h with params := h.params.pick id })

/-- The group's phases (04 R91): those whose PH_GROUP, as their channels hold it (03 R69), is g. -/
def State.phasesOf (s : State) (g : Fin 8) : List (Fin 64) :=
  (List.finRange 64).filter (fun p => s.held (phId p 1) == g.val)

/-- The group of a phase. -/
def State.groupOf (s : State) (p : Fin 64) : Fin 8 := Fin.ofNat 8 (s.held (phId p 1))

/-- Code of a mode, 04 Table 4-1. -/
def Mode.code : Mode → Nat
  | .off => 0 | .standby => 1 | .precharge => 2 | .power => 3 | .busVoltage => 4 | .stringCurrent => 5 | .fault => 7

/-- The mode a code names. -/
def Mode.ofCode : Nat → Mode
  | 1 => .standby | 2 => .precharge | 3 => .power | 4 => .busVoltage | 5 => .stringCurrent | 7 => .fault | _ => .off

/-- The power modes of 04 Table 4-1. -/
def Mode.isPower (m : Mode) : Bool := m == .power || m == .busVoltage || m == .stringCurrent

/-- OFF or STANDBY. -/
def Mode.isQuiet (m : Mode) : Bool := m == .off || m == .standby

/-- The group's phases may switch. -/
def Mode.isSwitching (m : Mode) : Bool := m.isPower || m == .precharge

/-- Every group is in OFF or STANDBY. -/
def State.allQuiet (s : State) : Bool := s.conv.groups.toList.all (fun g => g.mode.isQuiet)

/-- Table TT:II as committed, when it is present and its seal is good (02 R57). -/
def State.tableOf (s : State) (ty ix : Nat) : Option Table :=
  match bankGet? (ty * 256 + ix) s.host.tables with
  | some t => if t.sealOk then some t else none
  | none => none

/-- The fields of a table header as stored (02 Table 2-12). -/
def TableHeader.bytes (h : TableHeader) : List Byte :=
  [h.type, h.index] ++ leBytes 2 h.version.toNat ++ leBytes 4 h.length.toNat ++ leBytes 4 h.crc.toNat ++ leBytes 4 h.flags.toNat

/-- The table that a consumer takes at its next point: the one that arrives, else the one in force (02 R58). -/
def State.nextTable (s : State) (ty ix : Nat) : Option Table :=
  match bankGet? (ty * 256 + ix) s.host.arriving with
  | some t => some t
  | none => s.tableOf ty ix

/-- Table 0B:00 is present and its seal is good. -/
def State.limitSetPresent (s : State) : Bool := (s.tableOf 0x0B 0).isSome

/-! ### Interrupts (15) -/

/-- A source as it stands. -/
def IrqState.src (q : IrqState) (n : Nat) : IrqSource := bankGet IrqSource.idle n q.sources

/-- Changes one source, keeping the bank canonical. -/
def IrqState.modSrc (n : Nat) (f : IrqSource → IrqSource) (q : IrqState) : IrqState :=
  { q with sources := bankSet IrqSource.idle n (f (q.src n)) q.sources }

/-- One raise of a source (15 R414). -/
def IrqSource.raise (x : IrqSource) : IrqSource :=
  let y := if x.count.toNat = 255 then { x with ovf := true } else { x with count := x.count + 1#8 }
  if y.en then { y with pending := true } else y

/-- A raise of source n (15 R414). -/
def State.raise (n : Nat) (s : State) : State :=
  s.modSys (fun y => { y with irq := y.irq.modSrc n IrqSource.raise })

/-- A raise that happens only when a condition holds. -/
def State.raiseIf (b : Bool) (n : Nat) (s : State) : State := if b then s.raise n else s

/-! ### Rings, records and the event log (16, 19) -/

/-- A ring takes the records of a destination (16 R448). -/
def State.ringTakes (s : State) (d : RingDest) (id : Nat) (r : Ring) : Bool :=
  match d with
  | .everyEvent => r.kind == 1 && (s.owner r.owner).priv.getLsbD 0
  | .o0Event => id == 1
  | .ownerEvent o => r.kind == 1 && r.owner == o
  | .audit => r.kind == 4
  | .telemetry k => r.kind == 0 && r.source.toNat % 65536 == k
  | .capture k => r.kind == 2 && r.source.toNat % 65536 == k
  | .ring i => id == i

/-- Hands a record to the ring writer; a full queue discards it and counts it (16 R454). -/
def State.emit (src : RingSource) (d : RingDest) (bytes : List Byte) (s : State) : State :=
  let rs := s.sys.ring
  if (rs.queue.filter (fun x => x.source == src)).length < 16 then
    s.modSys (fun y => { y with ring := { rs with queue := rs.queue ++ [⟨src, d, bytes⟩] } })
  else
    s.modSys (fun y => { y with ring := { rs with
      rings := rs.rings.map (fun e => if s.ringTakes d e.1 e.2 then (e.1, { e.2 with drop := satInc e.2.drop }) else e) } })

/-- 64 bytes: the given ones, then zeros. -/
def pad64 (bs : List Byte) : List Byte := bs.take 64 ++ zeros (64 - bs.length)

/-- An event record: CODE, VER 0x01, then the code's own bytes (16 R448). -/
def eventRec (code : Nat) (body : List Byte) : List Byte := pad64 (leBytes 1 code ++ [1#8] ++ body)

/-- Bytes of MRAM a record takes: whole 64-byte lines with its header (19 Table 19-2). -/
def nvmBytes (n : Nat) : Nat := (16 + n + 63) / 64 * 64

/-- EVENT, AUDIT and FAULT records (19 R504). -/
def isLogType (t : Byte) : Bool := t == 0x20#8 || t == 0x21#8 || t == 0x22#8

/-- An entry to the SRAM event queue of 1,024; a loss is counted (19 R503). -/
def NvmState.enqueue (now : Nat) (w : NvmWrite) (n : NvmState) : NvmState :=
  if n.queue.length < 1024 then { n with queue := n.queue ++ [w] }
  else
    { n with
      cntEvtLost := satInc n.cntEvtLost
      lost := match n.lost with
        | none => some (1, now, now)
        | some (k, a, _) => some (k + 1, a, now) }

/-- Fill of the deferral buffer (19 R504). -/
def NvmState.fill (n : NvmState) : Nat := (n.waiting.map (fun w => nvmBytes w.payload.length)).sum

/-- The oldest waiting log record moves to the event queue when the buffer is over 256 KB
(19 R504). -/
def NvmState.spill (now : Nat) (n : NvmState) : NvmState :=
  if n.fill ≤ 262144 then n
  else match n.waiting.find? (fun w => isLogType w.type) with
    | none => n
    | some w => ({ n with waiting := n.waiting.erase w }).enqueue now w

/-- A record on its way to MRAM: events that arrive while another record waits go to the event queue
(19 R503); while writes are held, everything waits in the deferral buffer, a newer record of the same
type and key taking the place of the older (R504). -/
def NvmState.put (held : Bool) (now : Nat) (w : NvmWrite) (n : NvmState) : NvmState :=
  if held then
    ({ n with waiting := n.waiting.filter (fun x : NvmWrite => isLogType x.type || !(x.type == w.type && x.key == w.key)) ++ [w] }).spill now
  else if isLogType w.type && !n.waiting.isEmpty then n.enqueue now w
  else { n with waiting := n.waiting ++ [w] }

/-- Writes of MRAM are held back by temperature (14 R397). -/
def State.nvmHeld (s : State) : Bool := s.clock.th.nvmHold

/-- Hands a record to the NVM controller. -/
def State.store (type key : Nat) (payload : List Byte) (s : State) : State :=
  s.modNv (fun k => { k with nvm := k.nvm.put s.nvmHeld s.now ⟨BitVec.ofNat 8 type, BitVec.ofNat 16 key, payload⟩ })

/-- An event record to a destination, kept in the MRAM event log too (16 R448, 19 Table 19-3;
DEDUCED, log entry 20). -/
def State.event (src : RingSource) (d : RingDest) (code : Nat) (body : List Byte) (s : State) : State :=
  (s.emit src d (eventRec code body)).store 0x20 0 (eventRec code body)

/-- A record that the spec names and does not lay out: all its bytes are free. -/
def State.freeBytes (s : State) (n : Nat) : List Byte := (List.range n).map (Config.freeByte s.freeCtr)

/-- Such a record to a destination. -/
def State.openEvent (src : RingSource) (d : RingDest) (s : State) : State :=
  let b := s.freeBytes 64
  (({ s with freeCtr := s.freeCtr + 1 } : State).emit src d b).store 0x20 0 b

/-- A record for MRAM whose n payload bytes the spec does not lay out. -/
def State.storeOpen (type key n : Nat) (s : State) : State :=
  let b := s.freeBytes n
  ({ s with freeCtr := s.freeCtr + 1 } : State).store type key b

/-- An audit record (16 R450), also in the MRAM event log. -/
def auditRec (owner status opcode tag : Nat) (time : Nat) (seq : Nat) (content : List Byte) : List Byte :=
  pad64 ([0xA0#8, 1#8] ++ leBytes 1 owner ++ leBytes 1 status ++ leBytes 2 opcode ++ leBytes 2 tag ++
    leBytes 8 time ++ leBytes 4 seq ++ content.take 44)

/-- Writes an audit record. -/
def State.audit (owner status opcode tag seq : Nat) (content : List Byte) (s : State) : State :=
  let b := auditRec owner status opcode tag s.now seq content
  (s.emit .burpol .audit b).store 0x21 0 b

/-- A byte of SRAM or DRAM, 0 where none is listed. -/
def MemState.byte (m : MemState) (a : Nat) : Byte := bankGet 0#8 a m.bytes

/-- Stores bytes at successive addresses. -/
def MemState.storeBytes : List Byte → Nat → MemState → MemState
  | [], _, m => m
  | b :: bs, a, m => MemState.storeBytes bs (a + 1) { m with bytes := bankSet 0#8 a b m.bytes }

/-! ### Responses (02 R42) -/

/-- Statuses of 02 Table 2-6. -/
def stDone : Nat := 0x00
/-- Accepted and waiting. -/
def stQueued : Nat := 0x01
/-- Took effect, reduced or deferred in part. -/
def stPartial : Nat := 0x02
/-- The object is busy. -/
def stBusy : Nat := 0x10
/-- A higher-priority holder has the object. -/
def stPriority : Nat := 0x11
/-- Unknown opcode. -/
def stOpcode : Nat := 0x20
/-- Field, item, range or CRC wrong. -/
def stValue : Nat := 0x21
/-- Not possible in the present state. -/
def stState : Nat := 0x22
/-- Privilege or transport missing. -/
def stPermit : Nat := 0x23
/-- GCM tag wrong. -/
def stAuth : Nat := 0x24
/-- Sequence number or tag rejected. -/
def stSequence : Nat := 0x25
/-- Aborted by an owner reset. -/
def stAbReset : Nat := 0x30
/-- Aborted: the function was disabled. -/
def stAbDisabled : Nat := 0x31
/-- Aborted by a fault or a watchdog reset. -/
def stAbFault : Nat := 0x32
/-- Aborted by a firmware update. -/
def stAbUpdate : Nat := 0x33
/-- Read of memory never written. -/
def stUnwritten : Nat := 0x40
/-- Non-volatile memory cannot hold what was asked. -/
def stMedia : Nat := 0x41
/-- Held back by a temperature window. -/
def stTemp : Nat := 0x50

/-- Common details of 02 Table 2-8. -/
def dtReserved : Nat := 0x0002
/-- LENGTH. -/
def dtLength : Nat := 0x0003
/-- PARAM_ID. -/
def dtParamId : Nat := 0x0010
/-- READ_ONLY. -/
def dtReadOnly : Nat := 0x0011
/-- RANGE. -/
def dtRange : Nat := 0x0012
/-- TYPE. -/
def dtType : Nat := 0x0013
/-- QUOTA_SUM. -/
def dtQuotaSum : Nat := 0x0014
/-- GROUP_STATE. -/
def dtGroupState : Nat := 0x0015
/-- LEASE_EXPIRED. -/
def dtLeaseExpired : Nat := 0x0016
/-- EPOCH. -/
def dtEpoch : Nat := 0x0017
/-- NVM_DEFERRED. -/
def dtNvmDeferred : Nat := 0x0030
/-- ENGINE_DEFERRED. -/
def dtEngineDeferred : Nat := 0x0031

/-- DONE with a payload. -/
def done (payload : List Byte := []) : Reply := ⟨stDone, 0, 0, payload⟩

/-- PARTIAL with its reason. -/
def partial_ (limit detail : Nat) (payload : List Byte := []) : Reply := ⟨stPartial, limit, detail, payload⟩

/-- The transport that carried a request is up. -/
def State.transportUp (s : State) (v : Via) : Bool :=
  match v.transport with
  | .smuAuth | .smuCrc => (s.link.eth[v.port.val]).up && (s.link.eth[v.port.val]).set.ip != 0
  | .tw0 => s.link.tw.address.isSome
  | .uart => s.port.alt

/-- A response frame (02 Table 2-4). -/
def responseOf (r : Req) (opcode : Nat) (a : Reply) : Response where
  owner := r.owner
  via := r.via
  raw := none
  tag := r.tag
  seq := r.seq
  notifyQueued := r.notifyQueued
  noReply := r.noReply
  opcode := BitVec.ofNat 16 opcode
  status := BitVec.ofNat 8 a.status
  limit := BitVec.ofNat 8 a.limit
  detail := BitVec.ofNat 16 a.detail
  payload := a.payload
  crcOnly := a.status == stAuth
  notice := false
  wire := []

/-- Header bytes 0 to 3 of a response: the request's (02 Table 2-4). -/
def Response.head (x : Response) : List Byte :=
  match x.raw with
  | some w => leBytes 4 w.toNat
  | none =>
    [2#8] ++ leBytes 1 x.owner.val ++
      leBytes 2 (x.tag.toNat + fieldAt 12 1 (flag x.notifyQueued) + fieldAt 13 1 (flag x.noReply) + fieldAt 14 1 (flag x.notice))

/-- Header bytes 0 to 11 of a response (02 Table 2-4). -/
def Response.header (x : Response) : List Byte :=
  x.head ++
    leBytes 2 x.opcode.toNat ++ leBytes 2 x.payload.length ++ leBytes 1 x.status.toNat ++
    leBytes 1 x.limit.toNat ++ leBytes 2 x.detail.toNat

/-- KIND of 17 Table 17-6. -/
def Response.kind (x : Response) : Nat := if x.notice then 3 else if x.status.toNat = stQueued then 1 else 2

/-- The frame of a response before it is sealed, with its CRC-32C where the transport carries one (02 R35). -/
def Response.frame (x : Response) : List Byte :=
  let crc := if x.via.transport == .smuAuth && !x.crcOnly then zeros 4
    else leBytes 4 (crc32c (x.header ++ x.payload)).toNat
  x.header ++ crc ++ x.payload

/-- The bytes of a response on its transport: on authenticated SMU the payload is sealed and the tag follows (02 R35, 17 R467). -/
def State.wireOf (s : State) (x : Response) : List Byte :=
  if x.via.transport == .smuAuth && !x.crcOnly then
    let k := (s.owner x.owner).frameKey x.owner (x.opcode == 0x0E01#16)
    let nonce := smuNonce k.2 x.owner.val x.kind x.seq.toNat
    let c := gcmText k.1 nonce x.payload
    x.header ++ zeros 4 ++ c ++ gcmTag k.1 nonce x.header c
  else x.frame

/-- The owner's COMPLETION ring. -/
def State.completionRing (s : State) (o : Fin 16) : Option Nat :=
  (s.sys.ring.rings.find? (fun e => e.2.kind == 3 && e.2.owner == o)).map (·.1)

/-- TW0 receives a frame for the host: queue of 32, a cause bit, and an attention write starts when ATTN_EN is set and
none is pending (17 R474, R476). -/
def TwoWire.push (attnEn : Bool) (cause : BitVec 8) (x : Response) (w : TwoWire) : TwoWire :=
  { w with
    queue := if w.queue.length < 32 then w.queue ++ [x] else w.queue
    attnCause := w.attnCause ||| cause
    attn := w.attn || attnEn }

/-- Largest UDP payload of a port (17 R457). -/
def EthPort.maxUdp (x : EthPort) : Nat := if x.set.cfg.getLsbD 5 then 9170 else 1472

/-- The ports form a PRP pair (17 R464). -/
def LinkState.prp (l : LinkState) : Bool := (l.eth[0]).set.cfg.getLsbD 4

/-- VID and PCP that a port tags its frames with (17 R458). -/
def EthPort.tag (x : EthPort) : Option (Nat × Nat) :=
  if x.set.vlan.getLsbD 15 then some (x.set.vlan.toNat % 4096, x.set.vlan.toNat / 4096 % 8) else none

/-- n frames leave a port; under PRP both ports, with one more sequence number each and LanId A on port 0 (17 R458, R464). -/
def LinkState.transmit (q : Fin 2) (n : Nat) (l : LinkState) : LinkState :=
  let count (x : EthPort) : EthPort := { x with cntTx := x.cntTx + BitVec.ofNat 32 n }
  if l.prp then
    { l with
      eth := l.eth.map count, prpSeq := l.prpSeq + BitVec.ofNat 16 n
      frames := l.frames ++ (List.range n).flatMap (fun i =>
        (List.finRange 2).map (fun k => ⟨k, (l.eth[k.val]).tag, some (l.prpSeq + BitVec.ofNat 16 i, k)⟩)) }
  else { l with eth := vmod l.eth q count, frames := l.frames ++ List.replicate n ⟨q, (l.eth[q.val]).tag, none⟩ }

/-- PTP messages leave one port, without a redundancy control trailer (17 R464). -/
def LinkState.transmitPtp (q : Fin 2) (n : Nat) (l : LinkState) : LinkState :=
  { l with
    eth := vmod l.eth q (fun x => { x with cntTx := x.cntTx + BitVec.ofNat 32 n })
    frames := l.frames ++ List.replicate n ⟨q, (l.eth[q.val]).tag, none⟩ }

/-- Datagrams that carry a frame of n bytes: one, or segments (17 R466). -/
def EthPort.datagrams (x : EthPort) (n : Nat) : Nat :=
  if n ≤ x.maxUdp then 1 else (n + x.maxUdp - 9) / (x.maxUdp - 8)

/-- Segment i of COUNT of a frame, M bytes at most in each (17 Table 17-5). -/
def segmentOf (msgId : U16) (count m i : Nat) (w : List Byte) : List Byte :=
  [0x53#8] ++ leBytes 1 (i + 16 * count) ++ leBytes 2 msgId.toNat ++ leBytes 2 (i * m) ++ leBytes 2 w.length ++ (w.drop (i * m)).take m

/-- A mailbox frame leaves over SMU: one datagram, or segments under one MSG_ID to the address and port of the request (17 R465, R466;
the MSG_IDs count up: DESIGN CHOICE, log entry 136). -/
def LinkState.smuSend (v : Via) (w : List Byte) (l : LinkState) : LinkState :=
  let x := l.eth[v.port.val]
  let n := x.datagrams w.length
  let parts := if n = 1 then [w] else (List.range n).map (fun i => segmentOf l.msgId n (x.maxUdp - 8) i w)
  ({ l with
      out := l.out ++ parts.map (fun b => EthOut.smu v.port v.addr v.udp b)
      msgId := if n = 1 then l.msgId else l.msgId + 1#16 } : LinkState).transmit v.port n

/-- Sends a frame the device has formed (02 R42, 17 R465, R466, R469, R474). -/
def State.send (x : Response) (s : State) : State :=
  let w := s.wireOf x
  let x := { x with wire := w }
  if s.transportUp x.via then
    match x.via.transport with
    | .tw0 =>
      s.modLink (fun l => { l with tw := l.tw.push (bitAt (s.param 0x1A20) 0) (if x.notice then 2 else 1) x })
    | .uart => s.modHost (fun h => { h with sent := h.sent ++ [x] })
    | _ =>
      (s.modHost (fun h => { h with sent := h.sent ++ [x] })).modLink (LinkState.smuSend x.via w)
  else if x.notice then s
  else match s.completionRing x.owner with
    | some id => s.emit .burpol (.ring id) (x.frame ++ zeros ((64 - x.frame.length % 64) % 64))
    | none => s

/-- A response under the NO_REPLY rule of 02 R42; `raw` holds bytes 0 to 3 of the request where they are not those of a
request that passed check 4. -/
def State.answer (raw : Option U32) (r : Req) (opcode : Nat) (a : Reply) (s : State) : State :=
  let s := if a.status == stAuth then
      s.modNv (fun k => { k with sec := { k.sec with authFail := satInc k.sec.authFail } }) else s
  if r.noReply && a.status ≤ stPartial then s else s.send { responseOf r opcode a with raw := raw }

/-- The response to a request (02 R42). -/
def State.respond (r : Req) (opcode : Nat) (a : Reply) (s : State) : State := s.answer none r opcode a

/-- A strap as its eight samples give it: 1 only when all are high (21 R539). -/
def strapHigh (samples : BitVec 8) : Bool := samples == 0xFF#8

/-! ### Engine changes (19 R514, R515) -/

/-- What a waiting change brings: engine set and PAIR_VER of the image that runs (19 Table 19-5). -/
def State.newEngines (s : State) : U32 × Byte :=
  match s.nv.fw.images[(2 * s.nv.fw.run.val)]?.getD none with
  | some i => (i.engineSet, i.pairVer)
  | none => (s.nv.fw.engineSet, s.nv.fw.pairVer)

/-- The engines that have taken a change run the new set once none waits. -/
def FwState.settled (set : U32 × Byte) (f : FwState) : FwState :=
  if f.pendGroups == 0 && !f.pendFloat then { f with engineSet := set.1, pairVer := set.2 } else f

/-! ### The life of a command (02 R39 to R43, R47, R562) -/

/-- A command's outcome at its point of effect. -/
inductive Res where
  /-- Completes now: the answer and the state after the effect. -/
  | ok (a : Reply) (s : State)
  /-- Completes now with a status that has changed nothing (02 R43). -/
  | fail (status detail : Nat) (payload : List Byte)
  /-- The effect comes later; the command stays in the record. -/
  | wait (s : State)

/-- A failure without payload. -/
def Res.no (status detail : Nat) : Res := .fail status detail []

/-- The record entry of a request, by owner and tag. -/
def sameCmd (r : Req) (c : Cmd) : Bool := c.req.owner == r.owner && c.req.tag == r.tag

/-- Sends an audit record of a completion with the answer's payload, or the request's when the answer
has none (16 R450). -/
def State.auditReq (r : Req) (opcode : Nat) (a : Reply) (s : State) : State :=
  s.audit r.owner.val a.status opcode r.tag.toNat r.seq.toNat
    (if a.payload.isEmpty then r.payload else a.payload)

/-- Opcodes whose every completion is recorded in O0's audit ring (07, 08 R252, 09, 12, 13, 16 R456, 17 R479, 18 R496,
19 R508), with its outcome. -/
def auditedOpcodes : List Nat :=
  [0x0132, 0x0162, 0x0163, 0x0708, 0x0808, 0x0907, 0x0C02, 0x0C03, 0x0D01, 0x0D02, 0x0F0A, 0x1002, 0x1003, 0x1005]

/-- Opcodes whose record on success has content of its own, written by their meaning (03 R89, 10 R312). -/
def auditedApart : List Nat := [0x0505, 0x0A04, 0x0A05]

/-- This completion is recorded. -/
def auditOn (opcode status : Nat) : Bool :=
  auditedOpcodes.contains opcode || (auditedApart.contains opcode && decide (stPartial < status))

/-- The final response: the command leaves the record. -/
def State.finish (r : Req) (opcode : Nat) (a : Reply) (s : State) : State :=
  let s := if auditOn opcode a.status then s.auditReq r opcode a else s
  (s.modHost (fun h => { h with record := h.record.filter (fun c => !sameCmd r c) })).respond r opcode a

/-- Marks the point of effect in the record with the real outcome (02 R40, MB_POE_CNT). -/
def State.mark (r : Req) (a : Reply) (s : State) : State :=
  s.modHost (fun h => { h with
    poeCnt := h.poeCnt + 1#32
    record := h.record.map (fun c => if sameCmd r c then { c with outcome := some a } else c) })

/-- Completion of a command whose effect has just taken place. -/
def State.complete (r : Req) (opcode : Nat) (a : Reply) (s : State) : State := (s.mark r a).finish r opcode a

/-- A command enters the record at acceptance: after those accepted before it, and, of those accepted at the same instant, in the
order of the owners' numbers (02 R40, R41). -/
def insertCmd (c : Cmd) : List Cmd → List Cmd
  | [] => [c]
  | d :: ds => if d.at_ = c.at_ ∧ c.req.owner < d.req.owner then c :: d :: ds else d :: insertCmd c ds

/-- The command is in the record. -/
def State.record (r : Req) (opcode : Nat) (s : State) : State :=
  let now := s.clk
  s.modHost (fun h => { h with
    record := insertCmd { req := r, opcode := BitVec.ofNat 16 opcode, at_ := now, outcome := none } h.record })

/-- The command waits for its point of effect: it is in the record, and an interim QUEUED is sent when
asked for (02 R39). -/
def State.park (r : Req) (opcode : Nat) (s : State) : State :=
  let s := if s.host.record.any (sameCmd r) then s else s.record r opcode
  if r.notifyQueued then s.respond r opcode ⟨stQueued, 0, 0, []⟩ else s

/-! ### The order of points of effect (02 R41) -/

/-- An object of R41. -/
inductive Obj where
  | param (id : Nat)
  /-- Every parameter that PARAM_DEFAULTS writes. -/
  | params
  | table (key : Nat)
  | group (g : Nat)
  | lease
  | owner (o : Nat)
  deriving DecidableEq, Repr

/-- Two objects are one, or one holds the other. -/
def Obj.meets : Obj → Obj → Bool
  | .params, .param _ => true
  | .param _, .params => true
  | a, b => a == b

/-- The objects of a parameter: itself; the group's setpoint and mode; the owner's parameters. -/
def paramObjects (id : Nat) : List Obj :=
  let k := id % 32
  .param id :: (if 0x0800 ≤ id && id < 0x0900 && (k = 0 || k = 0x14) then [.group (id / 32 % 8)] else []) ++
    (if isOwnerParam id then [.owner ((id - 0x100) / 6)] else [])

/-- The objects that a command touches. A GROUP_SETPOINT with a start time takes effect at that time, in the order that 04 R123
gives (DEDUCED, log entry 122). -/
def State.objects (s : State) (op : Nat) (r : Req) : List Obj :=
  let p := r.payload
  if op = 0x0202 then ((List.range (numAt p 0 2)).map (fun i => paramObjects (numAt p (4 + 12 * i) 2))).flatten
  else if op = 0x0205 then .params :: (List.range 8).map .group
  else if op = 0x0403 then (if numAt p 4 8 = 0 then (List.range (numAt p 0 1)).map (fun i => .group (numAt p (12 + 12 * i) 1)) else [])
  else if op = 0x0304 then
    (match (s.owner r.owner).staging with
     | some g => [.table (g.header.type.toNat * 256 + g.header.index.toNat)]
     | none => [])
  else if op = 0x0307 then [.table (numAt p 0 1 * 256 + numAt p 1 1)]
  else if op = 0x0E03 then [.owner (numAt p 0 1)]
  else if op = 0x0E04 then [.owner (numAt p 0 1)]
  else if 0x0E05 ≤ op && op ≤ 0x0E07 then [.lease]
  else []

/-- No command accepted before this one and still in flight touches one of its objects (02 R41). -/
def State.turn (s : State) (op : Nat) (r : Req) : Bool :=
  let os := s.objects op r
  os.isEmpty || (s.host.record.takeWhile (fun c => !sameCmd r c)).all (fun c =>
    !(s.objects c.opcode.toNat c.req).any (fun x => os.any x.meets))

/-- What check 10 asks for: alternatives, each a mask of privileges all of which are needed. -/
abbrev Alts := List Nat

/-- OBSERVE. -/
def observe : Alts := [1]
/-- CONTROL. -/
def control : Alts := [2]
/-- CONFIGURE. -/
def configure : Alts := [4]
/-- SERVICE. -/
def service : Alts := [8]
/-- SECURITY. -/
def security : Alts := [16]
/-- No privilege bit. -/
def anyOwner : Alts := [0]

/-- The owner's privileges meet one of the alternatives. -/
def permits (priv : BitVec 8) (alts : Alts) : Bool := alts.any (fun m => (priv.toNat &&& m) == m)

/-- The mask bit of a transport in OWN_TRANSPORTS. -/
def transportBit : Transport → Nat
  | .smuAuth => 0 | .smuCrc => 1 | .tw0 => 2 | .uart => 3

/-- Opcodes the recovery loader knows (19 R511). -/
def recoveryOpcodes : List Nat := [0x0E01, 0x0E02, 0x0F01, 0x0F02, 0x0F03, 0x0F04, 0x0F05]

/-- The owner's reset runs (02 R46). -/
def State.resetting (s : State) (o : Fin 16) : Bool :=
  match (s.owner o).resetEnd with
  | some t => decide (s.clk < t)
  | none => false

/-- OWN_STATE (02 Table 2-2). -/
def State.ownState (s : State) (o : Fin 16) : OwnState := if s.resetting o then .resetting else (s.owner o).state

/-- The tests of 02 Table 2-5 that stand between a request and its execution: the agent runs,
checks 5, 6, 9 and 10, and the closed acceptance of 06 R186. -/
def State.precheck (s : State) (opcode : Nat) (alts : Alts) (r : Req) : Option (Nat × Nat) :=
  let o := s.owner r.owner
  let loader := s.sys.hawk == .recovery
  if o.state == .unprovisioned || (loader && r.owner != 0) then some (stPermit, 0x0008)
  else if !loader && !o.transports.getLsbD (transportBit r.via.transport) then some (stPermit, 0x0008)
  else if s.resetting r.owner || (o.state != .attached && opcode != 0x0E01) then some (stState, 0x0007)
  else if loader && !recoveryOpcodes.contains opcode then some (stOpcode, 0)
  else if !permits o.priv alts then some (stPermit, 0)
  else if s.host.closed then some (stState, 0x0104)
  else none

/-- The Plumb core's island has power: KA or AUX is within its range, and the device is not in dust-sheet mode (01 R11). -/
def State.islandUp (s : State) : Bool :=
  s.chg.low.run != .dustSheet && (s.power.supply.kaOk || s.power.supply.auxOk)

/-- The block is neither in a low-power state nor waking from one. -/
def State.awake (s : State) : Bool :=
  match s.chg.low.run with
  | .sleep | .dustSheet | .waking => false
  | _ => true

/-- The engines run: the D-die is released and they are not halted by a low-power state (06 Table 6-12). -/
def State.engineOn (s : State) : Bool := s.awake && s.power.safety.dieRunning

/-- The Hawk runs its image: the firmware's periodic work goes on (12 Table 12-6; 06 Table 6-12). -/
def State.firmwareOn (s : State) : Bool := s.sys.hawk == .running && s.awake

/-- Burpol, or the recovery loader, is there to execute commands. -/
def State.serving (s : State) : Bool :=
  (s.sys.hawk == .running || s.sys.hawk == .recovery) && s.awake

/-- Opcodes that keep their turn at their point of effect, where they wait in their group (04 R95, R123). -/
def waitsInGroup (op : Nat) : Bool := op = 0x0202 || op = 0x0403

/-- Executes a request: `shape` tells that the length and the reserved bits of the payload are right
(02 R562), `body` is the opcode's own rule. A command whose turn has not come stays in the record, and its row comes again (02 R41; DESIGN
CHOICE, log entry 122). -/
def State.runOp (opcode : Nat) (alts : Alts) (shape : List Byte → Option Nat) (body : State → Res)
    (r : Req) (s : State) : State :=
  if !s.serving then s
  else match s.precheck opcode alts r with
    | some (st, d) => s.finish r opcode ⟨st, 0, d, []⟩
    | none =>
      if !waitsInGroup opcode && !s.turn opcode r then s.park r opcode else
      match shape r.payload with
      | some d => s.finish r opcode ⟨stValue, 0, d, []⟩
      | none =>
        match body s with
        | .ok a t => t.complete r opcode a
        | .fail st d p => s.finish r opcode ⟨st, 0, d, p⟩
        | .wait t => t.park r opcode

/-- Shape: the payload has exactly n bytes. -/
def len (n : Nat) (p : List Byte) : Option Nat := if p.length = n then none else some dtLength

/-- Shape: between a and b bytes. -/
def lenIn (a b : Nat) (p : List Byte) : Option Nat :=
  if a ≤ p.length ∧ p.length ≤ b then none else some dtLength

/-- Shape: exactly n bytes, with zeros at the reserved spans (offset, count). -/
def lenZ (n : Nat) (spans : List (Nat × Nat)) (p : List Byte) : Option Nat :=
  if p.length ≠ n then some dtLength
  else if spans.all (fun e => zeroAt p e.1 e.2) then none else some dtReserved

/-- The caller holds the control lease (02 R30). -/
def State.holdsLease (s : State) (o : Fin 16) : Bool := s.host.lease.holder == some o

/-- A body that needs the control lease (02 R30, R47). -/
def State.needLease (s : State) (r : Req) (body : Res) : Res :=
  if s.holdsLease r.owner then body else .no stPriority 0

end Sys2Proof.Machine
end

