-- ==== Sys2Proof/Machine/GroupOps.lean ====
section
/-! DEFINITION. Operations on groups and on the safety plane that many rows share: the epoch (04 R99),
entry into FAULT (R94, R97), the low level of a group's outputs (03 R62), readiness (04 R93), the lease
policy (02 R33), FAULT_N (01 R21, 12 R366) and the safe state (01 R20). -/

namespace Sys2Proof.Machine

/-- FAULT_N is low on the line. -/
def Safety.low (x : Safety) : Bool := x.driving || x.external

/-- FAULT_N is low. -/
def State.faultLow (s : State) : Bool := s.power.safety.low

/-- One increment of a group's epoch; `settle` makes several in one command one (04 R99). -/
def State.bumpEpoch (g : Fin 8) (b : Bump) (s : State) : State :=
  s.modGroup g (fun x => { x with
    epoch := x.epoch + 1#16
    bump := if x.bump == .tripOrFaultN then .tripOrFaultN else b })

/-- What of a group raises IS064 + g on a change (04 Table 4-7). -/
def Group.visible (a : Group) : Nat × Nat × Bool × Bool × Nat × BitVec 16 :=
  (a.mode.code, (match a.light with | .ccm => 0 | .diode => 1 | .shed => 2 | .burst => 3), a.ready,
    a.sync.locked, a.limit, a.epoch)

/-- The epoch after a command: raised by at most one. -/
def settledEpoch (a b : Group) : U16 := if b.epoch == a.epoch then b.epoch else a.epoch + 1#16

/-- Ends a command for one group: several causes raise the epoch once, and its interrupt source is
raised on what changed (04 R99 and the source rule under Table 4-7). -/
def settleGroup (s0 : State) (g : Fin 8) (s : State) : State :=
  let a := s0.group g
  let s := s.modGroup g (fun b => { b with epoch := settledEpoch a b })
  let b := s.group g
  s.raiseIf (a.visible != b.visible || (!a.refAtTarget && b.refAtTarget)) (64 + g.val)

/-- Ends a command for every group; `s0` is the state before it. -/
def State.settle (s s0 : State) : State := s.eachGroup (settleGroup s0)

/-- Device time in edge units (00 R7). -/
def State.edgeNow (s : State) : Nat := 16 * s.now

/-- A phase whose edges are all withdrawn: both outputs low from an instant on, no wet and no set edges left. -/
def Phase.hold (t : Nat) (p : Phase) : Phase :=
  { p.low t with wet := [], set := none, setA := none, setB := none, wholeRun := false, lvStart := none, lvEnd := none }

/-- A phase with both outputs low that no longer switches; a written OFF in work takes effect at the next
commit boundary. -/
def Phase.stop (t : Nat) (p : Phase) : Phase :=
  { p.hold t with
    switching := false, stopping := false, shed := false, started := 0, compUntil := none
    roleWrite := if p.stopping then some .off else p.roleWrite }

/-- One phase stops now. -/
def State.stopPhase (p : Fin 64) (s : State) : State := s.modPhase p (Phase.stop s.edgeNow)

/-- Every phase of a group with both outputs low (03 R62). -/
def State.groupLow (g : Fin 8) (s : State) : State :=
  (s.phasesOf g).foldl (fun t p => t.stopPhase p) s

/-- Ends the scheduled setpoints that a test selects, with a status (04 R124). -/
def State.endScheduled (sel : Scheduled → Bool) (status detail : Nat) (s : State) : State :=
  let out := s.conv.schedule.filter sel
  let s := s.modConv (fun c => { c with schedule := c.schedule.filter (fun x => !sel x) })
  out.foldl (fun t x => t.finish x.req 0x0403 ⟨status, 0, detail, []⟩) s

/-- A scheduled setpoint names a group. -/
def Scheduled.names (g : Fin 8) (x : Scheduled) : Bool := x.entries.any (fun e => e.group == g)

/-- A waiting PARAM_SET writes the mode of a group. -/
def WaitingSet.names (g : Fin 8) (w : WaitingSet) : Bool := w.items.any (fun e => e.1 == grId g 0)

/-- Ends the waiting PARAM_SETs that name a group's mode. -/
def State.endWaiting (g : Fin 8) (status detail : Nat) (s : State) : State :=
  let out := (s.conv.groups.toList.map (fun x => x.waiting.filter (WaitingSet.names g))).flatten
  let s := s.eachGroup (fun h t => t.modGroup h (fun x =>
    { x with waiting := x.waiting.filter (fun w => !WaitingSet.names g w) }))
  out.foldl (fun t w => t.finish w.req 0x0202 ⟨status, 0, detail, []⟩) s

/-- The string port a group serves (04 R91). -/
def State.portOf (s : State) (g : Fin 8) : Option (Fin 4) :=
  let v := s.param (grId g 2)
  if h : v < 4 then some ⟨v, h⟩ else none

/-- The pairing still binds the half: paired, or lost and not yet at the outer-loop sample from which it runs alone
(05 R164). -/
def PairGroup.joint (x : PairGroup) : Bool := x.paired || x.split

/-- The groups that serve a string port. -/
def State.groupsOfPort (s : State) (p : Fin 4) : List (Fin 8) :=
  (List.finRange 8).filter (fun g => s.param (grId g 2) == p.val)

/-- The frequency, in mHz, of the point in progress of a port's sweep. -/
def StippleSweep.freq (x : StippleSweep) : Nat := numAt x.plan (4 + 12 * x.point) 4

/-- The period of that point, ns. -/
def StippleSweep.period (x : StippleSweep) : Rat := 1000000000000 / ((max 1 x.freq : Nat) : Rat)

/-- The first zero of the sine at or after an instant. -/
def StippleSweep.zeroFrom (t : Rat) (x : StippleSweep) : Rat :=
  let h := x.period / 2
  x.t0 + max 0 (ceilQ ((t - x.t0) / h) : Rat) * h

/-- Every point is over. -/
def StippleSweep.finished (x : StippleSweep) : Bool := decide (numAt x.plan 0 1 ≤ x.point)

/-- A cause of 11 Table 11-3 ends a port's sweep; the first one counts, and the perturbation ends at its next zero,
or with the outputs for SAFE and FAULT (11 R336). A scheduled sweep has no modes yet that a group could leave. -/
def StippleSweep.abortWith (now cause : Nat) (x : StippleSweep) : StippleSweep :=
  if x.run == .idle || x.abort != 0 || x.finished || (x.run == .scheduled && cause == 2) then x
  else
    { x with
      abort := BitVec.ofNat 8 cause, stopAt := if x.perturbing then some (x.zeroFrom now) else none
      perturbing := x.perturbing && cause != 3 && cause != 4 }

/-- Aborts the sweep of a port. -/
def State.stippleAbort (p : Fin 4) (cause : Nat) (s : State) : State :=
  s.modStp (fun x => { x with sweeps := vmod x.sweeps p (StippleSweep.abortWith s.now cause) })

/-- Aborts every sweep. -/
def State.stippleAbortAll (cause : Nat) (s : State) : State :=
  (List.finRange 4).foldl (fun t p => t.stippleAbort p cause) s

/-- Sets the mode in force; entry to a power mode or to STANDBY starts a new telemetry window (04 R126). -/
def Group.enter (m : Mode) (now : Nanos) (x : Group) : Group :=
  let y := { x with mode := m, rampDown := none, endPre := false, light := .ccm, deSince := none, shedSince := none, burstSince := none }
  if m.isPower || m == .standby then
    { y with winStart := now, winCount := 0, winSums := { vStr := 0, vBus := 0, iGrp := 0, p := 0 } }
  else y

/-- A group fault cause acts: any mode but OFF (04 Table 4-2, R97, R124). -/
def State.groupFault (g : Fin 8) (cause : Nat) (s : State) : State :=
  if (s.group g).mode == .off || (s.group g).mode == .fault then s
  else
    let s := (s.groupLow g).modGroup g (fun x =>
      { x.enter .fault s.clk with cause := BitVec.ofNat 8 cause, iCmd := 0, charging := false })
    let s := s.bumpEpoch g .other
    let s := s.setParam (grId g 0) 7
    let s := (s.endWaiting g stAbFault 0).endScheduled (Scheduled.names g) stAbFault 0
    match s.portOf g with
    | some p => s.stippleAbort p 4
    | none => s

/-- A mode other than FAULT comes into force: one epoch (04 R99). Sweeps of the port end with MODE
(11 Table 11-3), and reduced sampling ends (10 R315). -/
def State.enterMode (g : Fin 8) (m : Mode) (s : State) : State :=
  let s := if m.isSwitching then s else s.groupLow g
  let s := s.modGroup g (Group.enter m s.clk)
  let s := if m.isSwitching then s.modEst (fun e => { e with leave := e.leave || e.rate != .full }) else s
  let s := s.bumpEpoch g .other
  match s.portOf g with
  | some p => s.stippleAbort p 2
  | none => s

/-- Names of R93's conditions that fail, first one (04 Table 4-7, NOT_READY); 0 when READY. -/
def Feed.inserted (x : Feed) : Bool :=
  x.run == .on || x.run == .blocking || (x.run == .gate && x.gateFromBlocking)

/-- The feeds a group names in G_FEED. -/
def State.feedsOf (s : State) (g : Fin 8) : List (Fin 2) :=
  (List.finRange 2).filter (fun f => bitAt (s.param (grId g 3)) f.val)

/-- A feed named by the group is INSERTED. -/
def State.anyInserted (s : State) (g : Fin 8) : Bool := (s.feedsOf g).any (fun f => (s.feed f).inserted)

/-- Number of ACTIVE phases of a group (05 R145). -/
def State.activeCount (s : State) (g : Fin 8) : Nat :=
  ((s.phasesOf g).filter (fun p => (s.phase p).role == .active)).length

/-- The ACTIVE count that G_MIN_PH is compared with: the pair's at a leader (05 R159). -/
def State.activeForMin (s : State) (g : Fin 8) : Nat :=
  let x := (s.group g).pair
  s.activeCount g + (if x.joint && x.leader then numAt x.control 40 1 else 0)

/-- The bus priority band of the port, 0.01 V (06 R181). -/
def State.band (s : State) (g : Fin 8) : Nat :=
  match s.portOf g with
  | some p => s.held (stId p 8)
  | none => 2000

/-- NOT_READY of 04 Table 4-7, 0 when the group is READY (R93). A follower's G_MIN_PH is not applied
(05 R159). -/
def State.notReady (s : State) (g : Fin 8) : Nat :=
  match s.portOf g with
  | none => 1
  | some p =>
    let k := s.cont p
    let pr := (s.group g).pair
    if !(k.run == .closed && k.fb) then 2
    else if !(s.anyInserted g && s.bus.busPg) then 3
    else if !s.limitSetPresent then 4
    else if s.activeForMin g < s.held (grId g 0x11) && !(pr.joint && !pr.leader) then 5
    else if s.held (grId g 0x0B) ≤ s.held (grId g 0x0A) ||
        s.held (grId g 9) ≤ s.held (grId g 8) + 2 * s.band g then 6
    else 0

/-- The group meets R93 now. -/
def State.isReady (s : State) (g : Fin 8) : Bool := s.notReady g == 0

/-- Evaluates readiness; a power mode that loses it faults with READY_LOST (04 Table 4-2). -/
def State.evalReady (g : Fin 8) (s : State) : State :=
  let n := s.notReady g
  let s := s.modGroup g (fun x => { x with ready := n == 0, notReady := n })
  if n ≠ 0 && (s.group g).mode.isPower then s.groupFault g 6 else s

/-- Capacity of the closed-loop phases of a group (04 R118), A: ACTIVE ones, shed ones included, less
those that a written OFF has taken out. -/
def State.closed (s : State) (g : Fin 8) : List (Fin 64) :=
  (s.phasesOf g).filter (fun p => (s.phase p).role == .active && !(s.phase p).stopping)

/-- PH_ILIM_AVG in force, A. -/
def State.avgLimit (s : State) (p : Fin 64) : Rat := (s.held (phId p 3) : Rat) / 100

/-- C_cap of a group, A. -/
def State.ccap (s : State) (g : Fin 8) : Rat := ((s.closed g).map s.avgLimit).sum

/-- A 0.01 A field of the partner's control section, A. -/
def Group.partnerAmps (x : Group) (off : Nat) : Rat := (intAt x.pair.control off 4 : Rat) / 100

/-- The partner's C_cap, A. -/
def Group.partnerCap (x : Group) : Rat := (numAt x.pair.control 16 4 : Rat) / 100

/-- Loss of the control lease (02 R33, 04 R124, 11 Table 11-3): RAMP takes the setpoints of POWER and STRING_CURRENT to
zero, at a pair's follower only through its leader (05 R160); the group event is IS064 + g with the cause kept beside it
(DEDUCED, log entry 21). -/
def State.leaseLost (cause : LeaseLoss) (s : State) : State :=
  let ramp := s.param 0x0019 == 1
  let s := s.eachGroup (fun g t =>
    let x := t.group g
    let t := if ramp && (x.mode == .power || x.mode == .stringCurrent) && !(x.pair.paired && !x.pair.leader) then
      (t.setParam (grId g 0x14) 0).modGroup g (fun x => { x with refAtTarget := false }) else t
    (t.modGroup g (fun x => { x with leaseLoss := cause })).raise (64 + g.val))
  let holder := s.host.lease.holder
  let s := s.endScheduled (fun x => some x.req.owner == holder) stPriority 0
  let s := s.modHost (fun h => { h with lease := { h.lease with holder := none } })
  s.stippleAbortAll 5

/-- FAULT_N falls: every group that is not OFF goes to FAULT with cause FAULT_N, every epoch moves, every
output is low (01 R21, 04 R99, Table 4-2; 11 Table 11-3). -/
def State.faultNFalls (causeOf : Fin 8 → Nat) (s : State) : State :=
  let s := s.stippleAbortAll 3
  let s := s.eachGroup (fun g t => (t.groupFault g (causeOf g)).bumpEpoch g .tripOrFaultN)
  (s.eachPhase (fun p t => t.modPhase p (Phase.hold s.edgeNow))).raise 189

/-- A contactor under the safe state: CLOSING or CLOSED opens with cause SAFE_STATE, the coil is released
(07 Table 7-19). -/
def Contactor.safe (now : Nanos) (loaded : Bool) (k : Contactor) : Contactor :=
  if k.run == .closing || k.run == .closed then
    { k with run := .opening, coil := false, cause := 7, since := now, testAfter := false,
             loadOpens := if loaded then satInc k.loadOpens else k.loadOpens }
  else { k with coil := false }

/-- I_str of a port as the outer loop of a serving group last had it, A (08 R244). -/
def State.portCurrent (s : State) (p : Fin 4) : Rat :=
  match (s.groupsOfPort p) with
  | g :: _ => (s.group g).iStr
  | [] => 0

/-- A release counts as a load open: abs(I_str) above 1.00 A (07 Table 7-18). -/
def State.loaded (s : State) (p : Fin 4) : Bool := decide (1 < absQ (s.portCurrent p))

/-- The Plumb fault record of a cause (12 Table 12-7): at most 32 are held. -/
def PowerState.plumb (cause flags now : Nat) (p : PowerState) : PowerState :=
  { p with keep := { p.keep with plumb := (⟨cause, now, flags⟩ :: p.keep.plumb).take 32 } }

/-- Records a safe-state cause (20 R524). -/
def Safety.record (cause now : Nat) (x : Safety) : Safety :=
  { x with cause := BitVec.ofNat 8 cause, time := BitVec.ofNat 64 now, count := satInc x.count }

/-- Group fault cause that the safe state gives: DIE_LINK its own, any other SAFE_STATE (04 R122). -/
def groupCauseOf (cause : Nat) : Nat := if cause == 1 then 5 else 3

/-- A cause of the safe state is present from now on: bit c of the causes. -/
def Safety.arise (cause now : Nat) (x : Safety) : Safety :=
  { x with causes := x.causes ||| (1#12 <<< cause), lastCauseAt := now, driving := true }

/-- Each feed enters HELD with cause SAFE_STATE (07 R209), IS076 + f. -/
def State.feedHeld (f : Fin 2) (s : State) : State :=
  (s.modFeed f (fun x => { x with run := .held, cause := 7, pg := false, retryEnd := 0, since := s.clk })).raise
    (76 + f.val)

/-- The safe state (01 R20): PWM low, feeds HELD, contactors released, FAULT_N low, the Plumb record. The
rails go down only for a rail fault, by the sequencer's own rule (12 R359). -/
def State.safeState (cause flags : Nat) (s : State) : State :=
  let was := s.faultLow
  let s := s.modSafety (fun x => (x.record cause s.now).arise cause s.clk)
  let s := s.modPower (PowerState.plumb cause flags s.now)
  let s := if was then s.eachGroup (fun g t => t.groupFault g (groupCauseOf cause))
    else s.faultNFalls (fun _ => groupCauseOf cause)
  let s := (List.finRange 2).foldl (fun t f => t.feedHeld f) s
  let pg := s.bus.busPg
  let moved := s.bus.conts.toList.any (fun k => k.run == .closing || k.run == .closed)
  let s := (s.modBus (fun b => { b with busPg := false }))
  let s := (List.finRange 4).foldl (fun t p => t.modCont p (Contactor.safe t.clk (s.loaded p))) s
  (s.raiseIf pg 79).raiseIf moved 78

end Sys2Proof.Machine
end

