-- ==== Sys2Proof/Machine/TableOps.lean ====
section
/-! DEFINITION. Tables as their consumers see them (02 R57, R58): the body in force, the instant at which a
consumer takes a committed table, and the piecewise-linear curve of 04 R116. -/

namespace Sys2Proof.Machine

/-- The body of table TT:II, when it is present and its seal is good. -/
def State.tableBody (s : State) (ty ix : Nat) : Option (List Byte) := (s.tableOf ty ix).map (·.body)

/-- The body of a table that a parameter names; 0xFF names none. -/
def State.namedBody (s : State) (ty ix : Nat) : Option (List Byte) :=
  if ix = 0xFF then none else s.tableBody ty ix

/-- The body that a consumer takes at its next point. -/
def State.nextBody (s : State) (ty ix : Nat) : Option (List Byte) := (s.nextTable ty ix).map (·.body)

/-- The same of a table that a parameter names; 0xFF names none. -/
def State.nextNamed (s : State) (ty ix : Nat) : Option (List Byte) := if ix = 0xFF then none else s.nextBody ty ix

/-- What TABLE_COMMIT answers at its point of effect (02 R56). -/
def Table.answer (t : Table) : Reply := if t.inMram then done else partial_ 3 dtNvmDeferred

/-- Table `key` is in force in every consumer: the point of effect of its TABLE_COMMIT, whose staging buffer is free again
(02 R39, R58). -/
def State.activate (key : Nat) (t : Table) (s : State) : State :=
  let s := s.modHost (fun h => { h with
    tables := bankPut key { t with left := 0, waiter := none } h.tables, arriving := bankDrop key h.arriving })
  match t.waiter with
  | some r => (s.modOwner r.owner (fun o => { o with staging := none })).complete r 0x0304 t.answer
  | none => s

/-- A consumer has taken table `key`; it is in force with the last one (02 R58). -/
def State.takeTable (key bit : Nat) (s : State) : State :=
  match bankGet? key s.host.arriving with
  | none => s
  | some t =>
    let left := setBitAt t.left bit false
    if !bitAt t.left bit then s
    else if left = 0 then s.activate key t
    else s.modHost (fun h => { h with arriving := bankPut key { t with left := left } h.arriving })

/-- A consumer has taken every table of a type that waited for it. -/
def State.takeType (ty bit : Nat) (s : State) : State :=
  ((s.host.arriving.filter (fun e => e.1 / 256 == ty)).map (·.1)).foldl (fun t k => t.takeTable k bit) s

/-- The value at x of a polyline given by its points in rising x: held flat outside (04 R116). -/
def polyline (x : Rat) : List (Rat × Rat) → Rat
  | [] => 0
  | [(_, y)] => y
  | (x0, y0) :: (x1, y1) :: rest =>
    if x ≤ x0 then y0
    else if x < x1 then y0 + (y1 - y0) * (x - x0) / (x1 - x0)
    else polyline x ((x1, y1) :: rest)

/-- The points of a fold-back or derate curve (04 Table 4-9, 14 Table 14-2): x, DIS, CHG. -/
def curvePoints (b : List Byte) : List (Rat × Rat × Rat) :=
  (List.range (numAt b 1 1)).map (fun i =>
    ((intAt b (4 + 8 * i) 4 : Rat), ((numAt b (8 + 8 * i) 2 : Nat) : Rat), ((numAt b (10 + 8 * i) 2 : Nat) : Rat)))

/-- Discharge ceiling and charge floor of a curve at x, for a capacity (04 R116). -/
def curveRange (b : List Byte) (x cap : Rat) : Rat × Rat :=
  let ps := curvePoints b
  (-(polyline x (ps.map (fun e => (e.1, e.2.2))) * cap / 10000),
    polyline x (ps.map (fun e => (e.1, e.2.1))) * cap / 10000)

end Sys2Proof.Machine
end

