-- ==== Sys2Proof/Machine/StringOps.lean ====
section
/-! DEFINITION. What a string port sees of its modules (06 R170, R180; 07 R211): the modules the node map gives
it, their cell voltages and temperatures, and the battery voltage. -/

namespace Sys2Proof.Machine

/-- One module position. -/
def State.module_ (s : State) (m : Fin 64) : Module := s.stack.chain.modules[m.val]

/-- Changes one module position. -/
def State.modModule (m : Fin 64) (f : Module → Module) (s : State) : State :=
  s.modChain (fun c => { c with modules := vmod c.modules m f })

/-- LATH_M_CFG.EN of a position. -/
def State.moduleEn (s : State) (m : Fin 64) : Bool := bitAt (s.param (moId m 0)) 0

/-- NCELL of a position. -/
def State.nCell (s : State) (m : Fin 64) : Nat := bitsOf (s.param (moId m 0)) 6 2

/-- TMASK of a position. -/
def State.tMask (s : State) (m : Fin 64) : Nat := bitsOf (s.param (moId m 0)) 15 8

/-- The module positions that the node map assigns to a port (06 R170). -/
def State.modulesOf (s : State) (p : Fin 4) : List (Fin 64) :=
  s.stack.chain.map.filterMap (fun e =>
    if h : e.module_ < 64 then (if e.port == p.val then some ⟨e.module_, h⟩ else none) else none)

/-- Those of them that are read each sweep. -/
def State.readModules (s : State) (p : Fin 4) : List (Fin 64) := (s.modulesOf p).filter s.moduleEn

/-- A state that counts as CHAIN_LOST for the string (09 R268). -/
def ModuleRun.lost (r : ModuleRun) : Bool :=
  r == .absent || r == .uidMismatch || r == .incompatible || r == .chainLost

/-- A module of the port is CHAIN_LOST (06 R180). -/
def State.blindPort (s : State) (p : Fin 4) : Bool := (s.readModules p).any (fun m => (s.module_ m).run.lost)

/-- Voltage of cell c in the payload of 09 Table 9-7, 100 µV; none when not measured. -/
def cellRaw (data : List Byte) (c : Nat) : Option Nat :=
  let v := numAt data (4 + 2 * c) 2
  if v = 0xFFFF ∨ data.length < 72 then none else some v

/-- Temperature j in the payload, as its s16 (09 Table 9-7). -/
def tempRaw (data : List Byte) (j : Nat) : Int := intAt data (52 + 2 * j) 2

/-- The latest sweep of a module that has an answer. -/
def Module.latest (x : Module) : Option SweepItem := x.sweeps.find? (fun e => !e.data.isEmpty)

/-- Sum of a module's cell voltages in its latest valid sweep, V. -/
def State.moduleVolts (s : State) (m : Fin 64) : Rat :=
  match (s.module_ m).latest with
  | none => 0
  | some e => (((List.range (s.nCell m)).filterMap (cellRaw e.data)).sum : Nat) / 10000

/-- A VSD input's value in its unit of 0.01. -/
def State.vsdRaw (s : State) (v : Nat) : Int := (s.meas.vsd[v % 16]'(Nat.mod_lt _ (by decide))).value

/-- V_batt of a port, V (07 R211): the input BATT_IN, or the sum over the port's modules. -/
def State.vBatt (s : State) (p : Fin 4) : Rat :=
  let c := s.param (ctId p 0)
  if bitAt c 4 then (s.vsdRaw (bitsOf c 27 24) : Rat) / 100
  else ((s.readModules p).map s.moduleVolts).sum

/-- V_batt is unknown (07 R211). -/
def State.battUnknown (s : State) (p : Fin 4) : Bool := !bitAt (s.param (ctId p 0)) 4 && s.blindPort p

/-- C_s: sum of C_cap over the groups serving a port, A (06 R178). -/
def State.portCap (s : State) (p : Fin 4) : Rat := ((s.groupsOfPort p).map s.ccap).sum

/-- Nominal capacity of a string, Ah (10 R303): the least EST_M_QNOM of its modules. -/
def State.qNom (s : State) (p : Fin 4) : Rat :=
  match (s.readModules p).map (fun m => s.held (0x1001 + 8 * m.val)) with
  | [] => 0
  | q :: qs => ((qs.foldl min q : Nat) : Rat) / 100

/-- 10 R304: the share of C_g that the reserve permits in each direction: charge, discharge. -/
def State.reserve (s : State) (p : Fin 4) : Rat × Rat :=
  let ms := s.readModules p
  if !bitAt (s.held 0x1200) 0 then (1, 1)
  else if ms.isEmpty || ms.any (fun m => !(s.stack.est.modules[m.val]).valid) then (0, 0)
  else
    let q := s.qNom p
    let e := s.stack.est.strings[p.val]
    let part (a : Rat) : Rat := if q = 0 then 0 else clampQ 0 1 (a / (q / 200))
    (part (e.qChg - (s.held 0x1202 : Rat) / 10000 * q), part (e.qDis - (s.held 0x1201 : Rat) / 10000 * q))

end Sys2Proof.Machine
end

