-- ==== Sys2Proof/Machine/Inputs.lean ====
section
/-! DEFINITION. Isolated inputs and the fast filters of the coulomb channels (08 R238, R240, R241, R244): the
active sequence table's entries, the value of a filter sum, and which inputs are in use. -/

namespace Sys2Proof.Machine

/-- A span of the active ADC sequence table, 0 in the built-in setup (08 R228). -/
def State.seqNum (s : State) (off n : Nat) : Nat :=
  match s.meas.table with
  | some b => numAt b off n
  | none => 0

/-- KIND of an isolated input: 0 OFF, 1 VOLTAGE, 2 CURRENT. -/
def State.vsdKind (s : State) (v : Nat) : Nat := s.seqNum (964 + 16 * v) 1

/-- x of a third-order control filter of length n over captured bits, newest first (03, Control filter). -/
def filterX (n : Nat) (bits : List Bool) : Rat :=
  if n = 0 then 0 else ((2 * filterOf (sinc3 n) bits : Nat) : Rat) / ((n ^ 3 : Nat) : Rat) - 1

/-- The bits of a stream as captured on an edge, INVERT applied. -/
def capturedBits (falling invert : Bool) (l : List Capture) : List Bool :=
  l.map (fun e => (if falling then e.2 else e.1) != invert)

/-- The bits of an isolated input, by CAPTURE_EDGE and INVERT of its entry (08 Table 8-7). -/
def State.vsdBits (s : State) (v : Nat) (l : List Capture) : List Bool :=
  let w := s.seqNum (964 + 16 * v + 1) 1
  capturedBits (bitAt w 1) (bitAt w 0) l

/-- FS and OFS of an isolated input, V or A. -/
def State.vsdScale (s : State) (v : Nat) : Rat × Rat :=
  (f32Rat (s.seqNum (964 + 16 * v + 4) 4), f32Rat (s.seqNum (964 + 16 * v + 8) 4))

/-- The value of an isolated input, 0.01 V or 0.01 A (08 R238). -/
def State.vsdValue (s : State) (v : Nat) (l : List Capture) : Int :=
  let k := s.vsdScale v
  roundQ (100 * (k.1 * filterX (s.seqNum (964 + 16 * v + 2) 2) (s.vsdBits v l) - k.2))

/-- The fast-filter output of a coulomb channel, A (08 R244); its stream is captured at the rising edge of CCCLK (DESIGN
CHOICE, log entry 128). -/
def State.ccAmps (s : State) (c : Nat) (l : List Capture) : Rat :=
  let w := s.held (0x0B6C + c)
  s.heldQ (0x0B7C + c) * filterX (bitsOf w 11 4) (capturedBits false (bitAt w 1) l) - (signedOf 16 (bitsOf w 31 16) : Rat) / 100

/-- The output as it is delivered, 0.01 A. -/
def State.ccValue (s : State) (c : Nat) (l : List Capture) : Int := roundQ (100 * s.ccAmps c l)

/-- A new filter value of an input, 0 to 15 isolated inputs, 16 to 19 coulomb channels, from the captures of its window. -/
def State.takeInput (e : Fin 20 × List Capture) (s : State) : State :=
  let v := e.1.val
  if v < 16 then
    let x := s.vsdValue v e.2
    if s.vsdKind v = 0 then s
    else s.modMeas (fun m => { m with vsd := vmod m.vsd (Fin.ofNat 16 v) (fun y =>
      { y with value := x, time := BitVec.ofNat 64 s.now }) })
  else
    let x := s.ccValue (v - 16) e.2
    s.modMeas (fun m => { m with cc := vmod m.cc (Fin.ofNat 4 v) (fun y => { y with fast := x }) })

/-- New filter values in turn. -/
def State.takeInputs (es : List (Fin 20 × List Capture)) (s : State) : State := es.foldl (fun t e => t.takeInput e) s

/-- Since when the conditions of a stage's entry hold. -/
def sinceWhen (ok : Bool) (now : Nanos) (t : Option Nanos) : Option Nanos := if ok then some (t.getD now) else none

/-- The input that measures V_str of a port (06 Table 6-2). -/
def State.vstrIn (s : State) (p : Fin 4) : Nat := bitsOf (s.param (stId p 0)) 3 0

/-- The coulomb channel that measures I_str of a port. -/
def State.ccOf (s : State) (p : Fin 4) : Fin 4 := Fin.ofNat 4 (bitsOf (s.param (stId p 0)) 5 4)

/-- VLINK_IN, of Feed A for both feeds (07 R195). -/
def State.vlinkIn (s : State) : Nat := bitsOf (s.param (fdId 0 0)) 15 12

/-- VBUS_IN of a feed (07 Table 7-3). -/
def State.vbusIn (s : State) (f : Fin 2) : Nat := bitsOf (s.param (fdId f 0)) 7 4

/-- V_str of a group as measured, V. -/
def State.readVstr (s : State) (g : Fin 8) : Rat :=
  match s.portOf g with
  | some p => (s.vsdRaw (s.vstrIn p) : Rat) / 100
  | none => 0

/-- V_bus of every group is V_link (07 R194), V. -/
def State.readVbus (s : State) : Rat := (s.vsdRaw s.vlinkIn : Rat) / 100

/-- I_str of a group as measured, A. -/
def State.readIstr (s : State) (g : Fin 8) : Rat :=
  match s.portOf g with
  | some p => ((s.meas.cc[(s.ccOf p).val]).fast : Rat) / 100
  | none => 0

/-- Some group of the port is in PRECHARGE or a power mode. -/
def State.portRuns (s : State) (p : Fin 4) : Bool := (s.groupsOfPort p).any (fun g => (s.group g).mode.isSwitching)

/-- The feed may carry current: GATE, ON or BLOCKING. -/
def Feed.live (x : Feed) : Bool := x.run == .gate || x.run == .on || x.run == .blocking

/-- Inputs that a feed names. -/
def State.feedInputs (s : State) (f : Fin 2) : List Nat :=
  let c := s.param (fdId f 0)
  [bitsOf c 7 4, bitsOf c 11 8, s.vlinkIn]

/-- An isolated input is in use (08 R241). -/
def State.vsdInUse (s : State) (v : Nat) : Bool :=
  (List.finRange 4).any (fun p => s.vstrIn p == v && s.portRuns p) ||
    (List.finRange 2).any (fun f => (s.feed f).live && (s.feedInputs f).contains v)

/-- A coulomb channel is in use (08 R245). -/
def State.ccInUse (s : State) (c : Fin 4) : Bool := (List.finRange 4).any (fun p => s.ccOf p == c && s.portRuns p)

/-- An isolated input is invalid (08 R240). -/
def State.vsdInvalid (s : State) (v : Nat) : Bool :=
  s.vsdKind v = 0 || s.meas.vsdClkLost || (s.meas.vsd[v % 16]'(Nat.mod_lt _ (by decide))).stuck

/-- A coulomb stream is invalid (08 R245). -/
def State.ccInvalid (s : State) (c : Fin 4) : Bool := s.meas.ccClkLost || (s.meas.cc[c.val]).stuck

/-- An input in use that is invalid drives the safe state with cause SENSE_INPUT (08 R241). -/
def State.checkInputs (s : State) : State :=
  if (List.range 16).any (fun v => s.vsdInUse v && s.vsdInvalid v) ||
      (List.finRange 4).any (fun c => s.ccInUse c && s.ccInvalid c) then
    if bitAt s.power.safety.causes.toNat 3 then s else s.safeState 3 0
  else s

end Sys2Proof.Machine
end

