-- ==== Sys2Proof/Machine/Phase.lean ====
section
/-! DEFINITION. Phase channels: driver faults, trips, sense checks and the detectors of failing phases
(03 R76 to R82, 05 R128 to R133), with the phase opcodes (03 R87 to R90). -/

namespace Sys2Proof.Machine

/-- Code of a role, 03 Table 3-5. -/
def Role.code : Role → Nat
  | .off => 0 | .active => 1 | .filler => 2 | .retired => 3 | .shadow => 4

/-- The role a written code names. -/
def Role.ofCode : Nat → Role
  | 1 => .active | 2 => .filler | 3 => .retired | 4 => .shadow | _ => .off

/-- Writes CAUSE; of two causes of one commit boundary the lower stays (03 R80), and the interrupt source
is raised. WEAR_LIMIT forgets an earlier PHASE_REPLACED (R88). -/
def State.setCause (p : Fin 64) (c : Nat) (s : State) : State :=
  let x := s.phase p
  if x.causeFresh && x.cause != 0 && x.cause.toNat < c then s
  else
    (s.modPhase p (fun x => { x with
      cause := BitVec.ofNat 8 c, causeFresh := true, replaced := x.replaced && c != 9 })).raise p.val

/-- A role comes into force; PH_ROLE reads it (03 R83). Through OFF the dead-time fallback ends (R70). -/
def State.setRole (p : Fin 64) (r : Role) (s : State) : State :=
  if (s.phase p).role == r then s.setParam (phId p 0) r.code
  else
    let now := s.edgeNow
    let s := s.modPhase p (fun x =>
      let x := if r == .active || r == .shadow then x else x.stop now
      { x with role := r, dtFallback := x.dtFallback && r != .off,
               clampRun := if r == .off then 0 else x.clampRun })
    (s.setParam (phId p 0) r.code).raise p.val

/-- The lower of two pending causes, 0 being none. -/
def lowerCause (a : BitVec 8) (c : Nat) : BitVec 8 :=
  if a == 0 then BitVec.ofNat 8 c else BitVec.ofNat 8 (min a.toNat c)

/-- Retirement at the next commit boundary (03 R82). -/
def State.retireNext (p : Fin 64) (c : Nat) (s : State) : State :=
  s.modPhase p (fun x => { x with retire := lowerCause x.retire c })

/-- A sense failure awaits its response at the next commit boundary (05 R129). -/
def State.senseNext (p : Fin 64) (c : Nat) (s : State) : State :=
  s.modPhase p (fun x => { x with senseFail := lowerCause x.senseFail c })

/-- PH_FLT_CFG.EN as the channel holds it. -/
def State.dfltEnabled (s : State) (p : Fin 64) : Bool := bitAt (s.held (phId p 0xB)) 1

/-- A phase whose driver reports a fault (03 R78, R81): the outputs of an ACTIVE, SHADOW or FILLER phase go low, the cause is
recorded, the epoch moves, and the phase retires at the next commit boundary. OFF and RETIRED phases keep their role. -/
def State.driverFault (p : Fin 64) (s : State) : State :=
  match (s.phase p).role with
  | .active | .shadow | .filler => (((s.stopPhase p).retireNext p 1).setCause p 1).bumpEpoch (s.groupOf p) .other
  | .off | .retired => s

/-- An assertion of DFLT that is acted on: it counts once (03 Table 3-15). -/
def State.dfltActs (p : Fin 64) (s : State) : State :=
  (s.modPhase p (fun x => { x with
    dfltWait := false, counters := { x.counters with dflt := satInc x.counters.dflt } })).driverFault p

/-- BLANK of a channel, edge units: 8 ns steps (03 Table 3-12). -/
def State.blankTime (s : State) (p : Fin 64) : Nat := 128 * bitsOf (s.held (phId p 0xB)) 15 8

/-- DFLTnn is asserted: the pin's level at the polarity that the channel holds; with EN clear the input is ignored
(03 R78, R81). -/
def State.dfltAsserted (s : State) (p : Fin 64) : Bool :=
  s.dfltEnabled p && (s.phase p).dfltPin == bitAt (s.held (phId p 0xB)) 0

/-- DFLT_LEVEL follows the input; a rise of it raises the phase's source and acts, inside a blanking interval at the end of
the interval (03 R78, R79, Table 3-13). -/
def State.dfltCheck (p : Fin 64) (s : State) : State :=
  let x := s.phase p
  let a := s.dfltAsserted p
  if a == x.dfltLevel then s
  else if !a then s.modPhase p (fun x => { x with dfltLevel := false, dfltWait := false })
  else
    let t := (s.modPhase p (fun x => { x with dfltLevel := true })).raise p.val
    if x.blanked (s.blankTime p) s.edgeNow then t.modPhase p (fun x => { x with dfltWait := true }) else t.dfltActs p

/-- DFLT_ASSERTED (03 R78 to R81): the input takes the asserted level and keeps it for `held` ns; a pulse shorter than
4 ns × GLITCH is ignored. -/
def execDfltAsserted (p : Fin 64) (held : Nat) (s : State) : Out :=
  let w := s.held (phId p 0xB)
  if held < 4 * bitsOf w 7 4 then .next s
  else .next (((s.modPhase p (fun x => { x with dfltPin := bitAt w 0 })).dfltCheck p).settle s)

/-- DFLT_BLANKING_END (03 R79): a fault still asserted at the end of the blanking acts then. -/
def execDfltBlankingEnd (p : Fin 64) (s : State) : Out :=
  let x := s.phase p
  if !x.dfltWait then .next s
  else
    let t := match x.blankEnd (s.blankTime p) s.edgeNow with
      | some e => s.atDevice ((e + 15) / 16)
      | none => s
    .next ((t.dfltActs p).settle s)

/-- DFLT_DEASSERTED (03 R81, Table 3-13): DFLT_LEVEL follows the input. -/
def execDfltDeasserted (p : Fin 64) (s : State) : Out :=
  .next ((s.modPhase p (fun x => { x with dfltPin := !bitAt (s.held (phId p 0xB)) 0 })).dfltCheck p)

/-- Trips of the last 64 periods. -/
def Phase.trips64 (x : Phase) : Nat := x.tripAges.length

/-- The trip comparator fires (03 R76): it watches ACTIVE phases whose outputs are not already held. -/
def State.trip (p : Fin 64) (s : State) : State :=
  let x := s.phase p
  if x.role != .active || x.heldLow then s
  else
    let now := s.edgeNow
    let s := s.modPhase p (fun x => { x.low now with
      heldLow := true, tripAges := 0 :: x.tripAges
      counters := { x.counters with trips := satInc x.counters.trips } })
    let s := (s.setCause p 2).bumpEpoch (s.groupOf p) .tripOrFaultN
    let need := bitsOf (s.held (phId p 9)) 27 24
    if need ≤ (s.phase p).trips64 then s.retireNext p 2 else s

/-- The sum of a phase's filter over captured bits, INVERT applied (03, Control filter). -/
def State.filterSum (s : State) (p : Fin 64) (h : List Nat) (bits : List Bool) : Nat :=
  filterOf h (bits.map (fun b => b != bitAt (s.held (phId p 0xA)) 9))

/-- M of the trip filter (03 Table 3-10). -/
def State.tripLen (s : State) (p : Fin 64) : Nat := bitsOf (s.held (phId p 9)) 20 16

/-- FAST_TRIP (03 R74, R76): `bits` are the captured bits of the trip filter's window, newest first; the comparator fires when
the raw output lies beyond one of its thresholds. -/
def execFastTrip (p : Fin 64) (bits : List Bool) (s : State) : Out :=
  let raw : Int := s.filterSum p (sinc2 (s.tripLen p)) bits
  let x := s.phase p
  if x.tripHi < raw || raw < x.tripLo then .next ((s.trip p).settle s) else .next s

/-- A sense flag sets: an ACTIVE or FILLER phase answers at its next commit boundary (03 R77, 05 R129). -/
def State.senseFlag (p : Fin 64) (cause : Nat) (s : State) : State :=
  let r := (s.phase p).role
  if r == .active || r == .filler then s.senseNext p cause else s

/-- SD_STUCK as the detector gives it, an injected one included (03 R77, R90). -/
def Phase.stuck (x : Phase) : Bool := x.sdStuck || x.injStuck != 0

/-- SD_STUCK_DETECT (03 R77). -/
def execSdStuckDetect (p : Fin 64) (s : State) : Out :=
  .next ((s.modPhase p (fun x => { x with sdStuck := true })).senseFlag p 4)

/-- Phase j of octet k. -/
def octet (k : Fin 8) : List (Fin 64) := (List.finRange 64).filter (fun p => p.val / 8 == k.val)

/-- The octet of a phase. -/
def octetOf (p : Fin 64) : Fin 8 := ⟨p.val / 8, by omega⟩

/-- SD_CLK_LOST_DETECT (03 R77): all eight phases of the octet. -/
def execSdClkLostDetect (k : Fin 8) (s : State) : Out :=
  .next ((octet k).foldl (fun t p => (t.modPhase p (fun x => { x with sdClkLost := true })).senseFlag p 5) s)

/-- SENSE_FLAG_CLEAR (03 R77): the flags are live: the stream of the phase changes again, or the clock of its octet is seen
again, for all eight phases. -/
def execSenseFlagClear (p : Fin 64) (stuck clock : Bool) (s : State) : Out :=
  let t := s.modPhase p (fun x => { x with sdStuck := x.sdStuck && !stuck })
  if clock then .next ((octet (octetOf p)).foldl (fun u q => u.modPhase q (fun x => { x with sdClkLost := false })) t)
  else .next t

/-- DEADTIME_LIMIT (03 R70): the count of clamped periods has reached 16. -/
def execDeadtimeLimit (p : Fin 64) (s : State) : Out :=
  let x := s.phase p
  if x.clampRun < 16 || x.dtFallback then .next s
  else .next ((s.modPhase p (fun x => { x with dtFallback := true })).setCause p 7)

/-- OPEN_LEG_DETECT (05 R128): three evaluated periods in a row have failed. -/
def execOpenLegDetect (p : Fin 64) (s : State) : Out :=
  let x := s.phase p
  if x.openFails < 3 || x.role != .active then .next s
  else .next ((s.modPhase p (fun x => { x with openFails := 0 })).retireNext p 3)

/-- SENSE_IMPLAUSIBLE_DETECT (05 R130): attributed in 16 consecutive periods. -/
def execSenseImplausibleDetect (p : Fin 64) (s : State) : Out :=
  let x := s.phase p
  if x.attrRun < 16 || x.role != .active then .next s
  else .next ((s.modPhase p (fun x => { x with attrRun := 0 })).senseNext p 6)

/-- ZERO_CURRENT_OFFSET_DETECT (05 R131): out of the band at 16 period starts. -/
def execZeroCurrentOffsetDetect (p : Fin 64) (s : State) : Out :=
  let x := s.phase p
  if x.zeroRun < 16 then .next s
  else
    let t := s.modPhase p (fun x => { x with zeroRun := 0 })
    match x.role with
    | .active | .filler => .next (t.retireNext p 6)
    | .off | .retired => .next (t.setCause p 6)
    | .shadow => .next t

/-- SENSE_TOL, A (05 Table 5-2). -/
def State.senseTol (s : State) (g : Fin 8) : Rat := (bitsOf (s.held (grId g 0x16)) 7 0 : Rat) / 10

/-- SENSE_SUM_RECORD (05 R130): 16 periods beyond the tolerance with no phase attributed. -/
def execSenseSumRecord (g : Fin 8) (s : State) : Out :=
  let x := s.group g
  if x.sumRun < 16 || x.sumWritten then .next s
  else
    let body := leBytes 1 g.val ++ leBytes 1 (s.param (grId g 2)) ++
      leBytes 4 (fitS 32 (roundQ (x.sumAcc / 16 * 100))) ++ leBytes 8 s.now ++
      leBytes 1 (bitsOf (s.held (grId g 0x16)) 7 0)
    .next ((s.modGroup g (fun x => { x with sumWritten := true })).event (.screed g) .everyEvent 0x66 body)

/-- Thermal-cycle limit of a group, 0 when disabled (05 R133). -/
def State.wearLimit (s : State) (g : Fin 8) : Nat := bitsOf (s.held (grId g 0x16)) 29 24 * 2 ^ 20

/-- A FILLER phase passes its checks (05 R141, R143). -/
def State.fillerGood (s : State) (p : Fin 64) : Bool :=
  let x := s.phase p
  x.role == .filler && !x.stuck && !x.sdClkLost && !x.overTemp && x.retire == 0 && x.senseFail == 0 &&
    !x.dfltLevel

/-- WEAR_LIMIT_REACHED (05 R133): the counter has reached the limit; WEAR_ACT decides at the period starts. -/
def execWearLimitReached (p : Fin 64) (s : State) : Out :=
  let x := s.phase p
  if s.wearLimit (s.groupOf p) == 0 || x.counters.thermal.toNat < s.wearLimit (s.groupOf p) then .next s
  else .next (s.modPhase p (fun x => { x with wearDue := true }))

/-- The over-temperature input of a phase takes a level (05 R132, R138). -/
def State.overTemp (p : Fin 64) (asserted : Bool) (s : State) : State :=
  let r := (s.phase p).role
  let t := s.modPhase p (fun x => { x with overTemp := asserted })
  if asserted && (r == .active || r == .shadow || r == .filler) then t.retireNext p 8 else t

/-- SHADOW_END (05 R137): period SHADOW_PER runs to its end; the phase retires with its own cause at the boundary of the period
start that follows. -/
def execShadowEnd (p : Fin 64) (s : State) : Out :=
  let x := s.phase p
  match x.shadow with
  | none => .next s
  | some sh =>
    if sh.k < bitsOf (s.held (grId (s.groupOf p) 0x16)) 13 8 then .next s
    else .next (s.modPhase p (fun x => { x with shadow := some { sh with ended := true } }))

/-- The supply window of a bank at its level, mV (22 R546). -/
def PhaseBank.inside (mv : Nat) (b : PhaseBank) : Bool :=
  if b.high then decide (2970 ≤ mv) && decide (mv ≤ 3630) else decide (1620 ≤ mv) && decide (mv ≤ 1980)

/-- PHASE_BANK_SUPPLY_WINDOW (03 R60, 21 R536, 22 R546): VDDIO_Pk of octet k in mV, and for how many ns it has been so. Outside its window
for 1 µs, the outputs of the octet go to high impedance, and its phases answer as to a driver fault, which is no assertion of
DFLTnn. The supply is monitored while the D-die runs. -/
def execPhaseBankSupplyWindow (k : Fin 8) (mv ns : Nat) (s : State) : Out :=
  let was := (s.conv.banks[k.val]).inWindow
  let inWindow := (s.conv.banks[k.val]).inside mv
  if !s.power.safety.dieRunning || (!inWindow && decide (ns < 1000)) then .next s
  else
  let t := s.modConv (fun c => { c with banks := vmod c.banks k (fun b => { b with inWindow := inWindow }) })
  if inWindow || !was then .next t
  else .next (((octet k).foldl (fun u p => (u.modPhase p (Phase.hold u.edgeNow)).driverFault p) t).settle s)

/-! ### Phase opcodes (03 R87 to R90) -/

/-- PH_STATUS of a phase (03 Table 3-13). -/
def Phase.statusWord (x : Phase) : Nat :=
  x.cause.toNat + fieldAt 8 3 x.role.code + fieldAt 11 1 (flag x.dfltLevel) + fieldAt 12 1 (flag x.stuck) +
    fieldAt 13 1 (flag x.sdClkLost) + fieldAt 14 1 (flag x.dtFallback) + fieldAt 16 1 (flag x.wearCycSat) +
    fieldAt 17 1 (flag x.wearThcSat) + fieldAt 18 1 (flag x.wearWarn) + fieldAt 24 8 (min 255 x.trips64)

/-- The phases a u64 mask selects, ascending. -/
def phaseMask (m : Nat) : List (Fin 64) := (List.finRange 64).filter (fun p => bitAt m p.val)

/-- PHASE_STATUS (03 Table 3-16). -/
def execPhaseStatus (r : Req) (s : State) : Out :=
  .next (s.runOp 0x0501 observe (len 8) (fun s =>
    .ok (done ((phaseMask (numAt r.payload 0 8)).map (fun p => leBytes 4 (s.phase p).statusWord)).flatten) s) r)

/-- A PHASE_TELEMETRY item (03 Table 3-17). -/
def Phase.telemetry (p : Fin 64) (x : Phase) : List Byte :=
  leBytes 1 p.val ++ leBytes 1 x.role.code ++ leBytes 1 x.depth ++ zeros 1 ++
    leBytes 4 (fitS 32 (roundQ (x.meanCur * 100))) ++ leBytes 4 (fitS 32 (roundQ (x.peakCur * 100))) ++
    leBytes 2 x.duty.toNat ++ leBytes 2 x.dtRise.toNat ++ leBytes 2 x.dtFall.toNat ++ zeros 2 ++
    leBytes 4 x.phi ++ leBytes 4 x.lateInWindow.toNat ++ leBytes 4 (fitS 32 x.residual)

/-- PHASE_TELEMETRY: the peaks are those held since the last read. -/
def execPhaseTelemetry (r : Req) (s : State) : Out :=
  .next (s.runOp 0x0502 observe (len 8) (fun s =>
    let ps := phaseMask (numAt r.payload 0 8)
    .ok (done (ps.map (fun p => (s.phase p).telemetry p)).flatten)
      (ps.foldl (fun t p => t.modPhase p (fun x => { x with peakCur := 0 })) s)) r)

/-- A PHASE_COUNTERS item (03 Table 3-18). -/
def Phase.counterItem (p : Fin 64) (x : Phase) : List Byte :=
  leBytes 1 p.val ++ zeros 3 ++ leBytes 4 x.counters.thermal.toNat ++ leBytes 8 x.counters.cycles.toNat ++
    leBytes 4 x.counters.late.toNat ++ leBytes 4 x.counters.trips.toNat ++ leBytes 4 x.counters.dflt.toNat ++
    leBytes 4 x.counters.clamps.toNat

/-- PHASE_COUNTERS. -/
def execPhaseCounters (r : Req) (s : State) : Out :=
  .next (s.runOp 0x0503 observe (len 8) (fun s =>
    .ok (done ((phaseMask (numAt r.payload 0 8)).map (fun p => (s.phase p).counterItem p)).flatten) s) r)

/-- The object a byte of the payload names, below n. -/
def named (n : Nat) (v : Nat) : Option (Fin n) := if h : v < n then some ⟨v, h⟩ else none

/-- Conditions of PHASE_RESTORE (03 R88). -/
def State.restoreRefusal (s : State) (p : Fin 64) : Option Nat :=
  let x := s.phase p
  if x.role != .retired then some 0x0101
  else if !(s.group (s.groupOf p)).mode.isQuiet then some dtGroupState
  else if x.dfltLevel then some 0x0102
  else if x.stuck || x.sdClkLost then some 0x0103
  else if x.cause == 9 && !x.replaced then some 0x0104
  else none

/-- PHASE_RESTORE (03 R88): the effect is at the next commit boundary. -/
def execPhaseRestore (r : Req) (s : State) : Out :=
  .next (s.runOp 0x0504 configure (len 1) (fun s =>
    match named 64 (numAt r.payload 0 1) with
    | none => .no stValue dtRange
    | some p =>
      match s.restoreRefusal p with
      | some d => .no stState d
      | none => .wait (s.modPhase p (fun x => { x with restore := x.restore ++ [r] }))) r)

/-- PHASE_REPLACED (03 R89): the counters go to the event log and the audit record, and are zeroed. -/
def execPhaseReplaced (r : Req) (s : State) : Out :=
  .next (s.runOp 0x0505 service (len 1) (fun s =>
    match named 64 (numAt r.payload 0 1) with
    | none => .no stValue dtRange
    | some p =>
      let x := s.phase p
      if !((x.role == .off || x.role == .retired) && (s.group (s.groupOf p)).mode.isQuiet) then
        .no stState dtGroupState
      else
        let item := x.counterItem p
        let s := s.audit r.owner.val stDone 0x0505 r.tag.toNat r.seq.toNat item
        .ok (done) (s.modPhase p (fun x => { x with
          counters := { cycles := 0, thermal := 0, late := 0, trips := 0, dflt := 0, clamps := 0 }
          wearCycSat := false, wearThcSat := false, wearWarn := false, replaced := true }))) r)

/-- An injected condition at the detector input (03 R90); what follows is real, so an assertion of one edge-timer
step is ignored with EN clear (R81) and inside a blanking interval (R79) (DEDUCED, log entry 112). -/
def State.inject (p : Fin 64) (kind : Nat) (s : State) : State :=
  match kind with
  | 1 =>
    if (s.phase p).dfltLevel || !s.dfltEnabled p || (s.phase p).blanked (s.blankTime p) s.edgeNow then s
    else s.dfltActs p
  | 2 => s.trip p
  | 3 => (s.modPhase p (fun x => { x with injStuck := 32 })).senseFlag p 4
  | _ => s.modPhase p (fun x => { x with injOpen := 3 })

/-- PHASE_FAULT_INJECT (03 R90): the NOT_ACTIVE check comes first. -/
def execPhaseFaultInject (r : Req) (s : State) : Out :=
  .next ((s.runOp 0x0506 service (len 2) (fun s =>
    match named 64 (numAt r.payload 0 1) with
    | none => .no stValue dtRange
    | some p =>
      let kind := numAt r.payload 1 1
      if (s.phase p).role != .active then .no stState 0x0105
      else if kind < 1 || 4 < kind then .no stValue dtRange
      else s.needLease r (.ok (done) (s.inject p kind))) r).settle s)

end Sys2Proof.Machine
end

