-- ==== Sys2Proof/Machine/Adc.lean ====
section
/-! DEFINITION. Results of the SAR converters as their readers see them (08 R222 to R225, Table 8-5), the
thermal inputs of phases (08 R237), and the calibration of the converters (08 R231, R232). -/

namespace Sys2Proof.Machine

/-- Kind of an AIN channel: 0 OFF, 1 LINEAR, 2 NTC (08 R222). -/
def State.ainKind (s : State) (n : Nat) : Nat := if n < 48 then s.seqNum (4 + 20 * n) 1 else 0

/-- A temperature channel: its unit is 0.1 °C. -/
def State.isTemp (s : State) (n : Nat) : Bool := s.ainKind n != 0 && s.seqNum (5 + 20 * n) 1 == 3

/-- TOP of a channel. -/
def State.ainTop (s : State) (n : Nat) : Int := signedOf 16 (s.seqNum (6 + 20 * n) 2)

/-- ALARM of a channel. -/
def State.ainAlarm (s : State) (n : Nat) : Int := signedOf 16 (s.seqNum (8 + 20 * n) 2)

/-- The converter of an AIN. -/
def adcOf (n : Nat) : Fin 2 := if n < 24 then 0 else 1

/-- One converter. -/
def State.adc (s : State) (k : Fin 2) : Converter := s.meas.convs[k.val]

/-- One channel. -/
def State.chan (s : State) (n : Nat) : AdcChannel := s.meas.channels[n % 64]'(Nat.mod_lt _ (by decide))

/-- The result of a channel; a temperature channel that is BROKEN or never converted, or of a FAILED converter, reads TOP (08
R224, R232). -/
def State.adcResult (s : State) (n : Nat) : Int :=
  let x := s.chan n
  if s.isTemp n && (x.broken || x.never || (s.adc (adcOf n)).failed) then s.ainTop n else x.result

/-- ALARM of Table 8-5. -/
def State.adcAlarm (s : State) (n : Nat) : Bool := s.isTemp n && decide (s.ainAlarm n ≤ s.adcResult n)

/-- The flags byte of Table 8-5; an internal channel is STALE when both converters are. -/
def State.adcFlags (s : State) (n : Nat) : Nat :=
  let x := s.chan n
  let bad (k : Fin 2) : Bool := (s.adc k).cal == .running || (s.adc k).failed
  let stale := if n < 48 then bad (adcOf n) else bad 0 && bad 1
  flag (x.broken && s.isTemp n) + 2 * flag stale + 4 * flag x.never + 8 * flag (s.adcAlarm n)

/-- Thermal input of a phase: comparator, 0x40 + AIN, or 0xFF (08 Table 8-7). -/
def State.therm (s : State) (p : Fin 64) : Nat := if s.meas.table.isNone then 0xFF else s.seqNum (1220 + p.val) 1

/-- A comparator in use is asserted. -/
def State.cmpOn (s : State) (n : Nat) : Bool :=
  (s.meas.cmps[n % 12]'(Nat.mod_lt _ (by decide))).asserted && bitAt (s.param (0x0B60 + n % 12)) 20

/-- The level of a phase's thermal input (08 R237). -/
def State.thermLevel (s : State) (p : Fin 64) : Bool :=
  let t := s.therm p
  if t < 12 then s.cmpOn t else if 0x40 ≤ t && t < 0x70 then s.adcAlarm (t - 0x40) else false

/-- The thermal input of a phase follows its source; a phase with none assigned has none asserted (05 R132). -/
def State.followTherm (p : Fin 64) (s : State) : State :=
  if (s.phase p).overTemp == s.thermLevel p then s else s.overTemp p (s.thermLevel p)

/-- The thermal inputs of all phases follow their sources. -/
def State.refreshThermal (s : State) : State := s.eachPhase State.followTherm

/-- PHASE_THERMAL_INPUT (05 R132, R138; 08 R237): the input of a phase is looked at. -/
def execPhaseThermalInput (p : Fin 64) (s : State) : Out := .next (s.followTherm p)

/-- Self-calibration starts on the converters that a test selects (08 R231). -/
def State.calibrate (sel : Converter → Bool) (s : State) : State :=
  let now := s.now
  s.modMeas (fun m => { m with convs := m.convs.map (fun c =>
    if sel c then { c with cal := .running, attempt := 0, calStart := now } else c) })

end Sys2Proof.Machine
end

