-- ==== Sys2Proof/Machine/Interleave.lean ====
section
/-! DEFINITION. The interleave of a group's phases (03 R63; 04 R108, R109; 05 R158). -/

namespace Sys2Proof.Machine

/-- N_T of a switching frequency (03 R63). -/
def nominal (f : Nat) : Nat := 16000000000 / max 1 f

/-- N_T of a group in its running period: floor(16e9 / f_sw) on the group's own reference, whose periods are N_T or N_T + 1 long
(03 R63); the length itself where synchronisation moves the period starts (04 R117, 05 R156). -/
def State.nT (s : State) (g : Fin 8) : Nat :=
  let n := nominal (s.param (grId g 1))
  if (s.group g).periodLen == n + 1 then n else (s.group g).periodLen

/-- The switching phases of a group, ascending. -/
def State.switchingOf (s : State) (g : Fin 8) : List (Fin 64) := (s.phasesOf g).filter (fun p => (s.phase p).switching)

/-- φ_target of rank r among n. -/
def phiTarget (en : Bool) (r n nT : Nat) : Nat := if en && n ≠ 0 then r * nT / n else 0

/-- Rank of a phase of a half among the pair's switching phases (05 R158): the keys r / n of the leader and
(r + 1/2) / n of the follower, ties to the leader. -/
def pairRank (leader : Bool) (r own other : Nat) : Nat :=
  let key : Rat := if leader then (r : Rat) / own else ((r : Rat) + 1 / 2) / own
  let before := (List.range other).filter (fun (j : Nat) =>
    if leader then decide (((j : Rat) + 1 / 2) / (other : Rat) < key) else decide ((j : Rat) / (other : Rat) ≤ key))
  r + before.length

/-- n_on of 04 R113 for n ACTIVE phases of capacity c at a command i. -/
def keepOn (n : Nat) (c i : Rat) : Nat := if n = 0 || c = 0 then n else min n (max 2 (ceilQ (absQ i / (c / 2 / n))).toNat)

/-- The current that the partner half of a pair carries by R157, A. -/
def State.partnerShare (s : State) (g : Fin 8) : Rat :=
  let x := s.group g
  if x.pair.leader then x.iPair - x.iCmd
  else if s.ccap g = 0 then 0 else x.iCmd * x.partnerCap / s.ccap g

/-- The phases of the partner half that publish edges of its present epoch. -/
def State.partnerWords (s : State) : Nat := s.conv.link.partnerEdges.length

/-- The switching phases of the partner half: its ACTIVE ones by its last frame, in CCM with those that its edges show beside
them; when shed the number that R113 keeps (DEDUCED, log entry 113). -/
def State.partnerOn (s : State) (g : Fin 8) : Nat :=
  let x := s.group g
  let act := numAt x.pair.control 40 1
  match x.light with
  | .ccm => max act s.partnerWords
  | .diode => act
  | .shed | .burst => keepOn act x.partnerCap (s.partnerShare g)

/-- φ_target of the phases of a group. -/
def State.phiTargets (s : State) (g : Fin 8) : List (Fin 64 × Nat) :=
  let x := s.group g
  let sw := s.switchingOf g
  let n := nominal (s.param (grId g 1))
  let en := bitAt (s.held (grId g 0x10)) 0
  sw.zipIdx.map (fun (p, r) =>
    if x.pair.joint then
      (p, phiTarget en (pairRank x.pair.leader r sw.length (s.partnerOn g)) (sw.length + s.partnerOn g) n)
    else (p, phiTarget en r sw.length n))

/-- One step of φ towards its target by the shorter way round, at most `step` (04 R109). -/
def glide (phi target nT step : Nat) : Nat :=
  let d := (target + nT - phi % nT) % nT
  if d = 0 || nT = 0 then target
  else if 2 * d ≤ nT then (phi + min d step) % nT
  else (phi + nT - min (nT - d) step) % nT

/-- Phases that were not switching when their φ changes take their target at once (04 R109, 05 R142). -/
def State.placeNew (g : Fin 8) (new : List (Fin 64)) (s : State) : State :=
  (s.phiTargets g).foldl (fun t e => if new.contains e.1 then t.modPhase e.1 (fun x => { x with phi := e.2 }) else t) s

/-- The phases glide to their offsets (04 R109). -/
def State.glidePhases (g : Fin 8) (s : State) : State :=
  let n := nominal (s.param (grId g 1))
  let step := bitsOf (s.held (grId g 0x10)) 15 8 * n / 1024
  (s.phiTargets g).foldl (fun t e => t.modPhase e.1 (fun x => { x with phi := glide x.phi e.2 n step })) s

/-- Phases start to switch: each first update takes a start current of zero, its first four periods carry COMP_OFF
(04 R115, 05 R142), and it takes its offset at once. -/
def State.startSwitching (g : Fin 8) (ps : List (Fin 64)) (s : State) : State :=
  let now := s.edgeNow
  let s := ps.foldl (fun t p => t.modPhase p (fun x => { x.stop now with switching := true, iRef := 0, base := 0, roleWrite := x.roleWrite })) s
  s.placeNew g ps

end Sys2Proof.Machine
end

