-- ==== Sys2Proof/Machine/Mode.lean ====
section
/-! DEFINITION. Group modes (04 R92 to R98, R115): which changes Table 4-2 permits, the start of
switching, the bumpless change and the ramp-down; and the storing of one accepted parameter item. -/

namespace Sys2Proof.Machine

/-- V_str as R567 takes it, V. -/
def atLeastVolt (v : Rat) : Rat := max 1 v

/-- A f32 field of a loop coefficient set, from the table in force or the built-in set (04 R105). -/
def Group.coef (x : Group) (off : Nat) (dflt : Rat) : Rat :=
  match x.loop with
  | some b => f32Rat (numAt b off 4)
  | none => dflt

/-- PWR_KP. -/
def Group.pwrKp (x : Group) : Rat := x.coef 0 (1 / 5)
/-- PWR_KI. -/
def Group.pwrKi (x : Group) : Rat := x.coef 4 50
/-- CUR_KP. -/
def Group.curKp (x : Group) : Rat := x.coef 8 (1 / 5)
/-- CUR_KI. -/
def Group.curKi (x : Group) : Rat := x.coef 12 50
/-- VB_KP. -/
def Group.vbKp (x : Group) : Rat := x.coef 16 2000
/-- VB_KI. -/
def Group.vbKi (x : Group) : Rat := x.coef 20 200000
/-- VMEAS_TAU, s. -/
def Group.tau (x : Group) : Rat := x.coef 24 (1 / 10000)
/-- VREF_SLEW, V per ms; none when it is infinite, which only a value not greater than 0 would not pass (04 R105). -/
def Group.vrefSlew (x : Group) : Option Rat :=
  match x.loop with
  | some b => if numAt b 28 4 = 0x7F800000 then none else some (f32Rat (numAt b 28 4))
  | none => some 10
/-- TELEM_WIN_MS. -/
def Group.telemMs (x : Group) : Nat :=
  match x.loop with
  | some b => numAt b 32 4
  | none => 100

/-- The current that stands for I_str in a group's power: I_grp where several groups serve the port
(04 R102). -/
def State.iPower (s : State) (g : Fin 8) : Rat :=
  let x := s.group g
  match s.portOf g with
  | some p => if (s.groupsOfPort p).length > 1 then x.iGrp else x.iStr
  | none => x.iGrp

/-- Group power P = V_str × I_str, W. -/
def State.power_ (s : State) (g : Fin 8) : Rat := (s.group g).vStr * s.iPower g

/-- c / c_l of a pair's leader; 1 elsewhere (05 R157). -/
def State.pairScale (s : State) (g : Fin 8) : Rat :=
  let x := s.group g
  let c := s.ccap g
  if x.pair.paired && x.pair.leader && c ≠ 0 then (c + x.partnerCap) / c else 1

/-- The group current: at a pair's leader the sum of the halves (05 R157). -/
def State.wholeCurrent (s : State) (g : Fin 8) : Rat :=
  let x := s.group g
  if x.pair.paired && x.pair.leader then x.iGrp + x.partnerAmps 4 else x.iGrp

/-- The current that the loop regulates: the string's less the filtered perturbation; at a pair's leader the
sum of the halves (05 R157). -/
def State.loopCurrent (s : State) (g : Fin 8) : Rat :=
  let x := s.group g
  if x.pair.paired && x.pair.leader then s.wholeCurrent g else s.iPower g - x.pertF

/-- The power that the loop regulates (04 R102; 05 R157). -/
def State.loopPower (s : State) (g : Fin 8) : Rat :=
  let x := s.group g
  if x.pair.paired && x.pair.leader then
    x.vStr * x.iGrp + (intAt x.pair.control 20 4 : Rat) / 100 * x.partnerAmps 4
  else x.vStr * s.loopCurrent g

/-- A mode change that Table 4-2 permits from the mode in force, or the one it is in (R94). -/
def State.modePermitted (s : State) (g : Fin 8) (m : Mode) : Bool :=
  let cur := (s.group g).mode
  match m with
  | .off => cur != .fault
  | .standby => cur != .fault
  | .precharge =>
    cur == .precharge || (cur == .standby && s.anyInserted g && s.limitSetPresent &&
      (match s.portOf g with
       | some p => (s.cont p).run == .open_
       | none => false))
  | .power | .busVoltage | .stringCurrent => (cur == .standby || cur.isPower) && s.isReady g
  | .fault => false

/-- The reference and the integrator at entry to a power mode: the present value of the controlled
quantity, and the output at the present group current (04 R98, R115). -/
def State.seedLoop (g : Fin 8) (m : Mode) (s : State) : State :=
  let x := s.group g
  let p := s.loopPower g
  let c := s.loopCurrent g
  let i := s.wholeCurrent g
  let v := atLeastVolt x.vStr
  let droop := (s.held (grId g 0x0C) : Rat) * (p / s.pairScale g) / 1000000
  let (ref, integ) : Rat × Rat := match m with
    | .power => (p, i * v - p)
    | .stringCurrent => (c, i - c)
    | .busVoltage => (x.vBus, i * v + x.vbKp * droop)
    | _ => (0, 0)
  s.modGroup g (fun x => { x with ref := ref, integ := integ, refAtTarget := false, refMoved := s.clk })

/-- The ACTIVE phases of a group. -/
def State.activeOf (s : State) (g : Fin 8) : List (Fin 64) := (s.phasesOf g).filter (fun p => (s.phase p).role == .active)

/-- Entry into PRECHARGE or a power mode from STANDBY: the ACTIVE phases start to switch (04 R115), and captures that the
group feeds are open. -/
def State.startMode (g : Fin 8) (m : Mode) (s : State) : State :=
  let s := s.enterMode g m
  let s := s.startSwitching g (s.activeOf g)
  let s := s.modGroup g (fun x => { x with
    regrout := 8, kCount := 0, iCmd := 0, entrySign := 0, nOn := 0, burstPos := 0, burstGap := 0, captureClosed := false,
    preSince := s.clk, matchSince := none, breachI := 0, breachV := 0, breachB := 0 })
  s.seedLoop g m

/-- A power mode taken in a ramp-down: the phases already stopped switch again (04 R96). -/
def State.resume (g : Fin 8) (s : State) : State :=
  let ps := (s.activeOf g).filter (fun p => !(s.phase p).switching && !(s.phase p).shed)
  (s.startSwitching g ps).modGroup g (fun y => { y with rampDown := none, refAtTarget := false, captureClosed := false })

/-- A ramp-down begins (04 R96): scheduled setpoints of the group end, its captures close, the reference moves
to zero group current. In BUS_VOLTAGE and PRECHARGE the ramp runs on the current itself. -/
def State.startRampDown (g : Fin 8) (target : Mode) (s : State) : State :=
  let x := s.group g
  let onCurrent := x.mode == .busVoltage || x.mode == .precharge
  let s := s.endScheduled (Scheduled.names g) stAbDisabled 0
  s.modGroup g (fun y => { y with
    rampDown := some target, refAtTarget := false, refMoved := s.clk, captureClosed := true
    ref := if onCurrent && y.rampDown.isNone then y.iCmd else y.ref })

/-- PRECHARGE ends by itself (04 Table 4-2): G_MODE reads STANDBY, the current is ramped to zero at G_SLEW. -/
def State.endPrecharge (g : Fin 8) (s : State) : State :=
  let s := s.modGroup g (fun x => { x with endPre := false })
  if (s.group g).mode == .precharge then
    if (s.group g).rampDown.isSome then s
    else (s.setParam (grId g 0) Mode.standby.code).startRampDown g .standby
  else s

/-- A new request of G_MODE is taken (04 R95); it is one that R94 permits. -/
def State.takeMode (g : Fin 8) (m : Mode) (s : State) : State :=
  let x := s.group g
  let s := s.setParam (grId g 0) m.code
  match m with
  | .off => if x.mode.isSwitching then s.startRampDown g .off
      else if x.mode == .off then s else s.enterMode g .off
  | .standby => if x.mode.isSwitching then s.startRampDown g .standby
      else if x.mode == .standby then s else s.enterMode g .standby
  | .precharge => if x.mode == .precharge && x.rampDown.isNone then s else s.startMode g .precharge
  | .power | .busVoltage | .stringCurrent =>
    if x.mode.isQuiet then s.startMode g m
    else
      let s := if x.rampDown.isSome then s.resume g else s
      if x.mode != m then (s.enterMode g m).seedLoop g m
      else if x.rampDown.isSome && m == .busVoltage then s.seedLoop g m
      else s.modGroup g (fun y => { y with refAtTarget := false })
  | .fault => s

/-- Writes an owner parameter (02 Table 2-2). -/
def Owner.put (k v : Nat) (o : Owner) : Owner :=
  match k with
  | 0 => { o with priv := BitVec.ofNat 8 v }
  | 1 => { o with qdepth := BitVec.ofNat 16 v }
  | 2 => { o with transports := BitVec.ofNat 8 v }
  | 3 => { o with ringQuota := BitVec.ofNat 32 v }
  | _ => o

/-- Stores one accepted item of a PARAM_SET (02 R49): owner parameters in their owner, a role as a request
for the next commit boundary (03 R83), a mode as a new request (04 R95), any other as its value. -/
def State.storeItem (id v : Nat) (s : State) : State :=
  if isOwnerParam id then s.modOwner (Fin.ofNat 16 ((id - 0x100) / 6)) (Owner.put ((id - 0x100) % 6) v)
  else if 0x0400 ≤ id && id < 0x0800 && id % 16 == 0 then
    let p := Fin.ofNat 64 ((id - 0x400) / 16)
    (s.modPhase p (fun x => { x with roleWrite := some (Role.ofCode v) })).setParam id v
  else if 0x0800 ≤ id && id < 0x0900 && id % 32 == 0 then
    s.takeMode (Fin.ofNat 8 ((id - 0x800) / 32)) (Mode.ofCode v)
  else if 0x0800 ≤ id && id < 0x0900 && (id % 32 == 0x14 || id % 32 == 0x13) then
    (s.modGroup (Fin.ofNat 8 ((id - 0x800) / 32)) (fun x => { x with refAtTarget := false })).setParam id v
  else s.setParam id v

end Sys2Proof.Machine
end

