-- ==== Sys2Proof/Machine/Commit.lean ====
section
/-! DEFINITION. The commit boundary of a group (01 R16, R17; 03 R62, R64 to R69, R82, R83; 04 R95 to
R99; 05 R134 to R145): parameters, roles, modes, and the commit of wet edges. -/

namespace Sys2Proof.Machine

/-- One update per period: above 1 MHz and in DIODE_EMULATION (03 R64, 04 R566). -/
def State.wholePeriod (s : State) (g : Fin 8) : Bool :=
  decide (1000000 < s.param (grId g 1)) || (s.group g).light == .diode

/-- SDCLK_DIV of the octet leader (03 R71): the modulator period in ns. -/
def State.sdDiv (s : State) (p : Fin 64) : Nat := bitsOf (s.held (phId (Fin.ofNat 64 (p.val / 8 * 8)) 0xA)) 7 0

/-- N of the control filter (03 Table 3-11). -/
def State.sinc (s : State) (p : Fin 64) : Nat := bitsOf (s.held (phId p 0xA)) 20 12

/-- D of 03 R67, from the filter length, the modulator period in ns, and the update interval in edge
units. -/
def depthOf (n div : Nat) (tu : Rat) : Nat :=
  max 1 (ceilQ (16 * (3 / 2 * ((n : Rat) - 1) * div + 600) / tu)).toNat

/-- D of a phase with the present period length (04 R117). -/
def State.depth (s : State) (g : Fin 8) (p : Fin 64) : Nat :=
  let n := s.nT g
  depthOf (s.sinc p) (s.sdDiv p) (if s.wholePeriod g then (n : Rat) else (n : Rat) / 2)

/-- D as the screed engine keeps it for every phase not in role OFF (03 R67). -/
def State.keepDepth (g : Fin 8) (p : Fin 64) (s : State) : State :=
  let d := if (s.phase p).role == .off then 0 else s.depth g p
  s.modPhase p (fun x => { x with depth := d })

/-- SDCLKk at an instant of device time in edge units (03 R71): from the release of the D-die reset its rising edges lie at the
whole multiples of its period in device time (DEDUCED, log entry 114). -/
def State.sdClk (s : State) (k : Fin 8) (t : Nat) : Bool :=
  let per := 16 * s.sdDiv (Fin.ofNat 64 (8 * k.val))
  s.power.safety.dieRunning && decide (2 * (t % max 1 per) < per)

/-! ### Parameters (03 R69, R74) -/

/-- PH_SENSE_GAIN as the channel holds it, A. -/
def State.senseGain (s : State) (p : Fin 64) : Rat := (signedOf 32 (s.held (phId p 4)) : Rat) / 65536

/-- PH_SENSE_OFS as the channel holds it, A. -/
def State.senseOfs (s : State) (p : Fin 64) : Rat := (s.heldI (phId p 5) : Rat) / 100

/-- The thresholds of the trip comparator (03 R74): the raw values nearest to ±LEVEL that, converted back, do not exceed LEVEL in
magnitude. -/
def State.tripLevels (s : State) (p : Fin 64) : Int × Int :=
  rawLevels (s.tripLen p) (s.senseGain p) (s.senseOfs p) ((bitsOf (s.held (phId p 9)) 15 0 : Rat) / 100)

/-- The channel of a phase takes its stored parameters, +0x1 to +0xC. -/
def ParamState.pickPhase (p : Fin 64) (q : ParamState) : ParamState :=
  (List.range 12).foldl (fun q k => q.pick (phId p (k + 1))) q

/-- The channel of a phase takes its parameters; a new PH_TRIP gives new thresholds with the gain and offset then in force, and
the driver-fault input is read with the new settings. -/
def State.pickPhase (p : Fin 64) (s : State) : State :=
  let t := s.modHost (fun h => { h with params := h.params.pickPhase p })
  let l := t.tripLevels p
  let t := if t.held (phId p 9) == s.held (phId p 9) then t
    else t.modPhase p (fun x => { x with tripLo := l.1, tripHi := l.2 })
  t.dfltCheck p

/-! ### Roles (03 R82, 05 R134 to R142) -/

/-- A phase becomes RETIRED with a cause; one raise for both (03 Table 3-14). -/
def State.retirePhase (p : Fin 64) (c : Nat) (s : State) : State :=
  let x := s.phase p
  let keep : Bool := x.causeFresh && x.cause != 0 && x.cause.toNat < c
  let now := s.edgeNow
  (s.modPhase p (fun x => { x.stop now with
    role := .retired, roleWrite := x.roleWrite, shadow := none, retire := 0, senseFail := 0
    cause := if keep then x.cause else BitVec.ofNat 8 c
    causeFresh := true, replaced := x.replaced && c != 9 })).setParam (phId p 0) 3 |>.raise p.val

/-- The neighbours of 05 R136 among the closed-loop phases, ascending; the rank is circular. -/
def neighbours (p : Fin 64) (near : List (Fin 64)) : Option (Fin 64 × Fin 64) :=
  match near, near.getLast? with
  | first :: _, some last =>
    some (((near.filter (fun q => q < p)).getLast?).getD last, ((near.filter (fun q => p < q)).head?).getD first)
  | _, _ => none

/-- Entry to SHADOW (05 R136); at a period start the period that begins is the first of the interval. -/
def State.enterShadow (half : Bool) (p : Fin 64) (c : Nat) (a b : Fin 64) (s : State) : State :=
  let i := ((s.phase a).sample + (s.phase b).sample) / 2
  (((s.setCause p c).modPhase p (fun x => { x with
    role := .shadow, senseFail := 0, retire := if x.retire == 8 then 8 else 0, heldLow := false
    shadow := some ⟨a, b, i, if half then 0 else 1, false⟩ }))).setParam (phId p 0) 4

/-- The cause that retires a phase at a boundary, 0 none: what waits, its over-temperature input as it stands (05 R132), and the
end of its SHADOW interval, at a period start (R137). -/
def Phase.retireDue (half : Bool) (x : Phase) : BitVec 8 :=
  let hot : Bool := x.overTemp && (x.role == .active || x.role == .shadow || x.role == .filler)
  let c := if hot then lowerCause x.retire 8 else x.retire
  match x.shadow with
  | some sh => if sh.ended && !half && x.cause != 0 then lowerCause c x.cause.toNat else c
  | none => c

/-- The automatic transition pending for a phase (03 Table 3-6, 05 R129, R134). -/
def State.autoRole (g : Fin 8) (half : Bool) (near : List (Fin 64)) (p : Fin 64) (s : State) : State :=
  let x := s.phase p
  let due := x.retireDue half
  if due == 0 && x.senseFail == 0 then s
  else
    let c := (lowerCause due (if x.senseFail == 0 then 255 else x.senseFail.toNat)).toNat
    let sense : Bool := x.senseFail != 0 && (due == 0 || x.senseFail.toNat < due.toNat)
    match x.role with
    | .active =>
      if sense && x.switching && bitsOf (s.held (grId g 0x16)) 13 8 ≠ 0 then
        match neighbours p near with
        | some (a, b) => s.enterShadow half p c a b
        | none => s.retirePhase p c
      else s.retirePhase p c
    | .shadow | .filler => s.retirePhase p c
    | .off | .retired => s.modPhase p (fun x => { x with retire := 0, senseFail := 0 })

/-- One FILLER phase becomes ACTIVE: the good one with the fewest thermal cycles, lowest index
(05 R141, R142). -/
def State.pickFiller (g : Fin 8) (s : State) : State :=
  let best := ((s.phasesOf g).filter s.fillerGood).foldl (fun (b : Option (Fin 64)) p =>
    match b with
    | none => some p
    | some q =>
      if (s.phase p).counters.thermal.toNat < (s.phase q).counters.thermal.toNat then some p else some q) none
  match best with
  | some p => s.setRole p .active
  | none => s

/-- Fillers for the phases of a list that have left (05 R141). -/
def State.fill (g : Fin 8) (gone : List (Fin 64)) (s : State) : State :=
  if bitAt (s.held (grId g 0x16)) 14 then gone.foldl (fun t _ => t.pickFiller g) s else s

/-- A written role is applied where Table 3-6 permits it, otherwise dropped with an interrupt (03 R82). -/
def State.writeRole (p : Fin 64) (s : State) : State :=
  match (s.phase p).roleWrite with
  | none => s
  | some r =>
    let s := s.modPhase p (fun x => { x with roleWrite := none })
    let x := s.phase p
    match x.role, r with
    | .off, .active | .off, .filler | .filler, .active | .filler, .off => s.setRole p r
    | .active, .off =>
      if x.switching then
        (s.modPhase p (fun x => { x with stopping := true })).setParam (phId p 0) 1
      else s.setRole p .off
    | a, b => let s := s.setParam (phId p 0) a.code
              if a == b then s else s.raise p.val

/-- One PHASE_RESTORE takes effect (03 R88). -/
def State.restoreOne (p : Fin 64) (r : Req) (s : State) : State :=
  match s.restoreRefusal p with
  | some d => s.finish r 0x0504 ⟨stState, 0, d, []⟩
  | none => ((s.modPhase p (fun x => { x with cause := 0 })).setRole p .off).complete r 0x0504 done

/-- The PHASE_RESTOREs that wait for this boundary, oldest first: after one that takes effect the phase is RETIRED no more. -/
def State.applyRestore (p : Fin 64) (s : State) : State :=
  (s.phase p).restore.foldl (fun t r => t.restoreOne p r) (s.modPhase p (fun x => { x with restore := [] }))

/-- New members of the closed-loop set of a switching group start to switch (05 R142). -/
def State.joinPhases (g : Fin 8) (before : List (Fin 64)) (s : State) : State :=
  if (s.group g).mode.isSwitching then s.startSwitching g ((s.closed g).filter (fun p => !before.contains p)) else s

/-- SHADOW phases of a group. -/
def State.shadows (s : State) (g : Fin 8) : List (Fin 64) := (s.phasesOf g).filter (fun p => (s.phase p).role == .shadow)

/-- A regrout starts from the references in force (05 R139, R140); the epoch moves (04 R99). Its first step is the period start
after this instant. -/
def State.startRegrout (g : Fin 8) (s : State) : State :=
  let s := (s.closed g).foldl (fun t p => t.modPhase p (fun x => { x with base := x.iRef })) s
  (s.modGroup g (fun x => { x with regrout := 0 })).bumpEpoch g .other

/-- A phase that becomes ACTIVE with its driver-fault input asserted answers to it (03 R78). -/
def State.dfltAtRole (p : Fin 64) (s : State) : State :=
  let x := s.phase p
  if x.role == .active && x.dfltLevel && !x.dfltWait && x.retire == 0 then s.driverFault p else s

/-- All role changes of a commit boundary. -/
def State.commitRoles (g : Fin 8) (half : Bool) (s : State) : State :=
  let members := s.phasesOf g
  let before := s.closed g
  let shBefore := s.shadows g
  let near := before.filter (fun p =>
    (s.phase p).switching && (s.phase p).retireDue half == 0 && (s.phase p).senseFail == 0)
  let s := members.foldl (fun t p => t.autoRole g half near p) s
  let s := s.fill g (before.filter (fun p => !(s.closed g).contains p))
  let mid := s.closed g
  let s := members.foldl (fun t p => t.writeRole p) s
  let s := s.fill g (mid.filter (fun p => !(s.closed g).contains p))
  let s := members.foldl (fun t p => t.applyRestore p) s
  let s := if (s.closed g).isEmpty then (s.shadows g).foldl (fun t p => t.retirePhase p (t.phase p).cause.toNat) s else s
  let s := s.joinPhases g before
  let s := members.foldl (fun t p => (t.dfltAtRole p).keepDepth g p) s
  if s.closed g == before && s.shadows g == shBefore then s else s.startRegrout g

/-! ### Modes, faults and engine changes at a boundary -/

/-- MIN_PHASES of 05 R145, and the partner's fault of R159. -/
def State.commitFaults (g : Fin 8) (s : State) : State :=
  let x := s.group g
  let s := if x.pair.paired && numAt x.pair.control 42 1 ≠ 0 then s.groupFault g 4 else s
  let x := s.group g
  if x.mode.isSwitching && s.activeForMin g < s.held (grId g 0x11) && !(x.pair.joint && !x.pair.leader) then
    s.groupFault g 2
  else s

/-- The group fault cause persists (04 R125). -/
def State.causePersists (s : State) (g : Fin 8) : Bool :=
  let x := s.group g
  match x.cause.toNat with
  | 4 => x.pair.paired && numAt x.pair.control 42 1 ≠ 0
  | 5 => !s.power.safety.dieLinkUp
  | _ => false

/-- Refusals of GROUP_FAULT_ACK (04 R125). -/
def State.ackRefusal (s : State) (g : Fin 8) : Option Nat :=
  if (s.group g).mode != .fault then some dtGroupState
  else if s.faultLow then some 0x0102
  else if s.causePersists g then some 0x0103
  else none

/-- GROUP_FAULT_ACK takes effect (04 Table 4-2). -/
def State.applyAck (g : Fin 8) (s : State) : State :=
  match (s.group g).faultAck with
  | none => s
  | some r =>
    let s := s.modGroup g (fun x => { x with faultAck := none })
    if !s.holdsLease r.owner then s.finish r 0x0405 ⟨stPriority, 0, 0, []⟩
    else match s.ackRefusal g with
    | some d => s.finish r 0x0405 ⟨stState, 0, d, []⟩
    | none =>
      let s := ((s.enterMode g .off).modGroup g (fun x => { x with cause := 0 })).setParam (grId g 0) 0
      (s.evalReady g).complete r 0x0405 done

/-- The group's engines take a waiting microprogram set (19 R514, R515). A paired group takes it only when the new PAIR_VER is the
partner's, which the VERSION of its frames gives (DEDUCED, log entry 22). -/
def State.applyEngines (g : Fin 8) (s : State) : State :=
  let x := s.group g
  let still : Bool := x.mode.isQuiet || x.mode == .fault ||
    (x.mode.isPower && decide (absQ x.iGrp < s.ccap g / 50))
  let new := s.newEngines
  if !s.nv.fw.pendGroups.getLsbD g.val || (x.pair.paired && s.conv.link.partnerVer != some new.2) || !still then s
  else
    let pend := s.nv.fw.pendGroups &&& ~~~(1#8 <<< g.val)
    let s := s.modNv (fun k => { k with fw := FwState.settled new { k.fw with pendGroups := pend } })
    (s.event (.screed g) .everyEvent 0x45 (leBytes 1 g.val)).raise 270

/-! ### The commit of edges (01 R16, R17; 03 R65, R66) -/

/-- A phase's outputs may follow its edges (03 R60, R62, 01 R21). -/
def State.mayDrive (s : State) (g : Fin 8) (p : Fin 64) : Bool :=
  let x := s.phase p
  (x.role == .active || x.role == .shadow) && (x.switching || x.shed) && (s.group g).mode.isSwitching && !s.faultLow &&
    !s.power.safety.clamp && (s.conv.banks[p.val / 8]'(by omega)).inWindow

/-- The wet words that are due at this boundary, and the rest with one boundary less to come. -/
def Phase.due (x : Phase) : List Wet × List Wet :=
  let w := x.wet.map (fun e => { e with due := e.due - 1 })
  (w.filter (fun e => e.due == 0), w.filter (fun e => e.due != 0))

/-- A word of the current epoch (01 R16). -/
def ofEpoch (epoch : U16) (w : U64) : Bool := (EdgeWord.ofCode w).epoch == epoch.toNat

/-- Which words a boundary commits: those of the current epoch; else, after a trip or FAULT_N, none and the
outputs low; else the previous set edges, counted late. -/
inductive Committed where
  | words (ws : List U64)
  | low
  | reuse (ws : List U64)
  | lateLow
  deriving DecidableEq, Repr

/-- The choice of 01 R16 for one phase. The previous set edges of a half-period are those of the same half of the period before,
which keep the old duty (DEDUCED, log entry 115); where that half has none yet the levels stay. -/
def Phase.choose (x : Phase) (half : Bool) (epoch : U16) (bump : Bump) : Committed :=
  let good := (x.due.1.map (fun e => e.word)).filter (ofEpoch epoch)
  if !good.isEmpty then .words good
  else if bump == .tripOrFaultN then .low
  else if x.set.isNone then .lateLow
  else .reuse ((if half then x.setB else x.setA).getD [])

/-- A phase period ends and the next begins at `start` (03 R63): the duty and the PWMH pulses of the ended one (Table 3-17, Table
3-15), and its times between switching events. -/
def Phase.periodTimes (x : Phase) (start : Nat) : Phase :=
  let hi := highTime x.perStart start x.pwmH 0 x.line
  let x := { x with
    hiLast := x.hiNow, loLast := x.loNow, hiNow := 0, loNow := 0, perStart := start
    duty := BitVec.ofNat 16 (min 65535 (hi * 65536 / max 1 (start - x.perStart)))
    counters := if hi = 0 then x.counters else { x.counters with cycles := satInc x.counters.cycles } }
  { x.prune (start - 40000) with wearCycSat := x.wearCycSat || x.counters.cycles.toNat + 1 == 2 ^ 64 }

/-- Both outputs low from an instant on, no switch commanded on. -/
def Phase.bothLow (now : Nat) (x : Phase) : Phase := { x.low now with lvStart := none, lvEnd := none }

/-- What a commit needs to place words: the instant of the boundary, N_T, whether the words are of a whole period or of the
second half, the interlock's minimums. -/
structure CommitAt where
  now : Nat
  nT : Nat
  whole : Bool
  half : Bool
  rise : Nat
  fall : Nat
  deriving DecidableEq, Repr

/-- The words of a half-period (or period) become set: the network places their transitions after the start of the phase period. -/
def Phase.drive (c : CommitAt) (ws : List U64) (x : Phase) : Phase :=
  let es := placed c.nT c.whole c.half (ws.map EdgeWord.ofCode)
  let hs := if c.half then c.nT / 2 else 0
  let he := if c.whole || c.half then c.nT else c.nT / 2
  let t := levelTimes hs he es x.lvEnd
  { x.actWords c.now x.perStart hs c.rise c.fall es with
    set := some ws, setA := if c.half then x.setA else some ws, setB := if c.half then some ws else x.setB
    wholeRun := c.whole, lvStart := x.lvEnd, lvEnd := levelAfter es x.lvEnd
    hiNow := x.hiNow + t.2, loNow := x.loNow + t.1 }

/-- One late update (03 Table 3-15). -/
def Phase.late (x : Phase) : Phase :=
  { x with counters := { x.counters with late := satInc x.counters.late }
           lateInWindow := satInc x.lateInWindow }

/-- What the commit of one phase does to it; `start` is the start of its period, `drives` tells whether its outputs may follow
its edges. -/
def Phase.commit (c : CommitAt) (epoch : U16) (bump : Bump) (start : Nat) (drives : Bool) (y : Phase) : Phase :=
  let y := if c.half then y else { y.periodTimes start with heldLow := false }
  let d := y.due
  let z := { y with wet := d.2 }
  if !drives || y.heldLow then z.bothLow c.now
  else if c.half && y.wholeRun then z
  else
    match y.choose c.half epoch bump with
    | .words ws => z.drive { c with whole := !c.half && d.1.any (fun e => e.whole) } ws
    | .low => z.bothLow c.now
    | .reuse ws => (z.drive { c with whole := !c.half && y.wholeRun } ws).late
    | .lateLow => (z.bothLow c.now).late

/-- The commit of one phase. -/
def State.commitPhase (g : Fin 8) (half : Bool) (p : Fin 64) (s : State) : State :=
  let x := s.group g
  let sat := (s.phase p).wearCycSat
  let drives := s.mayDrive g p
  let c : CommitAt :=
    { now := s.edgeNow, nT := s.nT g, whole := s.wholePeriod g, half := half, rise := s.held (phId p 6), fall := s.held (phId p 7) }
  let t := s.modPhase p (fun y => y.commit c x.epoch x.bump (x.periodStart + y.phi) drives)
  t.raiseIf ((t.phase p).wearCycSat && !sat) p.val

/-- Some phase still has cancelled words on the way. -/
def State.staleDue (s : State) (g : Fin 8) : Bool :=
  (s.phasesOf g).any (fun p => (s.phase p).wet.any (fun e => !ofEpoch (s.group g).epoch e.word))

/-! ### Edge capture (16 R449) -/

/-- The edge capture record of a boundary (16 Table 16-14): one word a phase that has one due. -/
def State.edgeRecord (s : State) (g : Fin 8) (half : Bool) : List Byte :=
  let ws := (s.phasesOf g).filterMap (fun p => ((s.phase p).due.1.head?).map (fun w => (p, w.word)))
  let mask := (ws.map (fun e => 2 ^ e.1.val)).sum
  let wet := ((ws.filter (fun e => !ofEpoch (s.group g).epoch e.2 || !s.mayDrive g e.1 ||
    (half && (s.phase e.1).heldLow))).map (fun e => 2 ^ e.1.val)).sum
  let lines := (ws.length + 7) / 8
  let head := [0x45#8, 1#8] ++ leBytes 1 g.val ++ zeros 1 ++ leBytes 2 (s.group g).epoch.toNat ++ zeros 2 ++
    leBytes 8 s.now ++ leBytes 8 mask ++ leBytes 8 wet ++ zeros 11 ++ leBytes 1 lines ++ zeros 20
  let body := (ws.map (fun e => leBytes 8 e.2.toNat)).flatten
  head ++ body ++ zeros (64 * lines - body.length)

/-- Hands the record to the CAPTURE rings of source EDGES of the group, every D + 1 boundaries. -/
def State.captureEdges (g : Fin 8) (half : Bool) (s : State) : State :=
  if (s.group g).captureClosed then s else
  let n := (s.group g).captureSkip
  let rec_ := s.edgeRecord g half
  let s := s.sys.ring.rings.foldl (fun t e =>
    let src := e.2.source.toNat
    if e.2.kind == 2 && bitsOf src 7 0 == 3 && bitsOf src 15 8 == g.val && n % (bitsOf src 31 16 + 1) == 0 then
      t.emit (.screed g) (.ring e.1) rec_
    else t) s
  s.modGroup g (fun x => { x with captureSkip := n + 1 })

/-- A commit boundary up to the modes: parameters, roles, faults, GROUP_FAULT_ACK. -/
def State.commitHead (g : Fin 8) (half : Bool) (s : State) : State :=
  let t := (s.phasesOf g).foldl (fun t p => t.pickPhase p) s
  ((t.commitRoles g half).commitFaults g).applyAck g

/-- A commit boundary from the end of a precharge on: engine changes, edge capture, and the commit of the wet edges; `s0`
is the state before the boundary. -/
def State.commitTail (s0 : State) (g : Fin 8) (half : Bool) (s : State) : State :=
  let t := if (s.group g).endPre then s.endPrecharge g else s
  let t := (t.applyEngines g).captureEdges g half
  let t := t.modGroup g (fun x => { x with half := half, syncOut := !half && bitAt (s0.held (grId g 0x12)) 2 })
  let t := t.modGroup g (fun x => { x with epoch := settledEpoch (s0.group g) x })
  let t := (t.phasesOf g).foldl (fun u p => u.commitPhase g half p) t
  let t := if t.staleDue g then t else t.modGroup g (fun x => { x with bump := .none })
  let t := (t.phasesOf g).foldl (fun u p => u.modPhase p (fun x => { x with causeFresh := false })) t
  t.settle s0

end Sys2Proof.Machine
end

