-- ==== Sys2Proof/Machine/ContactorOps.lean ====
section
/-! DEFINITION. State changes of string contactors (07 R211 to R213, Table 7-19) and the failures of a
precharge that an outer-loop sample finds. -/

namespace Sys2Proof.Machine

/-- Code of CONT_STATUS.STATE (07 Table 7-18). -/
def ContRun.code : ContRun → Nat
  | .open_ => 0 | .precharging => 1 | .closing => 2 | .closed => 3 | .opening => 4 | .weldTest => 5 | .fault => 6

/-- CONT_STATUS (07 Table 7-18). -/
def Contactor.word (x : Contactor) : Nat :=
  x.run.code + fieldAt 3 1 (flag x.fb) + fieldAt 4 1 (flag x.welded) + fieldAt 5 1 (flag x.weldUntested) +
    fieldAt 8 8 x.cause.toNat + fieldAt 16 16 x.loadOpens.toNat

/-- The precharging group of a port (07 R212). -/
def State.prechargingGroup (s : State) (p : Fin 4) : Option (Fin 8) :=
  if !s.bus.busPg || !s.limitSetPresent then none
  else (s.groupsOfPort p).find? (fun g => (s.group g).mode == .standby && s.anyInserted g)

/-- A contactor enters a state. A FAULT leaves closing to CONTACTOR_CLOSE (07 R213). -/
def Contactor.to (run : ContRun) (cause : Option Nat) (now : Nanos) (x : Contactor) : Contactor :=
  { x with
    run := run, cause := (cause.map (BitVec.ofNat 8)).getD x.cause, since := now
    group := if run == .precharging || run == .closing || run == .weldTest then x.group else none
    autoDone := x.autoDone || run == .fault }

/-- A contactor changes state; IS078 follows STATE and WELDED, and leaving CLOSED ends a sweep of the port (11
Table 11-3). -/
def State.contTo (p : Fin 4) (run : ContRun) (cause : Option Nat) (s : State) : State :=
  let x := s.cont p
  let s := (s.modCont p (Contactor.to run cause s.clk)).raiseIf (x.run != run) 78
  if x.run == .closed && run != .closed then s.stippleAbort p 8 else s

/-- WELDED sets. -/
def State.weld (p : Fin 4) (s : State) : State :=
  let was := (s.cont p).welded
  (s.modCont p (fun x => { x with welded := true })).raiseIf (!was) 78

/-- CONTs_ON falls; a release under load is counted (07 Table 7-18). -/
def State.release (p : Fin 4) (s : State) : State :=
  let l := s.loaded p
  s.modCont p (fun x => { x with coil := false, loadOpens := if l && x.coil then satInc x.loadOpens else x.loadOpens })

/-- The group of a contactor's precharge or test returns to STANDBY. -/
def State.freeGroup (p : Fin 4) (s : State) : State :=
  match (s.cont p).group with
  | none => s
  | some g => s.endPrecharge g

/-- A group enters PRECHARGE for a contactor. -/
def State.prechargeBy (p : Fin 4) (g : Fin 8) (run : ContRun) (s : State) : State :=
  let v := s.vsdRaw (s.vstrIn p)
  let s := (s.modCont p (fun x => { x with group := some g, testV := v, autoDone := true })).contTo p run none
  (s.setParam (grId g 0) Mode.precharge.code).startMode g .precharge

/-- The weld test starts (07 Table 7-19). -/
def State.startWeldTest (p : Fin 4) (g : Fin 8) (s : State) : State := s.prechargeBy p g .weldTest

/-- OPENING ends with the feedback reading open: the test where one is due and can run, else OPEN (07 Table
7-19). -/
def State.opened (p : Fin 4) (s : State) : State :=
  let x := s.cont p
  match (if x.testAfter && bitAt (s.param (ctId p 0)) 3 then s.prechargingGroup p else none) with
  | some g => (s.modCont p (fun y => { y with testAfter := false })).startWeldTest p g
  | none => (s.modCont p (fun y => { y with testAfter := false, weldUntested := true })).contTo p .open_ none

/-- CLOSING ends with the feedback reading closed: the group goes to STANDBY at its next commit boundary. -/
def State.closed_ (p : Fin 4) (s : State) : State :=
  let s := match (s.cont p).group with
    | some g => s.modGroup g (fun x => { x with endPre := true })
    | none => s
  s.contTo p .closed none

/-- What the feedback's present level ends. -/
def State.contFeedback (p : Fin 4) (s : State) : State :=
  let x := s.cont p
  match x.run with
  | .closing => if x.fb then s.closed_ p else s
  | .opening => if x.fb then s else s.opened p
  | _ => s

/-- A release that leads to OPENING. -/
def State.startOpening (p : Fin 4) (test : Bool) (s : State) : State :=
  let s := (s.release p).modCont p (fun x => { x with testAfter := test })
  (s.contTo p .opening none).contFeedback p

/-- The contactor whose precharge a group runs. -/
def State.contOf (s : State) (g : Fin 8) : Option (Fin 4) :=
  (List.finRange 4).find? (fun p => (s.cont p).group == some g)

/-- The group is in PRECHARGE and not ramping down. -/
def State.precharges (s : State) (g : Fin 8) : Bool := (s.group g).mode == .precharge && (s.group g).rampDown.isNone

/-- A precharge of the group is still to complete: a contactor's, whatever has become of the group's mode (07 R211), or one set
by G_MODE. -/
def State.prechargeOpen (s : State) (g : Fin 8) : Bool :=
  match s.contOf g with
  | some p => (s.cont p).run == .precharging
  | none => s.precharges g

/-- When the precharge of a group began: its contactor's entry to PRECHARGING, or the group's entry to PRECHARGE. -/
def State.prechargeSince (s : State) (g : Fin 8) : Nanos :=
  match s.contOf g with
  | some p => (s.cont p).since
  | none => (s.group g).preSince

/-- A precharge fails: the contactor's goes to FAULT, the group to STANDBY (07 R211, Table 7-19). -/
def State.prechargeFails (g : Fin 8) (cause : Nat) (s : State) : State :=
  let s := s.endPrecharge g
  match s.contOf g with
  | some p => if (s.cont p).run == .precharging then s.contTo p .fault (some cause) else s
  | none => s

/-- V_str has moved by at least DV / 2 since the test began (07 Table 7-19). -/
def State.testMoved (s : State) (p : Fin 4) : Bool :=
  decide (((bitsOf (s.param (ctId p 2)) 7 0 : Nat) : Int) * 100 ≤
    2 * ((s.vsdRaw (s.vstrIn p) - (s.cont p).testV).natAbs : Int))

/-- The weld test of a port ends (07 Table 7-19); a waiting CONTACTOR_WELD_TEST answers. -/
def State.endTest (p : Fin 4) (moved : Bool) (s : State) : State :=
  let q := (s.cont p).waiting
  let s := s.freeGroup p
  let s := if moved then (s.modCont p (fun y => { y with weldUntested := false })).contTo p .open_ none
    else (s.weld p).contTo p .fault (some 5)
  let s := s.modCont p (fun y => { y with waiting := none })
  match q with
  | some r => s.complete r 0x0707 (done (leBytes 1 (flag (!moved))))
  | none => s

/-- What a sample finds at once: a weld test in which V_str has moved, V_batt unknown, no feed inserted (07 R211, Table 7-19).
A failure in a test ends its group's part alone. -/
def State.precharge (g : Fin 8) (s : State) : State :=
  match s.portOf g with
  | none => s
  | some p =>
    let test := (s.cont p).run == .weldTest && (s.cont p).group == some g
    if test && s.testMoved p then s.endTest p true
    else if !(s.prechargeOpen g || (test && s.precharges g)) then s
    else if s.battUnknown p then s.prechargeFails g 6
    else if !s.anyInserted g then s.prechargeFails g 8
    else s

end Sys2Proof.Machine
end

