-- ==== Sys2Proof/Machine/FeedOps.lean ====
section
/-! DEFINITION. State changes of feeds and of BUS_PG (07 R196, R204, R207, R217). -/

namespace Sys2Proof.Machine

/-- A feed enters a state, with a cause when the change has one (07 Tables 7-6, 7-8). -/
def Feed.to (run : FeedRun) (cause : Option Nat) (now : Nanos) (x : Feed) : Feed :=
  { x with
    run := run, cause := (cause.map (BitVec.ofNat 8)).getD x.cause, since := now, pg := false
    okLostSince := none, ovSince := none, retryEnd := 0
    gateFromBlocking := run == .gate && x.run == .blocking, closable := none }

/-- BUS_PG falls when no feed is INSERTED (07 R207). -/
def State.checkPg (s : State) : State :=
  if s.bus.busPg && !(s.bus.feeds.toList.any Feed.inserted) then
    (s.modBus (fun b => { b with busPg := false })).raise 79
  else s

/-- A feed changes state; IS076 + f is raised on a change of STATE or CAUSE. -/
def State.feedTo (f : Fin 2) (run : FeedRun) (cause : Option Nat) (s : State) : State :=
  let x := s.feed f
  let y := x.to run cause s.clk
  ((s.modFeed f (fun _ => y)).raiseIf (x.run != y.run || x.cause != y.cause) (76 + f.val)).checkPg

/-- A trip counts a retry, or locks the feed out (07 R204). -/
def State.feedTrip (f : Fin 2) (cause : Nat) (s : State) : State :=
  let x := s.feed f
  let r := s.held (fdId f 9)
  if x.retries == bitsOf r 3 0 then s.feedTo f .lockedOut (some cause)
  else
    let n := x.retries + 1
    let s := s.feedTo f .tripped (some cause)
    s.modFeed f (fun y => { y with
      retries := n, retryEnd := s.clk + bitsOf r 15 8 * 2 ^ (n - 1) * 1000000000 })

/-! ### What the feed logic sees (07 R195, R199, R205, R206) -/

/-- V_bus,f, in 0.01 V. -/
def State.feedV (s : State) (f : Fin 2) : Int := s.vsdRaw (s.vbusIn f)
/-- V_link in 0.01 V. -/
def State.linkV (s : State) : Int := s.vsdRaw s.vlinkIn
/-- IFEED_IN of a feed. -/
def State.feedIn (s : State) (f : Fin 2) : Nat := bitsOf (s.param (fdId f 0)) 11 8
/-- I_f in 0.01 A. -/
def State.feedI (s : State) (f : Fin 2) : Int := s.vsdRaw (s.feedIn f)

/-- A feed that waits to close does not see one of its inputs: WIN and MATCHED read 0 (08 R241). -/
def State.feedBlind (s : State) (f : Fin 2) : Bool :=
  let r := (s.feed f).run
  (r == .window || r == .delay || r == .match_) && (s.feedInputs f).any s.vsdInvalid

/-- FEED_STATUS.WIN as an evaluation finds it (07 Table 7-7). -/
def State.feedWin (s : State) (f : Fin 2) : Bool :=
  let v := s.feedV f
  decide ((s.held (fdId f 1) : Int) ≤ v) && decide (v ≤ (s.held (fdId f 2) : Int)) && !s.feedBlind f

/-- FEED_STATUS.MATCHED. -/
def State.feedMatched (s : State) (f : Fin 2) : Bool :=
  decide (((s.linkV - s.feedV f).natAbs : Int) ≤ (s.held (fdId f 4) : Int)) && !s.feedBlind f

/-- FEED_STATUS.LINK_BELOW. -/
def State.linkBelow (s : State) (f : Fin 2) : Bool := decide (s.linkV < s.feedV f - (s.held (fdId f 4) : Int))

/-- The comparators of a feed are loaded (07 R195, 08 R239): the filter's length, and the raw thresholds of FEED_TRIP_I and of
FEED_RCB.LEVEL. -/
def State.loadComparators (f : Fin 2) (s : State) : State :=
  let m := bitsOf (s.held (fdId f 0)) 20 16
  let k := s.vsdScale (s.feedIn f)
  let t := rawLevels m k.1 k.2 ((s.held (fdId f 5) : Rat) / 100)
  let r := rawLevels m k.1 k.2 ((bitsOf (s.held (fdId f 7)) 15 0 : Rat) / 10)
  s.modFeed f (fun x => { x with tripLen := m, tripLo := t.1, tripHi := t.2, revLo := r.1, revHi := r.2 })

/-- The raw trip-filter output of a feed over the captures of its window (07 R203). -/
def State.feedRaw (s : State) (f : Fin 2) (l : List Capture) : Int :=
  filterOf (sinc2 (s.feed f).tripLen) (s.vsdBits (s.feedIn f) l)

/-- The trip comparator fires on a raw output (07 R203). -/
def Feed.overcurrent (raw : Int) (x : Feed) : Bool := decide (x.tripHi < raw) || decide (raw < x.tripLo)

/-- The reverse comparator fires on a raw output (07 R205): I_f below −LEVEL in EXPORT, above +LEVEL in IMPORT. -/
def State.reverse (s : State) (f : Fin 2) (raw : Int) : Bool :=
  let x := s.feed f
  bitAt (s.param (fdId f 0)) 1 && ((x.dir == 1 && decide (raw < x.revLo)) || (x.dir == 2 && decide (x.revHi < raw)))

/-- The reverse comparator's output from now on. -/
def Feed.compare (now : Nanos) (fires : Bool) (x : Feed) : Feed :=
  { x with revFires := fires, silentSince := if x.revFires && !fires then now else x.silentSince }

/-- DIR is set; in NONE, and where the direction turns, the comparator is silent until its output is found anew (07 R205). -/
def Feed.turn (now : Nanos) (dir : Nat) (x : Feed) : Feed :=
  if x.dir = dir then x else { x.compare now false with dir := dir }

/-- MATCHED or LINK_BELOW of feeds in BLOCKING is followed (07 R206). -/
def State.trackClosing (s : State) : State :=
  (List.finRange 2).foldl (fun t f =>
    let c := t.feedMatched f || t.linkBelow f
    let now := t.clk
    t.modFeed f (fun x => { x with closable := if x.run == .blocking then sinceWhen c now x.closable else none })) s

/-- FEEDx_ON falls after FEED_OPEN: HELD with cause HOST; the command completes (07 R217, Table 7-20). -/
def State.feedOpens (f : Fin 2) (s : State) : State :=
  let q := (s.feed f).openReq
  let s := (s.feedTo f .held (some 8)).modFeed f (fun y => { y with opening := .none, openReq := none })
  match q with
  | some r => s.complete r 0x0703 done
  | none => s

/-- The FEED_OPENs in progress advance at an outer-loop sample of a group that names the feed. -/
def State.advanceOpenings (g : Fin 8) (s : State) : State :=
  (s.feedsOf g).foldl (fun t f =>
    match (t.feed f).opening with
    | .none => t
    | .opensNext => t.feedOpens f
    | .removing left =>
      let l := left &&& ~~~(1#8 <<< g.val)
      t.modFeed f (fun y => { y with opening := if l == 0 then .opensNext else .removing l })) s

/-- The feed's term counts for a group (07 R208, R217). -/
def Feed.counts (x : Feed) (g : Fin 8) : Bool :=
  x.run == .on && (match x.opening with
    | .none => true
    | .removing left => left.getLsbD g.val
    | .opensNext => false)

end Sys2Proof.Machine
end

