-- ==== Sys2Proof/Machine/Trowel.lean ====
section
/-! DEFINITION. One update of a trowel engine (03 R65, R70, R73; 04 R107, R112, R114, R115, R566; 05 R128,
R137): the sample is taken, the edges of the governed half-period are published. -/

namespace Sys2Proof.Machine

/-- The current of a control-filter sum S (03, Control filter): x = (2S − N³) / N³, then gain and offset. -/
def State.reading (s : State) (p : Fin 64) (sum : Nat) : Rat :=
  let n3 : Int := ((s.sinc p ^ 3 : Nat) : Int)
  s.senseGain p * ((2 * sum - n3 : Int) : Rat) / (n3 : Rat) - s.senseOfs p

/-- The signed distance, edge units, from an instant to the nearest centre of a control-filter window (03 R73): a window of 3N − 2
captures ends at each capture, half a modulator clock after the multiple of its period with CAPTURE_EDGE set. -/
def State.residualAt (s : State) (p : Fin 64) (u : Nat) : Int :=
  let div : Int := s.sdDiv p
  let first : Int := (if bitAt (s.held (phId p 0xA)) 8 then 8 * div else 0) - 8 * div * (3 * s.sinc p - 3 : Int)
  let d := (first - u) % (16 * div)
  if 2 * d ≤ 16 * div then d else d - 16 * div

/-- The update instant of a phase in the running half-period, edge units of device time (03 R64, R73). -/
def State.updateAt (s : State) (g : Fin 8) (p : Fin 64) : Nat :=
  (s.phase p).perStart + (if (s.group g).half then s.nT g / 2 else 0)

/-- The larger of two signed values in magnitude; the first where they tie. -/
def larger (a b : Rat) : Rat := if absQ a < absQ b then b else a

/-- The 1 s mean of abs(i) and the thermal cycles it counts (03 Table 3-15). -/
def Phase.second (now : Nanos) (avg i : Rat) (x : Phase) : Phase :=
  let sum := x.absSum + absQ i
  let n := x.absCount + 1
  if now < x.absSince + 1000000000 then { x with absSum := sum, absCount := n }
  else
    let mean := sum / n
    let rise : Bool := x.cool && decide (avg / 2 < mean)
    { x with
      absSum := 0, absCount := 0, absSince := now
      cool := if rise then false else x.cool || decide (mean < avg / 10)
      counters := if rise then { x.counters with thermal := satInc x.counters.thermal } else x.counters
      wearThcSat := x.wearThcSat || (rise && x.counters.thermal.toNat + 1 ≥ 2 ^ 32 - 1) }

/-- The sample of an update instant (03 R73) with its averages. -/
def Phase.take (now : Nanos) (at_ : Nat) (avg i : Rat) (residual : Int) (start : Bool) (x : Phase) : Phase :=
  { x.second now avg i with
    sample := i, residual := residual, sampleAtStart := if start then i else x.sampleAtStart
    recent := (at_, i) :: x.recent.filter (fun e => at_ < e.1 + 1700000)
    winSum := x.winSum + i, winCount := x.winCount + 1, peakCur := larger x.peakCur i }

/-- Evaluation of the open-leg criterion over the period just ended (05 R128). -/
def Phase.openLeg (sL sH avg : Rat) (openMin : Nat) (meas : Rat) (x : Phase) : Phase :=
  let model := sL * secondsOf x.loLast + sH * secondsOf x.hiLast
  if x.injOpen ≠ 0 then { x with openFails := x.openFails + 1, injOpen := x.injOpen - 1 }
  else if absQ model < (openMin : Rat) / 100 * avg then x
  else
    let d := if model < 0 then -meas else meas
    { x with openFails := if d < absQ model / 4 then x.openFails + 1 else 0 }

/-- Dead-time settings the engine holds (03 Table 3-9). -/
def State.deadCfg (s : State) (p : Fin 64) : DeadTimeCfg :=
  let w := s.held (phId p 8)
  { riseMin := s.held (phId p 6), fallMin := s.held (phId p 7), en := bitAt w 0
    fallback := (s.phase p).dtFallback, qsw := bitsOf w 11 4, dtMax := bitsOf w 23 12
    ith := (bitsOf w 31 24 : Rat) / 10 }

/-- The current at the end of successive half-periods (or periods) of placed words, each with its bounds, from the current and the
level at the start of the first (04 R107). -/
def predict (sL sH : Rat) : List (Nat × Nat × List EdgeWord) → Rat → Option Bool → Rat
  | [], i, _ => i
  | (hs, he, es) :: rest, i, lv =>
    let t := levelTimes hs he es lv
    predict sL sH rest (i + sL * secondsOf t.1 + sH * secondsOf t.2) (levelAfter es lv)

/-- The words that stand for the half-period (or period) of the k-th boundary from now: the running ones, those published for it, or
the set edges of its half of the period before (01 R16). -/
def Phase.wordsAt (y : Phase) (epoch : U16) (whole half : Bool) (k due : Nat) : List U64 :=
  if k = 0 then
    if whole && !y.wholeRun then y.setA.getD [] ++ y.setB.getD [] else y.set.getD []
  else
    let ws := ((y.wet.filter (fun e => e.due == due && ofEpoch epoch e.word))).map (fun e => e.word)
    if ws.isEmpty then (if half then y.setB else y.setA).getD [] else ws

/-- The half-periods (or periods) between an update and the governed one: bounds and placed words. -/
def State.between (s : State) (g : Fin 8) (p : Fin 64) (d : Nat) : List (Nat × Nat × List EdgeWord) :=
  let x := s.group g
  let n := s.nT g
  let whole := s.wholePeriod g
  let step := if whole && s.param (grId g 1) ≤ 1000000 then 2 else 1
  (List.range d).map (fun k =>
    let half : Bool := !whole && (x.half != (k % 2 == 1))
    let ws := ((s.phase p).wordsAt x.epoch whole half k (step * k)).map EdgeWord.ofCode
    (if half then n / 2 else 0, if whole || half then n else n / 2, placed n whole half ws))

/-- Period starts between an update and the half-period that it governs, d boundaries ahead. -/
def State.periodsAhead (s : State) (g : Fin 8) (d : Nat) : Nat :=
  if s.wholePeriod g then d else ((if (s.group g).half then 1 else 0) + d) / 2

/-- The first period, as `started` counts, that carries no COMP_OFF: four periods from the first that the phase's words govern
(04 R115, 05 R142). -/
def State.softUntil (s : State) (g : Fin 8) (p : Fin 64) (d : Nat) : Nat :=
  let y := s.phase p
  y.compUntil.getD (y.started + s.periodsAhead g d + 4)

/-- Inductance of the law, H. -/
def State.lNom (s : State) (p : Fin 64) : Rat := (s.held (phId p 0xC) : Rat) / 1000000000

/-- The inputs of the law for an update of a phase. -/
def State.lawIn (s : State) (g : Fin 8) (p : Fin 64) (d : Nat) : LawIn :=
  let x := s.group g
  let y := s.phase p
  let l := s.lNom p
  let sL := x.vStr / l
  let sH := (x.vStr - x.vBus) / l
  let slope := match y.lvStart with | some true => sH | some false => sL | none => 0
  let i0 := if y.compUntil.isNone then 0 else y.sample - slope * (y.residual : Rat) / 16000000000
  { vStr := x.vStr, vBus := x.vBus, l := l
    i := predict sL sH (s.between g p d) i0 y.lvStart
    iRef := y.iRef, pk := (s.held (phId p 2) : Rat) / 100, avg := s.avgLimit p, nT := s.nT g
    epoch := x.epoch.toNat, dead := s.deadCfg p
    compOff := decide (y.started + s.periodsAhead g d < s.softUntil g p d) && y.role == .active }

/-- t_hi of a SHADOW phase for period k of its interval, edge units (05 R137). -/
def State.shadowTime (s : State) (g : Fin 8) (p : Fin 64) (sh : Shadow) (k : Nat) : Nat :=
  let per := bitsOf (s.held (grId g 0x16)) 13 8
  let base : Rat := ((((s.phase sh.nb1).hiLast + (s.phase sh.nb2).hiLast : Nat)) : Rat) / 2
  let taper : Nat := min 8 (k - (per - 8))
  let add := (taper : Rat) * sh.cur * s.lNom p / (8 * (s.group g).vBus) * 16000000000
  nat0 (roundQ (base + (if per - 8 < k then add else 0)))

/-- BURST is in the gap after a packet (04 R114). -/
def Group.inGap (x : Group) : Bool := x.light == .burst && decide (8 ≤ x.burstPos)

/-- The words an engine publishes at an update, governed by the half given (04 R107, R112, R113, R114, R566; 05
R137). A period of DIODE_EMULATION that R112 gives to R107 has the words centred on H, the form of one update in a period
(DEDUCED, log entry 116). -/
def State.words (s : State) (g : Fin 8) (p : Fin 64) (d : Nat) (second : Bool) : LawOut :=
  let x := s.group g
  let whole := s.wholePeriod g
  if x.vBus ≤ 0 || x.inGap || (s.phase p).shed then ⟨[EdgeWord.off x.epoch.toNat], []⟩
  else
    match (s.phase p).shadow with
    | some sh =>
      let n := s.nT g
      let t := min (s.shadowTime g p sh (sh.k + s.periodsAhead g d)) n
      let w1 := shadowWord false n t x.epoch.toNat (s.held (phId p 6))
      let w2 := shadowWord true n t x.epoch.toNat (s.held (phId p 7))
      ⟨if whole then [w1, w2] else [if second then w2 else w1], []⟩
    | none =>
      let li := s.lawIn g p d
      if x.light == .diode then (if li.compOff then none else li.dcm).getD li.whole
      else if whole then li.whole
      else if second then li.secondHalf else li.firstHalf

/-- The dead-time account of the edges of an update (03 R70). -/
def Phase.account (avg : Rat) (o : LawOut) (x : Phase) : Phase :=
  let x := o.edges.foldl (fun x e =>
    let x := if e.2.1 then { x with counters := { x.counters with clamps := satInc x.counters.clamps } } else x
    if e.1 then
      let c : Bool := e.2.1 && decide (avg / 10 < e.2.2)
      { x with clampSeen := match x.clampSeen with | none => some c | some b => some (b && c) }
    else x) x
  o.words.foldl (fun x w =>
    if w.bothOff || w.noEdge then x
    else if w.fall then { x with dtFall := BitVec.ofNat 16 w.dt } else { x with dtRise := BitVec.ofNat 16 w.dt }) x

/-- The engine publishes its words for the boundary D updates ahead (03 R65, R67). -/
def State.publish (g : Fin 8) (p : Fin 64) (s : State) : State :=
  let x := s.group g
  let y := s.phase p
  let whole := s.wholePeriod g
  let fast := decide (1000000 < s.param (grId g 1))
  if !((y.role == .active || y.role == .shadow) && (y.switching || y.shed) && x.mode.isSwitching) || (whole && x.half) then s
  else
    let d := s.depth g p
    let second : Bool := !whole && (x.half != (d % 2 == 1))
    let o := s.words g p d second
    let soft := s.softUntil g p d
    s.modPhase p (fun y => { y.account (s.avgLimit p) o with
      depth := d, compUntil := some soft
      wet := y.wet ++ o.words.map (fun w => ⟨if whole && !fast then 2 * d else d, whole, w.code⟩)
      linkWord := match (if fast then o.words.head? else o.words.getLast?) with
        | some w => some w.code
        | none => y.linkWord })

/-- The phase stops at this zero crossing: a written OFF, or a ramp-down whose reference is at zero
(03 Table 3-6, 04 R96). -/
def State.stopsNow (s : State) (g : Fin 8) (p : Fin 64) (i : Rat) : Bool :=
  let y := s.phase p
  let x := s.group g
  (y.stopping || (x.rampDown.isSome && x.ref == 0)) && y.switching && decide (y.sample * i ≤ 0)

/-- TROWEL_UPDATE (03 R73, 04 R107): `bits` are the captured bits, newest first, of the window whose centre lies nearest the
update instant. -/
def execTrowelUpdate (p : Fin 64) (bits : List Bool) (s : State) : Out :=
  if !s.engineOn then .next s else
  let g := s.groupOf p
  let x := s.group g
  let y := s.phase p
  let u := s.updateAt g p
  let i := s.reading p (s.filterSum p (sinc3 (s.sinc p)) bits)
  let avg := s.avgLimit p
  let t := s.modPhase p (Phase.take s.clk u avg i (s.residualAt p u) (!x.half))
  let t := t.raiseIf ((t.phase p).wearThcSat && !y.wearThcSat) p.val
  let t := if y.role == .active && y.switching && x.light == .ccm && !x.half && y.started ≥ 1 then
      let l := s.lNom p
      t.modPhase p (Phase.openLeg (x.vStr / l) ((x.vStr - x.vBus) / l) avg
        (bitsOf (s.held (grId g 0x16)) 19 16) (i - y.sampleAtStart))
    else t
  if s.stopsNow g p i then .next (t.stopPhase p)
  else .next (t.publish g p)

end Sys2Proof.Machine
end

