-- ==== Sys2Proof/Machine/Period.lean ====
section
/-! DEFINITION. The start of a period (03 R63, R76; 04 R106, R108, R109, R114, R117; 05 R130 to R133, R137,
R139, R143). At the instant of a period start this row comes before the commit boundary's (DESIGN CHOICE, log entry 23). -/

namespace Sys2Proof.Machine

/-- Start of period k of a group on its own reference, edge units of device time (03 R63, 04 R108). -/
def gridStart (f ofs k : Nat) : Nat := (2 * k * 16000000000 + f) / (2 * f) + ofs

/-- The period whose start comes next on the reference after an instant. -/
def gridNext (f ofs cur : Nat) : Nat := (2 * (cur - ofs) * f + 16000000000) / 32000000000 + 1

/-- The period timer of a group restarts on its reference, with the period that runs now (13 R383). -/
def State.restartTimer (g : Fin 8) (s : State) : State :=
  let f := max 1 (s.param (grId g 1))
  let ofs := bitsOf (s.held (grId g 0x10)) 31 16 * nominal f / 65536
  let k := gridNext f ofs (16 * s.now) - 1
  s.modGroup g (fun x => { x with period := k, periodStart := gridStart f ofs k, periodLen := gridStart f ofs (k + 1) - gridStart f ofs k })

/-- A length moved towards another by at most `step`. -/
def towards (cur target step : Nat) : Nat :=
  if cur ≤ target then min target (cur + step) else max target (cur - step)

/-- The greatest change of the period length in a period (04 Table 4-6, GLIDE). -/
def State.syncGlide (s : State) (g : Fin 8) : Nat :=
  max 1 (bitsOf (s.held (grId g 0x12)) 23 16 * nominal (s.param (grId g 1)) / 100000)

/-- The next start on the leader's reference (05 R156): whole periods after the last one that a frame gave. -/
def nextPair (at_ len cur : Nat) : Nat := if cur < at_ then at_ else at_ + ((cur - at_) / max 1 len + 1) * max 1 len

/-- The next period of a group: its number, start and length (03 R63, 04 R117, 05 R156). After a loss of lock the group stays on
its own timer, whose periods of the nominal length keep the remainder as R63 does. -/
def State.nextPeriod (s : State) (g : Fin 8) : Nat × Nat × Nat :=
  let x := s.group g
  let f := max 1 (s.param (grId g 1))
  let n := nominal f
  let ofs := bitsOf (s.held (grId g 0x10)) 31 16 * n / 65536
  let cur := max x.periodStart (16 * s.now - x.periodLen)
  let src := bitsOf (s.param (grId g 0x12)) 1 0
  match (if x.pair.joint && !x.pair.leader then x.pair.nextPs else none) with
  | some t =>
    let t := nextPair t n cur
    (x.period + 1, t, if t - cur < 2 * n then t - cur else n)
  | none =>
    let step := s.syncGlide g
    if src ≠ 0 && x.sync.tracking then
      let want := x.sync.interval / (bitsOf (s.held (grId g 0x12)) 7 4 + 1)
      let len := towards x.periodLen (nat0 ((want : Int) - x.sync.err)) step
      (x.period + 1, cur + len, len)
    else if x.sync.gliding && (x.periodLen < n || n + 1 < x.periodLen) then
      let len := towards x.periodLen n step
      (x.period + 1, cur + len, len)
    else match (if src = 0 && !x.pair.lost then none else x.sync.timer) with
      | some (t0, j) =>
        let at_ (k : Nat) : Nat := t0 + gridStart f 0 k
        (x.period + 1, at_ (j + 1), at_ (j + 2) - at_ (j + 1))
      | none =>
        let k := gridNext f ofs cur
        (k, gridStart f ofs k, gridStart f ofs (k + 1) - gridStart f ofs k)

/-- The synchronisation after a period start (04 R117): the glide ends at the nominal length, and the group's own timer runs on from
there. -/
def SyncState.newPeriod (f start len : Nat) (x : SyncState) : SyncState :=
  let still := x.gliding && (len < nominal f || nominal f + 1 < len)
  { x with
    gliding := still
    timer := if x.tracking then none
      else match x.timer with
        | some (t0, j) => some (t0, j + 1)
        | none => if x.gliding && !still then some (start, 0) else none }

/-- Current still carried open loop by the SHADOW phases, A (05 R137). -/
def State.shadowRest (s : State) (g : Fin 8) : Rat :=
  let per := bitsOf (s.held (grId g 0x16)) 13 8
  ((s.shadows g).map (fun p =>
    match (s.phase p).shadow with
    | none => 0
    | some sh => if per - 8 < sh.k then sh.cur * ((8 - (sh.k - (per - 8)) : Nat) : Rat) / 8 else sh.cur)).sum

/-- The burst current, with the sign of i_cmd (04 R114). -/
def State.burstCurrent (s : State) (g : Fin 8) : Rat :=
  let b := 2 * (bitsOf (s.held (grId g 0x0D)) 27 20 : Rat) / 100 * s.ccap g
  if (s.group g).iCmd < 0 then -b else b

/-- The current that the phases of this half share: a perturbation of 11 R322 included, the burst current in
BURST (04 R114). -/
def State.ownCommand (s : State) (g : Fin 8) : Rat :=
  if (s.group g).light == .burst then s.burstCurrent g else (s.group g).iTot

/-- The closed-loop phases that switch (04 R106). -/
def State.sharing (s : State) (g : Fin 8) : List (Fin 64) := (s.closed g).filter (fun p => (s.phase p).switching)

/-- The share of a phase (04 R106, 05 R137), A. -/
def State.shareOf (s : State) (i total : Rat) (p : Fin 64) : Rat :=
  let a := s.avgLimit p
  if total = 0 then 0 else clampQ (-a) a (i * a / total)

/-- The references follow the shares, at the regrout's rate while it runs (04 R106, 05 R139). -/
def State.applyShares (g : Fin 8) (s : State) : State :=
  let ps := s.sharing g
  let i := s.ownCommand g - s.shadowRest g
  let total := (ps.map s.avgLimit).sum
  let j : Rat := (s.group g).regrout
  ps.foldl (fun t p => t.modPhase p (fun x => { x with
    iRef := x.base + (s.shareOf i total p - x.base) * j / 8 })) s

/-- Periods of BOTH_OFF after a packet; none when no packet is sent (04 R114). -/
def State.burstGapOf (s : State) (g : Fin 8) : Option Nat :=
  let i := absQ (s.group g).iCmd
  if i < s.ccap g / 10000 || i = 0 then none
  else some (min 1000 (nat0 (roundQ (8 * (absQ (s.burstCurrent g) / i - 1)))))

/-- The packet cycle of BURST advances (04 R114). -/
def State.stepBurst (g : Fin 8) (s : State) : State :=
  if (s.group g).light != .burst then s
  else match s.burstGapOf g with
    | none => s.modGroup g (fun x => { x with burstPos := 8, burstGap := 0 })
    | some m => s.modGroup g (fun x =>
        if x.burstPos + 1 < 8 + m then { x with burstGap := m, burstPos := x.burstPos + 1 }
        else { x with burstGap := m, burstPos := 0, cycEnd := true })

/-- What a period start does to one phase of the group. -/
def Phase.newPeriod (carries : Bool) (tol : Rat) (x : Phase) : Phase :=
  { x with
    tripAges := (x.tripAges.map (· + 1)).filter (· < 64)
    injStuck := x.injStuck - 1
    clampRun := match x.clampSeen with
      | some true => x.clampRun + 1
      | some false => 0
      | none => x.clampRun
    clampSeen := none
    started := if x.switching || x.shed then x.started + 1 else x.started
    shadow := x.shadow.map (fun sh => { sh with k := sh.k + 1 })
    zeroRun := if !carries && decide (tol < absQ x.sample) then x.zeroRun + 1 else 0 }

/-- A phase that carries no current by its role or its group (05 R131). -/
def State.carriesNone (s : State) (g : Fin 8) (p : Fin 64) : Bool :=
  let x := s.phase p
  let m := (s.group g).mode
  match x.role with
  | .off | .filler | .retired => true
  | .active => m.isQuiet || (m.isSwitching && !x.switching)
  | .shadow => m.isQuiet

/-- Wear warning (05 R133). -/
def State.wearWarn (g : Fin 8) (p : Fin 64) (s : State) : State :=
  let lim := s.wearLimit g
  let x := s.phase p
  if lim ≠ 0 && lim * 7 ≤ 8 * x.counters.thermal.toNat && !x.wearWarn then
    (s.modPhase p (fun x => { x with wearWarn := true })).raise p.val
  else s

/-- Retirement at the wear limit (05 R133), at the boundary of this period start. -/
def State.wearRetire (g : Fin 8) (p : Fin 64) (s : State) : State :=
  let act := bitsOf (s.held (grId g 0x16)) 31 30
  let x := s.phase p
  if !x.wearDue || x.role != .active || s.wearLimit g == 0 || x.counters.thermal.toNat < s.wearLimit g then s
  else if act == 2 || (act == 1 && (s.phasesOf g).any s.fillerGood) then s.retireNext p 9
  else s

/-- A FILLER phase is checked at every period start (05 R143). -/
def State.checkFiller (p : Fin 64) (s : State) : State :=
  let x := s.phase p
  if x.role != .filler then s
  else if x.dfltLevel then s.retireNext p 1
  else if x.stuck then s.retireNext p 4
  else if x.sdClkLost then s.retireNext p 5
  else if x.overTemp then s.retireNext p 8
  else s

/-- Mean current of a phase between two instants in edge units; its latest sample where none lies between them. -/
def Phase.meanOver (a b : Nat) (x : Phase) : Rat :=
  let ws := (x.recent.filter (fun e => decide (a ≤ e.1) && decide (e.1 < b))).map (·.2)
  if ws.isEmpty then x.sample else ws.sum / (ws.length : Nat)

/-- r_g of 05 R130, A, over the period of the group that ends. -/
def State.sumResidual (s : State) (g : Fin 8) (start : Nat) : Rat :=
  let gs := match s.portOf g with
    | some p => s.groupsOfPort p
    | none => [g]
  let a := (s.group g).periodStart
  ((gs.map (fun h => ((s.switchingOf h).map (fun p => (s.phase p).meanOver a start)).sum)).sum) - (s.group g).iStr

/-- The set edges of a period as the times of PWMH on and off, for the model current. -/
def setTimes (ws : List U64) (nT : Nat) : Nat × Nat :=
  let es := ws.map EdgeWord.ofCode
  let r := ((es.filter (fun e => !e.fall)).head?.map (·.e)).getD 0
  let f := ((es.filter (fun e => e.fall)).head?.map (·.e)).getD nT
  (r, max r f)

/-- ρ_p of 05 R130 from the captured bits of the filter windows nearest the two edges; none where the model gives
no difference. The set edges are those of the period that ends. -/
def State.ripple (s : State) (g : Fin 8) (p : Fin 64) (rise fall : List Bool) : Option Rat :=
  let x := s.group g
  let y := s.phase p
  let l := s.lNom p
  let n := s.nT g
  let ws := if y.wholeRun then y.setA.getD [] else y.setA.getD [] ++ y.setB.getD []
  let (e1, e2) := setTimes ws n
  let sL := x.vStr / l
  let sH := (x.vStr - x.vBus) / l
  let sincN := s.sinc p
  let div := s.sdDiv p
  let diff : Int := s.filterSum p (sinc3 sincN) rise - s.filterSum p (sinc3 sincN) fall
  let model := filteredModel sL sH n e1 e2 sincN div e1 - filteredModel sL sH n e1 e2 sincN div e2
  if model = 0 then none
  else some (s.senseGain p * (2 * diff : Int) / ((sincN ^ 3 : Nat) : Rat) / model)

/-- The phase that a period attributes (05 R130). -/
def attributed (rg tol : Rat) (rho : List (Fin 64 × Rat)) : Option (Fin 64) :=
  let pick (better : Rat → Rat → Bool) : Option (Fin 64 × Rat) :=
    rho.foldl (fun b e => match b with
      | none => some e
      | some w => if better e.2 w.2 then some e else some w) none
  if 0 < rg then
    match pick (fun a b => decide (b < a)) with
    | some (p, r) => if 1 + tol < r then some p else none
    | none => none
  else
    match pick (fun a b => decide (a < b)) with
    | some (p, r) => if r < 1 - tol then some p else none
    | none => none

/-- The sum check of a period start (05 R130): the candidates are the switching phases in CCM of every group serving
the port; a group keeps the counts of its own phases (DEDUCED, log entry 112). -/
def State.sumCheck (g : Fin 8) (start : Nat) (ripple : List (Fin 64 × List Bool × List Bool)) (s : State) : State :=
  let members := s.phasesOf g
  let clear (within : Bool) (t : State) : State :=
    (members.foldl (fun u p => u.modPhase p (fun x => { x with attrRun := 0 })) t).modGroup g (fun x =>
      { x with sumRun := 0, sumAcc := 0, sumWritten := x.sumWritten && !within })
  let rg := s.sumResidual g start
  if !(s.group g).mode.isPower then clear false s
  else if absQ rg ≤ s.senseTol g then clear true s
  else
    let tol : Rat := (bitsOf (s.held (grId g 0x16)) 23 20 : Rat) / 20
    let own (p : Fin 64) : Fin 8 := s.groupOf p
    let serves (h : Fin 8) : Bool := h == g || (s.portOf h == s.portOf g && (s.portOf g).isSome)
    let rho := (ripple.filter (fun e =>
      serves (own e.1) && (s.switchingOf (own e.1)).contains e.1 && (s.group (own e.1)).light == .ccm)).filterMap (fun e =>
        (s.ripple (own e.1) e.1 e.2.1 e.2.2).map (fun r => (e.1, r)))
    match attributed rg tol rho with
    | some a =>
      (members.foldl (fun u p => u.modPhase p (fun x => { x with attrRun := if p = a then x.attrRun + 1 else 0 })) s).modGroup g
        (fun x => { x with sumRun := 0, sumAcc := 0 })
    | none =>
      (members.foldl (fun u p => u.modPhase p (fun x => { x with attrRun := 0 })) s).modGroup g (fun x =>
        if x.sumRun < 16 then { x with sumRun := x.sumRun + 1, sumAcc := x.sumAcc + rg } else x)

/-- PERIOD_START. `ripple` holds, for phases in CCM, the captured bits, newest first, of the control-filter windows nearest
their two switching edges in the period that ends: PWMH's rising edge, then its falling edge. -/
def execPeriodStart (g : Fin 8) (ripple : List (Fin 64 × List Bool × List Bool)) (s : State) : Out :=
  if !s.engineOn then .next s else
  let (k, start, len) := s.nextPeriod g
  let f := max 1 (s.param (grId g 1))
  let t := (s.atDevice (start / 16)).pickParam (grId g 0x16)
  let t := t.sumCheck g start ripple
  let t := t.modGroup g (fun x => { x with
    sync := x.sync.newPeriod f start len
    period := k, periodStart := start, periodLen := len, acc := k * 16000000000 % f
    regrout := min (x.regrout + 1) 8, kCount := x.kCount + 1 })
  let tol := t.senseTol g
  let t := (t.phasesOf g).foldl (fun u p =>
    ((((u.modPhase p (Phase.newPeriod (!u.carriesNone g p) tol)).wearWarn g p).checkFiller p).wearRetire g p).keepDepth g p) t
  let t := (t.stepBurst g).glidePhases g
  .next ((t.applyShares g).settle s)

end Sys2Proof.Machine
end

