-- ==== Sys2Proof/Machine/Limits.lean ====
section
/-! DEFINITION. The arbitration of limits (04 R118 to R120, Table 4-10, R567, R568): each constraint's range in
A, the range they leave, and the constraint that binds. -/

namespace Sys2Proof.Machine

/-- A range that may be open at either end. -/
abbrev Span := Option Rat × Option Rat

/-- A range closed at both ends. -/
def span (lo hi : Rat) : Span := (some lo, some hi)

/-- No bound. -/
def open_ : Span := (none, none)

/-- LIMIT_SET: [−I_CHG, I_DIS] of the group (04 R127); without a limit set no current. -/
def State.rowLimitSet (s : State) (g : Fin 8) : Span :=
  match s.conv.limitSet with
  | none => span 0 0
  | some b => span (-(numAt b (8 + 16 * g.val) 4 : Rat) / 100) ((numAt b (4 + 16 * g.val) 4 : Rat) / 100)

/-- PHASE_CAPACITY. -/
def State.rowCapacity (s : State) (g : Fin 8) : Span := span (-(s.ccap g)) (s.ccap g)

/-- THERMAL (14 R393). -/
def State.rowThermal (s : State) (g : Fin 8) : Span :=
  match (s.group g).derate with
  | none => open_
  | some b =>
    let th := s.clock.th
    if bitAt (numAt b 3 1) 0 || th.run == .enforced || th.run == .tripped then
      let x : Int := if numAt b 0 1 = 0 then max th.tjA th.tjD else s.adcResult (numAt b 2 1)
      let r := curveRange b (x : Rat) (s.ccap g)
      span r.1 r.2
    else open_

/-- FOLDBACK: the curve and the group's own ceilings. An AIN that is no temperature channel serves as no source (08 R222): its
curve is left out (DESIGN CHOICE, log entry 129). -/
def State.rowFold (s : State) (g : Fin 8) : Span :=
  let x := s.group g
  let v := atLeastVolt x.vStr
  let par (k : Nat) : Rat := s.held (grId g k)
  let lo := max (-(par 4) / v) (-(par 6) / 100)
  let hi := min (par 5 / v) (par 7 / 100)
  match x.fold with
  | none => span lo hi
  | some b =>
    let q : Rat := match numAt b 0 1 with
      | 0 => x.vStr * 100
      | 1 => x.vBus * 100
      | _ => s.adcResult (numAt b 2 1)
    if numAt b 0 1 = 2 && !s.isTemp (numAt b 2 1) then span lo hi
    else
      let r := curveRange b q (s.ccap g)
      span (max lo r.1) (min hi r.2)

/-- FEED_LIMIT (07 R208). -/
def State.rowFeed (s : State) (g : Fin 8) : Span :=
  let v := atLeastVolt (s.group g).vStr
  let h := ((s.feedsOf g).map (fun f =>
    let x := s.feed f
    let c := (((List.finRange 8).filter (fun k => k == g ||
      ((s.group k).mode.isSwitching && bitAt (s.param (grId k 3)) f.val))).map s.ccap).sum
    if x.counts g && c ≠ 0 then
      (s.held (fdId f 6) : Rat) / 100 * ((s.vsdRaw (s.vbusIn f) : Rat) / 100) / v * s.ccap g / c
    else 0)).sum
  span (-h) h

/-- STRING_VOLTAGE: the group's edges with the cell term of 06 R178 and R180. -/
def State.rowVoltage (s : State) (g : Fin 8) : Span :=
  let c := s.ccap g
  let v := (s.group g).vStr
  let lo : Rat := (s.held (grId g 0x0A) : Rat) / 100
  let hi : Rat := (s.held (grId g 0x0B) : Rat) / 100
  let d := if lo = 0 then 1 else clampQ 0 1 ((v - lo) / (lo / 100))
  let k := if hi = 0 then 0 else clampQ 0 1 ((hi - v) / (hi / 100))
  match s.portOf g with
  | none => span (-(c * k)) (c * d)
  | some p =>
    let x := s.strPort p
    let cs := s.portCap p
    let blind : Rat := if cs = 0 then 0 else (s.held (stId p 0xB) : Rat) / 100 * c / cs
    let top := min (c * d) (c * x.kLo)
    span (max (-(c * k)) (-(c * x.kHi))) (if s.blindPort p then min top blind else top)

/-- MODULE_TEMPERATURE (06 Table 6-9). -/
def State.rowModule (s : State) (g : Fin 8) : Span :=
  match s.portOf g with
  | none => open_
  | some p => span (-((s.strPort p).fc * s.ccap g)) ((s.strPort p).fd * s.ccap g)

/-- CHARGE_SAFETY (06 Table 6-9). -/
def State.rowCharge (s : State) (g : Fin 8) : Span :=
  match s.portOf g with
  | none => open_
  | some p =>
    let x := s.strPort p
    let cs := s.portCap p
    if x.faults != 0 || x.run == .complete || x.profile.isNone || s.blindPort p || cs = 0 then (some 0, none)
    else (some (-(x.iProf / 100 * s.ccap g / cs)), none)

/-- BUS_PRIORITY. -/
def State.rowBus (s : State) (g : Fin 8) : Span :=
  let x := s.group g
  let v := atLeastVolt x.vStr
  let band : Rat := (s.band g : Rat) / 100
  let flo := clampQ 0 1 ((x.vBus - (s.held (grId g 8) : Rat) / 100) / band)
  let fhi := clampQ 0 1 (((s.held (grId g 9) : Rat) / 100 - x.vBus) / band)
  span (-(flo * s.held (grId g 4) / v)) (fhi * s.held (grId g 5) / v)

/-- PARTNER_SHARE (05 R157), in the half's own current: at the leader the follower's range scaled by the
capacities, at the follower the share assigned to it. -/
def State.rowPartner (s : State) (g : Fin 8) : Span :=
  let x := s.group g
  if !x.pair.paired then open_
  else if x.pair.leader then
    let cf := x.partnerCap
    if cf = 0 then span 0 0 else span (x.partnerAmps 8 * s.ccap g / cf) (x.partnerAmps 12 * s.ccap g / cf)
  else
    let i := x.partnerAmps 4
    span (min i 0) (max i 0)

/-- RESERVE (10 R304). -/
def State.rowReserve (s : State) (g : Fin 8) : Span :=
  match s.portOf g with
  | none => open_
  | some p =>
    let r := s.reserve p
    span (-(s.ccap g * r.1)) (s.ccap g * r.2)

/-- The rows of Table 4-10 in its order: code, level, range. -/
def State.limitRows (s : State) (g : Fin 8) : List (Nat × Nat × Span) :=
  [(12, 1, s.rowLimitSet g), (1, 1, s.rowCapacity g), (3, 1, s.rowThermal g), (2, 1, s.rowFold g),
   (8, 1, s.rowFeed g), (5, 1, s.rowVoltage g), (6, 1, s.rowModule g), (7, 1, s.rowCharge g),
   (4, 2, s.rowBus g), (9, 2, s.rowPartner g), (11, 3, s.rowReserve g)]

/-- The row acts in a mode (04 R119, R568; 07 R211); OFF, STANDBY and FAULT count as POWER. -/
def rowActs (mode : Mode) (paired : Bool) (code : Nat) : Bool :=
  match mode with
  | .precharge => code == 12 || code == 1 || code == 3 || code == 8
  | .busVoltage => code != 4 && (code != 9 || paired)
  | _ => code != 9 || paired

/-- i_lo over the rows that act. -/
def lowOf (rows : List (Nat × Nat × Span)) : Rat :=
  (rows.filterMap (fun r => r.2.2.1)).foldl max (-1000000)

/-- i_hi over the rows that act. -/
def highOf (rows : List (Nat × Nat × Span)) : Rat :=
  (rows.filterMap (fun r => r.2.2.2)).foldl min 1000000

/-- The rows of GROUP_LIMITS (04 R568): which apply, and which bind when the demand lies beyond an end. -/
def limitItems (mode : Mode) (paired : Bool) (iLo iHi : Rat) (above below : Bool)
    (rows : List (Nat × Nat × Span)) : List LimitRow :=
  rows.map (fun r =>
    let acts := rowActs mode paired r.1 && !(mode.isQuiet || mode == .fault)
    { code := r.1, level := r.2.1, lo := r.2.2.1, hi := r.2.2.2, applies := acts
      binding := acts && ((above && r.2.2.2 == some iHi) || (below && r.2.2.1 == some iLo)) })

/-- The better of two candidates of 02 R44: the lower level number, then the one that allows less, then the
earlier. -/
def tighter (a b : Nat × Rat × Nat) : Nat × Rat × Nat :=
  if b.1 < a.1 || (b.1 == a.1 && decide (b.2.1 < a.2.1)) then b else a

/-- The code that 02 R44 chooses among candidates: level, what is allowed, code; 0 for none. -/
def chooseLimit : List (Nat × Rat × Nat) → Nat
  | [] => 0
  | c :: cs => (cs.foldl tighter c).2.2

/-- What a row allows on the side of a demand. -/
def LimitRow.allows (above : Bool) (r : LimitRow) : Rat :=
  if above then r.hi.getD 1000000 else -(r.lo.getD (-1000000))

/-- G_STATUS.LIMIT: the code among the binding rows. -/
def limitCode (above : Bool) (rows : List LimitRow) : Nat :=
  chooseLimit ((rows.filter (·.binding)).map (fun r => (r.level, r.allows above, r.code)))

/-- The constraint beyond whose edge a target current lies: level, what it allows, code (04 R120). -/
def beyond (mode : Mode) (paired : Bool) (i : Rat) (rows : List LimitRow) : List (Nat × Rat × Nat) :=
  (rows.filter (fun r => rowActs mode paired r.code && (match r.lo, r.hi with
    | lo, hi => decide (hi.getD 1000000 < i) || decide (i < lo.getD (-1000000))))).map
    (fun r => (r.level, r.allows (decide (0 < i)), r.code))

end Sys2Proof.Machine
end

