-- ==== Sys2Proof/Machine/EstOps.lean ====
section
/-! DEFINITION. What coulomb ticks give estimation (10 R292, R295, R301, R305, R315): charge for the update windows,
rest and quiet times, and the return to full rate with its hibernate records (R316). -/

namespace Sys2Proof.Machine

/-- The first whole multiple of a period at or after an instant. -/
def multipleFrom (period t : Nat) : Nat := (t + (max 1 period - 1)) / max 1 period * max 1 period

/-- A quotient; with a divisor of 0 a free value. -/
def divQ (x y : Rat) : Rat := if y = 0 then Config.openRatio x else x / y

/-- I_str of a port, 0.01 A. -/
def State.iStr (s : State) (p : Fin 4) : Int := (s.meas.cc[(s.ccOf p).val]).fast

/-- The estimate of one module. -/
def State.mest (s : State) (m : Fin 64) : ModuleEst := s.stack.est.modules[m.val]

/-- The estimate of one string. -/
def State.sest (s : State) (p : Fin 4) : StringEst := s.stack.est.strings[p.val]

/-- Changes one module's estimate. -/
def State.modMest (m : Fin 64) (f : ModuleEst → ModuleEst) (s : State) : State :=
  s.modEst (fun e => { e with modules := vmod e.modules m f })

/-- Changes one string's estimate. -/
def State.modSest (p : Fin 4) (f : StringEst → StringEst) (s : State) : State :=
  s.modEst (fun e => { e with strings := vmod e.strings p f })

/-- The 1 s mean of |I_str| of a port, 0.01 A (10 R305, R315). -/
def State.meanAmps (s : State) (p : Fin 4) : Rat :=
  let h := (s.meas.cc[(s.ccOf p).val]).history
  if h.isEmpty then 0 else ((h.sum : Nat) : Rat) / (h.length : Nat)

/-- The |I_str| of a tick joins the last second. -/
def Coulomb.remember (x : Coulomb) : Coulomb := { x with history := (x.fast.natAbs :: x.history).take 1000 }

/-- A tick's charge joins the windows of the port's modules and string (10 R292, R295), and the rest of the string
goes on or ends (R301). -/
def State.estTick (p : Fin 4) (s : State) : State :=
  let x := s.meas.cc[(s.ccOf p).val]
  let s := (s.readModules p).foldl (fun t m => t.modMest m (fun y =>
    { y with dq := y.dq + x.tick, gaps := if x.inGap then y.gaps + 1 else y.gaps })) s
  let moving := decide ((s.held 0x120D : Int) ≤ (s.iStr p).natAbs)
  let now := s.clk
  s.modSest p (fun y =>
    let y := { y with dq := y.dq + x.tick }
    if moving then { y with restSince := none, outageRest := false, anchoredRaised := false }
    else { y with restSince := y.restSince.or (some now) })

/-- The conditions of REDUCED, but for their duration (10 R315). -/
def State.quiet (s : State) : Bool :=
  (List.finRange 4).all (fun p => decide (s.meanAmps p < bitsOf (s.held 0x1211) 31 16)) &&
    s.conv.groups.toList.all (fun g => g.mode != .precharge) &&
    s.stack.stp.sweeps.toList.all (fun x => x.run == .idle)

/-- The quiet time goes on, or starts anew. -/
def State.quietTick (s : State) : State :=
  let q := s.quiet
  let now := s.clk
  s.modEst (fun e => { e with quietSince := if q then e.quietSince.or (some now) else none })

/-- Code of a rate (10 Table 10-12). -/
def EstRate.code : EstRate → Nat
  | .full => 0 | .reduced => 1 | .hibernate => 2

/-- The reported value of a string in the scale of EST_CFG (10 R307), 0.01%; 0xFFFF without an estimate. -/
def State.socShown (s : State) (p : Fin 4) : Nat :=
  let e := s.sest p
  match e.x, e.r with
  | some _, some r =>
    if !bitAt (s.held 0x1200) 1 then fitU 16 (roundQ r)
    else
      let q := s.qNom p
      let b := (s.held 0x1201 : Rat) / 10000 * q
      let t := (s.held 0x1202 : Rat) / 10000 * q
      let sum := e.qDis + e.qChg
      (roundQ (clampQ 0 10000 (divQ (r * sum / 10000 - b) (sum - b - t) * 10000))).toNat
  | _, _ => 0xFFFF

/-- Ah as a field of 0.01 Ah. -/
def ahField (q : Rat) : Nat := fitU 32 (roundQ (100 * q))

/-- The hibernate record of a port (10 Table 10-5). -/
def State.hibernateBody (s : State) (p : Fin 4) (flags : Nat) : List Byte :=
  let e := s.sest p
  let ex := (s.strPort p).seen.getD { vMax := 0, vMin := 0, tMax := 0, tMin := 0 }
  let mv (v : Int) : Nat := fitU 16 (roundQ ((v : Rat) / 10))
  let soc := match e.x, e.r with
    | some _, some r => fitU 16 (roundQ (r / 10))
    | _, _ => 0xFFFF
  let head := [0x48#8, 1#8] ++ leBytes 1 p.val ++ leBytes 1 flags ++ leBytes 4 (s.now / 1000000000) ++ leBytes 2 soc ++
    leBytes 2 (mv ex.vMin) ++ leBytes 2 (mv ex.vMax) ++ leBytes 2 (fitS 16 ex.tMax) ++ leBytes 4 (ahField e.qDis) ++
    leBytes 4 (ahField e.qChg) ++ zeros 4
  (head ++ leBytes 4 (crc32c head).toNat ++ leBytes 8 s.now ++ leBytes 2 (s.socShown p)).drop 2

/-- A hibernate record for every string port with an enabled module (10 R316). -/
def State.hibernateRecords (flags : Nat) (s : State) : State :=
  (List.finRange 4).foldl (fun t p =>
    if (t.readModules p).isEmpty then t else t.event .burpol .everyEvent 0x48 (t.hibernateBody p flags)) s

/-- Full rate at once: sweeps go on at the first whole multiple of LATH_SWEEP at least the mark lead and 20 µs ahead
(10 R315), HIBERNATE ends with its records (R316), IS168. -/
def State.fullRate (s : State) : State :=
  let was := s.stack.est.rate
  if was == .full then s
  else
    let p := s.param 0x0D01 * 1000
    let next := multipleFrom p (s.now + s.held 0x0D02 * 1000 + 20000)
    let s := s.modEst (fun e => { e with rate := .full, quietSince := none, leave := false })
    let s := s.modChain (fun c => { c with period := p, nextSample := next })
    (if was == .hibernate then s.hibernateRecords 1 else s).raise 168

/-- A tick of some channel at or above twice the quiet current (10 R315). -/
def State.currentStep (s : State) : Bool :=
  s.meas.cc.toList.any (fun x => decide ((2 * bitsOf (s.held 0x1211) 31 16 : Nat) ≤ 100 * absQ x.iTick))

/-- What a tick does to the estimation rate. -/
def State.rateTick (s : State) : State :=
  let s := s.quietTick
  if s.stack.est.rate != .full && s.currentStep then s.fullRate else s

/-- Estimation records wait for MRAM. -/
def State.learnedWaits (s : State) : Bool := s.nv.nvm.waiting.any (fun w => w.type == 0x30#8 || w.type == 0x31#8)

end Sys2Proof.Machine
end

