-- ==== Sys2Proof/Machine/StippleOps.lean ====
section
/-! DEFINITION. What stipple sweeps (11) share with the outer loop and the chain: the timeline of R328, the
perturbation of R322, the placing of a point (R323, R334), and the voltage sums of R331. -/

namespace Sys2Proof.Machine

/-- One sweep. -/
def State.stp (s : State) (p : Fin 4) : StippleSweep := s.stack.stp.sweeps[p.val]

/-- Changes one sweep; IS173 on a change of its STATE (11 R344). -/
def State.modSweep (p : Fin 4) (f : StippleSweep → StippleSweep) (s : State) : State :=
  let t := s.modStp (fun x => { x with sweeps := vmod x.sweeps p f })
  t.raiseIf ((s.stp p).run != (t.stp p).run) 173

/-- CYCLES, SETTLE and AMP of the point in progress (11 Table 11-1). -/
def StippleSweep.cycles (x : StippleSweep) : Nat := numAt x.plan (8 + 12 * x.point) 2
/-- SETTLE. -/
def StippleSweep.settles (x : StippleSweep) : Nat := numAt x.plan (10 + 12 * x.point) 2
/-- AMP. -/
def StippleSweep.ampField (x : StippleSweep) : Nat := numAt x.plan (12 + 12 * x.point) 2

/-- Δ: LATH_SWEEP, ns. -/
def State.gridStep (s : State) : Nat := s.param 0x0D01 * 1000

/-- K = M × T / Δ of a frequency and its cycles (11 R326). -/
def State.samplesOf (s : State) (f m : Nat) : Rat := divQ ((m : Rat) * 1000000000000) ((f * s.gridStep : Nat) : Rat)

/-- The grid rule (11 R326). -/
def State.gridOk (s : State) (f m : Nat) : Bool :=
  let k := s.samplesOf f m
  k.den == 1 && decide ((5 * m : Nat) ≤ k)

/-- K of the point in progress. -/
def StippleSweep.sampleCount (x : StippleSweep) : Nat :=
  (floorQ (divQ ((x.cycles : Rat) * 1000000000000) ((x.freq * x.step : Nat) : Rat))).toNat

/-- Parameter 0x1400 + k as the point in progress took it (11 R341). -/
def StippleSweep.par (k : Nat) (x : StippleSweep) : Nat := x.pars.getD (k - 1) 0

/-- A point takes the parameters and Δ as they stand. -/
def State.takePars (s : State) (x : StippleSweep) : StippleSweep :=
  { x with pars := (List.range 11).map (fun k => s.param (0x1401 + k)), step := s.gridStep }

/-- σ_s of R328, by the parameters that the point took. -/
def StippleSweep.phaseOffset (p : Fin 4) (x : StippleSweep) : Rat :=
  let n := 4 * x.par 4
  if n = 0 then 0 else (((4 * x.par 3 + p.val) % n : Nat) : Rat) / (n : Rat)

/-- T_m, T_0 and the end of the point in progress, from its e (11 R328), by the parameters as they stand when it is placed. -/
def State.placeTimes (s : State) (p : Fin 4) (x : StippleSweep) : StippleSweep :=
  let x := s.takePars x
  let t := x.period
  let g : Rat := if x.point = 0 then 0 else (numAt x.plan 2 2 : Rat) * 1000000
  let tm := multipleFrom s.gridStep (ceilQ (x.base + g + ((x.settles + 1 : Nat) : Rat) * t)).toNat
  let y := { x with tm := tm, t0 := (tm : Rat) - ((x.settles : Rat) + x.phaseOffset p) * t }
  { y with stopAt := some (y.zeroFrom ((tm : Rat) + (x.cycles : Rat) * t)) }

/-- i_pert of a port at an instant of device time, A (11 R322). -/
def State.pert (s : State) (p : Fin 4) : Rat :=
  let x := s.stp p
  let t : Rat := s.now
  if x.perturbing && decide (x.t0 ≤ t) && (match x.stopAt with | some e => decide (t < e) | none => true) then
    x.amp * sinTurn ((x.freq : Rat) * (t - x.t0) / 1000000000000)
  else 0

/-- A sweep of the port is running (11 R324). -/
def State.sweeping (s : State) (p : Fin 4) : Bool :=
  match (s.stp p).run with
  | .idle | .scheduled => false
  | _ => true

/-- a_pt of the point, A (11 R323). -/
def State.fullAmp (s : State) (p : Fin 4) : Rat :=
  let x := s.stp p
  ((if x.ampField = 0 then x.par 1 else x.ampField : Nat) : Rat) * s.portCap p / 10000

/-- The amplitude that the headroom gives, where the point can be placed (11 R323). -/
def State.placeable (s : State) (p : Fin 4) : Option Rat :=
  let full := s.fullAmp p
  let cs := s.portCap p
  let heads := (s.groupsOfPort p).map (fun g =>
    let y := s.group g
    divQ (min (y.iHi - y.iCmd) (y.iCmd - y.iLo) * cs) (s.ccap g))
  let head := match heads with
    | [] => 0
    | h :: hs => hs.foldl min h
  let a := min full (9 / 10 * head)
  if ((s.stp p).par 2 : Rat) * full / 100 ≤ a then some a else none

/-- A deferred point of a LOCAL sweep, tried again at each outer-loop sample of the lowest group serving the port
(11 R321, R334): once placeable, its times continue from here. -/
def State.stippleRetry (g : Fin 8) (s : State) : State :=
  match s.portOf g with
  | none => s
  | some p =>
    let x := s.stp p
    if x.deferSince.isSome && x.abort == 0 && (s.groupsOfPort p).head? == some g && (s.placeable p).isSome then
      s.modSweep p (fun x => s.placeTimes p { x with base := (s.now : Rat), deferSince := none })
    else s

/-- The zero of a point's sine and its distance from T_m keep the σ_s that placed it. -/
def StippleSweep.sigma (x : StippleSweep) : Rat := divQ ((x.tm : Rat) - x.t0) x.period - (x.settles : Rat)

/-- A sample instant meets a point's T_m: it measures from there; the sweep aborts when the chain does not sample at
LATH_SWEEP or the grid rule fails (11 Table 11-3, SAMPLING). -/
def State.stippleMark (p : Fin 4) (s : State) : State :=
  let x := s.stp p
  let at_ := s.stack.chain.sweepTime.toNat
  if x.run != .settling || decide (at_ < x.tm) then s
  else if at_ ≠ x.tm || s.stack.chain.period ≠ s.gridStep || x.step ≠ s.gridStep || !s.gridOk x.freq x.cycles then s.stippleAbort p 7
  else s.modSweep p (fun y => { y with run := .measuring })

/-- A sample joins a cell's sums (11 R331): its distance from the middle, its sine and cosine, the value. -/
def CellSum.add (tau sn cn v : Rat) (x : CellSum) : CellSum :=
  { sx := x.sx + v, sd := x.sd + tau * v, sq := x.sq + v * v, ss := x.ss + v * sn, sc := x.sc + v * cn }

/-- A module with no sample of the point. -/
def ModuleSum.start (m : Nat) : ModuleSum where
  module_ := m
  count := 0
  rerouted := false
  bled := 0
  temps := []
  cells := List.replicate 24 { sx := 0, sd := 0, sq := 0, ss := 0, sc := 0 }

/-- A sweep's item joins a module's sums. -/
def State.addItem (s : State) (m : Fin 64) (tau sn cn : Rat) (e : SweepItem) (x : ModuleSum) : ModuleSum :=
  let x := { x with rerouted := x.rerouted || bitAt e.flags.toNat 2 }
  if e.data.length < 72 then x
  else
    let ts := (((List.range 8).filter (bitAt (s.tMask m))).map (tempRaw e.data)).filter (fun v => v != 0x7FFF && v != 0x7FFE && v != -32768)
    { x with
      count := x.count + 1, bled := x.bled ||| BitVec.ofNat 24 (numAt e.data 68 3)
      temps := if ts.isEmpty then x.temps else x.temps ++ [((ts.sum : Int) : Rat) / (ts.length : Nat)]
      cells := x.cells.zipWith (fun c i => c.add tau sn cn (((cellRaw e.data i).getD 0 : Nat) / 10000)) (List.range 24) }

/-- A completed sweep gives its sample to the point that the port measures (11 R328, R330). -/
def State.stippleSample (p : Fin 4) (s : State) : State :=
  let x := s.stp p
  let at_ := s.stack.chain.sweepTime.toNat
  let step := x.step
  let n := x.sampleCount
  if x.run != .measuring || decide (at_ < x.tm) || decide (x.tm + n * step ≤ at_) then s
  else
    let k : Rat := (((at_ - x.tm) / max 1 step : Nat) : Rat)
    let u : Rat := (x.freq : Rat) * ((at_ : Rat) - x.t0) / 1000000000000
    let tau := k - ((n : Rat) - 1) / 2
    let sums := (s.readModules p).map (fun m =>
      let y := (x.sums.find? (fun e => e.module_ == m.val)).getD (ModuleSum.start m.val)
      match (s.module_ m).sweeps.head? with
      | some e => s.addItem m tau (sinTurn u) (cosTurn u) e y
      | none => y)
    s.modSweep p (fun y => { y with sums := sums })

/-- The firmware writes the records of completed points to the CAPTURE rings of the port's stipple source (11 R336, R337), IS174. -/
def State.writePoints (p : Fin 4) (s : State) : State :=
  let x := s.stp p
  if x.unwritten = 0 || !s.firmwareOn then s
  else
    let rs := x.records.drop (x.records.length - x.unwritten)
    let t := rs.foldl (fun u e => u.emit (.float (Fin.ofNat 64 e.module_)) (.capture (2 + 256 * p.val)) e.bytes) s
    let n := (rs.map (fun e => e.point)).eraseDups.length
    let t := (t.modSweep p (fun y => { y with unwritten := 0 })).modStp (fun y => { y with cntPoints := y.cntPoints + BitVec.ofNat 32 n })
    t.raise 174

/-- The float engines take a waiting microprogram set, unless a stipple sweep runs (19 R514, R515). The record names no
group: that byte is open. -/
def State.applyFloat (s : State) : State :=
  if !s.nv.fw.pendFloat || s.stack.stp.sweeps.toList.any (fun x => x.run != .idle) then s
  else
    let new := s.newEngines
    let s := s.modNv (fun k => { k with fw := FwState.settled new { k.fw with pendFloat := false } })
    let b := s.freeBytes 1
    (({ s with freeCtr := s.freeCtr + 1 } : State).event .burpol .everyEvent 0x45 b).raise 270

end Sys2Proof.Machine
end

