-- ==== Sys2Proof/Machine/Control.lean ====
section
/-! DEFINITION. The outer loop of a group (04 R102 to R105, R110, R111, R113; 05 R157, R164; 07 R205, R211; 11
R322, R333), the entry of light-load stages (R111, R113), the end of a ramp-down (R95, R96), and the setpoint
commands' effect (R101, R120, R123). -/

namespace Sys2Proof.Machine

/-! ### Setpoints (04 R101, R120, R123) -/

/-- The mode a group's G_MODE requests. -/
def State.reqMode (s : State) (g : Fin 8) : Mode := Mode.ofCode (s.param (grId g 0))

/-- R101: G_SETPOINT's range in a mode; none where it is ignored. -/
def State.setRange (s : State) (g : Fin 8) (m : Mode) : Option (Int × Int) :=
  let par (k : Nat) : Int := s.param (grId g k)
  match m with
  | .power => some (-(par 4), par 5)
  | .stringCurrent => some (-(par 6), par 7)
  | .busVoltage => some (par 8 + s.band g, par 9 - s.band g)
  | _ => none

/-- A value lies in the range of the mode. -/
def State.setInRange (s : State) (g : Fin 8) (m : Mode) (v : Int) : Bool :=
  match s.setRange g m with
  | none => true
  | some (lo, hi) => decide (lo ≤ v) && decide (v ≤ hi)

/-- A paired follower's group (05 R160). -/
def State.isFollower (s : State) (g : Fin 8) : Bool := (s.group g).pair.paired && !(s.group g).pair.leader

/-- Why an entry of GROUP_SETPOINT cannot take effect: status and detail (04 R94, R101, R123, R125; 05 R160). The states are
tested before the values, the mode first, as R49 orders the checks of a PARAM_SET of those parameters. -/
def State.entryRefusal (s : State) (e : SetpointEntry) : Option (Nat × Nat) :=
  let g := e.group
  let m := e.mode.getD (s.reqMode g)
  if s.isFollower g then some (stState, 0x0106)
  else if e.mode.isSome && !s.modePermitted g m then some (stState, if m.isPower && !s.isReady g then 0x0101 else dtGroupState)
  else if e.slew ≠ 0 && 10000000 < e.slew then some (stValue, dtRange)
  else if !s.setInRange g m e.setpoint then some (stValue, dtRange)
  else none

/-- The first refusal among the entries, all of which are checked together. -/
def State.setpointRefusal (s : State) (es : List SetpointEntry) : Option (Nat × Nat) := es.findSome? s.entryRefusal

/-- A target as a string-side current, and back (04 R120, R567). -/
def Group.toAmps (x : Group) (m : Mode) (v : Rat) : Rat := if m == .power then v / atLeastVolt x.vStr else v / 100
/-- The mode's units of a current. -/
def Group.ofAmps (x : Group) (m : Mode) (i : Rat) : Int :=
  roundQ (if m == .power then i * atLeastVolt x.vStr else i * 100)

/-- An entry's target after arbitration, with level and code of the constraint that reduced it (04 R120,
R123). -/
def State.arbitrated (s : State) (e : SetpointEntry) (m : Mode) : Int × Option (Nat × Nat) :=
  if !(m == .power || m == .stringCurrent) then (e.setpoint, none)
  else
    let x := s.group e.group
    let k := s.pairScale e.group
    let i := x.toAmps m e.setpoint / k
    let cands := beyond m x.pair.paired i x.rows
    match cands with
    | [] => (e.setpoint, none)
    | c :: cs =>
      let best := cs.foldl tighter c
      let least := (cands.map (·.2.1)).foldl min best.2.1
      (x.ofAmps m (k * (if 0 < i then least else -least)), some (best.1, best.2.2))

/-- The answer to a setpoint command: PARTIAL when a target was reduced, with the code that 02 R44 finds over the reduced ones and the
mask of their groups (04 R123). -/
def cutReply (out : List (Fin 8 × Int × Option (Nat × Nat))) (payload : List Byte) : Reply :=
  let cut := out.filterMap (fun o => o.2.2.map (fun c => (o.1, c)))
  match cut with
  | [] => done payload
  | c :: cs =>
    let lvl := (cs.map (·.2.1)).foldl min c.2.1
    let code := ((cut.find? (fun o => o.2.1 == lvl)).map (·.2.2)).getD 0
    partial_ code (cut.map (fun o => 2 ^ o.1.val)).sum payload

/-- Writes one entry's parameters. -/
def State.writeEntry (e : SetpointEntry) (s : State) : State :=
  let s := match e.mode with
    | none => s
    | some m => s.takeMode e.group m
  let s := if e.slew = 0 then s else s.storeItem (grId e.group 0x13) e.slew
  s.storeItem (grId e.group 0x14) (codeOf 32 e.setpoint)

/-- The point of effect of a GROUP_SETPOINT (04 R123): it is checked again, the lease with it (02 R30, R47). -/
def State.effectSetpoints (q : Scheduled) (s : State) : State :=
  match (if s.holdsLease q.req.owner then s.setpointRefusal q.entries else some (stPriority, 0)) with
  | some (st, d) => s.finish q.req 0x0403 ⟨st, 0, d, []⟩
  | none =>
    let out := q.entries.map (fun e => (e.group, s.arbitrated e (e.mode.getD (s.reqMode e.group))))
    let t := q.entries.foldl (fun t e => t.writeEntry e) s
    t.complete q.req 0x0403 (cutReply out ((out.map (fun o => leBytes 4 (fitS 32 o.2.1))).flatten))

/-- SCHEDULED_SETPOINT_EFFECT (04 R123): the earliest, in order of acceptance; the clock reaches its AT. -/
def execScheduledSetpointEffect (s : State) : Out :=
  match s.conv.schedule with
  | [] => .next s
  | q :: qs =>
    let x := qs.foldl (fun b e => if e.at_ < b.at_ then e else b) q
    let t := s.atLeast (nat0 ((x.at_ : Int) - s.clock.tb.step))
    let t := t.modConv (fun c => { c with schedule := c.schedule.filter (fun y => !(y == x)) })
    .next ((t.effectSetpoints x).settle s)

/-! ### Steps of an outer-loop sample -/

/-- K of 04 R102. -/
def loopPeriods (f : Nat) : Nat := max 1 ((f + 199999) / 200000)

/-- t_o, s (04 R102). -/
def State.tO (s : State) (g : Fin 8) : Rat :=
  let f := max 1 (s.param (grId g 1))
  (loopPeriods f : Rat) / f

/-- Weight of a new sample in the first-order filter of time constant VMEAS_TAU (04 R102; DEDUCED, log entry
24). -/
def filterGain (tau t : Rat) : Rat := if tau ≤ 0 then 1 else 1 - expQ (-(t / tau))

/-- The group takes the tables that it names (04 R105, R116, R127; 14 R393). -/
def State.takeTables (g : Fin 8) (s : State) : State :=
  let th := bitsOf (s.held 0x1707) (4 * g.val + 3) (4 * g.val)
  let fold := s.nextNamed 1 (s.param (grId g 0x0E))
  let loop := s.nextNamed 2 (s.param (grId g 0x0F))
  let derate := if th = 0xF then none else s.nextBody 8 th
  let s := s.modGroup g (fun x => { x with fold := fold, loop := loop, derate := derate })
  let s := ((s.takeType 1 g.val).takeType 2 g.val).takeType 8 g.val
  let first := (List.finRange 8).find? (fun k => (s.group k).mode.isSwitching)
  if first.isNone || first == some g then
    (s.modConv (fun c => { c with limitSet := s.nextBody 0x0B 0 })).takeTable 0x0B00 0
  else s

/-- Sum of the phase currents; a SHADOW phase counts with the current it carries (DEDUCED, log entry 25). -/
def State.phaseSum (s : State) (g : Fin 8) : Rat :=
  (((s.phasesOf g).filter (fun p => (s.phase p).role == .active)).map (fun p => (s.phase p).sample)).sum +
    s.shadowRest g

/-- New filtered values; in BURST the means over a whole packet cycle, taken at the first sample after its end
(04 R102, R114). -/
def Group.measure (a vS vB iS iG : Rat) (x : Group) : Group :=
  if x.light == .burst && x.burstGap ≠ 0 then
    let n : Rat := x.cycN + 1
    let c : GroupMeans := { vStr := x.cycSum.vStr + vS, vBus := x.cycSum.vBus + vB, iGrp := x.cycSum.iGrp + iG,
                            p := x.cycSum.p + iS }
    if x.cycEnd then
      { x with vStr := c.vStr / n, vBus := c.vBus / n, iGrp := c.iGrp / n, iStr := c.p / n, cycN := 0, cycEnd := false
               cycSum := { vStr := 0, vBus := 0, iGrp := 0, p := 0 } }
    else { x with cycSum := c, cycN := x.cycN + 1 }
  else
    { x with
      vStr := x.vStr + a * (vS - x.vStr), vBus := x.vBus + a * (vB - x.vBus)
      iStr := x.iStr + a * (iS - x.iStr), iGrp := x.iGrp + a * (iG - x.iGrp)
      cycN := 0, cycEnd := false, cycSum := { vStr := 0, vBus := 0, iGrp := 0, p := 0 } }

/-- The group's share of the port's perturbation (11 R321, R322), A. -/
def State.pertShare (s : State) (g : Fin 8) : Rat :=
  match s.portOf g with
  | none => 0
  | some p => if s.portCap p = 0 then 0 else s.pert p * s.ccap g / s.portCap p

/-- One ramp step towards a target. -/
def rampTo (ref target step : Rat) : Rat :=
  if absQ (target - ref) ≤ step then target else if ref < target then ref + step else ref - step

/-- What an outer-loop run leaves: the demand before the clamp, the ramp state as a current before its clamp
(POWER, STRING_CURRENT), the new ramp state and integrator. -/
structure LoopOut where
  dem : Rat
  rampAmps : Option Rat
  ref : Rat
  integ : Rat
  target : Rat
  deriving DecidableEq, Repr

/-- Anti-windup of 04 R103. -/
def integrate (integ dem e lo hi step : Rat) (burst : Bool) : Rat :=
  if (decide (hi < dem) && decide (0 < e)) || (decide (dem < lo) && decide (e < 0)) || burst then integ else integ + step

/-- PCHG_I × (v_str − v_t) / (4 × MATCH), clamped (07 R211). -/
def State.prechargeDemand (s : State) (g : Fin 8) : Rat :=
  match s.portOf g with
  | none => 0
  | some p =>
    let w := s.param (ctId p 1)
    let i : Rat := (bitsOf w 15 0 : Rat) / 100
    let vt := if (s.cont p).run == .weldTest then s.vBatt p - bitsOf (s.param (ctId p 2)) 7 0 else s.vBatt p
    clampQ (-i) i (i * ((s.group g).vStr - vt) / (4 * (max 1 (bitsOf w 23 16) : Nat)))

/-- V_str has matched its target (07 R211). -/
def State.prechargeMatch (s : State) (g : Fin 8) : Bool :=
  match s.portOf g with
  | none => false
  | some p =>
    let vt := if (s.cont p).run == .weldTest then s.vBatt p - bitsOf (s.param (ctId p 2)) 7 0 else s.vBatt p
    decide (absQ ((s.group g).vStr - vt) ≤ (bitsOf (s.param (ctId p 1)) 23 16 : Nat))

/-- G_SETPOINT in the loop's units: W, A or V (04 Table 4-1); zero group current in a ramp-down (R96). -/
def State.rampTarget (s : State) (g : Fin 8) : Rat :=
  let x := s.group g
  if x.rampDown.isSome then 0
  else
    let v : Rat := s.paramI (grId g 0x14)
    if x.mode == .power then v else v / 100

/-- The mode's loop (04 R102 steps 2 to 4, R103, R104; 07 R211). -/
def State.runLoop (s : State) (g : Fin 8) (lo hi t : Rat) : LoopOut :=
  let x := s.group g
  let v := atLeastVolt x.vStr
  let slew : Rat := (s.held (grId g 0x13) : Rat) * 1000 * t
  let burst := x.light == .burst
  let target := s.rampTarget g
  let still (i : Rat) : LoopOut := ⟨i, none, x.ref, x.integ, x.ref⟩
  match x.mode with
  | .power =>
    let r := rampTo x.ref target slew
    let ref := clampQ (min (lo * x.vStr) (hi * x.vStr)) (max (lo * x.vStr) (hi * x.vStr)) r
    let e := ref - s.loopPower g
    let dem := (ref + x.pwrKp * e + x.integ) / v
    ⟨dem, some (r / v), ref, integrate x.integ dem e lo hi (x.pwrKi * e * t) burst, target⟩
  | .stringCurrent =>
    let r := rampTo x.ref target (slew / v)
    let ref := clampQ lo hi r
    let e := ref - s.loopCurrent g
    let dem := ref + x.curKp * e + x.integ
    ⟨dem, some r, ref, integrate x.integ dem e lo hi (x.curKi * e * t) burst, target⟩
  | .busVoltage =>
    if x.rampDown.isSome then
      let r := rampTo x.ref 0 (slew / v)
      ⟨r, none, clampQ lo hi r, x.integ, 0⟩
    else
      let r := match x.vrefSlew with
        | some k => rampTo x.ref target (k * 1000 * t)
        | none => target
      let ref := match s.setRange g .busVoltage with
        | some (a, b) => clampQ ((a : Rat) / 100) ((b : Rat) / 100) r
        | none => r
      let p := s.loopPower g / s.pairScale g
      let e := ref - (s.held (grId g 0x0C) : Rat) * p / 1000000 - x.vBus
      let dem := (x.vbKp * e + x.integ) / v
      ⟨dem, none, ref, integrate x.integ dem e lo hi (x.vbKi * e * t) burst, target⟩
  | .precharge =>
    if x.rampDown.isSome then
      let r := rampTo x.ref 0 (slew / v)
      ⟨r, none, clampQ lo hi r, x.integ, 0⟩
    else still (s.prechargeDemand g)
  | .off | .standby | .fault => still 0

/-! ### Light load (04 R111, R113) -/

/-- Threshold of a stage, A. -/
def State.lightTh (s : State) (g : Fin 8) (m : Light) : Rat :=
  let w := s.held (grId g 0x0D)
  let pc : Nat := match m with
    | .ccm => 0
    | .diode => bitsOf w 11 4
    | .shed => bitsOf w 19 12
    | .burst => bitsOf w 27 20
  (pc : Rat) / 100 * s.ccap g

/-- The stage before. -/
def Light.up : Light → Light
  | .ccm => .ccm | .diode => .ccm | .shed => .diode | .burst => .shed

/-- The stage after. -/
def Light.down : Light → Option Light
  | .ccm => some .diode | .diode => some .shed | .shed => some .burst | .burst => none

/-- Code of a stage, 04 Table 4-7. -/
def Light.code : Light → Nat
  | .ccm => 0 | .diode => 1 | .shed => 2 | .burst => 3

/-- The stage a code names. -/
def Light.ofCode : Nat → Light
  | 1 => .diode | 2 => .shed | 3 => .burst | _ => .ccm

/-- Stages left upward at one sample: at most three. -/
def State.leaveStages (s : State) (g : Fin 8) (i : Rat) : Nat → Light → Light
  | 0, m => m
  | n + 1, m =>
    if m != .ccm && decide (s.lightTh g m + s.ccap g / 50 < i) then s.leaveStages g i n m.up else m

/-- n_on of 04 R113. -/
def State.nOnOf (s : State) (g : Fin 8) : Nat := keepOn (s.closed g).length (s.ccap g) (s.group g).iCmd

/-- The better phase to keep: fewer thermal cycles, then the lower index. -/
def State.keepsBefore (s : State) (a b : Fin 64) : Bool :=
  decide ((s.phase a).counters.thermal.toNat < (s.phase b).counters.thermal.toNat) ||
    ((s.phase a).counters.thermal == (s.phase b).counters.thermal && decide (a < b))

/-- The phases kept switching when n_on are (04 R113). -/
def State.kept (s : State) (g : Fin 8) (n : Nat) : List (Fin 64) :=
  let c := s.closed g
  c.filter (fun p => decide ((c.filter (fun q => s.keepsBefore q p)).length < n))

/-- Which closed-loop phases switch: all but in SHED and BURST (04 R111, R113). A shed phase goes on until its BOTH_OFF words are
committed; one that rejoins takes its offset at once and carries no COMP_OFF. -/
def State.applyShed (g : Fin 8) (s : State) : State :=
  let x := s.group g
  let n := if x.light == .shed || x.light == .burst then x.nOn else 128
  let on := s.kept g n
  let back := on.filter (fun p => (s.phase p).shed)
  let s := (s.closed g).foldl (fun t p =>
    t.modPhase p (fun y =>
      if on.contains p then (if y.shed then { y with shed := false, switching := true, compUntil := some 0 } else y)
      else { y with shed := y.shed || y.switching, switching := false })) s
  s.placeNew g back

/-- The stage of a sample: a follower takes the leader's (05 R156); a sweep holds CCM (11 R324); the ramp or a
reversal returns to CCM (04 R111). -/
def State.stageAfter (s : State) (g : Fin 8) : Light :=
  let x := s.group g
  let sgn : Int := if x.iCmd < 0 then -1 else if 0 < x.iCmd then 1 else 0
  if s.isFollower g then Light.ofCode (numAt x.pair.control 1 1)
  else if !x.mode.isPower || x.rampDown.isSome then .ccm
  else if (match s.portOf g with | some p => s.sweeping p | none => false) then .ccm
  else if x.light != .ccm && (x.moved || (x.entrySign ≠ 0 && sgn = -x.entrySign)) then .ccm
  else s.leaveStages g (absQ x.iCmd) 3 x.light

/-- SHADOW phases of a group retire at once (05 R138). -/
def State.dropShadows (g : Fin 8) (s : State) : State :=
  let ps := s.shadows g
  if ps.isEmpty then s else (ps.foldl (fun t p => t.retirePhase p (t.phase p).cause.toNat) s).startRegrout g

/-- The light-load part of a sample. -/
def State.lightSample (g : Fin 8) (s : State) : State :=
  let m := s.stageAfter g
  let x := s.group g
  let i := absQ x.iCmd
  let quiet := x.mode.isPower && !x.moved && x.rampDown.isNone &&
    !(match s.portOf g with | some p => s.sweeping p | none => false)
  let ok (st : Light) : Bool := quiet && decide (i < s.lightTh g st)
  let now := s.clk
  let n := if s.isFollower g then numAt x.pair.control 41 1 else s.nOnOf g
  let s := s.modGroup g (fun y => { y with
    light := m, nOn := n
    deSince := sinceWhen (ok .diode) now y.deSince
    shedSince := sinceWhen (ok .shed) now y.shedSince
    burstSince := sinceWhen (ok .burst) now y.burstSince })
  let s := if x.light == .ccm && m != .ccm then s.dropShadows g else s
  if x.light == .ccm && m == .ccm then s
  else if x.mode.isSwitching then s.applyShed g else s

/-- LIGHT_LOAD_STAGE_ENTRY (04 R111, R113; 05 R138). -/
def execLightLoadStageEntry (g : Fin 8) (s : State) : Out :=
  let x := s.group g
  let w := s.held (grId g 0x0D)
  match x.light.down with
  | none => .next s
  | some m =>
    let (en, since) : Bool × Option Nanos := match m with
      | .diode => (bitAt w 0, x.deSince)
      | .shed => (bitAt w 1, x.shedSince)
      | _ => (bitAt w 2, x.burstSince)
    match since with
    | none => .next s
    | some t0 =>
      if !en || !x.mode.isPower || s.isFollower g then .next s
      else
        let t := s.atLeast (t0 + bitsOf w 31 28 * 5000000)
        let sgn : Int := if x.iCmd < 0 then -1 else if 0 < x.iCmd then 1 else 0
        let t := t.modGroup g (fun y => { y with
          light := m, nOn := t.nOnOf g, burstPos := 0, burstGap := 0
          entrySign := if m == .diode then sgn else y.entrySign })
        .next (((t.dropShadows g).applyShed g).settle s)

/-! ### The sample -/

/-- Each half of an ended pair starts to run alone (05 R164). -/
def State.splitPair (g : Fin 8) (s : State) : State :=
  let x := s.group g
  if !x.pair.split then s
  else
    let own := s.ccap g
    let c := own + x.partnerCap
    let led := x.pair.leader
    let s := s.modGroup g (fun y => { y with
      pair := { y.pair with split := false, leader := false, nextPs := none }
      ref := if led then y.ref else (intAt y.pair.control 32 4 : Rat) / 100 })
    match x.mode with
    | .power | .stringCurrent =>
      let v : Rat := s.paramI (grId g 0x14)
      let s := s.setParam (grId g 0x14) (codeOf 32 (if c = 0 then 0 else roundQ (v * own / c)))
      s.seedLoop g x.mode
    | .busVoltage =>
      s.modGroup g (fun y =>
        let e := y.ref - (s.held (grId g 0x0C) : Rat) * (y.vStr * y.iGrp) / 1000000 - y.vBus
        { y with integ := y.iGrp * atLeastVolt y.vStr - y.vbKp * e })
    | _ => s

/-- The larger in magnitude of two, for each owner (04 R126). -/
def holdPeaks (v : Vector Rat 16) (x : Rat) : Vector Rat 16 := v.map (fun y => larger y x)

/-- The window's sums and the held peaks take a sample (04 R126). -/
def Group.tally (p : Rat) (x : Group) : Group :=
  { x with
    winSums := { vStr := x.winSums.vStr + x.vStr, vBus := x.winSums.vBus + x.vBus
                 iGrp := x.winSums.iGrp + x.iGrp, p := x.winSums.p + p }
    winCount := x.winCount + 1
    peakI := holdPeaks x.peakI x.iGrp, peakP := holdPeaks x.peakP p }

/-- DIR of the feeds that the group names (07 R205). -/
def State.setDirs (g : Fin 8) (s : State) : State :=
  (s.feedsOf g).foldl (fun t f =>
    let gs := (List.finRange 8).filter (fun k => bitAt (t.param (grId k 3)) f.val)
    let i := (gs.map (fun k => (t.group k).iCmd)).sum
    let c := (gs.map t.ccap).sum
    let now := t.clk
    t.modFeed f (Feed.turn now (if c / 20 < i then 1 else if i < -(c / 20) then 2 else 0))) s

/-- A point in progress is discarded for the port: the perturbation is clipped or the ramp moves between tm and
the end of the measured window (11 R333). -/
def State.checkPoint (g : Fin 8) (clipped : Bool) (s : State) : State :=
  match s.portOf g with
  | none => s
  | some p =>
    let x := s.stack.stp.sweeps[p.val]
    let t : Rat := s.now
    let wEnd : Rat := x.tm + x.cycles * x.period
    if x.perturbing && x.abort == 0 && decide ((x.tm : Rat) ≤ t) && decide (t ≤ wEnd) && (clipped || (s.group g).moved) then
      s.modStp (fun y => { y with sweeps := vmod y.sweeps p (fun z => { z with discard := true }) })
    else s

/-- Steps 1 to 4 of 04 R102 with the pair's split of 05 R157 and the perturbation of 11 R322. -/
def State.control (g : Fin 8) (t : Rat) (s : State) : State :=
  let x := s.group g
  let k := s.pairScale g
  let rows := s.limitRows g
  let acts := rows.filter (fun r => rowActs x.mode x.pair.paired r.1)
  let lo := k * lowOf acts
  let hi := k * highOf acts
  let test := if s.isFollower g then acts.filter (fun r => r.1 != 9) else acts
  let s := if x.iPair < k * lowOf test || k * highOf test < x.iPair then s.bumpEpoch g .other else s
  if !x.mode.isSwitching then
    s.modGroup g (fun y => { y with
      iLo := lo, iHi := hi, rows := limitItems y.mode y.pair.paired lo hi false false rows, limit := 0
      iCmd := 0, iPair := 0, iTot := 0, moved := false, charging := false })
  else if s.isFollower g then
    let own := acts.filter (fun r => r.1 != 9)
    let i := x.partnerAmps 4
    let out := decide (i < lowOf own) || decide (highOf own < i)
    let c := clampQ lo hi i
    let items := limitItems x.mode true (if out then lo else min i 0) (if out then hi else max i 0)
      (decide (0 < i)) (decide (i < 0)) rows
    s.modGroup g (fun y => { y with
      iLo := lo, iHi := hi, rows := items, limit := limitCode (decide (0 < i)) items
      iCmd := c, iPair := c, iTot := c, moved := false, charging := decide (c < 0) })
  else
    let r := s.runLoop g lo hi t
    let above := decide (hi < r.dem) || (match r.rampAmps with | some a => decide (hi < a) | none => false)
    let below := decide (r.dem < lo) || (match r.rampAmps with | some a => decide (a < lo) | none => false)
    let i := clampQ lo hi r.dem
    let items := limitItems x.mode x.pair.paired (lo / k) (hi / k) above below rows
    let own := i / k
    let tot := clampQ (lo / k) (hi / k) (own + s.pertShare g)
    let s := s.modGroup g (fun y => { y with
      iLo := lo, iHi := hi, rows := items, limit := limitCode above items
      iCmd := own, iPair := i, iTot := tot, ref := r.ref, integ := r.integ, charging := decide (own < 0)
      moved := r.ref != x.ref, refMoved := if r.ref == x.ref then y.refMoved else s.clk
      refAtTarget := y.refAtTarget || (r.ref == r.target && x.mode != .precharge) })
    s.checkPoint g (tot != own + s.pertShare g)

/-- The leader's prediction of the pair's current from the partner's wet edges (05 R147). -/
def State.predictPair (g : Fin 8) (s : State) : State :=
  let x := s.group g
  if x.pair.paired && x.pair.leader then
    let i := Config.pairPrediction x.iGrp (x.partnerAmps 4) s.conv.link.partnerEdges x.vStr x.vBus
    s.modGroup g (fun y => { y with pairNext := i })
  else s

/-- V_str has matched since (07 R211). -/
def State.trackMatch (g : Fin 8) (s : State) : State :=
  let ok := (s.group g).mode == .precharge && (s.group g).rampDown.isNone && s.prechargeMatch g
  let now := s.clk
  s.modGroup g (fun x => { x with matchSince := sinceWhen ok now x.matchSince })

/-- The GROUP_SETPOINTs that wait for this sample (04 R123); one stays while its turn has not come (02 R41). -/
def State.takeSetpoints (g : Fin 8) (s : State) : State :=
  let qs := (s.group g).setpoints
  qs.foldl (fun t q =>
    if t.turn 0x0403 q.req then (t.modGroup g (fun x => { x with setpoints := x.setpoints.filter (fun y => !(y == q)) })).effectSetpoints q
    else t) s

/-- The parameters of a group that take effect at its outer-loop sample (04 R100): all but the requested mode and G_SPARE_POLICY
(05 R135). -/
def State.pickGroup (g : Fin 8) (s : State) : State :=
  ((List.range 22).filter (· != 0)).foldl (fun t k => t.pickParam (grId g k)) s

/-- The instant of the sample, ns of device time: the period start that completes K periods since the one before (04 R102). -/
def State.sampleAt (s : State) (g : Fin 8) : Nat :=
  let x := s.group g
  (x.periodStart + (loopPeriods (s.param (grId g 1)) - x.kCount) * x.periodLen) / 16

/-- OUTER_LOOP_SAMPLE (04 R102): `inputs` are the windows, newest bit first, of the control-filter values that the isolated
inputs and the coulomb channels have delivered since the last row that carries any (08 R238, R244). -/
def execOuterLoopSample (g : Fin 8) (inputs : List (Fin 20 × List Capture)) (s : State) : Out :=
  if !s.engineOn then .next s else
  let t := ((s.atDevice (s.sampleAt g)).modGroup g (fun x => { x with kCount := 0 })).pickGroup g
  let t := (((t.takeInputs inputs).trackClosing).advanceOpenings g).takeTables g
  let dt := t.tO g
  let a := filterGain (t.group g).tau dt
  let i := t.phaseSum g
  let t := t.modGroup g (Group.measure a (t.readVstr g) t.readVbus (t.readIstr g) i)
  let share := t.pertShare g
  let t := t.modGroup g (fun x => { x with pertF := x.pertF + a * (share - x.pertF) })
  let t := ((t.evalReady g).splitPair g).predictPair g
  let t := t.control g dt
  let t := (t.lightSample g).setDirs g
  let p := t.power_ g
  let t := t.modGroup g (Group.tally p)
  let t := ((((t.trackMatch g).precharge g)).applyShares g).stippleRetry g
  .next (((t.takeSetpoints g).checkInputs).settle s)

/-- RAMP_DOWN_COMPLETE (04 R95, R96): the reference is at zero and no phase of the group switches. -/
def execRampDownComplete (g : Fin 8) (s : State) : Out :=
  let x := s.group g
  match x.rampDown with
  | none => .next s
  | some m =>
    if x.ref ≠ 0 || !(s.switchingOf g).isEmpty then .next s
    else .next ((s.enterMode g m).settle s)

end Sys2Proof.Machine
end

