-- ==== Sys2Proof/Machine/GroupCmds.lean ====
section
/-! DEFINITION. The group opcodes (04 R122 to R125, R568), telemetry windows (R126), synchronisation to
SYNC_IN (R117), and the Plumb core's watch over the limit set (R127). -/

namespace Sys2Proof.Machine

/-- G_STATUS (04 Table 4-7). -/
def Group.statusWord (x : Group) : Nat :=
  x.mode.code + fieldAt 3 1 (flag x.charging) + fieldAt 4 2 x.light.code + fieldAt 6 1 (flag x.sync.locked) +
    fieldAt 7 1 (flag x.ready) + fieldAt 8 4 x.limit + fieldAt 12 3 x.notReady + fieldAt 16 16 x.epoch.toNat

/-- The groups a u8 mask selects, ascending. -/
def groupMask (m : Nat) : List (Fin 8) := (List.finRange 8).filter (fun g => bitAt m g.val)

/-- GROUP_STATUS (04 Table 4-11). -/
def execGroupStatus (r : Req) (s : State) : Out :=
  .next (s.runOp 0x0401 observe (len 1) (fun s =>
    .ok (done ((groupMask (numAt r.payload 0 1)).map (fun g =>
      leBytes 1 g.val ++ leBytes 1 (s.group g).cause.toNat ++ zeros 2 ++ leBytes 4 (s.group g).statusWord)).flatten) s) r)

/-- The ramp state in the mode's units (04 Table 4-13). -/
def Group.refWord (x : Group) : Nat :=
  fitS 32 (roundQ (if x.mode == .power then x.ref else x.ref * 100))

/-- Phases of a group in a role. -/
def State.roleCount (s : State) (g : Fin 8) (r : Role) : Nat :=
  ((s.phasesOf g).filter (fun p => (s.phase p).role == r)).length

/-- A current or voltage in 0.01 units as an s32. -/
def centi (x : Rat) : List Byte := leBytes 4 (fitS 32 (roundQ (x * 100)))

/-- A GROUP_TELEMETRY item (04 Table 4-13) with the peaks given. -/
def State.groupItem (s : State) (g : Fin 8) (peakI peakP : Rat) : List Byte :=
  let x := s.group g
  leBytes 1 g.val ++ leBytes 1 x.mode.code ++ leBytes 1 x.light.code ++ leBytes 1 x.limit ++
    leBytes 1 (s.roleCount g .active) ++ leBytes 1 (s.roleCount g .filler) ++ leBytes 1 (s.switchingOf g).length ++
    leBytes 1 (s.roleCount g .shadow) ++ leBytes 2 x.epoch.toNat ++ zeros 2 ++ leBytes 4 x.window.toNat ++
    centi x.means.vStr ++ centi x.means.vBus ++ centi x.means.iGrp ++ leBytes 4 (fitS 32 (roundQ x.means.p)) ++
    centi peakI ++ leBytes 4 (fitS 32 (roundQ peakP)) ++ centi x.iLo ++ centi x.iHi ++ leBytes 4 x.refWord ++
    leBytes 4 (s.param (grId g 0x14)) ++ leBytes 4 (fitU 32 (roundQ (s.ccap g * 100))) ++
    leBytes 4 (fitS 32 (if bitsOf (s.held (grId g 0x12)) 1 0 = 0 then 0 else x.sync.err))

/-- GROUP_TELEMETRY (04 R126): the caller's peaks are returned and cleared in one instant. -/
def execGroupTelemetry (r : Req) (s : State) : Out :=
  .next (s.runOp 0x0402 observe (len 1) (fun s =>
    let gs := groupMask (numAt r.payload 0 1)
    let o := r.owner
    .ok (done (gs.map (fun g => s.groupItem g ((s.group g).peakI[o.val]) ((s.group g).peakP[o.val]))).flatten)
      (gs.foldl (fun t g => t.modGroup g (fun x =>
        { x with peakI := vmod x.peakI o (fun _ => 0), peakP := vmod x.peakP o (fun _ => 0) })) s)) r)

/-- The entries of a GROUP_SETPOINT payload (04 Table 4-12); none where a group or a mode is out of range or a
group is named twice. -/
def setpointEntries (p : List Byte) : Option (List SetpointEntry) :=
  let n := numAt p 0 1
  let es := (List.range n).filterMap (fun i =>
    let o := 12 + 12 * i
    let m := numAt p (o + 1) 1
    match (if h : numAt p o 1 < 8 then some (⟨numAt p o 1, h⟩ : Fin 8) else none) with
    | none => none
    | some g =>
      if m = 0xFF then some { group := g, mode := none, setpoint := intAt p (o + 4) 4, slew := numAt p (o + 8) 4 }
      else if m = 0 ∨ m = 1 ∨ m = 3 ∨ m = 4 ∨ m = 5 then
        some { group := g, mode := some (Mode.ofCode m), setpoint := intAt p (o + 4) 4, slew := numAt p (o + 8) 4 }
      else none)
  if es.length = n && ((es.map (·.group)).eraseDups.length == n) then some es else none

/-- Length and reserved bytes of GROUP_SETPOINT. -/
def setpointShape (p : List Byte) : Option Nat :=
  let n := numAt p 0 1
  if p.length < 12 ∨ p.length ≠ 12 + 12 * n then some dtLength
  else if zeroAt p 1 3 && (List.range n).all (fun i => zeroAt p (14 + 12 * i) 2) then none else some dtReserved

/-- A group holds 16 scheduled commands (04 R123). -/
def State.scheduleFull (s : State) (es : List SetpointEntry) : Bool :=
  es.any (fun e => decide (16 ≤ (s.conv.schedule.filter (Scheduled.names e.group)).length))

/-- GROUP_SETPOINT at acceptance (04 R123). -/
def execGroupSetpoint (r : Req) (s : State) : Out :=
  .next (s.runOp 0x0403 control setpointShape (fun s =>
    s.needLease r (
      let n := numAt r.payload 0 1
      if n < 1 || 8 < n then .no stValue dtRange
      else match setpointEntries r.payload with
        | none => .no stValue dtRange
        | some es =>
          match s.setpointRefusal es, es with
          | some (st, d), _ => .no st d
          | none, [] => .no stValue dtRange
          | none, e :: _ =>
            let at_ := numAt r.payload 4 8
            let q : Scheduled := { req := r, at_ := at_, entries := es }
            if at_ < s.now || at_ = 0 then
              .wait (s.modGroup e.group (fun x => { x with setpoints := x.setpoints ++ [q] }))
            else if s.scheduleFull es then .no stBusy 0x0105
            else .wait (s.modConv (fun c => { c with schedule := c.schedule ++ [q] })))) r)

/-- GROUP_CANCEL (04 R124). -/
def execGroupCancel (r : Req) (s : State) : Out :=
  .next (s.runOp 0x0404 control (len 1) (fun s =>
    s.needLease r (
      let gs := groupMask (numAt r.payload 0 1)
      .ok (done) (s.endScheduled (fun x => gs.any (fun g => Scheduled.names g x)) stAbDisabled 0x0104))) r)

/-- GROUP_FAULT_ACK (04 R125): the effect is at the group's next commit boundary. A second one of the group while the first waits is
REFUSED_BUSY (DEDUCED, log entry 132: the spec gives it no answer). -/
def execGroupFaultAck (r : Req) (s : State) : Out :=
  .next (s.runOp 0x0405 control (len 1) (fun s =>
    s.needLease r (
      match named 8 (numAt r.payload 0 1) with
      | none => .no stValue dtRange
      | some g =>
        match s.ackRefusal g with
        | some d => .no stState d
        | none =>
          if (s.group g).faultAck.isSome then .no stBusy 0
          else .wait (s.modGroup g (fun x => { x with faultAck := some r })))) r)

/-- One edge of a GROUP_LIMITS item; an unbounded edge is given by the end of the s32 range (04 R568). -/
def edgeWord (dflt : Nat) (x : Option Rat) : List Byte :=
  match x with
  | none => leBytes 4 dflt
  | some v => centi v

/-- The arbitration of the last outer-loop sample; before a group's first sample, that of the present instant (DESIGN CHOICE, log entry
117). -/
def State.lastRows (s : State) (g : Fin 8) : List LimitRow :=
  let x := s.group g
  if x.rows.isEmpty then limitItems x.mode x.pair.paired 0 0 false false (s.limitRows g) else x.rows

/-- GROUP_LIMITS (04 R568). -/
def execGroupLimits (r : Req) (s : State) : Out :=
  .next (s.runOp 0x0406 observe (len 1) (fun s =>
    match named 8 (numAt r.payload 0 1) with
    | none => .no stValue dtRange
    | some g =>
      .ok (done (((s.lastRows g).map (fun x =>
        leBytes 1 x.code ++ leBytes 1 x.level ++ leBytes 1 (flag x.applies + 2 * flag x.binding) ++ zeros 1 ++
          edgeWord 0x80000000 x.lo ++ edgeWord 0x7FFFFFFF x.hi)).flatten)) s) r)

/-- The items of a list two to a 64-byte record (16 Table 16-13). -/
def pairUp : List (List Byte) → List (List Byte)
  | [] => []
  | [x] => [x ++ zeros (64 - x.length)]
  | x :: y :: rest => (x ++ y) :: pairUp rest

/-- The telemetry rings of a group take its item, with the peaks held for the ring's owner, and its phases'
items (04 R126, 16 R448). -/
def State.telemetryOut (g : Fin 8) (s : State) : State :=
  let ps := pairUp ((s.phasesOf g).map (fun p => (s.phase p).telemetry p))
  s.sys.ring.rings.foldl (fun t e =>
    let src := e.2.source.toNat
    let o := e.2.owner
    if e.2.kind == 0 && src == 1 + 256 * g.val then
      t.emit (.screed g) (.ring e.1) (s.groupItem g ((s.group g).peakI[o.val]) ((s.group g).peakP[o.val]))
    else if e.2.kind == 0 && src == 2 + 256 * g.val then
      ps.foldl (fun u b => u.emit (.screed g) (.ring e.1) b) t
    else t) s

/-- Means over a window. -/
def GroupMeans.avg (n : Nat) (m : GroupMeans) : GroupMeans :=
  { vStr := m.vStr / (max 1 n : Nat), vBus := m.vBus / (max 1 n : Nat), iGrp := m.iGrp / (max 1 n : Nat)
    p := m.p / (max 1 n : Nat) }

/-- The window of a phase ends with its group's (03 Table 3-17). -/
def Phase.endWindow (x : Phase) : Phase :=
  { x with
    meanCur := if x.winCount = 0 then x.meanCur else x.winSum / x.winCount
    winSum := 0, winCount := 0, lateInWindow := 0 }

/-- TELEMETRY_WINDOW_END (04 R126, 16 R448): the means are updated, the sequence advances, and the group's item
enters its TELEMETRY rings with the peaks of its own hold. -/
def execTelemetryWindowEnd (g : Fin 8) (s : State) : Out :=
  let x := s.group g
  let t := s.atLeast (x.winStart + x.telemMs * 1000000)
  let t := t.modGroup g (fun y => { y with
    means := y.winSums.avg y.winCount, window := y.window + 1#32, winCount := 0
    winSums := { vStr := 0, vBus := 0, iGrp := 0, p := 0 }, winStart := y.winStart + y.telemMs * 1000000 })
  let t := (t.phasesOf g).foldl (fun u p => u.modPhase p Phase.endWindow) t
  .next (t.telemetryOut g)

/-! ### Synchronisation (04 R117) -/

/-- T_in in edge units. -/
def State.syncIn (s : State) (g : Fin 8) : Rat :=
  ((bitsOf (s.held (grId g 0x12)) 7 4 + 1 : Nat) : Rat) * 16000000000 / (max 1 (s.param (grId g 1)) : Nat)

/-- Distance of an instant from the nearest period start, signed, edge units. -/
def nearestStart (start len t : Nat) : Int :=
  let d : Int := ((start : Int) - t) % (max 1 len : Nat)
  if 2 * d ≤ (len : Int) then d else d - len

/-- The lock rule at an edge; SYNC_LOCKED sets at an error below 1 % of the period and clears with the lock. -/
def SyncState.edge (t : Nat) (tin tol : Rat) (err : Int) (len : Nat) (x : SyncState) : SyncState :=
  match x.lastEdge with
  | none => { x with lastEdge := some t }
  | some last =>
    let iv := t - last
    let inside := decide (absQ ((iv : Rat) - tin) * 1000 ≤ tol * tin)
    let good := if inside then min 8 (x.good + 1) else 0
    let bad := if inside then 0 else x.bad + 1
    let on := if bad ≥ 2 then false else x.tracking || good == 8
    { x with
      lastEdge := some t, good := good, bad := bad, tracking := on
      interval := if inside then iv else x.interval, err := err
      gliding := x.gliding || (x.tracking && !on)
      locked := on && (x.locked || decide (100 * err.natAbs < len)) }

/-- SYNC_IN_EDGE: `time` is the edge's device time in edge units. -/
def execSyncInEdge (time : Nat) (s : State) : Out :=
  .next ((s.eachGroup (fun g t =>
    let w := t.held (grId g 0x12)
    if bitsOf (t.param (grId g 0x12)) 1 0 = 1 then
      t.modGroup g (fun x => { x with
        sync := x.sync.edge time (t.syncIn g) (bitsOf w 15 8 : Nat) (nearestStart x.periodStart x.periodLen time) x.periodLen })
    else t)).settle s)

/-- SYNC_LOSS_TIMEOUT: 1.5 × T_in without an edge. -/
def execSyncLossTimeout (g : Fin 8) (s : State) : Out :=
  let x := (s.group g).sync
  match x.lastEdge with
  | none => .next s
  | some last =>
    if !x.tracking then .next s
    else
      let at_ : Int := ceilQ (((last : Rat) + s.syncIn g * 3 / 2) / 16)
      let t := s.atLeast (nat0 (at_ - s.clock.tb.step))
      .next ((t.modGroup g (fun y => { y with
        sync := { y.sync with lastEdge := none, good := 0, bad := 0, tracking := false, locked := false, gliding := true } })).settle s)

/-! ### The locked limit set (04 R121, R127) -/

/-- A count of consecutive breaches. -/
def breach (b : Bool) (n : Nat) : Nat := if b then n + 1 else 0

/-- One check of a group: 1 ms means of I_grp in 0.01 A, V_str and V_link in 0.01 V. -/
def Group.check (b : List Byte) (g : Nat) (i v link : Int) (x : Group) : Group :=
  let f (k : Nat) : Int := numAt b (4 + 16 * g + 4 * k) 4
  if !x.mode.isSwitching then { x with breachI := 0, breachV := 0, breachB := 0 }
  else
    { x with
      breachI := breach (decide (f 0 < i) || decide (i < -(f 1))) x.breachI
      breachV := breach (decide (f 2 < v)) x.breachV
      breachB := breach (decide (f 3 < link)) x.breachB }

/-- LIMIT_SET_CHECK: `means` holds, for each group, the 1 ms means of I_grp and V_str that the Plumb core forms
over its own path. -/
def execLimitSetCheck (means : List (Fin 8 × Reading × Reading)) (vLink : Reading) (s : State) : Out :=
  match s.conv.limitSet with
  | none => .next s
  | some b =>
    let t := means.foldl (fun t e => t.modGroup e.1 (Group.check b e.1.val e.2.1 e.2.2 vLink)) s
    let hold := numAt b 2 2
    if t.conv.groups.toList.any (fun x => x.mode.isSwitching &&
        (decide (hold ≤ x.breachI) || decide (hold ≤ x.breachV) || decide (hold ≤ x.breachB))) then
      .next ((t.safeState 10 0).settle s)
    else .next t

end Sys2Proof.Machine
end

