-- ==== Sys2Proof/Machine/Measure.lean ====
section
/-! DEFINITION. SAR converters, comparators, isolated inputs and coulomb channels (08 R221 to R252). -/

namespace Sys2Proof.Machine

/-! ### Conversions (08 R221 to R225) -/

/-- Changes one ADC channel. -/
def State.modChan (n : Nat) (f : AdcChannel → AdcChannel) (s : State) : State :=
  s.modMeas (fun m => { m with channels := vmod m.channels (Fin.ofNat 64 n) f })

/-- The temperature of an NTC channel, 0.1 °C, before its ends (08 R223); where the resistance is no positive
number the spec gives no value (a free value). -/
def ntcTenths (c : Int) (w1 w2 w3 : Nat) : Int :=
  let p1 := f32Rat w1
  let p2 := f32Rat w2
  let p3 := f32Rat w3
  let x := p1 * c / (65536 - c : Int)
  let y : Rat := if 0 < c && c < 65536 && decide (0 < p1) && decide (0 < p2) && p3 != 0
    then 20 / 5963 + lnQ (x / p2) / p3 else 0
  if y = 0 then Config.openNtc c w1 w2 w3 else roundQ (10 * (1 / y - 5463 / 20))

/-- ADC_GAIN or ADC_OFS for a conversion that starts at a device time (08 R225): a write applies to later ones only. -/
def State.scaleAt (s : State) (id time : Nat) : Nat :=
  match s.meas.oldScale.find? (fun e => e.1 == id && decide (time ≤ e.2.2)) with
  | some e => e.2.1
  | none => s.param id

/-- c_corr of an AIN (08 R223) for a conversion that starts at a device time. -/
def State.corrected (s : State) (n : Nat) (c : Nat) (time : Nat) : Int :=
  roundQ ((signedOf 32 (s.scaleAt (0x0B00 + 2 * n) time) : Rat) / 65536 * c + signedOf 16 (s.scaleAt (0x0B01 + 2 * n) time))

/-- BROKEN of a raw code (08 R224). -/
def brokenCode (c : Nat) : Bool := 65280 ≤ c || c ≤ 255

/-- The result of a raw code on an AIN (08 R223, R224). -/
def State.ainValue (s : State) (n c time : Nat) : Int :=
  let o := 12 + 20 * n
  if s.isTemp n && brokenCode c then s.ainTop n
  else if s.ainKind n = 2 then
    min (max (ntcTenths (s.corrected n c time) (s.seqNum o 4) (s.seqNum (o + 4) 4) (s.seqNum (o + 8) 4)) (-400)) (s.ainTop n)
  else roundQ (f32Rat (s.seqNum o 4) * s.corrected n c time + f32Rat (s.seqNum (o + 4) 4))

/-- One conversion: an AIN's code, or an internal channel's code with its result by the factory's scaling (08
R221). -/
def State.convert (n : Nat) (e : U16 × Reading) (time : Nat) (s : State) : State :=
  if 48 ≤ n || s.ainKind n != 0 then
    let v := if n < 48 then s.ainValue n e.1.toNat time else e.2
    s.modChan n (fun _ => { raw := e.1, result := v, time := BitVec.ofNat 64 time, never := false
                            broken := n < 48 && brokenCode e.1.toNat })
  else s

/-- Internal results that other parts hold: the supplies (12 Table 12-14), the rails' outputs with their least
and most (12 Table 12-10, Table 12-16), and the A-die diode (14 R390). -/
def State.spread (amps : List Reading) (s : State) : State :=
  let v (n : Nat) : Int := (s.chan n).result
  let s := s.modPower (fun p => { p with
    supply := { p.supply with aux := BitVec.ofNat 16 (fitU 16 (v 52 / 10)), hold := BitVec.ofNat 16 (fitU 16 (v 53 / 10)) }
    rails := p.rails.mapFinIdx (fun i r _ =>
      let mv := BitVec.ofNat 16 (fitU 16 (v (54 + i) * 10))
      { r with mv := mv, amp := BitVec.ofNat 16 (fitU 16 (amps.getD i 0))
               minMv := if mv.toNat < r.minMv.toNat then mv else r.minMv
               maxMv := if r.maxMv.toNat < mv.toNat then mv else r.maxMv }) })
  s.modTh (fun t => { t with winA := (v 48 :: t.winA).take 200 })

/-- RECAL_DT (08 R231): both converters calibrate when the A-die has moved. A FAILED one is left to
MEAS_CALIBRATE (R232). -/
def State.recal (s : State) : State :=
  let dt := bitsOf (s.param 0x0B74) 15 8
  if dt ≠ 0 && decide ((10 * dt : Nat) < ((s.chan 48).result - s.meas.calTemp).natAbs) then
    s.calibrate (fun c => c.cal == .good)
  else s

/-- BANDGAP of a good converter in one of its housekeeping runs (08 R232): the first after a calibration is the reference
(DEDUCED, log entry 130); a later one that has moved by more than 1% fails it, and one further attempt begins. -/
def State.checkBandgap (k : Fin 2) (v : Int) (s : State) : State :=
  let now := s.now
  let put (f : Converter → Converter) : State := s.modMeas (fun m => { m with convs := vmod m.convs k f })
  match (s.adc k).bandgap with
  | none => put (fun x => { x with bandgap := some v })
  | some b =>
    if (s.adc k).cal == .good && decide (b.natAbs < 100 * (v - b).natAbs) then
      put (fun x => { x with cal := .running, attempt := 1, calStart := now })
    else s

/-- The converter of sequence i. -/
def State.seqAdc (s : State) (i : Nat) : Fin 2 := Fin.ofNat 2 (s.seqNum (1284 + 40 * i) 1)

/-- The spans of device time that the last runs of a converter's sequences take. -/
def State.runSpans (s : State) (k : Fin 2) : List (Nat × Nat) :=
  (List.finRange 16).filterMap (fun i =>
    let x := s.meas.seqs[i.val]
    if i.val < s.seqNum 0 1 && s.seqAdc i.val == k && (x.run == 2 || x.runs != 0) then
      some (x.start, x.start + 500 * s.seqNum (1286 + 40 * i.val) 1) else none)

/-- The first time from t on at which no span runs. -/
def freeFrom (spans : List (Nat × Nat)) (t : Nat) : Nat :=
  (List.range spans.length).foldl (fun t _ => spans.foldl (fun t e => if e.1 ≤ t && t < e.2 then e.2 else t) t) t

/-- The slot starts of n conversions from t on that yield to the spans (08 R221). -/
def slotTimes (spans : List (Nat × Nat)) : Nat → Nat → List Nat
  | 0, _ => []
  | n + 1, t => let u := freeFrom spans t; u :: slotTimes spans n (u + 500)

/-- The latest device time up to now at which a housekeeping run of a converter is due: a whole millisecond for ADC0, 500 µs
later for ADC1 (08 R221). -/
def housekeepingDue (k : Fin 2) (now : Nat) : Nat :=
  let off := 500000 * k.val
  if now < off then off else now - (now - off) % 1000000

/-- HOUSEKEEPING_RUN (08 R221): raw code and scaled result of channels 48 to 63 in a run that is due, by the factory's scaling,
and the rails' output currents (12 Table 12-10). The row is the end of the run. -/
def execHousekeepingRun (k : Fin 2) (readings : List (U16 × Reading)) (amps : List Reading) (s : State) : Out :=
  if (s.adc k).cal == .running then .next s
  else
    let d := housekeepingDue k s.now
    let start := match (s.adc k).housekeeping with
      | some h => if d ≤ h then h + 1000000 else d
      | none => d
    let times := slotTimes (s.runSpans k) 16 start
    let t := s.atDevice ((times.getLast?).getD start + 500)
    let t := t.modMeas (fun m => { m with convs := vmod m.convs k (fun x => { x with housekeeping := some start }) })
    let t := ((readings.take 16).zip times).zipIdx.foldl (fun t e => t.convert (48 + e.2) e.1.1 e.1.2) t
    let t := t.spread amps
    .next ((match readings[2]? with
      | some r => t.checkBandgap k r.2
      | none => t).recal)

/-! ### Self-calibration (08 R231, R232) -/

/-- The start-up calibration has ended: armed feeds leave OPEN (07 R196). -/
def State.calEnded (s : State) : State :=
  if s.bus.calDone then s
  else
    let s := s.modBus (fun b => { b with calDone := true })
    (List.finRange 2).foldl (fun t f =>
      if (t.feed f).run == .open_ && bitAt (t.param (fdId f 0)) 0 && t.chg.low.run == .running then t.feedTo f .window none
      else t) s

/-! ### Sequences (08 R226 to R229) -/

/-- NSEQ. -/
def State.nSeq (s : State) : Nat := s.seqNum 0 1

/-- A byte of sequence i. -/
def State.seqByte (s : State) (i k : Nat) : Nat := s.seqNum (1284 + 40 * i + k) 1

/-- The channels of sequence i. -/
def State.seqChannels (s : State) (i : Nat) : List Nat := (List.range (s.seqByte i 2)).map (fun k => s.seqByte i (8 + k))

/-- Changes one sequence. -/
def State.modSeq (i : Fin 16) (f : SeqState → SeqState) (s : State) : State :=
  s.modMeas (fun m => { m with seqs := vmod m.seqs i f })

/-- Some sequence of the converter runs. -/
def State.adcBusy (s : State) (k : Fin 2) : Bool :=
  (List.finRange 16).any (fun j => (s.meas.seqs[j.val]).run == 2 && s.seqAdc j.val == k)

/-- A sequence of the converter that was started in this same step and has a higher table index: it gives way (08 R226). -/
def State.sameStep (s : State) (i : Fin 16) : Option (Fin 16) :=
  let now := BitVec.ofNat 64 s.now
  (List.finRange 16).find? (fun j => i < j && s.seqAdc j.val == s.seqAdc i.val && (s.meas.seqs[j.val]).run == 2 &&
    (s.meas.seqs[j.val]).trigger == now)

/-- The start of a run that is triggered now: at once, or at the end of the conversion of a housekeeping run in progress (08
R221). -/
def State.runStart (s : State) (k : Fin 2) : Nat :=
  let now := s.now
  let d := housekeepingDue k now
  if d ≤ now && now < d + 8000 && (s.adc k).housekeeping != some d then now + (500 - (now - d) % 500) % 500 else now

/-- A trigger (08 R226): it runs, waits, or counts an overrun, which is an event whose record the spec does not
lay out. While the converter calibrates every trigger is an overrun (R231). -/
def State.trigger (i : Fin 16) (s : State) : State :=
  let k := s.seqAdc i.val
  let x := s.meas.seqs[i.val]
  if x.run != 0 || (s.adc k).cal == .running then
    (s.modSeq i (fun y => { y with overruns := satInc y.overruns })).openEvent .adc .o0Event
  else
    let now := BitVec.ofNat 64 s.now
    let start := s.runStart k
    match s.sameStep i with
    | some j => (s.modSeq j (fun y => { y with run := 1 })).modSeq i (fun y => { y with run := 2, trigger := now, start := start })
    | none =>
      let r := if s.adcBusy k then 1 else 2
      s.modSeq i (fun y => { y with run := r, trigger := now, start := start })

/-- The sequences of a trigger kind that a test of PARAM selects are triggered, in table order (08 Table 8-6). -/
def State.triggerKind (kind : Nat) (sel : Nat → Bool) (s : State) : State :=
  ((List.finRange 16).filter (fun i => i.val < s.nSeq && s.seqByte i.val 1 == kind && sel (s.seqNum (1288 + 40 * i.val) 4))).foldl
    (fun t i => t.trigger i) s

/-- SEQUENCE_TRIGGER (08 Table 8-6): PERIOD triggers fall at the whole multiples of their period; GROUP triggers at their offset
into every period of the group whose number is a multiple of DIV + 1 (DESIGN CHOICE, log entry 131). The other kinds are
triggered by the row of their event: MEAS_TRIGGER, SAMPLE_INSTANT, COMPARATOR_ASSERT, PPS_IN_EDGE. -/
def execSequenceTrigger (i : Fin 16) (s : State) : Out :=
  if s.nSeq ≤ i.val then .next s
  else
    let par := s.seqNum (1288 + 40 * i.val) 4
    match s.seqByte i.val 1 with
    | 1 =>
      let p := 1000 * max 1 par
      let d := (p - s.now % p) % p
      .next ((s.atLeast (s.clk + d)).trigger i)
    | 2 =>
      let x := s.group (Fin.ofNat 8 (bitsOf par 2 0))
      if x.period % (bitsOf par 15 8 + 1) ≠ 0 then .next s
      else .next ((s.atDevice ((x.periodStart + bitsOf par 31 16 * x.periodLen / 65536) / 16)).trigger i)
    | _ => .next s

/-- The ADC capture record (16 R449, Table 16-14). -/
def State.captureRec (s : State) (i : Fin 16) : List Byte :=
  let x := s.meas.seqs[i.val]
  let cs := s.seqChannels i.val
  let items := (cs.map (fun n => leBytes 4 (fitS 32 (s.adcResult n)) ++ leBytes 2 (s.chan n).raw.toNat ++
    leBytes 1 (s.adcFlags n) ++ leBytes 1 n)).flatten
  let lines := (cs.length + 7) / 8
  [0x41#8, 1#8] ++ leBytes 1 i.val ++ leBytes 1 cs.length ++ leBytes 4 x.runs.toNat ++ leBytes 8 x.trigger.toNat ++
    leBytes 2 x.overruns.toNat ++ zeros 6 ++ zeros 19 ++ leBytes 1 lines ++ zeros 20 ++ items ++
    zeros (64 * lines - items.length)

/-- The pending sequence of a converter whose trigger came first, the lower table index where two came together. -/
def State.firstPending (s : State) (k : Fin 2) : Option (Fin 16) :=
  ((List.finRange 16).filter (fun j => (s.meas.seqs[j.val]).run == 1 && s.seqAdc j.val == k)).foldl (fun b j =>
    match b with
    | none => some j
    | some c => if (s.meas.seqs[j.val]).trigger < (s.meas.seqs[c.val]).trigger then some j else b) none

/-- The next pending sequence of a converter starts; none while it calibrates. -/
def State.startPending (k : Fin 2) (s : State) : State :=
  let now := s.now
  if (s.adc k).cal == .running then s
  else match s.firstPending k with
    | none => s
    | some j => s.modSeq j (fun y => { y with run := 2, start := now })

/-- A conversion of a converter that starts at a device time gives no result: it is FAILED, or calibrates then (08 R231,
R232). -/
def Converter.holds (time : Nat) (x : Converter) : Bool :=
  x.failed || (decide (x.calStart ≤ time) && (x.cal == .running || (x.cal != .never && decide (time < x.calEnd))))

/-- SEQUENCE_RUN_COMPLETE (08 R223 to R227, R231, R237): `codes` in sequence order. -/
def execSequenceRunComplete (i : Fin 16) (codes : List (U16 × Reading)) (s : State) : Out :=
  let x := s.meas.seqs[i.val]
  if x.run != 2 then .next s
  else
    let k := s.seqAdc i.val
    let cs := s.seqChannels i.val
    let t := s.atDevice (x.start + 500 * cs.length)
    let t := ((cs.zip codes).zipIdx.filter (fun e => !(s.adc k).holds (x.start + 500 * e.2))).foldl
      (fun t e => t.convert e.1.1 e.1.2 (x.start + 500 * e.2)) t
    let t := if bitAt (s.seqByte i.val 3) 0 then t.emit .adc (.capture (1 + 256 * i.val)) (t.captureRec i) else t
    let t := t.modSeq i (fun y => { y with run := 0, runs := y.runs + 1#32 })
    let t := if (List.finRange 16).any (fun j => (t.meas.seqs[j.val]).run == 2) then t else t.modMeas (fun m => { m with oldScale := [] })
    .next ((t.startPending k).refreshThermal)

/-- SELF_CALIBRATION_COMPLETE (08 R232). A MEAS_CALIBRATE that leaves a converter FAILED has put no new factors
in use and ends ABORTED_FAULT (DEDUCED, log entry 26). -/
def execSelfCalibrationComplete (k : Fin 2) (good : Bool) (s : State) : Out :=
  let c := s.adc k
  if c.cal == .good || c.cal == .failed then .next s
  else
    let now := s.now
    let t := s.modMeas (fun m => { m with
      convs := vmod m.convs k (fun x =>
        if good then { x with cal := .good, attempt := 0, failed := false, bandgap := none, calEnd := now }
        else if x.attempt = 0 then { x with cal := .running, attempt := 1 }
        else { x with cal := .failed, attempt := 0, failed := true, calEnd := now }) })
    let t := (if (t.adc k).cal == .running then t else t.startPending k).refreshThermal
    if (List.finRange 2).any (fun j => (t.adc j).cal == .running || (t.adc j).cal == .never) then .next t
    else
      let t := (t.modMeas (fun m => { m with calTemp := (s.chan 48).result, selfCal := none })).calEnded
      match s.meas.selfCal with
      | none => .next t
      | some r =>
        let failed := (List.finRange 2).any (fun j => (t.adc j).cal == .failed)
        .next (if failed then t.finish r 0x0804 ⟨stAbFault, 0, 0, []⟩ else t.complete r 0x0804 done)

/-- Cause byte of a VSD_INVALID record (08 R241). -/
def State.vsdCause (s : State) (v : Nat) : Nat :=
  if s.vsdKind v = 0 then 1 else if s.meas.vsdClkLost then 3 else 2

/-- The VSD_INVALID record of an input not in use (08 R241). -/
def State.vsdRecord (v : Nat) (s : State) : State :=
  if s.vsdInUse v then s
  else s.event .plumb .o0Event 0x56 (leBytes 1 v ++ leBytes 1 (s.vsdCause v) ++ zeros 4 ++ leBytes 8 s.now)

/-- Records for the inputs that a test selects. -/
def State.vsdRecords (sel : Nat → Bool) (s : State) : State :=
  ((List.range 16).filter sel).foldl (fun t v => t.vsdRecord v) s

/-- A sequence table waits for activation (08 R229). -/
def State.seqPending (s : State) : Bool :=
  s.meas.table != s.nextNamed 0x0A (bitsOf (s.param 0x0B74) 7 0) ||
    s.host.arriving.any (fun e => e.1 / 256 == 0x0A && bitAt e.2.left 15)

/-- SEQUENCE_TABLE_ACTIVATION (08 R229): both converters are idle, none of them calibrating, and no run of the old table is
pending. The thresholds that VSD scales give are loaded anew. -/
def execSequenceTableActivation (s : State) : Out :=
  if !s.seqPending || s.meas.seqs.toList.any (fun x => x.run != 0) || s.meas.convs.toList.any (fun c => c.cal == .running) then
    .next s
  else
    let b := s.nextNamed 0x0A (bitsOf (s.param 0x0B74) 7 0)
    let t := if s.meas.table == b then s
      else
        let t := s.modMeas (fun m => { m with
          table := b, seqs := Vector.replicate 16 { run := 0, overruns := 0, runs := 0, trigger := 0, start := 0 } })
        (((t.loadComparators 0).loadComparators 1).vsdRecords t.vsdInvalid).refreshThermal
    .next (((t.takeType 0x0A 15).checkInputs).settle s)

/-! ### Comparators (08 R234, R235, R237) -/

/-- Changes one comparator. -/
def State.modCmp (n : Fin 12) (f : Comparator → Comparator) (s : State) : State :=
  s.modMeas (fun m => { m with cmps := vmod m.cmps n f })

/-- The safe-state cause COMPARATOR lasts while a SCRIM comparator is asserted (08 R235, 01 R21). -/
def State.scrimLevel (s : State) : State :=
  if (List.range 12).any (fun n => s.cmpOn n && bitAt (s.param (0x0B60 + n)) 22) then s
  else s.modSafety (fun x => { x with causes := x.causes &&& ~~~(1#12 <<< 2) })

/-- A comparator releases. -/
def State.cmpRelease (n : Fin 12) (s : State) : State :=
  if !(s.meas.cmps[n.val]).asserted then s
  else
    (((s.modCmp n (fun x => { x with asserted := false, latched := false })).raise (80 + n.val)).scrimLevel).refreshThermal

/-- The voltage of a comparator's pin, µV: as last reported, else a free value. -/
def State.cmpInput (s : State) (n : Fin 12) : Nat := ((s.meas.cmps[n.val]).input).getD (Config.cmpInput s.freeCtr n.val)

/-- A voltage lies beyond LEVEL in the direction of POL (08 R234): LEVEL is in steps of 2.5 V / 1,024. -/
def cmpBeyond (w uv : Nat) : Bool :=
  if bitAt w 10 then decide (32 * uv < bitsOf w 9 0 * 78125) else decide (bitsOf w 9 0 * 78125 < 32 * uv)

/-- A voltage is back past the release point, HYST steps back from LEVEL; with HYST 0 at LEVEL itself. -/
def cmpBack (w uv : Nat) : Bool :=
  if bitAt w 10 then decide ((bitsOf w 9 0 + bitsOf w 15 12) * 78125 ≤ 32 * uv)
  else decide (32 * (uv : Int) ≤ ((bitsOf w 9 0 : Int) - (bitsOf w 15 12 : Int)) * 78125)

/-- A voltage is reported: qualification goes on while the input stays on its side. -/
def State.cmpSees (n : Fin 12) (uv : Nat) (s : State) : State :=
  let w := s.param (0x0B60 + n.val)
  let old := s.cmpInput n
  let now := s.clk
  let stays := (s.meas.cmps[n.val]).input.isSome && cmpBeyond w old == cmpBeyond w uv && cmpBack w old == cmpBack w uv
  s.modCmp n (fun x => { x with input := some uv, since := if stays then x.since else now })

/-- The end of the qualification: FILT × 100 ns after the input came to its side. -/
def State.cmpQualified (n : Fin 12) (s : State) : State :=
  s.atLeast ((s.meas.cmps[n.val]).since + bitsOf (s.param (0x0B60 + n.val)) 19 16 * 100)

/-- COMPARATOR_ASSERT (08 R234, R235): the pin's voltage in µV; once it has been beyond LEVEL for FILT the comparator asserts, if
it is in use. The comparators are off in dust-sheet mode. -/
def execComparatorAssert (n : Fin 12) (uv : Nat) (s : State) : Out :=
  let w := s.param (0x0B60 + n.val)
  let t := s.cmpSees n uv
  if !bitAt w 20 || (s.meas.cmps[n.val]).asserted || !cmpBeyond w uv || s.chg.low.run == .dustSheet then .next t
  else
    let t := ((t.cmpQualified n).modCmp n (fun y => { y with asserted := true, latched := bitAt w 23 })).raise (80 + n.val)
    let t := (if bitAt w 21 then t.triggerKind 4 (fun par => bitsOf par 3 0 == n.val) else t).refreshThermal
    .next ((if bitAt w 22 then t.safeState 2 0 else t).settle s)

/-- COMPARATOR_RELEASE (08 R234): the pin's voltage in µV; once it has been back past the release point for FILT the comparator
releases. With LATCH set the assertion stays until MEAS_CMP_CLEAR. -/
def execComparatorRelease (n : Fin 12) (uv : Nat) (s : State) : Out :=
  let w := s.param (0x0B60 + n.val)
  let t := s.cmpSees n uv
  if !(s.meas.cmps[n.val]).asserted || bitAt w 23 || !cmpBack w uv || s.chg.low.run == .dustSheet then .next t
  else .next ((t.cmpQualified n).cmpRelease n)

/-! ### Isolated inputs and clocks (08 R240 to R242, R245) -/

/-- VSD_INPUT_INVALID: 128 equal captures on an isolated input (0 to 15) or a coulomb stream (16 to 19). -/
def execVsdInputInvalid (v : Fin 20) (s : State) : Out :=
  if v.val < 16 then
    let was := s.vsdInvalid v.val
    let t := s.modMeas (fun m => { m with vsd := vmod m.vsd (Fin.ofNat 16 v.val) (fun x => { x with stuck := true }) })
    .next (((if was then t else t.vsdRecord v.val).checkInputs).settle s)
  else
    let t := s.modMeas (fun m => { m with cc := vmod m.cc (Fin.ofNat 4 v.val) (fun x => { x with stuck := true }) })
    .next ((t.checkInputs).settle s)

/-- The safe-state cause SENSE_INPUT lasts while an input in use is invalid (01 R21). -/
def State.inputLevel (s : State) : State :=
  if (List.range 16).any (fun v => s.vsdInUse v && s.vsdInvalid v) ||
      (List.finRange 4).any (fun c => s.ccInUse c && s.ccInvalid c) then s
  else s.modSafety (fun x => { x with causes := x.causes &&& ~~~(1#12 <<< 3) })

/-- VSD_INPUT_VALID: the stream changes again. -/
def execVsdInputValid (v : Fin 20) (s : State) : Out :=
  .next ((if v.val < 16 then
      s.modMeas (fun m => { m with vsd := vmod m.vsd (Fin.ofNat 16 v.val) (fun x => { x with stuck := false }) })
    else s.modMeas (fun m => { m with cc := vmod m.cc (Fin.ofNat 4 v.val) (fun x => { x with stuck := false }) })).inputLevel)

/-- MODULATOR_CLOCK_LOST: CCCLK or VSDCLK is lost, or returns. -/
def execModulatorClockLost (cc lost : Bool) (s : State) : Out :=
  let t := s.modMeas (fun m => if cc then { m with ccClkLost := lost } else { m with vsdClkLost := lost })
  if !lost then .next t.inputLevel
  else .next (((if cc then t else t.vsdRecords (fun v => !s.vsdInvalid v)).checkInputs).settle s)

/-! ### Coulomb channels (08 R243 to R249) -/

/-- Microcoulombs into a window counter in mC that wraps: the counter, its remainder, and whether it wrapped. -/
def windowAdd (w r q : Nat) : Nat × Nat × Bool :=
  let n := w + (r + q) / 1000
  (n % 2 ^ 32, (r + q) % 1000, decide (2 ^ 32 ≤ n))

/-- Charge of a counted tick (08 R243): the counters, and whether IS092 + c is raised. -/
def Coulomb.count (dq : Int) (rem : Rat) (x : Coulomb) : Coulomb × Bool :=
  let c := x.charge + dq
  let top : Int := 2 ^ 63
  let out := decide (c < -top) || decide (top - 1 < c)
  let (wd, rd, od) := if 0 < dq then windowAdd x.winDis x.remDis dq.toNat else (x.winDis, x.remDis, false)
  let (wc, rc, oc) := if dq < 0 then windowAdd x.winChg x.remChg (-dq).toNat else (x.winChg, x.remChg, false)
  ({ x with
      charge := clampI (-top) (top - 1) c, sat := x.sat || out
      thruDis := satAdd x.thruDis dq.toNat, thruChg := satAdd x.thruChg (-dq).toNat
      winDis := wd, remDis := rd, winChg := wc, remChg := rc, rem := rem, tick := dq, inGap := false },
    od || oc || (out && !x.sat))

/-- CC_CFG and CC_GAIN apply from a tick on (08 R246). -/
def State.pickCoulomb (s : State) : State :=
  ((List.range 4).map (0x0B6C + ·) ++ (List.range 4).map (0x0B7C + ·)).foldl (fun t id => t.pickParam id) s

/-- One channel at a tick; `d` counts ones less zeros of the stream as it arrives. i_tick is over the time since the tick before, 1 ms
but after a step of device time (13 R383). -/
def State.ccTick (c : Fin 4) (d : Int) (s : State) : State :=
  let w := s.held (0x0B6C + c.val)
  let x := s.meas.cc[c.val]
  let now := s.clk
  let span := now - max x.tickAt s.power.releaseAt
  let put (y : Coulomb) (up : Bool) (s : State) : State :=
    (s.modMeas (fun m => { m with cc := vmod m.cc c (fun _ =>
      { y with time := BitVec.ofNat 64 s.now, tickAt := now, iTick := divQ (y.tick * 1000 : Int) (span : Nat) }) })).raiseIf up (92 + c.val)
  if !bitAt w 0 then put { x with tick := 0, inGap := false } false s
  else if s.ccInvalid c then
    put { x with tick := 0, gapTicks := satInc x.gapTicks, inGap := true } (!x.inGap) s
  else
    let div := bitsOf (s.param 0x0B77) 15 8
    let n : Int := if bitAt w 1 then -d else d
    let q : Rat := s.heldQ (0x0B7C + c.val) * n * div / 1000 - 10 * signedOf 16 (bitsOf w 31 16) + x.rem
    let dq := truncQ q
    let (y, up) := x.count dq (q - dq)
    put y up s

/-- Ticks in a row above the wake level (08 R248). -/
def State.ccWakeCount (c : Fin 4) (s : State) : State :=
  let w := s.param (0x0B70 + c.val)
  s.modMeas (fun m => { m with cc := vmod m.cc c (fun x =>
    { x with wakeRun := if bitAt w 0 && decide ((bitsOf w 31 16 : Rat) / 10 < absQ x.iTick) then x.wakeRun + 1 else 0 }) })

/-- The open charge session of a port counts the tick's charge (06 Table 6-7). -/
def State.sessionTick (p : Fin 4) (s : State) : State :=
  let q := (s.meas.cc[(s.ccOf p).val]).tick
  s.modStrPort p (fun x => if x.run == .charging || x.run == .paused then { x with session := x.session - q } else x)

/-- CC_STATUS (08 Table 8-12). -/
def State.ccStatus (s : State) (c : Fin 4) : Nat :=
  let x := s.meas.cc[c.val]
  flag x.stuck + 2 * flag s.meas.ccClkLost + 4 * flag x.sat + fieldAt 16 16 x.gapTicks.toNat

/-- A CC_READ item (08 Table 8-14). -/
def State.ccItem (s : State) (c : Fin 4) : List Byte :=
  let x := s.meas.cc[c.val]
  leBytes 1 c.val ++ leBytes 1 (s.ccStatus c % 8) ++ zeros 2 ++ leBytes 4 (fitS 32 (roundQ (100 * x.iTick))) ++
    leBytes 8 x.time.toNat ++ leBytes 8 (codeOf 64 x.charge) ++ leBytes 8 x.thruDis.toNat ++ leBytes 8 x.thruChg.toNat ++
    leBytes 4 x.winDis ++ leBytes 4 x.winChg

/-- The counters that CC_RESET's flags name, cleared (08 R252). -/
def Coulomb.clear (f : Nat) (x : Coulomb) : Coulomb :=
  let x := if bitAt f 0 then { x with charge := 0, sat := false, gapTicks := 0 } else x
  let x := if bitAt f 1 then { x with winDis := 0, winChg := 0 } else x
  if bitAt f 2 then { x with thruDis := 0, thruChg := 0 } else x

/-- CC_RESET of one channel: its values go into the event log first (19 Table 19-3, ARCHIVE). -/
def State.ccClear (f : Nat) (c : Fin 4) (s : State) : State :=
  (s.store 0x24 c.val (s.ccItem c)).modMeas (fun m => { m with cc := vmod m.cc c (Coulomb.clear f) })

/-- The point of effect of a CC_RESET (08 R249, R252), audited. -/
def State.ccResetNow (r : Req) (s : State) : State :=
  let cs := (List.finRange 4).filter (fun c => bitAt (numAt r.payload 0 1) c.val)
  let s := cs.foldl (fun t c => t.ccClear (numAt r.payload 1 1) c) s
  s.complete r 0x0808 done

/-- COULOMB_TICK (08 R243): the four counts at the next whole millisecond of device time; in dust-sheet mode the
channels are off (R248). -/
def execCoulombTick (counts : List Reading) (s : State) : Out :=
  if s.chg.low.run == .dustSheet then .next s
  else
    let last := (s.meas.cc[0]).time.toNat
    let t := (s.atDevice (multipleFrom 1000000 (if last ≤ s.now then max s.now (last + 1) else s.now))).pickCoulomb
    let t := (List.finRange 4).foldl (fun t c => (t.ccTick c (counts.getD c.val 0)).ccWakeCount c) t
    let t := t.modMeas (fun m => { m with cc := m.cc.map Coulomb.remember })
    let t := (List.finRange 4).foldl (fun t p => (t.sessionTick p).estTick p) t
    let t := t.rateTick
    let qs := t.meas.tickWaits
    .next (qs.foldl (fun t r => t.ccResetNow r) (t.modMeas (fun m => { m with tickWaits := [] })))

/-- COULOMB_TELEMETRY_INTERVAL (16 Table 16-13): the rings of a channel whose interval has passed; the clock
reaches the earliest. -/
def execCoulombTelemetryInterval (c : Fin 4) (s : State) : Out :=
  let mine := s.sys.ring.rings.filter (fun e => e.2.kind == 0 && e.2.source.toNat % 65536 == 3 + 256 * c.val)
  match mine with
  | [] => .next s
  | e :: es =>
    let t := s.atLeast ((es.map (·.2.due)).foldl min e.2.due)
    let item := t.ccItem c ++ zeros 16
    .next (mine.foldl (fun u x =>
      if t.clk < x.2.due then u
      else
        (u.emit .adc (.ring x.1) item).modSys (fun y => { y with ring := { y.ring with
          rings := y.ring.rings.map (fun z =>
            if z.1 == x.1 then (z.1, { z.2 with due := z.2.due + bitsOf z.2.source.toNat 31 16 * 1000000 }) else z) } })) t)

/-! ### The opcodes (08 R250 to R252) -/

/-- MEAS_READ. -/
def execMeasRead (r : Req) (s : State) : Out :=
  .next (s.runOp 0x0801 observe (len 8) (fun s =>
    .ok (done ((maskList 64 (numAt r.payload 0 8)).map (fun n =>
      leBytes 1 n ++ leBytes 1 (s.adcFlags n) ++ leBytes 2 (s.chan n).raw.toNat ++
        leBytes 4 (fitS 32 (s.adcResult n)) ++ leBytes 8 (s.chan n).time.toNat)).flatten) s) r)

/-- MEAS_VSD_READ. -/
def execMeasVsdRead (r : Req) (s : State) : Out :=
  .next (s.runOp 0x0802 observe (len 2) (fun s =>
    .ok (done ((maskList 16 (numAt r.payload 0 2)).map (fun v =>
      leBytes 1 v ++ leBytes 1 (flag (s.vsdInvalid v)) ++ zeros 2 ++ leBytes 4 (fitS 32 (s.vsdRaw v)) ++
        leBytes 8 (s.meas.vsd[v % 16]'(Nat.mod_lt _ (by decide))).time.toNat)).flatten) s) r)

/-- MEAS_TRIGGER (08 R251). -/
def execMeasTrigger (r : Req) (s : State) : Out :=
  .next (s.runOp 0x0803 configure (len 2) (fun s =>
    let m := numAt r.payload 0 2
    if (maskList 16 m).any (fun i => s.nSeq ≤ i || s.seqByte i 1 != 0) then .no stValue dtRange
    else .ok done (((List.finRange 16).filter (fun i => bitAt m i.val)).foldl (fun t i => t.trigger i) s)) r)

/-- A calibration of any mode is running (08 R251). -/
def State.calRunning (s : State) : Bool :=
  s.meas.board.isSome || (List.finRange 2).any (fun k => (s.adc k).cal == .running)

/-- MEAS_CALIBRATE (08 R231, R233, R251). -/
def execMeasCalibrate (r : Req) (s : State) : Out :=
  .next (s.runOp 0x0804 service (lenZ 8 [(2, 2)]) (fun s =>
    let m := numAt r.payload 0 1
    let n := numAt r.payload 1 1
    if 2 < m || (m != 0 && 47 < n) then .no stValue dtRange
    else if s.calRunning then .no stBusy 0x0102
    else if m = 0 then .wait ((s.calibrate (fun _ => true)).modMeas (fun x => { x with selfCal := some r }))
    else
      .wait (s.modMeas (fun x => { x with
        board := some { mode := m, channel := n, req := r, volts := intAt r.payload 4 4 } }))) r)

/-- A mask of comparators. -/
def State.cmpMask (s : State) (f : Comparator → Bool) : Nat :=
  ((List.finRange 12).map (fun n => if f (s.meas.cmps[n.val]) then 2 ^ n.val else 0)).sum

/-- MEAS_CMP_STATUS. -/
def execMeasCmpStatus (r : Req) (s : State) : Out :=
  .next (s.runOp 0x0805 observe (len 0) (fun s =>
    .ok (done (leBytes 2 (s.cmpMask (·.asserted)) ++ leBytes 2 (s.cmpMask (·.latched)))) s) r)

/-- MEAS_CMP_CLEAR (08 R234). -/
def execMeasCmpClear (r : Req) (s : State) : Out :=
  .next (s.runOp 0x0806 control (len 2) (fun s =>
    s.needLease r (
      let m := numAt r.payload 0 2
      if 4096 ≤ m then .no stValue dtRange
      else
        let named_ := (List.finRange 12).filter (fun n => bitAt m n.val && (s.meas.cmps[n.val]).latched)
        let back (n : Fin 12) : Bool := cmpBack (s.param (0x0B60 + n.val)) (s.cmpInput n)
        let free := named_.filter back
        let held := named_.filter (fun n => !back n)
        let word (l : List (Fin 12)) : List Byte := leBytes 2 (l.map (fun n => 2 ^ n.val)).sum
        .ok (done (word free ++ word held)) (free.foldl (fun t n => t.cmpRelease n) s))) r)

/-- CC_READ (08 R249): the counters of the last tick. -/
def execCcRead (r : Req) (s : State) : Out :=
  .next (s.runOp 0x0807 observe (len 1) (fun s =>
    let m := numAt r.payload 0 1
    if 16 ≤ m then .no stValue dtRange
    else .ok (done (((List.finRange 4).filter (fun c => bitAt m c.val)).map s.ccItem).flatten) s) r)

/-- CC_RESET (08 R249, R252): the effect is at the next tick. -/
def execCcReset (r : Req) (s : State) : Out :=
  .next (s.runOp 0x0808 service (len 2) (fun s =>
    let m := numAt r.payload 0 1
    let f := numAt r.payload 1 1
    if 8 ≤ f then .no stValue dtReserved
    else if 16 ≤ m then .no stValue dtRange
    else if bitAt f 2 && r.owner != 0 then .no stPermit 0x0104
    else .wait (s.modMeas (fun x => { x with tickWaits := x.tickWaits ++ [r] }))) r)

/-- MEAS_SEQ_STATUS. -/
def execMeasSeqStatus (r : Req) (s : State) : Out :=
  .next (s.runOp 0x0809 observe (len 0) (fun s =>
    .ok (done (((List.finRange 16).filter (fun i => i.val < s.nSeq)).map (fun i =>
      let x := s.meas.seqs[i.val]
      leBytes 1 i.val ++ leBytes 1 x.run ++ leBytes 2 x.overruns.toNat ++ leBytes 4 x.runs.toNat)).flatten) s) r)

end Sys2Proof.Machine
end

