-- ==== Sys2Proof/Machine/Charge.lean ====
section
/-! DEFINITION. String ports (06 R170 to R184): what a sweep gives a port, the charge profile, the safety timer,
the temperature and cell-voltage terms, and the latched charge faults. -/

namespace Sys2Proof.Machine

/-- Code of a profile state (06 Table 6-3). -/
def ChargeRun.code : ChargeRun → Nat
  | .idle => 0 | .charging => 1 | .paused => 2 | .complete => 3

/-- STR_CHG_STATE (06 Table 6-3). -/
def Port.stateWord (x : Port) : Nat :=
  x.run.code + fieldAt 3 1 (flag x.halfRate) + fieldAt 4 4 x.step + fieldAt 14 18 (floorQ x.elapsed).toNat

/-- STR_CHG_FAULT (06 Table 6-4). -/
def Port.faultWord (x : Port) : Nat := x.faults.toNat + fieldAt 16 4 x.first

/-- STR_STATUS (06 Table 6-5). -/
def Port.statusWord (x : Port) : Nat :=
  x.status.toNat + fieldAt 16 16 (match x.seen with | some e => fitS 16 e.tMax | none => 0)

/-- The latched sets go to the learned-value journal (06 R182, 19 Table 19-3). -/
def State.journalFaults (s : State) : State :=
  s.store 0x11 0 ((List.finRange 4).map (fun p => leBytes 4 (s.strPort p).faultWord)).flatten

/-- Faults latch: FIRST takes the lowest bit when the set was empty (06 R182). -/
def Port.latch (m : BitVec 7) (x : Port) : Port :=
  let new := m &&& ~~~x.faults
  { x with
    faults := x.faults ||| m
    first := if x.faults == 0 && new != 0 then ((List.range 7).find? (fun i => new.getLsbD i)).getD 0 + 1 else x.first }

/-- Faults of a port latch; IS072 + s for each latch, and the journal. -/
def State.latchFaults (p : Fin 4) (m : BitVec 7) (s : State) : State :=
  if m &&& ~~~(s.strPort p).faults == 0 then s
  else ((s.modStrPort p (Port.latch m)).raise (72 + p.val)).journalFaults

/-! ### What a sweep gives (06 R170, R178 to R180) -/

/-- LATH_TEMP_TOP, 0.1 °C. -/
def State.tempTop (s : State) : Int := s.heldI 0x0D0D

/-- The modules of a port that it sees: not CHAIN_LOST (06 R180). -/
def State.seenModules (s : State) (p : Fin 4) : List (Fin 64) :=
  (s.readModules p).filter (fun m => !(s.module_ m).run.lost)

/-- The latest payload of a module. -/
def State.moduleData (s : State) (m : Fin 64) : List Byte :=
  match (s.module_ m).latest with
  | some e => e.data
  | none => []

/-- Cells of a module, 100 µV. -/
def State.moduleCells (s : State) (m : Fin 64) : List Int :=
  ((List.range (s.nCell m)).filterMap (cellRaw (s.moduleData m))).map Int.ofNat

/-- A temperature word of the chain that tells of a broken sensor (09 Table 9-7). -/
def brokenTemp (v : Int) : Bool := v == 0x7FFF || v == 0x7FFE

/-- The enabled temperature inputs of a module, with their words. -/
def State.moduleTemps (s : State) (m : Fin 64) : List (Nat × Int) :=
  let d := s.moduleData m
  if d.length < 72 then []
  else ((List.range 8).filter (bitAt (s.tMask m))).map (fun j => (8 * m.val + j, tempRaw d j))

/-- A temperature as it passes on: LATH_TEMP_TOP when broken (09 R281). -/
def State.tempOf (s : State) (v : Int) : Int := if brokenTemp v then s.tempTop else v

/-- Extremes of a port over the modules it sees, where they give any. -/
def State.extremes (s : State) (p : Fin 4) : Option Extremes :=
  let ms := s.seenModules p
  let cs := (ms.map s.moduleCells).flatten
  let ts := ((ms.map s.moduleTemps).flatten).map (fun e => s.tempOf e.2)
  match cs, ts with
  | c :: cs, t :: ts =>
    some { vMax := cs.foldl max c, vMin := cs.foldl min c, tMax := ts.foldl max t, tMin := ts.foldl min t }
  | c :: cs, [] =>
    some { vMax := cs.foldl max c, vMin := cs.foldl min c, tMax := 0, tMin := 0 }
  | [], _ => none

/-- k_hi and k_lo (06 R178). -/
def State.cellTerms (s : State) (p : Fin 4) (e : Extremes) : Rat × Rat :=
  (clampQ 0 1 (((s.held (stId p 5) : Rat) - (e.vMax : Rat) / 10) / 20),
   clampQ 0 1 (((e.vMin : Rat) / 10 - (s.held (stId p 6) : Rat)) / 50))

/-- Some cell is above STR_VCELL_MAX. -/
def State.cellOver (s : State) (p : Fin 4) : Bool :=
  match s.extremes p with
  | some e => decide ((s.held (stId p 5) : Int) * 10 < e.vMax)
  | none => false

/-- Some cell is below STR_VCELL_MIN − 500 mV. -/
def State.cellDeep (s : State) (p : Fin 4) : Bool :=
  match s.extremes p with
  | some e => decide (e.vMin < ((s.held (stId p 6) : Int) - 500) * 10)
  | none => false

/-- Some temperature input of the string reads open or short. -/
def State.sensorBad (s : State) (p : Fin 4) : Bool :=
  ((s.seenModules p).map s.moduleTemps).flatten.any (fun e => brokenTemp e.2)

/-- Some input has risen by more than STR_DTDT_MAX over the last 60 s (06 Table 6-8). -/
def State.tempRising (s : State) (p : Fin 4) : Bool :=
  let lim : Int := s.held (stId p 0xC)
  let ts := (s.strPort p).temps.filter (fun e => s.clk ≤ e.1 + 60000000000)
  lim != 0 && ts.any (fun a => ts.any (fun b => a.2.1 == b.2.1 && decide (b.1 ≤ a.1) && decide (b.2.2 + lim < a.2.2)))

/-- A module of the string is CHAIN_LOST, read. -/
def State.chainLost (s : State) (p : Fin 4) : Bool := s.blindPort p

/-- STR_STATUS [7:0] as it stands (06 Table 6-5). -/
def State.portStatus (s : State) (p : Fin 4) : BitVec 8 :=
  let x := s.strPort p
  let lost := s.chainLost p
  BitVec.ofNat 8 (flag (x.fc < 1) + 2 * flag (x.fd < 1) + 4 * flag (x.kHi < 1) + 8 * flag (x.kLo < 1) + 16 * flag lost +
    32 * flag (x.faults != 0) + 64 * flag (s.held (stId p 1) == 0xFF) + 128 * flag lost)

/-- STR_STATUS follows; IS072 + s on a change of it, of STATE or STEP. -/
def State.portChanged (s s0 : State) (p : Fin 4) : State :=
  let st := s.portStatus p
  let s := s.modStrPort p (fun x => { x with status := st })
  let a := s0.strPort p
  let b := s.strPort p
  s.raiseIf (a.status != b.status || a.run != b.run || a.step != b.step) (72 + p.val)

/-- A sweep has completed for a port (06 R170, R178, R182): extremes, cell terms, and the faults that count
sweeps. -/
def State.portSweep (p : Fin 4) (s : State) : State :=
  let s0 := s
  let chg := decide (s.iStr p < 0)
  let cellHigh := chg && s.cellOver p
  let deep := chg && s.cellDeep p
  let bad := s.sensorBad p
  let now := s.clk
  let ts := ((s.seenModules p).map s.moduleTemps).flatten.map (fun e => (now, e.1, s.tempOf e.2))
  let ex := s.extremes p
  let s := s.modStrPort p (fun x =>
    let (h, l) := match ex with
      | some e => s0.cellTerms p e
      | none => (x.kHi, x.kLo)
    { x with
      seen := ex.or x.seen, kHi := h, kLo := l, badSensor := bad
      ovRun := if cellHigh then x.ovRun + 1 else 0, deepRun := if deep then x.deepRun + 1 else 0
      temps := ts ++ x.temps.filter (fun e => now ≤ e.1 + 60000000000) })
  let x := s.strPort p
  let m := (if 3 ≤ x.ovRun then 2#7 else 0#7) ||| (if 3 ≤ x.deepRun then 4#7 else 0#7) ||| (if bad then 8#7 else 0#7)
  (s.latchFaults p m).portChanged s0 p

/-! ### The evaluation (06 R172 to R176) -/

/-- The steps of a profile body (06 Table 6-6). -/
def profileSteps (b : List Byte) : List ProfileStep :=
  (List.range (numAt b 0 1)).map (fun i =>
    let o := 4 + 24 * i
    { kind := numAt b o 1, iSet := numAt b (o + 4) 4, vCell := numAt b (o + 8) 2, endV := numAt b (o + 10) 2
      endI := numAt b (o + 12) 4, endTs := numAt b (o + 16) 4 })

/-- The step in force. -/
def Port.stepNow (x : Port) : Option ProfileStep :=
  match x.profile with
  | some ss => ss[x.step]?
  | none => none

/-- A step begins: a VOLTAGE step starts at the present current (06 R172). -/
def Port.startStep (k : Nat) (amps : Int) (x : Port) : Port :=
  let x := { x with step := k, stepTime := 0, endRun := 0 }
  match x.stepNow with
  | some st => if st.kind = 2 then { x with iProf := (amps.natAbs : Int) } else x
  | none => x

/-- The port takes a changed STR_PROFILE or a table committed anew, at step 0 (06 R175). -/
def State.takeProfile (p : Fin 4) (s : State) : State :=
  let id := s.held (stId p 1)
  let t := if id = 0xFF then none else s.nextTable 5 id
  let n := (t.map Table.commits).getD 0
  let x := s.strPort p
  let i := s.iStr p
  let s := if x.profileId == id && x.profileCommit == n && x.profile.isSome == t.isSome then s
    else s.modStrPort p (fun x =>
      { x with profile := t.map (fun (y : Table) => profileSteps y.body), profileId := id, profileCommit := n }.startStep 0 i)
  s.takeType 5 (8 + p.val)

/-- PROFILE_RESTARTs take effect: IDLE, the session closed (06 Table 6-7). -/
def State.restartProfile (p : Fin 4) (s : State) : State :=
  let qs := (s.strPort p).restart
  if qs.isEmpty then s
  else
    let i := s.iStr p
    let s := s.modStrPort p (fun x => { x.startStep 0 i with run := .idle, restart := [], disRun := 0 })
    qs.foldl (fun t r => t.complete r 0x0603 done) s

/-- i_th, 0.01 A (06 R174). -/
def Port.threshold (x : Port) : Rat :=
  match x.stepNow with
  | some st => max 100 ((st.iSet : Rat) / 100)
  | none => 100

/-- The string state of charge of STR_RECHG: the reported value in full scale (10 R307), 0.01%. -/
def State.soc (s : State) (p : Fin 4) : Option Rat :=
  match (s.sest p).x with
  | some _ => (s.sest p).r
  | none => none

/-- qdis and qchg of a string follow the charge counted since the last update or evaluation (10 R304). -/
def State.chargeMoved (p : Fin 4) (s : State) : State :=
  s.modSest p (fun e =>
    let q : Rat := (e.dq : Rat) / 3600000000
    { e with qDis := e.qDis - q, qChg := e.qChg + q, dq := 0 })

/-- A session is open. -/
def ChargeRun.isOpen (r : ChargeRun) : Bool := r == .charging || r == .paused

/-- i_prof at the start of a step (06 R172): the current of a CURRENT step below its cell voltage, the present current up
to I_SET of a VOLTAGE step. -/
def Port.firstProf (v : Option Rat) (vCellMax : Nat) (st : ProfileStep) (x : Port) : Rat :=
  let vc : Rat := (min st.vCell vCellMax : Nat)
  match st.kind, v with
  | 1, some v => if v < vc then st.iSet else 0
  | 2, _ => min x.iProf st.iSet
  | _, _ => 0

/-- One evaluation of the profile state (06 Table 6-7), timer (R176), step end (R173) and i_prof (R172). `i` is
I_str in 0.01 A, `dt` the time since the last evaluation in s. -/
def Port.evaluate (i : Int) (dt : Rat) (vCellMax gain rechg : Nat) (soc : Option Rat) (x : Port) : Port :=
  let th := x.threshold
  let chg := decide ((i : Rat) < -th)
  let half := match x.stepNow with
    | some st => decide (2 * (i.natAbs : Int) < (st.iSet : Int))
    | none => false
  -- the interval that ends here
  let x : Port := if x.run == .charging then { x with elapsed := x.elapsed + (if half then dt / 2 else dt) } else x
  let x := if x.run.isOpen then { x with stepTime := x.stepTime + dt, disRun := if 100 < i then x.disRun + dt else 0 }
    else { x with disRun := 0 }
  -- the state
  let x : Port := match x.run with
    | .idle =>
      if chg && x.profile.isSome then { x.startStep 0 i with run := .charging, elapsed := 0, session := 0 } else x
    | .complete =>
      match soc with
      | some z => if z < rechg then { x.startStep 0 i with run := .idle } else x
      | none => x
    | .charging | .paused =>
      if 60 ≤ x.disRun then { x.startStep 0 i with run := .idle }
      else if chg then { x with run := .charging } else { x with run := .paused }
  let x : Port := { x with halfRate := x.run == .charging && half }
  -- the step in force
  match x.stepNow with
  | none => { x with iProf := 0 }
  | some st =>
    let v : Rat := match x.seen with
      | some e => (e.vMax : Rat) / 10
      | none => 0
    let x := { x with endRun := if x.run.isOpen && st.kind == 2 && st.endI != 0 && decide ((i.natAbs : Int) ≤ (st.endI : Int))
      then x.endRun + 1 else 0 }
    let ends := x.run.isOpen && ((st.kind == 1 && st.endV != 0 && x.seen.isSome && decide ((st.endV : Rat) ≤ v)) ||
      30 ≤ x.endRun || (st.endTs != 0 && decide ((st.endTs : Rat) ≤ x.stepTime)))
    if ends then
      if x.step + 1 < (x.profile.getD []).length then
        let y := x.startStep (x.step + 1) i
        match y.stepNow with
        | some s2 => { y with iProf := y.firstProf (x.seen.map (fun e => (e.vMax : Rat) / 10)) vCellMax s2 }
        | none => y
      else { x with run := .complete, halfRate := false }
    else
      let vc : Rat := (min st.vCell vCellMax : Nat)
      { x with iProf :=
          match st.kind with
          | 1 => if x.seen.isSome && v < vc then (st.iSet : Rat) else 0
          | 2 => if x.seen.isSome then clampQ 0 st.iSet (x.iProf + (gain : Rat) * (vc - v) * dt) else 0
          | _ => 0 }

/-- frac of 06 R178. -/
def State.tempFrac (s : State) (p : Fin 4) (w : Nat) (e : Extremes) : Rat :=
  let lo : Rat := signedOf 16 (bitsOf w 15 0)
  let hi : Rat := signedOf 16 (bitsOf w 31 16)
  let taper : Rat := s.held (stId p 4)
  if taper = 0 then (if lo < e.tMin && (e.tMax : Rat) < hi then 1 else 0)
  else clampQ 0 1 (min ((e.tMin : Rat) - lo) (hi - e.tMax) / taper)

/-- Faults that an evaluation finds (06 Table 6-8). -/
def State.evalFaults (s : State) (p : Fin 4) : BitVec 7 :=
  let x := s.strPort p
  let q := s.qNom p
  (if (s.held (stId p 7) : Rat) ≤ x.elapsed then 1#7 else 0#7) |||
  (if x.badSensor then 8#7 else 0#7) |||
  (if x.run == .charging && s.tempRising p then 16#7 else 0#7) |||
  (if s.chainLost p then 32#7 else 0#7) |||
  (if q ≠ 0 && decide (q * 3600000000 * 11 / 10 < x.session) then 64#7 else 0#7)

/-- The port's parameters, but for STR_SENSE, take effect at its evaluation (06 R168). -/
def State.pickPort (p : Fin 4) (s : State) : State :=
  ((List.range 13).filter (· != 0)).foldl (fun t k => t.pickParam (stId p k)) s

/-- STRING_EVALUATION (06 R170): one port. -/
def execStringEvaluation (p : Fin 4) (s : State) : Out :=
  if s.sys.hawk != .running || !s.awake then .next s
  else
    let s0 := s
    let s := s.pickPort p
    let t := (s.takeProfile p).restartProfile p
    let dt : Rat := ((s.clk - (s.strPort p).lastEval : Nat) : Rat) / 1000000000
    let now := s.clk
    let soc := t.soc p
    let t := t.chargeMoved p
    let t := t.modStrPort p (fun x =>
      { x.evaluate (s.iStr p) dt (s.held (stId p 5)) (s.held (stId p 9)) (s.held (stId p 0xA)) soc with lastEval := now })
    let t := match (t.strPort p).seen with
      | none => t
      | some e =>
        t.modStrPort p (fun x => { x with fc := s.tempFrac p (s.held (stId p 2)) e, fd := s.tempFrac p (s.held (stId p 3)) e })
    let t := t.latchFaults p (t.evalFaults p)
    .next (t.portChanged s0 p)

/-! ### The opcodes (06 R183, R184) -/

/-- STRING_STATUS. -/
def execStringStatus (r : Req) (s : State) : Out :=
  .next (s.runOp 0x0601 observe (len 1) (fun s =>
    let m := numAt r.payload 0 1
    if 16 ≤ m then .no stValue dtRange
    else
      .ok (done (((List.finRange 4).filter (fun p => bitAt m p.val)).map (fun p =>
        leBytes 1 p.val ++ zeros 3 ++ leBytes 4 (s.strPort p).stateWord ++ leBytes 4 (s.strPort p).faultWord ++
          leBytes 4 (s.strPort p).statusWord)).flatten) s) r)

/-- The latched faults whose condition persists (06 Table 6-8). -/
def State.persisting (s : State) (p : Fin 4) : BitVec 7 :=
  (if s.cellOver p then 2#7 else 0#7) ||| (if s.cellDeep p then 4#7 else 0#7) ||| (if s.sensorBad p then 8#7 else 0#7) |||
  (if s.tempRising p then 16#7 else 0#7) ||| (if s.chainLost p then 32#7 else 0#7)

/-- The clearing of R183: TIMER takes the timer with it, OVERCHARGE the session charge. -/
def Port.clearFaults (keep : BitVec 7) (x : Port) : Port :=
  let left := x.faults &&& keep
  let gone := x.faults &&& ~~~keep
  { x with
    faults := left, first := if left == 0 then 0 else x.first
    elapsed := if gone.getLsbD 0 then 0 else x.elapsed, session := if gone.getLsbD 6 then 0 else x.session }

/-- CHARGE_FAULT_READ (06 R183). -/
def execChargeFaultRead (r : Req) (s : State) : Out :=
  .next (s.runOp 0x0602 control (len 1) (fun s =>
    s.needLease r (
      match named 4 (numAt r.payload 0 1) with
      | none => .no stValue dtRange
      | some p =>
        let a := done (leBytes 4 (s.strPort p).faultWord)
        let keep := s.persisting p
        if (s.strPort p).faults &&& ~~~keep == 0 then .ok a s
        else
          let t := (s.modStrPort p (Port.clearFaults keep)).portChanged s p
          .ok a ((t.journalFaults).auditReq r 0x0602 a))) r)

/-- PROFILE_RESTART (06 Table 6-11): the effect is at the port's next evaluation. -/
def execProfileRestart (r : Req) (s : State) : Out :=
  .next (s.runOp 0x0603 control (len 1) (fun s =>
    s.needLease r (
      match named 4 (numAt r.payload 0 1) with
      | none => .no stValue dtRange
      | some p =>
        if (s.strPort p).faults != 0 then .no stState 0x0103
        else .wait (s.modStrPort p (fun x => { x with restart := x.restart ++ [r] })))) r)

end Sys2Proof.Machine
end

