-- ==== Sys2Proof/Machine/Chain.lean ====
section
/-! DEFINITION. The lath chain (09 R256 to R291): locks and ring state, enumeration and binding, hop
compensation, marks and sample instants, sweeps and their replies, balancing requests, and the chain opcodes. -/

namespace Sys2Proof.Machine

/-- Code of a ring state (09 Table 9-11). -/
def RingRun.code : RingRun → Nat
  | .down => 0 | .enumerating => 1 | .closed => 2 | .broken => 3

/-- Code of a module state (09 Table 9-15). -/
def ModuleRun.code : ModuleRun → Nat
  | .disabled => 0 | .absent => 1 | .ok => 2 | .missed => 3 | .chainLost => 4 | .uidMismatch => 5 | .incompatible => 6

/-- Bound and answering: OK or MISSED. -/
def ModuleRun.bound (r : ModuleRun) : Bool := r == .ok || r == .missed

/-- The ring is CLOSED or BROKEN: sweeps run. -/
def RingRun.up (r : RingRun) : Bool := r == .closed || r == .broken

/-- LATH_CFG.EN_A and EN_B. -/
def State.chainEn (s : State) (q : Fin 2) : Bool := bitAt (s.param 0x0D00) q.val

/-- One chain port. -/
def State.chainPort (s : State) (q : Fin 2) : ChainPort := s.stack.chain.ports[q.val]

/-- Changes one chain port. -/
def State.modChainPort (q : Fin 2) (f : ChainPort → ChainPort) (s : State) : State :=
  s.modChain (fun c => { c with ports := vmod c.ports q f })

/-- LATH_CNT_q_j: frames sent and good frames wrap, the others saturate (09 Table 9-9). -/
def ChainPort.bump (j : Fin 8) (n : Nat) (x : ChainPort) : ChainPort :=
  { x with counters := vmod x.counters j (fun c => if j.val < 2 then c + BitVec.ofNat 32 n else satAdd c n) }

/-- A counter of a port. -/
def State.chainCount (q : Fin 2) (j : Fin 8) (s : State) : State := s.modChainPort q (ChainPort.bump j 1)

/-- The other chain port. -/
def otherPort (q : Fin 2) : Fin 2 := if q = 0 then 1 else 0

/-- Both receivers are out of lock. -/
def State.chainDown (s : State) : Bool := !(s.chainPort 0).lock && !(s.chainPort 1).lock

/-- A module changes state; IS096 + m follows. -/
def State.moduleTo (m : Fin 64) (r : ModuleRun) (s : State) : State :=
  if (s.module_ m).run == r then s else (s.modModule m (fun x => { x with run := r })).raise (96 + m.val)

/-- LATH_STATUS (09 Table 9-11). -/
def State.lathStatus (s : State) : Nat :=
  let c := s.stack.chain
  c.run.code + fieldAt 2 1 (flag (s.chainPort 0).lock) + fieldAt 3 1 (flag (s.chainPort 1).lock) +
    fieldAt 4 1 (flag c.timingRaised) + fieldAt 8 7 c.reachA + fieldAt 16 7 c.reachB + fieldAt 24 7 c.found

/-- LATH_LAST (09 Table 9-12). -/
def ChainState.lastWord (c : ChainState) : Nat :=
  flag c.lastRerouted + fieldAt 1 1 (flag c.lastOverrun) + fieldAt 8 8 c.lastId.toNat + fieldAt 16 7 c.lastMissed +
    fieldAt 24 7 c.lastReissued

/-- LATH_M_STATUS (09 Table 9-15). -/
def Module.statusWord (x : Module) : Nat :=
  x.run.code + fieldAt 3 1 (flag x.viaB) + fieldAt 4 1 (flag x.markSkew) + fieldAt 5 1 (flag (x.bleed != 0)) +
    fieldAt 8 6 x.posA + fieldAt 14 1 (flag x.aReach) + fieldAt 15 1 (flag x.bReach) + fieldAt 16 6 x.posB +
    fieldAt 24 8 (min x.missRun 255)

/-- LATH_M_DELAY. -/
def Module.delayWord (x : Module) : Nat := x.dA.toNat + fieldAt 16 16 x.dB.toNat

/-! ### Ring state and delays (09 R256, R264, R270, R285) -/

/-- CLOSED or BROKEN from now on; the change raises IS163 or IS162. -/
def State.ringTo (r : RingRun) (s : State) : State :=
  if s.stack.chain.run == r then s
  else (s.modChain (fun c => { c with run := r })).raise (if r == .closed then 163 else 162)

/-- A change between CLOSED and BROKEN starts a delay measurement (09 R264). -/
def State.ringChange (r : RingRun) (s : State) : State :=
  if s.stack.chain.run == r then s else (s.ringTo r).modChain (fun c => { c with probing := true })

/-- One symbol time of a receiver (09 R256): in lock after 4 commas with no code error between them; out of it after 4 code
errors within 64 symbols, 512 symbols without a comma, or 1 µs, ten symbols, without amplitude. -/
def RxLock.step (sym : ChainRx) (e : Bool × RxLock) : Bool × RxLock :=
  let x := e.2
  let ages := (x.errors.map (· + 1)).filter (· < 64)
  let y : RxLock :=
    { commas := match sym with | .comma => x.commas + 1 | .symbol => x.commas | .error | .silent => 0
      quiet := if sym == .comma then 0 else x.quiet + 1
      errors := if sym == .error then 0 :: ages else ages
      silent := if sym == .silent then x.silent + 1 else 0 }
  if e.1 then
    if 4 ≤ y.errors.length || 512 ≤ y.quiet || 10 ≤ y.silent then (false, { y with commas := 0, errors := [] }) else (true, y)
  else (decide (4 ≤ y.commas), y)

/-- CHAIN_RECEIVER_LOCK (09 R256): the symbols that port q's receiver has had since its last such row. With neither receiver in
lock the ring is DOWN (DEDUCED, log entry 28). -/
def execChainReceiverLock (q : Fin 2) (symbols : List ChainRx) (s : State) : Out :=
  let was := (s.chainPort q).lock
  let e := symbols.foldl (fun e y => RxLock.step y e) (was, (s.chainPort q).rx)
  let bad := (symbols.filter (· == .error)).length
  let t := s.modChainPort q (fun x => { (x.bump 3 bad).bump 4 (flag (was && !e.1)) with lock := e.1, rx := e.2 })
  let t := t.raiseIf (was != e.1) (160 + q.val)
  let t := if t.chainDown then t.stippleAbortAll 7 else t
  .next (if t.chainDown && t.stack.chain.run != .enumerating then t.modChain (fun c => { c with run := .down }) else t)

/-- A frame or mark of a port's origin arrives at port q (09 R264): at the port it came from, the ring is BROKEN from then on. -/
def State.ringSees (q origin : Fin 2) (s : State) : State :=
  let s := s.modChain (fun c =>
    if q = origin then { c with returned := true }
    else if origin = 0 then { c with crossA := true } else { c with crossB := true })
  if q = origin && s.stack.chain.run == .closed then s.ringChange .broken else s

/-- Both sides of the first rule of 09 R264 have held for one complete sweep: the ring is CLOSED again. -/
def State.ringHeals (s : State) : State :=
  let c := s.stack.chain
  if c.run == .broken && c.crossA && c.crossB && !c.returned then s.ringChange .closed else s

/-- RING_STATE_CHANGE (09 R264): a mark of a port's origin arrives at port q. Frames tell of the ring at CHAIN_REPLY, and a whole
sweep of both crossings at its completion. -/
def execRingStateChange (q origin : Fin 2) (s : State) : Out :=
  if s.stack.chain.run == .enumerating || s.chainDown || s.stack.chain.found = 0 then .next s else .next (s.ringSees q origin)

/-- The ring delay of a measurement: the mean of both ways round a CLOSED ring, else the round trip of the port
that reaches the node (09 R270). -/
def ringDelays (closed : Bool) (a b : Nat) : Rat × Rat :=
  if closed then (((a + b : Nat) : Rat) / 2, ((a + b : Nat) : Rat) / 2) else (a, b)

/-- SET_DELAY is sent when a delay is off by more than 5 ns. -/
def Module.setDelay (d : U16 × U16) (x : Module) : Module :=
  let far (u v : U16) : Bool := decide (5 < ((u.toNat : Int) - v.toNat).natAbs)
  if far x.dA d.1 || far x.dB d.2 then { x with dA := d.1, dB := d.2 } else x

/-- R is the ring delay from now on; the timing rises with it (09 R285). -/
def State.takeRingDelay (closed : Bool) (a b : Nat) (s : State) : State :=
  let r := (ringDelays closed a b).1
  let lead : Rat := (s.held 0x0D02 : Rat) * 1000
  let tmo : Rat := (s.held 0x0D04 : Rat) * 1000
  let up := decide (lead - 10000 < r) || decide (tmo - 2000 < r)
  let was := s.stack.chain.timingRaised
  (s.modChain (fun c => { c with ringDelay := BitVec.ofNat 32 (fitU 32 (roundQ r)), timingRaised := up })).raiseIf (up && !was) 167

/-- Effective mark lead, ns (09 R285). -/
def State.effLead (s : State) : Nat :=
  let r := s.stack.chain.ringDelay.toNat
  max (s.held 0x0D02 * 1000) (if s.held 0x0D02 * 1000 < r + 10000 then r + 10000 else 0)

/-- The effective read timeout after the end of a slot, ns. -/
def State.effTimeout (s : State) : Nat :=
  let r := s.stack.chain.ringDelay.toNat
  max (s.held 0x0D04 * 1000) (if s.held 0x0D04 * 1000 < r + 2000 then r + 2000 else 0)

/-- The chain's parameters take effect at the next sweep (09 R285, R287): all but LATH_SWEEP and LATH_NODES, and of LATH_M_CFG
BAL_EN and BAL_MAX. -/
def State.pickChain (s : State) : State :=
  ([0x0D00, 0x0D02, 0x0D03, 0x0D04, 0x0D05, 0x0D0C, 0x0D0D] ++ (List.finRange 64).map (fun m => moId m 0)).foldl
    (fun t id => t.pickParam id) s

/-- One module's delays from its Δ. -/
def State.delayOf (closed : Bool) (a b : Nat) (m : Fin 64) (delta : Int) (s : State) : State :=
  let (ra, rb) := ringDelays closed a b
  s.modModule m (fun x =>
    let r := if x.aReach then ra else rb
    let enc (y : Rat) : U16 := BitVec.ofNat 16 (fitU 16 (roundQ y))
    let f : Rat := x.latency
    x.setDelay (if x.aReach then enc ((r - f - delta) / 2) else 0xFFFF#16,
                if x.bReach then enc ((r - f + delta) / 2) else 0xFFFF#16))

/-- DELAY_MEASUREMENT (09 R270): `a` and `b` are L_A and L_B of a CLOSED ring, R_A and R_B of a BROKEN one, ns;
`deltas` the Δ of each bound module. It is made when one is in work, else every LATH_PROBE_S. CHAIN_PROBEs complete. -/
def execDelayMeasurement (a b : Nat) (deltas : List (Fin 64 × Reading)) (s : State) : Out :=
  let c := s.stack.chain
  let every := s.held 0x0D05
  if !c.run.up || (!c.probing && every = 0) then .next s
  else
    let closed := c.run == .closed
    let u := if c.probing then s else s.atLeast (c.probedAt + every * 1000000000)
    let t := deltas.foldl (fun t e => t.delayOf closed a b e.1 e.2) (u.takeRingDelay closed a b)
    let qs := t.stack.chain.probeWaits
    let now := t.clk
    let t := t.modChain (fun c => { c with probing := false, probeWaits := [], probedAt := now })
    .next (qs.foldl (fun t r => t.complete r 0x0906 done) t)

/-! ### Enumeration (09 R265 to R268) -/

/-- ENUM goes out on both ports: sweeps stop, balancing ends at the nodes, stipple sweeps end (11 Table
11-3), and reduced sampling ends (10 R315). -/
def State.startEnumeration (r : Option Req) (s : State) : State :=
  let s := s.fullRate.modChain (fun c => { c with
    run := .enumerating, enumerate := some (match r with | some q => some q | none => c.enumerate.join), sweeping := false, toRead := false
    outstanding := c.outstanding.filter (fun x => x.kind != .sweep)
    modules := c.modules.map (fun m => { m with bleed := 0, maskSent := 0 }) })
  s.stippleAbortAll 7

/-- The entries of a node map body (09 Table 9-5). -/
def mapEntries (b : List Byte) : List MapEntry :=
  (List.range (numAt b 0 1)).map (fun i => ⟨numAt b (4 + 4 * i) 1, numAt b (5 + 4 * i) 1, numAt b (6 + 4 * i) 1⟩)

/-- POS_A of a found node: one found only from port B counts from the expected number (09 R266). -/
def State.posAOf (s : State) (x : NodeInfo) : Int :=
  if x.fromA then (x.pos : Int) else (s.param 0x0D06 : Int) - 1 - x.pos

/-- The state of a bound node by its module's parameters (09 R268). -/
def State.checkNode (s : State) (m : Fin 64) (x : NodeInfo) : ModuleRun :=
  let uid := s.param (moId m 1)
  if uid ≠ 0 ∧ uid ≠ x.uid.toNat then .uidMismatch
  else if x.nCellMax.toNat < s.nCell m || (s.tMask m &&& x.tMaskMax.toNat) != s.tMask m then .incompatible
  else .ok

/-- The state of a module that the map names, given the node bound to it, and the record of that node. -/
def State.bind (m : Fin 64) (x : Option NodeInfo) (closed : Bool) (n : Nat) (s : State) : State :=
  match x with
  | none =>
    (s.modModule m (fun y => { y with aReach := false, bReach := false, missRun := 0, goodRun := 0 })).moduleTo m
      (if s.moduleEn m then .absent else .disabled)
  | some x =>
    let a := s.posAOf x
    let b : Int := if closed then (n : Int) - 1 - a else if x.fromA then (s.param 0x0D06 : Int) - 1 - a else x.pos
    (s.modModule m (fun y => { y with
      posA := nat0 a, posB := nat0 b, aReach := x.fromA, bReach := x.fromB, missRun := 0, goodRun := 0
      uid := x.uid, latency := x.latency.toNat, nCellMax := x.nCellMax.toNat, tMaskMax := x.tMaskMax
      version := x.version.toNat, cap := x.cap, viaB := !x.fromA })).moduleTo m
      (if s.moduleEn m then s.checkNode m x else .disabled)

/-- ENUMERATION_END (09 R266): the nodes found with the Δ of each, REACH_A and REACH_B, and the ring delays. The
map of table 0C:00 and the bindings become active. -/
def execEnumerationEnd (found : List NodeInfo) (reachA reachB : Nat) (a b : Nat) (s : State) : Out :=
  match s.stack.chain.enumerate with
  | none => .next s
  | some r =>
    let map := (match s.nextBody 0x0C 0 with | some t => mapEntries t | none => [])
    let n := found.length
    let closed := s.chainEn 0 && s.chainEn 1 && reachA == n && reachB == n
    let node (pos : Nat) : Option NodeInfo := found.find? (fun x => s.posAOf x == (pos : Int))
    let now := s.clk
    let t := s.pickChain.modChain (fun c => { c with
      probedAt := now
      map := map, enumerate := none, reachA := reachA, reachB := reachB, found := n, nextSample := 0 })
    let t := (List.finRange 64).foldl (fun t m =>
      match map.find? (fun e => e.module_ == m.val) with
      | none => t.moduleTo m .disabled
      | some e => t.bind m (node e.pos) closed n) t
    let t := t.takeRingDelay closed a b
    let t := map.foldl (fun t e =>
      match node e.pos with
      | some x => t.delayOf closed a b (Fin.ofNat 64 e.module_) x.delta
      | none => t) t
    let t := if t.chainDown then t.modChain (fun c => { c with run := .down }) else t.ringTo (if closed then .closed else .broken)
    let unbound := found.any (fun x => !map.any (fun e => (e.pos : Int) == s.posAOf x))
    let t := (t.raise 165).raiseIf (n != s.param 0x0D06 || unbound) 166
    let t := t.takeType 0x0C 17
    .next (match r with
      | some r => t.complete r 0x0902 done
      | none => t)

/-! ### Marks and sample instants (09 R271, R285; 10 R315) -/

/-- The sweep period that the parameters and the estimation rate ask for, ns. -/
def State.wantedPeriod (s : State) : Nat :=
  match s.stack.est.rate with
  | .full => s.param 0x0D01 * 1000
  | .reduced => 100000000
  | .hibernate => 10000000000

/-- The next sample instant, device time. -/
def State.nextMark (s : State) : Nat :=
  let c := s.stack.chain
  if c.nextSample = 0 ∨ c.nextSample + c.period ≤ s.now then multipleFrom c.period (s.now + 1) else c.nextSample

/-- The bytes of a MARK after its K28.1 (09 Table 9-2). -/
def markBytes (id : Byte) (lead : Nat) (q : Fin 2) : List Byte :=
  let b := [id] ++ leBytes 3 lead ++ leBytes 1 q.val
  b ++ [crc8 b]

/-- The device time by which the next mark must have been sent. -/
def State.markBy (s : State) : Nat := s.nextMark - s.effLead

/-- MARK_SEND (09 R271): on an enabled port, between frames and reply slots, within its window before the next sample instant;
LEAD is the time from its first bit to that instant. -/
def execMarkSend (q : Fin 2) (s : State) : Out :=
  let c := s.stack.chain
  let id := c.sweepId + 1#8
  let at_ := max (max s.now (s.markBy - 30000)) (s.chainPort q).busyUntil
  if !s.engineOn || !c.run.up || !s.chainEn q || (s.chainPort q).markFor == some id || s.markBy < at_ then .next s
  else
    let t := s.atDevice at_
    .next (t.modChainPort q (fun x => { x with markFor := some id, mark := markBytes id (s.nextMark - at_) q }))

/-- SAMPLE_INSTANT (09 R271): the sweep ID advances, SWEEP triggers fire (08 Table 8-6), and a change of the period
takes effect (R285). -/
def execSampleInstant (s : State) : Out :=
  let c := s.stack.chain
  if !s.engineOn || !c.run.up then .next s
  else
    let at_ := s.nextMark
    let t := s.atDevice at_
    let p := s.wantedPeriod
    let next := if p = c.period then at_ + p else multipleFrom p (at_ + 1)
    let t := t.modChain (fun c => { c with
      sweepId := c.sweepId + 1#8, sweepTime := BitVec.ofNat 64 at_, toRead := true, period := p, nextSample := next })
    let t := (List.finRange 4).foldl (fun t q => t.stippleMark q) t.pickChain
    .next (((List.finRange 16).filter (fun i => i.val < t.nSeq && t.seqByte i.val 1 == 3)).foldl (fun t i => t.trigger i) t)

/-! ### Sweeps (09 R277 to R282) -/

/-- The module positions read each sweep: in the map, with EN set. -/
def State.sweepModules (s : State) : List (Fin 64) :=
  (s.stack.chain.map.map (fun e => Fin.ofNat 64 e.module_)).filter s.moduleEn

/-- The primary port of a module (09 R277); a disabled port leaves its reads to the other (R286). -/
def State.primary (s : State) (m : Fin 64) : Fin 2 :=
  let x := s.module_ m
  let split := bitsOf (s.held 0x0D00) 13 8
  let cut := if split = 0 then s.stack.chain.found / 2 else split
  let q : Fin 2 := if s.stack.chain.run == .closed then (if x.posA < cut then 0 else 1) else (if x.viaB then 1 else 0)
  if s.chainEn q then q else otherPort q

/-- The symbols of the reply slot of a command (09 Table 9-6); 0 for a broadcast. A node answers a command it does not know with 4
bytes (R275). -/
def chainSlot (cmd addr : Byte) : Nat :=
  if addr == 0xFF#8 then 0
  else match cmd.toNat with
    | 0x01 => 32
    | 0x02 | 0x04 | 0x21 | 0x30 => 0
    | 0x05 | 0x11 | 0x20 => 24
    | 0x10 => 88
    | _ => 20

/-- A chain frame (09 Table 9-3). -/
def chainFrame (type : Nat) (q : Fin 2) (seq addr cmd : Byte) (payload : List Byte) : List Byte :=
  let b := leBytes 1 (type + 4 * q.val) ++ [seq, addr, cmd] ++ leBytes 2 payload.length ++ payload
  b ++ leBytes 4 (crc32c b).toNat

/-- The frame of a request: a REQUEST, or a BROADCAST where it has no slot. -/
def ChainRequest.frame (x : ChainRequest) : List Byte :=
  chainFrame (if chainSlot x.cmd x.addr = 0 then 2 else 0) x.port x.seq x.addr x.cmd x.payload

/-- The time of a request and its reply slot, ns: SOF, header, payload, CRC and EOF, then the slot; a symbol takes 100 ns (09 R255,
R261, R275). -/
def exchangeTime (cmd addr : Byte) (n : Nat) : Nat := 100 * (n + 12 + chainSlot cmd addr)

/-- A request goes out on a port, behind the frames and slots that occupy it: the next SEQ, a frame counted, its reply slot
reserved, a reply awaited (09 R261, R277). -/
def State.sendRequest (q : Fin 2) (kind : ReadKind) (m : Nat) (cmd addr : Byte) (payload : List Byte) (tries : Nat) (re : Bool)
    (r : Option Req) (s : State) : State :=
  let n := (s.chainPort q).seq
  let start := max s.now (s.chainPort q).busyUntil
  let stop := start + exchangeTime cmd addr payload.length
  let x : ChainRequest :=
    { port := q, kind := kind, module_ := m, seq := n, cmd := cmd, addr := addr, tries := tries, reissued := re, req := r
      payload := payload, start := start, slotEnd := stop }
  (s.modChain (fun c => { c with outstanding := c.outstanding ++ [x] })).modChainPort q (fun p =>
    { p.bump 0 1 with seq := p.seq + 1#8, busyUntil := stop })

/-- Positions of a list in rising order of a key. -/
def insertBy (key : Fin 64 → Nat) (m : Fin 64) : List (Fin 64) → List (Fin 64)
  | [] => [m]
  | x :: xs => if key m < key x then m :: x :: xs else x :: insertBy key m xs

/-- The results of the sweep under way: a read module is MISSED without a whole answer (09 R279). -/
def State.sweepMissed (s : State) (m : Fin 64) : Bool :=
  match (s.module_ m).answer with
  | none => true
  | some d => d.length ≠ 72 || numAt d 0 1 != 0 || (List.range (s.nCell m)).any (fun c => numAt d (4 + 2 * c) 2 == 0xFFFF)

/-- The module is estimated: EST_CFG.EN and EST_M_CFG.EN. -/
def State.estOn (s : State) (m : Fin 64) : Bool := bitAt (s.held 0x1200) 0 && bitAt (s.held (0x1000 + 8 * m.val)) 0

/-- A module's part of the completion (09 R279 to R282); its float engine takes the sweep (R280). -/
def State.closeModule (sweepFlags : Nat) (m : Fin 64) (s : State) : State :=
  let x := s.module_ m
  let c := s.stack.chain
  let missed := s.sweepMissed m
  let d := match x.answer with
    | some d => if d.length = 72 && numAt d 0 1 == 0 then d else []
    | none => []
  let skew := bitAt (numAt d 2 1) 0
  let fl := flag missed + 2 * flag skew + 4 * flag x.reroutedNow
  let item : SweepItem := { id := c.sweepId, time := c.sweepTime, flags := BitVec.ofNat 8 fl, sweepFlags := BitVec.ofNat 8 sweepFlags
                            data := if missed then [] else d, raw := x.answer.getD [] }
  let s := s.modModule m (fun y => { y with
    sweeps := (item :: y.sweeps).take 4, answer := none, markSkew := skew
    bleed := if d.isEmpty then y.bleed else BitVec.ofNat 24 (numAt d 68 3)
    fault := if d.isEmpty then y.fault else BitVec.ofNat 8 (numAt d 71 1)
    missRun := if missed then y.missRun + 1 else 0, goodRun := if missed then 0 else y.goodRun + 1 })
  let s := if s.estOn m then s.modMest m (fun y => { y with window := item :: y.window }) else s
  if x.run.bound then s.moduleTo m (if missed then .missed else .ok) else s

/-- A sweep completes (09 R280): its results, then what they mean for the string ports. -/
def State.closeSweep (overrun : Bool) (s : State) : State :=
  let ms := s.sweepModules
  let missed := (ms.filter s.sweepMissed).length
  let rer := ms.any (fun m => (s.module_ m).reroutedNow && (s.module_ m).answer.isSome)
  let s := ms.foldl (fun t m => t.closeModule (flag rer + 2 * flag overrun) m) s
  let s := s.modChain (fun c => { c with
    sweeping := false, outstanding := c.outstanding.filter (fun x => x.kind != .sweep)
    lastRerouted := rer, lastOverrun := overrun, lastId := c.sweepId, lastMissed := missed, lastReissued := c.reissuedNow
    cntSweeps := c.cntSweeps + 1#32, cntRerouted := if rer then satInc c.cntRerouted else c.cntRerouted })
  (List.finRange 4).foldl (fun t p => (t.stippleSample p).portSweep p) (s.raiseIf overrun 164).ringHeals

/-- SWEEP_READS_START (09 R277, R280): LATH_CONV after T_mark; a sweep still under way ends by its deadline. -/
def execSweepReadsStart (s : State) : Out :=
  let c := s.stack.chain
  if !s.engineOn || !c.run.up || !c.toRead then .next s
  else
    let t := s.atDevice (c.sweepTime.toNat + s.held 0x0D03 * 1000)
    let t := if c.sweeping then t.closeSweep true else t
    let t := t.modChain (fun c => { c with
      toRead := false, sweeping := true, reissuedNow := 0, crossA := false, crossB := false, returned := false
      modules := c.modules.map (fun m => { m with answer := none, reroutedNow := false }) })
    let ms := t.sweepModules
    let onPort (q : Fin 2) : List (Fin 64) :=
      (ms.filter (fun m => t.primary m == q && t.chainEn q)).foldl (fun l m =>
        insertBy (fun k => if q = 0 then (t.module_ k).posA else (t.module_ k).posB) m l) []
    .next ((List.finRange 2).foldl (fun t q =>
      (onPort q).foldl (fun t m => t.sendRequest q .sweep m.val 0x10#8 (BitVec.ofNat 8 m.val) [c.sweepId] 0 false none) t) t)

/-- A read fails (09 R278): repeated on its port, then reissued on the other. -/
def State.failRead (x : ChainRequest) (s : State) : State :=
  let s := s.modChain (fun c => { c with outstanding := c.outstanding.erase x })
  match x.kind with
  | .sweep =>
    let o := otherPort x.port
    if !x.reissued && decide (x.tries < bitsOf (s.held 0x0D00) 19 16) && s.chainEn x.port then
      s.sendRequest x.port .sweep x.module_ x.cmd x.addr x.payload (x.tries + 1) false none
    else if !x.reissued && s.chainEn o then
      ((s.sendRequest o .sweep x.module_ x.cmd x.addr x.payload x.tries true none).chainCount o 6).modChain (fun c =>
        { c with reissuedNow := c.reissuedNow + 1 })
    else s
  | .balance =>
    match x.req with
    | some r => s.finish r 0x0904 ⟨stState, 0, 0x0102, []⟩
    | none => s
  | .diagnostic =>
    match x.req with
    | some r => s.finish r 0x0905 ⟨stState, 0, 0x0102, []⟩
    | none => s

/-- A BALANCE answered by a node. -/
def State.balanceReply (x : ChainRequest) (d : List Byte) (s : State) : State :=
  let m := Fin.ofNat 64 x.module_
  let good := numAt d 0 1 == 0 && d.length == 8
  let s := if good then s.modModule m (fun y => { y with bleed := BitVec.ofNat 24 (numAt d 4 3) }) else s
  match x.req with
  | none => s
  | some r =>
    if good then
      (s.modModule m (fun y => { y with
        override_ := some (BitVec.ofNat 24 (numAt r.payload 4 4), s.clk + numAt r.payload 2 2 * 1000000) })).complete r 0x0904 done
    else s.finish r 0x0904 ⟨stState, 0, 0, []⟩

/-- An accepted reply (09 R278). -/
def State.takeReply (x : ChainRequest) (d : List Byte) (s : State) : State :=
  let s := s.modChain (fun c => { c with outstanding := c.outstanding.erase x })
  match x.kind with
  | .sweep =>
    s.modModule (Fin.ofNat 64 x.module_) (fun m => { m with
      answer := some d, reroutedNow := x.reissued, viaB := x.port == 1 })
  | .balance => s.balanceReply x d
  | .diagnostic =>
    match x.req with
    | some r => s.complete r 0x0905 (done d)
    | none => s

/-- CHAIN_REPLY (09 R258, R264, R278): a frame at port q. Its CRC, what its origin tells of the ring, and the
outstanding request that a RESPONSE answers. -/
def execChainReply (q : Fin 2) (frame : List Byte) (s : State) : Out :=
  let n := numAt frame 4 2
  let ctrl := numAt frame 0 1
  let org : Fin 2 := if bitAt ctrl 2 then 1 else 0
  let hit := s.stack.chain.outstanding.find? (fun x =>
    x.port == org && x.seq == BitVec.ofNat 8 (numAt frame 1 1) && x.addr == BitVec.ofNat 8 (numAt frame 2 1) &&
      x.cmd == BitVec.ofNat 8 (numAt frame 3 1))
  if frame.length ≠ 10 + n || 256 < n || BitVec.ofNat 32 (numAt frame (6 + n) 4) != crc32c (frame.take (6 + n)) then
    let t := s.chainCount q 2
    match hit with
    | some x => .next (if bitsOf ctrl 1 0 = 1 then t.failRead x else t)
    | none => .next t
  else
    let t := (s.chainCount q 1).ringSees q org
    if bitsOf ctrl 1 0 ≠ 1 then .next t
    else
      match hit with
      | some x => .next (t.takeReply x (slice frame 6 n))
      | none => .next (t.chainCount q 7)

/-- CHAIN_READ_TIMEOUT (09 R278): the oldest request outstanding from port q fails, LATH_RD_TMO after the end of its slot. -/
def execChainReadTimeout (q : Fin 2) (s : State) : Out :=
  match s.stack.chain.outstanding.find? (fun x => x.port == q) with
  | none => .next s
  | some x => .next (((s.atDevice (x.slotEnd + s.effTimeout)).chainCount q 5).failRead x)

/-- Sweep reads are pending. -/
def State.readsPending (s : State) : Bool := s.stack.chain.outstanding.any (fun x => x.kind == .sweep)

/-- SWEEP_COMPLETE (09 R280). -/
def execSweepComplete (s : State) : Out :=
  if !s.engineOn || !s.stack.chain.sweeping || s.readsPending then .next s else .next (s.closeSweep false)

/-- SWEEP_DEADLINE (09 R280). -/
def execSweepDeadline (s : State) : Out :=
  let c := s.stack.chain
  if !s.engineOn || !c.sweeping || !s.readsPending then .next s
  else .next ((s.atDevice (c.sweepTime.toNat + c.period + s.held 0x0D03 * 1000)).closeSweep true)

/-- MODULE_CHAIN_LOST (09 R282): LOST_SWEEPS in a row missed, or answered again; the latched fault of 06 Table 6-8
follows. -/
def execModuleChainLost (m : Fin 64) (s : State) : Out :=
  let x := s.module_ m
  let n := bitsOf (s.held 0x0D00) 23 20
  if x.run.bound && decide (n ≤ x.missRun) then
    let t := s.moduleTo m .chainLost
    .next ((List.finRange 4).foldl (fun t p =>
      if (t.readModules p).contains m then (t.latchFaults p 32#7).portChanged s p else t) t)
  else if x.run == .chainLost && decide (n ≤ x.goodRun) then
    let t := s.moduleTo m .ok
    .next ((List.finRange 4).foldl (fun t p => if (t.readModules p).contains m then t.portChanged s p else t) t)
  else .next s

/-! ### Balancing requests and port enables (09 R283, R286) -/

/-- The mask that a module's BALANCE carries now. -/
def Module.wanted (now : Nanos) (x : Module) : BitVec 24 :=
  match x.override_ with
  | some (k, e) => if now < e then k else x.mask
  | none => x.mask

/-- A firmware request is due: the mask has changed, or 1,000 ms have passed; an override is sent by its own
command alone. -/
def Module.balanceDue (now : Nanos) (x : Module) : Bool :=
  (match x.override_ with | some (_, e) => decide (e ≤ now) | none => true) &&
    (x.mask != x.maskSent || (x.mask != 0 && decide (x.sentAt + 1000000000 ≤ now)))

/-- A request ends before the next mark window (09 R283). -/
def State.fits (s : State) (q : Fin 2) (cmd addr : Byte) (n : Nat) : Bool :=
  decide (max s.now (s.chainPort q).busyUntil + exchangeTime cmd addr n ≤ s.markBy - 30000)

/-- The firmware's BALANCE of a module, with its duration of 3,000 ms; one that does not fit waits. -/
def State.sendMask (q : Fin 2) (m : Fin 64) (s : State) : State :=
  let addr := BitVec.ofNat 8 m.val
  let now := s.clk
  if !s.fits q 0x20#8 addr 6 then s
  else
    let p := leBytes 4 (s.module_ m).mask.toNat ++ leBytes 2 3000
    (s.sendRequest q .balance m.val 0x20#8 addr p 0 false none).modModule m (fun x =>
      { x with maskSent := x.mask, sentAt := now, override_ := none })

/-- A CHAIN_BALANCE is sent; one that does not fit waits. -/
def State.sendBalance (q : Fin 2) (r : Req) (s : State) : State :=
  let m := numAt r.payload 0 1
  let addr := BitVec.ofNat 8 m
  if !s.fits q 0x20#8 addr 6 then s
  else
    (s.sendRequest q .balance m 0x20#8 addr (slice r.payload 4 4 ++ slice r.payload 2 2) 0 false (some r)).modChain (fun c =>
      { c with balance := c.balance.erase r })

/-- A CHAIN_NODE_CMD is sent; one that does not fit waits. -/
def State.sendNodeCmd (q : Fin 2) (r : Req) (s : State) : State :=
  let addr := BitVec.ofNat 8 (numAt r.payload 1 1)
  let cmd := BitVec.ofNat 8 (numAt r.payload 2 1)
  let p := r.payload.drop 4
  if !s.fits q cmd addr p.length then s
  else (s.sendRequest q .diagnostic 64 cmd addr p 0 false (some r)).modChain (fun c => { c with node := c.node.erase r })

/-- BALANCE_REQUEST_SEND (09 R283): after the sweep's reads and before the next mark window, the firmware's masks that are due on
port q, the longest unsent first, then CHAIN_BALANCE, then diagnostics. -/
def execBalanceRequestSend (q : Fin 2) (s : State) : Out :=
  if !s.stack.chain.run.up || !s.chainEn q || s.stack.chain.toRead then .next s
  else
    let now := s.clk
    let due := s.sweepModules.filter (fun m => (s.module_ m).run.bound && s.primary m == q && bitAt (s.held (moId m 0)) 1 &&
      (s.module_ m).balanceDue now)
    let ms := due.foldl (fun l m => insertBy (fun k => (s.module_ k).sentAt) m l) []
    let t := ms.foldl (fun t m => t.sendMask q m) s
    let bs := t.stack.chain.balance.filter (fun r => t.primary (Fin.ofNat 64 (numAt r.payload 0 1)) == q)
    let t := bs.foldl (fun t r => t.sendBalance q r) t
    let ds := t.stack.chain.node.filter (fun r => numAt r.payload 0 1 == q.val)
    .next (ds.foldl (fun t r => t.sendNodeCmd q r) t)

/-- A port taken out of use moves the reads it has not begun to the other port (09 R286). -/
def State.moveReads (q : Fin 2) (s : State) : State :=
  let mine := s.stack.chain.outstanding.filter (fun x => x.port == q && x.kind == .sweep && decide (s.now < x.start))
  let s := s.modChain (fun c => { c with outstanding := c.outstanding.filter (fun x => !mine.contains x) })
  let stop := mine.foldl (fun n x => min n x.start) (s.chainPort q).busyUntil
  let s := s.modChainPort q (fun p => { p with busyUntil := stop })
  if !s.chainEn (otherPort q) then s
  else mine.foldl (fun t x =>
    t.sendRequest (otherPort q) .sweep x.module_ x.cmd x.addr x.payload x.tries x.reissued none) s

/-- CHAIN_PORT_STOP (09 R286): a disabled port stops at the end of its frame and reply slot. -/
def execChainPortStop (q : Fin 2) (s : State) : Out :=
  if s.chainEn q then .next s
  else .next ((s.atDevice (s.chainPort q).busyUntil).modChainPort q (fun x => { x with transmitting := false }))

/-! ### The opcodes (09 R288, R289) -/

/-- CHAIN_STATUS. -/
def execChainStatus (r : Req) (s : State) : Out :=
  .next (s.runOp 0x0901 observe (len 0) (fun s =>
    let c := s.stack.chain
    .ok (done (leBytes 4 s.lathStatus ++ leBytes 4 c.ringDelay.toNat ++ leBytes 4 c.lastWord ++ zeros 4 ++
      (c.modules.toList.map (fun m => leBytes 4 m.statusWord)).flatten)) s) r)

/-- CHAIN_ENUMERATE. -/
def execChainEnumerate (r : Req) (s : State) : Out :=
  .next (s.runOp 0x0902 configure (len 0) (fun s =>
    if s.stack.chain.enumerate.isSome then .no stBusy 0x0105
    else if !s.allQuiet then .no stState dtGroupState
    else if s.chainDown then .no stState 0x0101
    else .wait (s.startEnumeration (some r))) r)

/-- CHAIN_MODULE_READ; a sweep not kept answers zeros (DEDUCED, log entry 28). -/
def execChainModuleRead (r : Req) (s : State) : Out :=
  .next (s.runOp 0x0903 observe (len 2) (fun s =>
    match named 64 (numAt r.payload 0 1) with
    | none => .no stValue dtRange
    | some m =>
      let age := numAt r.payload 1 1
      if 3 < age then .no stValue dtRange
      else
        match (s.module_ m).sweeps[age]? with
        | none => .ok (done (zeros 80)) s
        | some e =>
          let d := if e.raw.length = 72 then e.raw else zeros 72
          .ok (done (leBytes 8 e.time.toNat ++ [e.flags] ++ d.drop 1)) s) r)

/-- CHAIN_BALANCE: sent after the reads of a sweep. -/
def execChainBalance (r : Req) (s : State) : Out :=
  .next (s.runOp 0x0904 service (lenZ 8 [(1, 1)]) (fun s =>
    match named 64 (numAt r.payload 0 1) with
    | none => .no stValue dtRange
    | some m =>
      let mask := numAt r.payload 4 4
      let ms := numAt r.payload 2 2
      let w := s.held (moId m 0)
      if s.chainDown then .no stState 0x0101
      else if !(s.module_ m).run.bound then .no stState 0x0103
      else if !bitAt w 1 then .no stState dtGroupState
      else if 2 ^ s.nCell m ≤ mask || decide (bitsOf w 23 16 < (maskList 24 mask).length) || ms < 1 || 10000 < ms then
        .no stValue dtRange
      else .wait (s.modChain (fun c => { c with balance := c.balance ++ [r] }))) r)

/-- CHAIN_NODE_CMD: sent after balancing. -/
def execChainNodeCmd (r : Req) (s : State) : Out :=
  .next (s.runOp 0x0905 service (fun p => if p.length < 4 ∨ 260 < p.length then some dtLength
      else if zeroAt p 3 1 then none else some dtReserved) (fun s =>
    match named 2 (numAt r.payload 0 1) with
    | none => .no stValue dtRange
    | some q =>
      let cmd := numAt r.payload 2 1
      if cmd = 2 ∨ cmd = 3 ∨ cmd = 6 then .no stValue 0x0104
      else if s.chainDown then .no stState 0x0101
      else if !s.chainEn q then .no stState 0x0102
      else .wait (s.modChain (fun c => { c with node := c.node ++ [r] }))) r)

/-- CHAIN_PROBE: completes with the delay measurement. -/
def execChainProbe (r : Req) (s : State) : Out :=
  .next (s.runOp 0x0906 configure (len 0) (fun s =>
    if s.chainDown then .no stState 0x0101
    else .wait (s.modChain (fun c => { c with probing := true, probeWaits := c.probeWaits ++ [r] }))) r)

end Sys2Proof.Machine
end

