-- ==== Sys2Proof/Machine/Float.lean ====
section
/-! DEFINITION. The cell model of the float engines (10 R293 to R302, R310): OCV surface, prediction, correction,
start, anchors and capacity learning. Arithmetic is exact, but for e^x and square roots (log entry 30). -/

namespace Sys2Proof.Machine

/-! ### The OCV surface (10 R296, R297) -/

/-- The curve of an OCV surface at a temperature (0.1 °C) and a hysteresis position: z and V in rising z. -/
def ocvCurve (b : List Byte) (t h : Rat) : List (Rat × Rat) :=
  let nz := numAt b 0 1
  let nt := numAt b 1 1
  let at_ (br i : Nat) : Rat := polyline t ((List.range nt).map (fun j =>
    ((intAt b (4 + 2 * nz + 2 * j) 2 : Rat),
      (numAt b (4 + 2 * nz + 2 * nt + 2 * (br * nt * nz + j * nz + i)) 2 : Rat) / 10000)))
  (List.range nz).map (fun i =>
    ((numAt b (4 + 2 * i) 2 : Rat) / 10000,
      if bitAt (numAt b 2 1) 0 then (1 + h) / 2 * at_ 1 i + (1 - h) / 2 * at_ 0 i else at_ 0 i))

/-- Value and slope of the segment that holds x; a point between two belongs to the upper, the top to the last. -/
def segmentAt (x : Rat) : List (Rat × Rat) → Rat × Rat
  | (x0, y0) :: (x1, y1) :: rest =>
    if rest.isEmpty || decide (x < x1) then
      let k := (y1 - y0) / (x1 - x0)
      (y0 + k * (x - x0), k)
    else segmentAt x ((x1, y1) :: rest)
  | _ => (0, 0)

/-- ocv_lookup of 10 R297. -/
def ocvLookup (b : List Byte) (z t h : Rat) : Rat × Rat :=
  if z < 0 ∨ 1 < z then (Config.openOcv z t h, Config.openSlope z t h) else segmentAt z (ocvCurve b t h)

/-- Some segment of the curve is level at v. -/
def levelAt (v : Rat) : List (Rat × Rat) → Bool
  | (_, y0) :: (x1, y1) :: rest => (y0 == v && y1 == v) || levelAt v ((x1, y1) :: rest)
  | _ => false

/-- The z of a rising curve that has the value v, where one has. -/
def curveZ (v : Rat) : List (Rat × Rat) → Option Rat
  | (x0, y0) :: (x1, y1) :: rest =>
    if v < y0 then none
    else if v < y1 then some (x0 + (v - y0) * (x1 - x0) / (y1 - y0))
    else if v = y1 then some x1
    else curveZ v ((x1, y1) :: rest)
  | _ => none

/-- Inversion of a voltage at t and h (10 R300, R301): z, and the slope there. -/
def ocvInvert (b : List Byte) (v t h : Rat) : Rat × Rat :=
  let c := ocvCurve b t h
  if levelAt v c then (Config.openInverse v t h, 0)
  else match curveZ v c with
    | some z => (z, (segmentAt z c).2)
    | none =>
      let z := Config.openInverse v t h
      (z, (segmentAt (clampQ 0 1 z) c).2)

/-! ### One cell -/

/-- What an update gives each cell of a module. -/
structure FloatIn where
  dt : Rat
  /-- dq_str, C; ticks that added nothing; C_s, A. -/
  dq : Rat
  gaps : Nat
  cs : Rat
  /-- The window is valid (10 R294). -/
  valid : Bool
  blind : Bool
  ocv : List Byte
  temp : Rat
  /-- Parameters 0x1205 to 0x120B, EST_SLOPE_MIN in V per unit of z, EST_HYST_Z, EST_M_QNOM in Ah. -/
  noiseZ : Rat
  noiseVp : Rat
  noiseR : Rat
  noiseV : Rat
  rohm : Rat
  rpol : Rat
  tau : Rat
  slope : Rat
  hyst : Rat
  qNom : Rat
  /-- Elapsed and device time. -/
  clk : Nanos
  now : Nat
  /-- The string rests long enough, since when, and learning is permitted. -/
  rested : Bool
  restSince : Nanos
  learn : Bool
  deriving DecidableEq, Repr

/-- The initial covariance, for the slope at z (10 R300). -/
def FloatIn.cov0 (f : FloatIn) (slope : Rat) : Cov :=
  let sz : Rat := if f.slope ≤ slope then 1 / 50 else 1 / 10
  { zz := sz * sz, zv := 0, zr := 0, vv := 1 / 1000000, vr := 0, rr := f.rohm * f.rohm }

/-- A cell with no learned record (10 R300), before its first valid window. -/
def FloatIn.fresh (f : FloatIn) : Cell :=
  { Cell.initial with q := f.qNom, r := f.rohm, rPol := f.rpol, tau := f.tau }

/-- The first values: z from the discharge branch. -/
def FloatIn.first (f : FloatIn) (v : Rat) : Cell :=
  let (z, k) := ocvInvert f.ocv v f.temp (-1)
  { f.fresh with started := true, z := z, cov := f.cov0 k }

/-- Prediction (10 R293), with the wider variance of missing ticks (R295). -/
def FloatIn.predict (f : FloatIn) (dq : Rat) (x : Cell) : Cell :=
  let a := expQ (-(divQ f.dt x.tau))
  let i := dq / f.dt
  let dz := divQ dq (3600 * x.q)
  let p := x.cov
  let zz := p.zz + f.noiseZ
  let zz := if f.gaps = 0 then zz
    else
      let e := sqrtQ zz + divQ ((f.gaps : Rat) * f.cs / 1000) (3600 * x.q)
      e * e
  { x with
    z := x.z - dz, vp := a * x.vp + x.rPol * (1 - a) * i, h := clampQ (-1) 1 (x.h - dz * 10000 / f.hyst)
    cov := { zz := zz, zv := a * p.zv, zr := p.zr, vv := a * a * p.vv + f.noiseVp, vr := a * p.vr, rr := p.rr + f.noiseR }
    counted := x.counted + dq, cut := x.cut || f.gaps != 0 || f.blind }

/-- Correction by the window's mean voltage (10 R293), counting good and bad innovations (R302). -/
def FloatIn.correct (f : FloatIn) (dq v : Rat) (x : Cell) : Cell :=
  let i := dq / f.dt
  let (o, k) := ocvLookup f.ocv x.z f.temp x.h
  let p := x.cov
  let b0 := p.zz * k - p.zv - p.zr * i
  let b1 := p.zv * k - p.vv - p.vr * i
  let b2 := p.zr * k - p.vr - p.rr * i
  let sig := k * b0 - b1 - i * b2 + f.noiseV
  let nu := v - (o - x.vp - x.r * i)
  let g (b : Rat) : Rat := divQ b sig
  let bad := decide (25 < divQ (nu * nu) sig)
  { x with
    z := clampQ 0 1 (x.z + g b0 * nu), vp := x.vp + g b1 * nu, r := max 0 (x.r + g b2 * nu)
    cov := { zz := p.zz - g b0 * b0, zv := p.zv - g b0 * b1, zr := p.zr - g b0 * b2
             vv := p.vv - g b1 * b1, vr := p.vr - g b1 * b2, rr := p.rr - g b2 * b2 }
    badRun := if bad then x.badRun + 1 else 0, goodRun := if bad then 0 else x.goodRun + 1 }

/-- The cell's last anchor lies in the rest that began then. -/
def Cell.anchoredSince (x : Cell) (t : Nanos) : Bool :=
  match x.anchoredAt with
  | some a => decide (t ≤ a)
  | none => false

/-- The cell has not been bled since then. -/
def Cell.unbledSince (x : Cell) (t : Nanos) : Bool :=
  match x.bledAt with
  | some a => decide (a < t)
  | none => true

/-- 30 days, ns. -/
def days30 : Nat := 2592000000000000

/-- Capacity learning from the anchor held and a new one (10 R310): accepted, rejected, or none. -/
def FloatIn.learnCap (f : FloatIn) (z : Rat) (x : Cell) : Cell × Option Bool :=
  match x.anchor with
  | none => (x, none)
  | some a =>
    let dz := absQ (z - a.z)
    if !f.learn || x.cut || decide (dz < 1 / 5) || decide (a.time + (days30 : Int) < (f.now : Int)) then (x, none)
    else
      let m := (x.counted - a.counted) / (a.z - z) / 3600
      if absQ (m - x.q) ≤ x.q / 10 then
        ({ x with q := x.q + 1 / 2 * min dz (1 / 2) * (m - x.q), learned := true }, some true)
      else (x, some false)

/-- An anchor where all of 10 R301 holds: the cell, whether it was taken, and what was learned. -/
def FloatIn.anchorCell (f : FloatIn) (v : Rat) (x : Cell) : Cell × Bool × Option Bool :=
  let (z, k) := ocvInvert f.ocv v f.temp x.h
  if !f.rested || x.anchoredSince f.restSince || !x.unbledSince f.restSince || decide (k < f.slope) then (x, false, none)
  else
    let (x, l) := f.learnCap z x
    ({ x with
      z := z, vp := 0, cov := { x.cov with zz := divQ f.noiseV (k * k), zv := 0, zr := 0 }, cut := false
      anchor := some { z := z, counted := x.counted, time := f.now }, anchoredAt := some f.clk }, true, l)

/-- One cell's update. `v` is its mean voltage where it has one, `bleed` its bleed charge in C, `bled` that its
bleed was on. Answers the cell, its values after the prediction, and the anchor's outcome. -/
def FloatIn.cell (f : FloatIn) (v : Option Rat) (bleed : Rat) (bled : Bool) (x : Cell) : Cell × Cell × Bool × Option Bool :=
  let x := if bled then { x with bledAt := some f.clk } else x
  if !x.started then
    let y := match v with
      | some u => if f.valid then f.first u else f.fresh
      | none => f.fresh
    let y := { y with bledAt := x.bledAt }
    (y, y, false, none)
  else
    let x := match x.fit with
      | some (r, t) => { x with rPol := r, tau := t, fit := none }
      | none => x
    let dq := f.dq + bleed
    let y := f.predict dq x
    match v with
    | some u => if f.valid then let (w, a, l) := f.anchorCell u (f.correct dq u y); (w, y, a, l) else (y, y, false, none)
    | none => (y, y, false, none)

end Sys2Proof.Machine
end

