-- ==== Sys2Proof/Machine/Est.lean ====
section
/-! DEFINITION. Estimation (10 R292 to R320): module and string values, feathering, balancing decisions, learned
records, the sampling rates, and the estimation opcodes. -/

namespace Sys2Proof.Machine

/-! ### Names -/

/-- The parameters of estimation take effect at the next update of the engine concerned (10 R317). -/
def State.pickEst (m : Fin 64) (s : State) : State :=
  ([0x1000 + 8 * m.val, 0x1001 + 8 * m.val] ++ (List.range 19).map (0x1200 + ·)).foldl (fun t id => t.pickParam id) s

/-- EST_M_CFG of a position, as its engine holds it. -/
def State.estCfg (s : State) (m : Fin 64) : Nat := s.held (0x1000 + 8 * m.val)

/-- EST_M_QNOM of a position, Ah. -/
def State.mQNom (s : State) (m : Fin 64) : Rat := (s.held (0x1001 + 8 * m.val) : Rat) / 100

/-- The string port that the node map gives a module. -/
def State.portOfModule (s : State) (m : Fin 64) : Option (Fin 4) :=
  match s.stack.chain.map.find? (fun e => e.module_ == m.val) with
  | some e => named 4 e.port
  | none => none

/-- The OCV surface of a module (10 R299). -/
def State.ocvTable (s : State) (m : Fin 64) : Option (List Byte) := s.tableBody 3 (bitsOf (s.estCfg m) 7 4)

/-- The capacity table of a module. -/
def State.capTable (s : State) (m : Fin 64) : Option (List Byte) := s.tableBody 4 (bitsOf (s.estCfg m) 11 8)

/-- The engine of a module runs with its tables present. -/
def State.estRuns (s : State) (m : Fin 64) : Bool :=
  s.estOn m && s.moduleEn m && (s.portOfModule m).isSome && (s.ocvTable m).isSome && (s.capTable m).isSome

/-- dt_u, ns (10 R292, R315, R316). -/
def State.updateStep (s : State) : Nat :=
  match s.stack.est.rate with
  | .full => 100000000
  | .reduced => 1000000000
  | .hibernate => 10000000000

/-- The first NCELL cells. -/
def ModuleEst.used (n : Nat) (x : ModuleEst) : List Cell := x.cells.toList.take n

/-- qdis of a cell, Ah. -/
def Cell.qDis (x : Cell) : Rat := x.z * x.q
/-- qchg of a cell, Ah. -/
def Cell.qChg (x : Cell) : Rat := (1 - x.z) * x.q

/-- The least of a list, 0 of none. -/
def leastQ : List Rat → Rat
  | [] => 0
  | x :: xs => xs.foldl min x

/-- The place of the least, the first one. -/
def leastAt (xs : List Rat) : Nat := xs.idxOf (leastQ xs)

/-- soc in 0.01% (10 R303). -/
def socOf (d c : Rat) : Rat := divQ d (d + c) * 10000

/-! ### Learned records (10 R311 to R313) -/

/-- FLAGS of a cell (10 Table 10-3). -/
def Cell.flags (x : Cell) : Nat := flag x.anchor.isSome + 2 * flag x.learned + 4 * flag x.diverged

/-- The 20 bytes of a cell in EST_MODULE. -/
def Cell.record (now : Nat) (x : Cell) : List Byte :=
  let u (v : Rat) : List Byte := leBytes 2 (fitU 16 (roundQ v))
  let (az, age, aq) := match x.anchor with
    | some a => (a.z, (((now : Int) - a.time) / 3600000000000).toNat, (x.counted - a.counted) * 5 / 18)
    | none => (0, 0, 0)
  u (x.z * 10000) ++ u (x.q * 100) ++ u (x.r * 1000000) ++ u (x.rPol * 1000000) ++ u (x.tau * 10) ++
    leBytes 1 (fitS 8 (roundQ (x.h * 127))) ++ leBytes 1 x.flags ++ u (az * 10000) ++ leBytes 2 (min age 65535) ++
    leBytes 4 (fitS 32 (roundQ aq))

/-- EST_MODULE of a position (10 Table 10-3). -/
def State.moduleRecord (s : State) (m : Fin 64) : List Byte :=
  let n := s.nCell m
  leBytes 1 m.val ++ leBytes 1 n ++ zeros 2 ++ leBytes 8 s.now ++ leBytes 8 (s.module_ m).uid.toNat ++
    (((s.mest m).used n).map (Cell.record s.now)).flatten

/-- soh_q of a string in 0.01% (10 R303). -/
def State.sohQ (s : State) (p : Fin 4) : Rat :=
  let e := s.sest p
  divQ (e.qDis + e.qChg) (s.qNom p) * 10000

/-- EST_STRING (10 Table 10-4). -/
def State.stringRecord (s : State) : List Byte :=
  zeros 4 ++ leBytes 8 s.now ++
    ((List.finRange 4).map (fun p =>
      let e := s.sest p
      leBytes 2 (match e.r with | some r => fitU 16 (roundQ r) | none => 0xFFFF) ++
        leBytes 2 (if e.x.isSome then fitU 16 (roundQ (s.sohQ p)) else 0) ++ leBytes 2 e.rejects.toNat ++ leBytes 2 (flag e.eol))).flatten ++
    zeros 4

/-- The record of a module goes to the journal. -/
def State.journalModule (m : Fin 64) (s : State) : State :=
  (s.store 0x30 m.val (s.moduleRecord m)).modMest m (fun x => { x with changed := false })

/-- Records of the modules that a test selects, and the string record. -/
def State.journalEst (sel : Fin 64 → Bool) (s : State) : State :=
  let s := ((List.finRange 64).filter sel).foldl (fun t m => t.journalModule m) s
  s.store 0x31 0 s.stringRecord

/-- The counters of the journal (03 R86, 08 R247, 14 R401). -/
def State.journalCounters (s : State) : State :=
  let s := s.store 0x10 0 ((List.finRange 4).map s.ccItem).flatten
  let s := s.store 0x12 0 ((List.finRange 64).map (fun p => (s.phase p).counterItem p)).flatten
  s.store 0x13 0 (leBytes 4 s.sys.wd.cntResets.toNat ++ leBytes 4 s.clock.th.cntTrips.toNat ++ leBytes 4 s.clock.th.hoursHot.toNat)

/-- The newest record of a type and key: one that waits, else one in MRAM. -/
def State.lastRecordOf (s : State) (type : Byte) (key : Nat) : Option (List Byte) :=
  let k := BitVec.ofNat 16 key
  match (s.nv.nvm.waiting.reverse.find? (fun w => w.type == type && w.key == k)) with
  | some w => some w.payload
  | none => (s.nv.nvm.records.reverse.find? (fun w => w.type == type && w.key == k)).map (·.payload)

/-- Every cell of a module back at the initial values of 10 R300. -/
def State.startCells (m : Fin 64) (s : State) : State :=
  let c : Cell := { Cell.initial with
    q := s.mQNom m, r := s.heldQ 0x1209, rPol := s.heldQ 0x120A, tau := s.heldQ 0x120B }
  s.modMest m (fun x => { x with cells := Vector.replicate 24 c, diverged := false, gap := false, x := none, r := none, valid := false })

/-- 10 R313: the last record into the event log, the initial values, a new record. -/
def State.relearn (m : Fin 64) (s : State) : State :=
  let s := match s.lastRecordOf 0x30#8 m.val with
    | some b => s.store 0x24 m.val b
    | none => s
  (s.startCells m).journalModule m

/-- An audit record with the request and the replaced values, whose layout the spec does not give. -/
def State.auditReplaced (r : Req) (opcode : Nat) (s : State) : State :=
  let b := s.freeBytes 44
  ({ s with freeCtr := s.freeCtr + 1 } : State).audit r.owner.val stDone opcode r.tag.toNat r.seq.toNat (r.payload ++ b.drop r.payload.length)

/-! ### The update of a module (10 R292 to R302) -/

/-- The sweeps of the window up to an instant. -/
def ModuleEst.taken (t : Nat) (x : ModuleEst) : List SweepItem := x.window.filter (fun e => decide (e.time.toNat ≤ t))

/-- Mean of a list, none of none. -/
def meanQ (xs : List Rat) : Option Rat := if xs.isEmpty then none else some (xs.sum / (xs.length : Nat))

/-- T of the window, 0.1 °C. -/
def State.windowTemp (s : State) (m : Fin 64) (ws : List SweepItem) : Option Rat :=
  meanQ ((ws.map (fun e =>
    if e.data.length < 72 then []
    else (((List.range 8).filter (bitAt (s.tMask m))).map (tempRaw e.data)).filter (fun v => !brokenTemp v && v != -32768))).flatten.map
    (fun (v : Int) => (v : Rat)))

/-- The string rests for EST_REST_S, or through the known outage, and since when (10 R301). -/
def State.rested (s : State) (p : Fin 4) : Bool × Nanos :=
  let e := s.sest p
  match e.restSince with
  | some t => (e.outageRest || decide (t + s.held 0x120C * 1000000000 ≤ s.clk), t)
  | none => (false, s.clk)

/-- What the present update gives the cells of a module. -/
def State.floatIn (s : State) (m : Fin 64) (p : Fin 4) (valid : Bool) (temp : Rat) : FloatIn :=
  let x := s.mest m
  { dt := (s.updateStep : Rat) / 1000000000, dq := (x.dq : Rat) / 1000000, gaps := x.gaps, cs := s.portCap p
    valid := valid, blind := (s.module_ m).run.lost, ocv := (s.ocvTable m).getD [], temp := temp
    noiseZ := s.heldQ 0x1205, noiseVp := s.heldQ 0x1206, noiseR := s.heldQ 0x1207, noiseV := s.heldQ 0x1208
    rohm := s.heldQ 0x1209, rpol := s.heldQ 0x120A, tau := s.heldQ 0x120B
    slope := (s.held 0x120E : Rat) / 1000, hyst := s.held 0x120F, qNom := s.mQNom m
    clk := s.clk, now := s.now, rested := (s.rested p).1, restSince := (s.rested p).2, learn := bitAt (s.estCfg m) 1 }

/-- IBLEED over one sweep, C (10 R309). -/
def State.bleedUnit (s : State) : Rat :=
  (bitsOf (s.held 0x1210) 31 24 : Rat) / 100 *
    (((s.param 0x0D01 : Int) - s.held 0x0D02 - s.held 0x0D0C : Int) : Rat) / 1000000

/-- Mean voltage of a cell in the window, V, and the sweeps in which it was bled. -/
def cellWindow (ws : List SweepItem) (c : Nat) : Option Rat × Nat :=
  (meanQ ((ws.filterMap (fun e => cellRaw e.data c)).map (fun (v : Nat) => (v : Rat) / 10000)),
    (ws.filter (fun e => decide (72 ≤ e.data.length) && bitAt (numAt e.data 68 3) c)).length)

/-- Values of a module from its cells: VALID, the extremes, x. -/
def ModuleEst.sums (n : Nat) (pred : List Cell) (x : ModuleEst) : ModuleEst :=
  let cs := x.used n
  let ds := cs.map Cell.qDis
  let qs := cs.map Cell.qChg
  let ok := cs.all (fun c => c.started)
  { x with
    valid := ok, weakest := leastAt ds, fullest := leastAt qs, qDis := leastQ ds, qChg := leastQ qs
    qDisP := leastQ (pred.map Cell.qDis), qChgP := leastQ (pred.map Cell.qChg)
    x := if ok then some (socOf (leastQ ds) (leastQ qs)) else none }

/-- Feathering (10 R306): the reported value after an update. `xp` is x after the prediction, `x0` x before. -/
def feather (lim : Rat) (iStr restI : Int) (hold jump : Bool) (x xp : Rat) (x0 r : Option Rat) : Rat :=
  match r with
  | none => x
  | some r =>
    if jump then x
    else
      let r := match x0 with
        | some w => r + (xp - w)
        | none => r
      let d := x - r
      let d := if restI ≤ iStr.natAbs then (if 0 < iStr then min d 0 else max d 0) else d
      clampQ 0 10000 (if hold then r else r + clampQ (-lim) lim d)

/-- The reserve edge is reached in the direction of the current (10 R306). -/
def State.atEdge (s : State) (p : Fin 4) : Bool :=
  let (c, d) := s.reserve p
  let i := s.iStr p
  (decide (0 < i) && d == 0) || (decide (i < 0) && c == 0)

/-- EST_SET_SOC on one cell (10 R319). -/
def FloatIn.setSoc (f : FloatIn) (z : Rat) (x : Cell) : Cell :=
  let y := if x.started then x else { f.fresh with started := true, cov := f.cov0 0 }
  { y with z := z, h := 0, vp := 0, cov := { y.cov with zz := 1 / 2500 } }

/-- The EST_SET_SOCs that name a module take effect; the last module of one completes it. -/
def State.takeSets (m : Fin 64) (f : FloatIn) (s : State) : State :=
  let mine := s.stack.est.sets.filter (fun e => e.left.contains m.val)
  let s := mine.foldl (fun t e =>
    let z : Rat := (numAt e.req.payload 2 2 : Rat) / 10000
    let t := t.modMest m (fun x => { x with cells := x.cells.map (f.setSoc z), jump := true, changed := true })
    if numAt e.req.payload 0 1 = 1 then
      match named 4 (numAt e.req.payload 1 1) with
      | some p => t.modSest p (fun y => { y with jump := true })
      | none => t
    else t) s
  let s := s.modEst (fun e => { e with
    sets := (e.sets.map (fun (y : SetSoc) => { y with left := y.left.filter (· != m.val) })).filter (fun y => !y.left.isEmpty) })
  (mine.filter (fun e => e.left == [m.val])).foldl (fun t e => (t.auditReplaced e.req 0x0A04).complete e.req 0x0A04 done) s

/-- What the anchors of an update report (10 R301, R310): IS169 once per rest, IS170 for each learning, rejections
counted, a record after an accepted one. -/
def State.anchorReports (m : Fin 64) (p : Fin 4) (outs : List (Bool × Option Bool)) (s : State) : State :=
  let any := outs.any (·.1)
  let s := if any then s.modMest m (fun x => { x with gap := false }) else s
  let s := if any && !(s.sest p).anchoredRaised then (s.modSest p (fun e => { e with anchoredRaised := true })).raise 169 else s
  let s := outs.foldl (fun t o =>
    match o.2 with
    | some ok => (if ok then t else t.modSest p (fun e => { e with rejects := satInc e.rejects })).raise 170
    | none => t) s
  if outs.any (fun o => o.2 == some true) then s.journalModule m else s

/-- The engine of a module updates (10 R292 to R302). -/
def State.updateModule (m : Fin 64) (p : Fin 4) (s : State) : State :=
  let n := s.nCell m
  let x := s.mest m
  let ws := x.taken s.now
  let lost := (s.module_ m).run.lost
  let temp := s.windowTemp m ws
  let got := (ws.filter (fun e => !e.data.isEmpty)).length
  let valid := temp.isSome && !lost && !ws.isEmpty && decide (ws.length ≤ 2 * got)
  let f := s.floatIn m p valid (temp.getD x.temp)
  let unit := s.bleedUnit
  let res := (List.finRange 24).map (fun c =>
    let (v, b) := cellWindow ws c.val
    f.cell v (unit * (b : Nat)) (b != 0) x.cells[c.val])
  let clk := s.clk
  let s := s.modMest m (fun y =>
    let y := { y with
      cells := Vector.ofFn (fun c => ((res[c.val]?).map (fun e => e.1)).getD y.cells[c.val])
      predictOnly := !valid, blind := lost, gap := y.gap || f.gaps != 0, temp := f.temp
      tempAt := if temp.isSome then clk else y.tempAt, tempStale := y.tempStale && temp.isNone, changed := true }
    y)
  let s := s.takeSets m f
  let s := s.modMest m (ModuleEst.sums n ((res.take n).map (fun e => e.2.1)))
  s.anchorReports m p ((res.take n).map (fun e => e.2.2))

/-- The reported value of a module moves (10 R306). -/
def State.featherModule (m : Fin 64) (p : Fin 4) (x0 : Option Rat) (s : State) : State :=
  let y := s.mest m
  match y.x with
  | none => s
  | some x =>
    let lim : Rat := (s.held 0x1203 : Rat) * s.updateStep / 60000000000
    let r := feather lim (s.iStr p) (s.held 0x120D) (s.stack.est.rate == .hibernate) (y.jump || s.atEdge p) x
      (socOf y.qDisP y.qChgP) x0 y.r
    s.modMest m (fun z => { z with r := some r, jump := false })

/-- CAP of a capacity table at a rate (0.01 C) and a temperature (0.1 °C), 0.01% (10 R298). -/
def capAt (b : List Byte) (rate t : Rat) : Rat :=
  let nr := numAt b 0 1
  let nt := numAt b 1 1
  polyline t ((List.range nt).map (fun j =>
    ((intAt b (4 + 2 * nr + 2 * j) 2 : Rat),
      polyline rate ((List.range nr).map (fun i =>
        ((numAt b (4 + 2 * i) 2 : Rat), (numAt b (4 + 2 * nr + 2 * nt + 2 * (j * nr + i)) 2 : Rat)))))))

/-- EST_STR_AVAIL of a string, Ah (10 R305). -/
def State.availOf (s : State) (p : Fin 4) : Rat :=
  let q := s.qNom p
  let e := s.sest p
  match (s.readModules p).find? (fun m => (s.mest m).qDis == e.qDis) with
  | none => 0
  | some m =>
    let rate := if s.iStr p < 0 then 0 else divQ (s.meanAmps p) q
    max 0 (e.qDis * capAt ((s.capTable m).getD []) rate (s.mest m).temp / 10000 - (s.held 0x1201 : Rat) / 10000 * q)

/-- A string's values, once all its modules are updated (10 R303 to R306, R314). -/
def State.updateString (p : Fin 4) (s : State) : State :=
  let ms := s.readModules p
  let es := ms.map s.mest
  if ms.isEmpty || es.any (fun e => !e.valid) then s.modSest p (fun y => { y with x := none, dq := 0, eolSince := none })
  else
    let x0 := (s.sest p).x
    let d := leastQ (es.map (fun e => e.qDis))
    let c := leastQ (es.map (fun e => e.qChg))
    let xp := socOf (leastQ (es.map (fun e => e.qDisP))) (leastQ (es.map (fun e => e.qChgP)))
    let x := socOf d c
    let s := s.modSest p (fun y => { y with qDis := d, qChg := c, x := some x, dq := 0 })
    let lim : Rat := (s.held 0x1203 : Rat) * s.updateStep / 60000000000
    let edge := s.atEdge p
    let low := decide (s.sohQ p < (s.held 0x1212 : Rat))
    let now := s.clk
    let av := s.availOf p
    let i := s.iStr p
    let restI := s.held 0x120D
    let hold := s.stack.est.rate == .hibernate
    s.modSest p (fun y =>
      { y with
        r := some (feather lim i restI hold (y.jump || edge) x xp x0 y.r), jump := false, avail := av
        eolSince := if low then y.eolSince.or (some now) else none })

/-- A module that is not estimated takes what is set for it and has no value. -/
def State.floatOff (m : Fin 64) (s : State) : State :=
  (s.takeSets m (s.floatIn m ((s.portOfModule m).getD 0) false (s.mest m).temp)).modMest m
    (fun x => { x with valid := false, x := none })

/-- The engine of a module at its update instant; `x0` is x before it. -/
def State.floatModule (m : Fin 64) (x0 : Option Rat) (s : State) : State :=
  match s.portOfModule m with
  | some p => if s.estRuns m then (s.updateModule m p).featherModule m p x0 else s.floatOff m
  | none => s.floatOff m

/-- The string's engine, when the last of its modules has been updated at `t`. -/
def State.floatString (m : Fin 64) (t : Nat) (s : State) : State :=
  match s.portOfModule m with
  | none => s
  | some p => if (s.readModules p).all (fun k => decide (t ≤ (s.mest k).updatedAt)) then s.updateString p else s

/-- FLOAT_UPDATE (10 R293): the engine of module m at its next update instant, a whole multiple of dt_u of device
time; the string follows with the last of its modules. Tables committed anew are in force from that instant for every
engine (R299). -/
def execFloatUpdate (m : Fin 64) (s : State) : Out :=
  if !s.engineOn then .next s
  else
    let t := multipleFrom s.updateStep ((s.mest m).updatedAt + 1)
    let u := (((s.atDevice t).pickEst m).applyFloat.takeType 3 16).takeType 4 16
    let u := u.floatModule m (u.mest m).x
    let now := u.now
    let u := u.modMest m (fun x => { x with
      updatedAt := max t x.updatedAt, window := x.window.filter (fun e => decide (now < e.time.toNat)), dq := 0, gaps := 0 })
    .next (u.floatString m t)

/-- CELL_DIVERGED (10 R302): a cell whose innovation was too large at 50 valid updates in a row, or a module all of
whose cells fitted 600 times in a row. -/
def execCellDiverged (m : Fin 64) (c : Fin 24) (s : State) : Out :=
  let x := s.mest m
  let y := x.cells[c.val]
  let n := s.nCell m
  if !s.engineOn then .next s
  else if decide (50 ≤ y.badRun) then
    let f := s.floatIn m ((s.portOfModule m).getD 0) false x.temp
    let k := (ocvLookup f.ocv y.z f.temp y.h).2
    .next ((s.modMest m (fun x => { x with
      diverged := true, cells := vmod x.cells c (fun z => { z with badRun := 0, diverged := true, cov := f.cov0 k }) })).raise 172)
  else if x.diverged && (x.used n).all (fun z => decide (600 ≤ z.goodRun)) then
    .next (s.modMest m (fun x => { x with diverged := false, cells := x.cells.map (fun z => { z with diverged := false }) }))
  else .next s

/-- TEMP_STALE (10 R294): 60 s without a defined T. -/
def execTempStale (m : Fin 64) (s : State) : Out :=
  let x := s.mest m
  if !s.engineOn || !s.estRuns m || !x.predictOnly || x.tempStale then .next s
  else .next ((s.atLeast (x.tempAt + 60000000000)).modMest m (fun y => { y with tempStale := true }))

/-! ### Balancing decisions (10 R308) -/

/-- e_c of each cell of a module, Ah, for the extremes over its string. -/
def State.excess (s : State) (mode : Nat) (m : Fin 64) (p : Fin 4) : List Rat :=
  let all := ((s.readModules p).map (fun k => (s.mest k).used (s.nCell k))).flatten
  let top := (all.map Cell.qChg).foldl max (leastQ (all.map Cell.qChg))
  let low := leastQ (all.map Cell.qDis)
  ((s.mest m).used (s.nCell m)).map (fun c => if mode = 1 then top - c.qChg else c.qDis - low)

/-- A module of which no cell may be bled. -/
def State.bleedBarred (s : State) (m : Fin 64) (p : Fin 4) : Bool :=
  let ts := (s.moduleTemps m).map (fun e => s.tempOf e.2)
  let hi := signedOf 16 (bitsOf (s.held (stId p 2)) 31 16)
  (s.module_ m).run != .ok || !(s.mest m).valid || (s.mest m).diverged || s.stack.est.rate == .hibernate ||
    ts.any (fun v => decide (hi ≤ v))

/-- The n entries of a list with the largest key, lower place first among equals. -/
def pickTop : Nat → List (Nat × Rat) → List Nat
  | 0, _ => []
  | n + 1, xs =>
    match xs with
    | [] => []
    | x :: rest =>
      let best := rest.foldl (fun b y => if b.2 < y.2 then y else b) x
      best.1 :: pickTop n (xs.filter (fun y => y.1 != best.1))

/-- The bleed mask that the firmware chooses for a module (10 R308). -/
def State.chooseMask (s : State) (m : Fin 64) (p : Fin 4) : BitVec 24 :=
  let b := s.held 0x1210
  let mode := bitsOf b 1 0
  let cfg := s.held (moId m 0)
  if mode = 0 || !bitAt cfg 1 || s.bleedBarred m p then 0
  else
    let floorV := 10 * (s.held (stId p 6) + 300)
    let d := s.moduleData m
    let now := (s.module_ m).mask
    let cands := ((List.range (s.nCell m)).zip (s.excess mode m p)).filter (fun e =>
      (decide ((bitsOf b 15 8 : Rat) / 10 < e.2) || (now.getLsbD e.1 && decide ((bitsOf b 23 16 : Rat) / 10 < e.2))) &&
        (match cellRaw d e.1 with | some v => decide (floorV ≤ v) | none => false))
    (pickTop (bitsOf cfg 23 16) cands).foldl (fun k c => k ||| (1#24 <<< c)) 0

/-- BALANCING_DECISION: once a second. -/
def execBalancingDecision (s : State) : Out :=
  if !s.firmwareOn then .next s
  else
    let t := s.atLeast (s.stack.est.lastBalance + 1000000000)
    let now := t.clk
    let t := (List.finRange 64).foldl (fun u m =>
      match t.portOfModule m with
      | some p => let k := t.chooseMask m p; u.modModule m (fun x => { x with mask := k })
      | none => u) t
    .next (t.modEst (fun e => { e with lastBalance := now }))

/-! ### Intervals and rates (10 R312 to R316) -/

/-- LEARNING_INTERVAL (10 R312): EST_LEARN_S has passed, four times it while the MRAM is DEGRADED (19 R506). -/
def execLearningInterval (s : State) : Out :=
  if !s.firmwareOn then .next s
  else
    let k := if s.nv.nvm.retired.isEmpty then 1 else 4
    let t := s.atLeast (s.stack.est.lastLearn + k * s.held 0x1204 * 1000000000)
    let t := (t.journalEst (fun m => (t.mest m).changed)).journalCounters
    let now := t.clk
    .next (t.modEst (fun e => { e with lastLearn := now }))

/-- REDUCED_RATE_ENTRY (10 R315). -/
def execReducedRateEntry (s : State) : Out :=
  let w := s.held 0x1211
  match s.stack.est.quietSince with
  | some q =>
    if !s.firmwareOn || s.stack.est.rate != .full || !bitAt w 0 || !s.quiet then .next s
    else
      let t := s.atLeast (q + bitsOf w 15 8 * 1000000000)
      let now := t.clk
      .next ((t.modEst (fun e => { e with rate := .reduced, reducedSince := now, leave := false })).raise 168)
  | none => .next s

/-- FULL_RATE_RESUME (10 R315, R316): an event that ends slow sampling has happened. -/
def execFullRateResume (s : State) : Out := if s.firmwareOn && s.stack.est.leave then .next s.fullRate else .next s

/-- HIBERNATE_ENTRY (10 R316): 15 min in REDUCED with every group in OFF or STANDBY. -/
def execHibernateEntry (s : State) : Out :=
  if !s.firmwareOn || s.stack.est.rate != .reduced || !bitAt (s.held 0x1200) 2 || !s.allQuiet then .next s
  else
    let t := s.atLeast (s.stack.est.reducedSince + 900000000000)
    let now := t.clk
    let t := (t.modEst (fun e => { e with rate := .hibernate, lastRecord := now })).modChain (fun c =>
      { c with modules := c.modules.map (fun m => { m with mask := 0 }) })
    .next ((t.hibernateRecords 0).raise 168)

/-- HIBERNATE_RECORD: every 60 s. -/
def execHibernateRecord (s : State) : Out :=
  if !s.firmwareOn || s.stack.est.rate != .hibernate then .next s
  else
    let t := s.atLeast (s.stack.est.lastRecord + 60000000000)
    let now := t.clk
    .next ((t.modEst (fun e => { e with lastRecord := now })).hibernateRecords 2)

/-- END_OF_LIFE (10 R314): 24 h below EST_SOH_EOL. -/
def execEndOfLife (p : Fin 4) (s : State) : Out :=
  match (s.sest p).eolSince with
  | none => .next s
  | some t0 =>
    if !s.firmwareOn || (s.sest p).eol then .next s
    else
      let t := (s.atLeast (t0 + 86400000000000)).modSest p (fun e => { e with eol := true })
      .next ((t.store 0x31 0 t.stringRecord).raise 171)

/-! ### Status words (10 Tables 10-6, 10-7, 10-9, 10-12) -/

/-- A rational field of 16 bits. -/
def field16 (x : Rat) : Nat := fitU 16 (roundQ x)

/-- EST_M_SOC. -/
def State.mSocWord (s : State) (m : Fin 64) : Nat :=
  let e := s.mest m
  field16 (e.r.getD 0) + fieldAt 16 16 (field16 (e.x.getD 0))

/-- EST_M_SOH: lowest capacity SoH, highest resistance growth. -/
def State.mSohWord (s : State) (m : Fin 64) : Nat :=
  let cs := (s.mest m).used (s.nCell m)
  if cs.isEmpty || cs.any (fun c => !c.started) then 0
  else
    field16 (leastQ (cs.map (fun c => divQ c.q (s.mQNom m) * 10000))) +
      fieldAt 16 16 (field16 ((cs.map (fun c => divQ c.r (s.heldQ 0x1209) * 10000)).foldl max 0))

/-- EST_M_STATUS. -/
def State.mEstWord (s : State) (m : Fin 64) : Nat :=
  let e := s.mest m
  let anch := match s.portOfModule m with
    | some p => (match (s.sest p).restSince with | some t => (e.used (s.nCell m)).any (fun c => c.anchoredSince t) | none => false)
    | none => false
  flag e.valid + fieldAt 1 1 (flag e.predictOnly) + fieldAt 2 1 (flag e.blind) + fieldAt 3 1 (flag e.tempStale) +
    fieldAt 4 1 (flag e.gap) + fieldAt 5 1 (flag e.diverged) + fieldAt 6 1 (flag anch) +
    fieldAt 8 8 (maskList 24 (s.module_ m).bleed.toNat).length + fieldAt 16 5 e.weakest + fieldAt 21 5 e.fullest

/-- EST_STATUS. -/
def State.estWord (s : State) : Nat :=
  let bit (f : Fin 4 → Bool) : Nat := ((List.finRange 4).map (fun p => fieldAt p.val 1 (flag (f p)))).sum
  s.stack.est.rate.code + fieldAt 2 1 (flag (s.nvmHeld && s.learnedWaits)) + fieldAt 4 4 (bit (fun p => (s.sest p).eol)) +
    fieldAt 8 4 (bit (fun p => decide ((s.reserve p).1 < 1))) + fieldAt 12 4 (bit (fun p => decide ((s.reserve p).2 < 1))) +
    fieldAt 16 8 (s.stack.est.modules.toList.filter (fun x => x.diverged)).length

/-- A 16-bit value per port, packed. -/
def perPort (f : Fin 4 → Nat) : Nat := ((List.finRange 4).map (fun p => fieldAt (16 * p.val) 16 (f p))).sum

/-- EST_STR_SOH of a port. -/
def State.sohShown (s : State) (p : Fin 4) : Nat := if (s.sest p).x.isSome then field16 (s.sohQ p) else 0

/-! ### The opcodes (10 R318, R319) -/

/-- EST_STATUS_READ. -/
def execEstStatusRead (r : Req) (s : State) : Out :=
  .next (s.runOp 0x0A01 observe (len 0) (fun s =>
    .ok (done (leBytes 4 s.estWord ++ ((List.finRange 4).map (fun p =>
      let e := s.sest p
      leBytes 2 (s.socShown p) ++ leBytes 2 (match e.x with | some x => field16 x | none => 0xFFFF) ++ leBytes 2 (s.sohShown p) ++
        zeros 2 ++ leBytes 4 (ahField e.qDis) ++ leBytes 4 (ahField e.qChg))).flatten)) s) r)

/-- 16 bytes of a cell in EST_CELL_READ (10 Table 10-13). -/
def Cell.item (x : Cell) : List Byte :=
  leBytes 2 (field16 (x.z * 10000)) ++ leBytes 2 (field16 (sqrtQ x.cov.zz * 10000)) ++ leBytes 2 (field16 (x.q * 100)) ++
    leBytes 2 (field16 (x.r * 1000000)) ++ leBytes 2 (field16 (x.rPol * 1000000)) ++ leBytes 2 (field16 (x.tau * 10)) ++
    leBytes 2 (fitS 16 (roundQ (x.vp * 10000))) ++ leBytes 1 (fitS 8 (roundQ (x.h * 127))) ++ leBytes 1 x.flags

/-- EST_CELL_READ. -/
def execEstCellRead (r : Req) (s : State) : Out :=
  .next (s.runOp 0x0A02 observe (len 1) (fun s =>
    match named 64 (numAt r.payload 0 1) with
    | none => .no stValue dtRange
    | some m =>
      .ok (done (leBytes 4 (s.mEstWord m) ++ leBytes 8 (s.mest m).updatedAt ++ zeros 4 ++
        (((s.mest m).used (s.nCell m)).map Cell.item).flatten)) s) r)

/-- EST_LEARN_NOW: completes when the records are written; PARTIAL while writes are held (10 R312). -/
def execEstLearnNow (r : Req) (s : State) : Out :=
  .next (s.runOp 0x0A03 configure (len 0) (fun s =>
    let t := s.journalEst (fun m => (s.mest m).changed)
    if s.nvmHeld then .ok (partial_ 3 dtNvmDeferred) t
    else .wait (t.modEst (fun e => { e with learnWaits := e.learnWaits ++ [r] }))) r)

/-- The checks of R319 on a module: its detail, none when it passes. -/
def State.estBarred (s : State) (m : Fin 64) : Option Nat :=
  if !bitAt (s.param (0x1000 + 8 * m.val)) 0 then some 0x0102 else if (s.module_ m).run.lost then some 0x0101 else none

/-- EST_SET_SOC: at the next update of every module in scope. -/
def execEstSetSoc (r : Req) (s : State) : Out :=
  .next (s.runOp 0x0A04 service (len 4) (fun s =>
    let scope := numAt r.payload 0 1
    let ix := numAt r.payload 1 1
    let ms := if scope = 0 then (named 64 ix).toList else match named 4 ix with | some p => s.readModules p | none => []
    let ports := if scope = 0 then (ms.filterMap s.portOfModule) else (named 4 ix).toList
    if 1 < scope || (scope = 0 && decide (64 ≤ ix)) || (scope = 1 && decide (4 ≤ ix)) || decide (10000 < numAt r.payload 2 2) then
      .no stValue dtRange
    else if ports.any (fun p => (s.groupsOfPort p).any (fun g => !(s.group g).mode.isQuiet)) then .no stState dtGroupState
    else
      match ms.findSome? s.estBarred with
      | some d => .no stState d
      | none =>
        if ms.isEmpty then .ok done (s.auditReplaced r 0x0A04)
        else .wait (s.modEst (fun e => { e with sets := e.sets ++ [{ req := r, left := ms.map (·.val) }] }))) r)

/-- EST_RELEARN. -/
def execEstRelearn (r : Req) (s : State) : Out :=
  .next (s.runOp 0x0A05 service (len 1) (fun s =>
    match named 64 (numAt r.payload 0 1) with
    | none => .no stValue dtRange
    | some m =>
      match s.estBarred m with
      | some d => .no stState d
      | none => .ok done ((s.relearn m).auditReplaced r 0x0A05)) r)

/-- MODULE_ACCEPT (09 R289): LATH_M_UID takes the bound node's UID, and the module starts anew (10 R313). -/
def execModuleAccept (r : Req) (s : State) : Out :=
  .next (s.runOp 0x0907 service (len 1) (fun s =>
    match named 64 (numAt r.payload 0 1) with
    | none => .no stValue dtRange
    | some m =>
      let x := s.module_ m
      if x.run != .uidMismatch then .no stState 0x0103
      else
        let t := s.setParam (moId m 1) x.uid.toNat
        let ok := decide (t.nCell m ≤ x.nCellMax) && (t.tMask m &&& x.tMaskMax.toNat) == t.tMask m
        let t := ((t.moduleTo m (if ok then .ok else .incompatible)).modModule m (fun y => { y with missRun := 0, goodRun := 0 })).relearn m
        .ok done (t)) r)

end Sys2Proof.Machine
end

