-- ==== Sys2Proof/Machine/TableInstall.lean ====
section
/-! DEFINITION. A committed table becomes the active one (02 R56, R58): which consumers have to take it, and what it
changes in the instant of the commit. -/

namespace Sys2Proof.Machine

/-- Bits of the indices below n that a test selects. -/
def maskOf (n : Nat) (f : Nat → Bool) : Nat := ((List.range n).map (fun i => fieldAt i 1 (flag (f i)))).sum

/-- The consumers that name table TT:II, as bits of `Table.left`. -/
def State.consumers (s : State) (ty ix : Nat) : Nat :=
  match ty with
  | 1 => maskOf 8 (fun g => s.param (0x080E + 32 * g) == ix)
  | 2 => maskOf 8 (fun g => s.param (0x080F + 32 * g) == ix)
  | 8 => maskOf 8 (fun g => bitsOf (s.param 0x1707) (4 * g + 3) (4 * g) == ix)
  | 5 => maskOf 4 (fun p => s.param (0x0901 + 16 * p) == ix) <<< 8
  | 7 => maskOf 2 (fun f => bitsOf (s.param (0x0A00 + 12 * f)) 31 24 == ix) <<< 12
  | 0x0A => fieldAt 15 1 (flag (bitsOf (s.param 0x0B74) 7 0 == ix))
  | 3 => fieldAt 16 1 (flag ((List.range 64).any (fun m => bitsOf (s.param (0x1000 + 8 * m)) 7 4 == ix && bitAt (s.param (0x0C00 + 4 * m)) 0)))
  | 4 => fieldAt 16 1 (flag ((List.range 64).any (fun m => bitsOf (s.param (0x1000 + 8 * m)) 11 8 == ix && bitAt (s.param (0x0C00 + 4 * m)) 0)))
  | 0x0B => flag (ix = 0 && s.conv.groups.toList.any (fun g => g.mode.isSwitching))
  | 0x0C => fieldAt 17 1 (flag (ix = 0))
  | _ => 0

/-- Entry i of a sequencer table (12 Table 12-4). -/
def seqEntryOf (b : List Byte) (i : Nat) : SeqEntry :=
  let o := 24 + 12 * i
  { rail := numAt b o 1, stage := numAt b (o + 1) 1, sleep := bitAt (numAt b (o + 2) 1) 0, critical := bitAt (numAt b (o + 2) 1) 1,
    deps := numAt b (o + 4) 4, riseMs := numAt b (o + 8) 2, delay := numAt b (o + 10) 2 }

/-- A sequencer table from its body (12 Tables 12-3, 12-4). -/
def seqTableOf (b : List Byte) : SeqTable where
  stepEn := bitAt (numAt b 1 1) 0
  retry := numAt b 2 1
  gapUs := numAt b 4 2
  stepTmoMs := numAt b 6 2
  rideMs := numAt b 8 2
  auxBo := numAt b 10 2
  holdChg := numAt b 12 2
  holdMin := numAt b 14 2
  retryWaitMs := numAt b 16 4
  entries := (List.range (numAt b 0 1)).map (seqEntryOf b)

/-- The sequencer store takes table 06:00 of MRAM (12 R354). -/
def State.storeSequencer (s : State) : State :=
  match s.tableBody 6 0 with
  | some b => s.modPower (fun p => { p with seq := { p.seq with store := seqTableOf b, storeBody := b } })
  | none => s

/-- HOLD_READY by HOLD as measured; IS191 on a change (12 R370). -/
def State.holdCheck (s : State) : State :=
  let ok := decide (s.power.seq.table.holdMin ≤ s.power.supply.hold.toNat)
  (s.modPower (fun p => { p with supply := { p.supply with holdReady := ok } })).raiseIf (ok != s.power.supply.holdReady) 191

/-- The values of 06:00 that take effect at the commit, and the SLEEP flags for the next sleep entry (12 R355). -/
def State.seqAtCommit (s : State) : State :=
  match s.tableBody 6 0 with
  | some b =>
    let t := seqTableOf b
    (s.modPower (fun p => { p with seq := { p.seq with table := { p.seq.table with
      rideMs := t.rideMs, auxBo := t.auxBo, holdChg := t.holdChg, holdMin := t.holdMin
      entries := p.seq.table.entries.map (fun e =>
        match t.entries.find? (fun x => x.rail == e.rail) with
        | some x => { e with sleep := x.sleep }
        | none => e) } } })).holdCheck
  | none => s

/-- A table that has passed its commit arrives: its consumers take it one by one, and it is in force when the last of them has
(02 R39, R58). -/
def State.installTable (key : Nat) (t : Table) (s : State) : State :=
  let left := s.consumers (key / 256) (key % 256)
  let n := s.host.tableCount + 1
  let u : Table := { t with left := left, commits := n }
  let s := s.modHost (fun h => { h with arriving := bankPut key u h.arriving, tableCount := n })
  let s := if left = 0 then s.activate key u else s
  if key = 0x0600 then if t.inMram then s.seqAtCommit.storeSequencer else s.seqAtCommit
  else if key = 0x0B00 && left = 0 then
    let b := s.tableBody 0x0B 0
    s.modConv (fun c => { c with limitSet := b })
  else if key = 0x0C00 then s.startEnumeration none
  else s

end Sys2Proof.Machine
end

