-- ==== Sys2Proof/Machine/Purge.lean ====
section
/-! DEFINITION. Commands that will not take effect any more: they leave every place in which they wait (02 R40, Table
2-9). What an engine has already begun for one goes on. -/

namespace Sys2Proof.Machine

/-- Keeps an optional command unless it is named. -/
def keepReq (sel : Req → Bool) (r : Option Req) : Option Req :=
  match r with
  | some q => if sel q then none else some q
  | none => none

/-- A group without the named commands. -/
def Group.forget (sel : Req → Bool) (x : Group) : Group :=
  { x with
    waiting := x.waiting.filter (fun w => !sel w.req), setpoints := x.setpoints.filter (fun w => !sel w.req)
    faultAck := keepReq sel x.faultAck
    pair := { x.pair with
      enable := match x.pair.enable with | some e => (if sel e.1 then none else some e) | none => none
      disable := keepReq sel x.pair.disable, handover := keepReq sel x.pair.handover } }

/-- The chain without the named commands. -/
def ChainState.forget (sel : Req → Bool) (c : ChainState) : ChainState :=
  { c with
    outstanding := c.outstanding.filter (fun x => match x.req with | some q => !sel q | none => true)
    balance := c.balance.filter (fun q => !sel q), node := c.node.filter (fun q => !sel q)
    probeWaits := c.probeWaits.filter (fun q => !sel q)
    enumerate := match c.enumerate with | some e => some (keepReq sel e) | none => none }

/-- The measurement part without the named commands. -/
def MeasureState.forget (sel : Req → Bool) (m : MeasureState) : MeasureState :=
  { m with
    selfCal := keepReq sel m.selfCal, tickWaits := m.tickWaits.filter (fun q => !sel q)
    board := match m.board with | some b => (if sel b.req then none else some b) | none => none }

/-- The record of MRAM for the table in force under a key; a header of zeros where there is none. -/
def State.tableRecord (s : State) (key : Nat) : List Byte :=
  match bankGet? key s.host.tables with
  | some t => t.header.bytes ++ t.body ++ (if t.header.flags.getLsbD 0 then s.freeBytes 16 else [])
  | none => zeros 16

/-- Arriving tables whose commit will not take effect are gone: their consumers return to the table in force at their next point,
and so does MRAM (02 R39). -/
def State.dropArriving (sel : Req → Bool) (s : State) : State :=
  let out := s.host.arriving.filter (fun e => match e.2.waiter with | some q => sel q | none => false)
  out.foldl (fun t e =>
    let t := t.modHost (fun h => { h with arriving := bankDrop e.1 h.arriving })
    let t := if e.2.inMram then t.store 2 e.1 (t.tableRecord e.1)
      else t.modNv (fun k => { k with nvm := { k.nvm with waiting := k.nvm.waiting.filter (fun w => !(w.type == 2 && w.key.toNat == e.1)) } })
    { t with freeCtr := t.freeCtr + 1 }) s

/-- Every place in which a command waits, without the named ones. -/
def State.forget (sel : Req → Bool) (s : State) : State :=
  let s := s.modConv (fun c => { c with
    phases := c.phases.map (fun p => { p with restore := p.restore.filter (fun q => !sel q) })
    groups := c.groups.map (Group.forget sel), schedule := c.schedule.filter (fun x => !sel x.req) })
  let s := s.modBus (fun b => { b with
    feeds := b.feeds.map (fun f => { f with openReq := keepReq sel f.openReq })
    conts := b.conts.map (fun k => { k with waiting := keepReq sel k.waiting }) })
  let s := (s.modChain (ChainState.forget sel)).modMeas (MeasureState.forget sel)
  let s := s.modEst (fun e => { e with
    sets := e.sets.filter (fun x => !sel x.req), learnWaits := e.learnWaits.filter (fun q => !sel q) })
  let s := s.modChg (fun c => { c with ports := c.ports.map (fun p => { p with restart := p.restart.filter (fun q => !sel q) }) })
  let gone := (s.host.committing.filter (fun e => match e.2.waiter with | some q => sel q | none => false)).map (·.1)
  let had := !s.host.params.saveWaits.isEmpty
  let s := s.modHost (fun h => { h with
    params := { h.params with saveWaits := h.params.saveWaits.filter (fun q => !sel q) }
    committing := h.committing.filter (fun e => !gone.contains e.1) })
  let noSave := had && s.host.params.saveWaits.isEmpty
  let s := s.modNv (fun k => { k with nvm := { k.nvm with
    waiting := k.nvm.waiting.filter (fun w => !(w.type == 2 && gone.contains w.key.toNat) && !(w.type == 1 && noSave)) } })
  let s := s.dropArriving sel
  let s := s.modLink (fun l => { l with tw := { l.tw with tw1 := keepReq sel l.tw.tw1 } })
  s.modSp (fun p => { p with sends := p.sends.filter (fun q => !sel q) })

/-- A command that waits is abandoned; those in the record that a test selects answer with a status. -/
def State.abandon (sel : Req → Bool) (status : Nat) (s : State) : State :=
  let cs := s.host.record.filter (fun c => sel c.req)
  cs.foldl (fun t c => t.finish c.req c.opcode.toNat (c.outcome.getD ⟨status, 0, 0, []⟩)) (s.forget sel)

end Sys2Proof.Machine
end

