-- ==== Sys2Proof/Machine/Irq.lean ====
section
/-! DEFINITION. The interrupt controller (15 R413 to R424): raises, routing, claims, ends, and the registers that the
Hawk cores write. -/

namespace Sys2Proof.Machine

/-- Changes the interrupt controller. -/
def State.modIrq (f : IrqState → IrqState) (s : State) : State := s.modSys (fun y => { y with irq := f y.irq })

/-- A priority with 0xFF, none, below 0. -/
def levelOf (b : BitVec 8) : Int := if b == 0xFF then -1 else b.toNat

/-- TARGET of a source; that of an inter-core source is fixed (15 R419). -/
def IrqState.target (q : IrqState) (n : Nat) : BitVec 4 :=
  if 352 ≤ n then BitVec.ofNat 4 (2 ^ ((n - 352) / 8)) else (q.src n).target

/-- HC2 and HC3 run a customer image: the fuse CUSTOMER_CORES_ENABLE is latched blown (01 R14). -/
def State.custCores (s : State) : Bool := s.nv.sec.customerCores.latched

/-- A customer core. -/
def State.isCust (s : State) (core : Fin 4) : Bool := s.custCores && decide (2 ≤ core.val)

/-- A core is out of reset. -/
def State.coreUp (s : State) (k : Fin 4) : Bool :=
  match s.sys.hawk with
  | .running => !(s.sys.wd.custReset && decide (2 ≤ k.val))
  | .recovery => k.val == 0
  | _ => false

/-- Core k may take source n (15 R415). -/
def State.eligible (s : State) (n : Nat) (k : Fin 4) : Bool :=
  let q := s.sys.irq
  let c := q.cores[k.val]
  let p : Int := (q.src n).prio.toNat
  (q.target n).getLsbD k.val && s.coreUp k && decide (levelOf c.run < p) && decide (levelOf c.thr < p)

/-- An offer of source n to its core is withdrawn. -/
def IrqState.withdraw (n : Nat) (q : IrqState) : IrqState :=
  let x := q.src n
  if x.offered then
    let q := q.modSrc n (fun y => { y with offered := false })
    { q with cores := vmod q.cores x.core (fun c => { c with offer := none }) }
  else q

/-- Offers whose core is not eligible any more are withdrawn. -/
def State.withdrawStale (s : State) : State :=
  (List.finRange 4).foldl (fun t k =>
    match (t.sys.irq.cores[k.val]).offer with
    | some n => if t.eligible n k then t else t.modIrq (IrqState.withdraw n)
    | none => t) s

/-- The core that a source is offered to: the lowest RUN, ties from rot on. -/
def State.chooseCore (s : State) (n : Nat) : Option (Fin 4) :=
  let q := s.sys.irq
  let order := (List.finRange 4).map (fun i => Fin.ofNat 4 (q.rot.val + i.val))
  let es := order.filter (fun k => s.eligible n k && (q.cores[k.val]).offer.isNone)
  match es with
  | [] => none
  | k :: ks => some (ks.foldl (fun b x => if levelOf (q.cores[x.val]).run < levelOf (q.cores[b.val]).run then x else b) k)

/-- Source n is offered, where some core can take it. -/
def State.offer (n : Nat) (s : State) : State :=
  match s.chooseCore n with
  | none => s
  | some k =>
    s.modIrq (fun q =>
      let q := q.modSrc n (fun y => { y with offered := true, core := k })
      { q with cores := vmod q.cores k (fun c => { c with offer := some n }), rot := Fin.ofNat 4 (k.val + 1) })

/-- Inserts a source into a list in descending PRIO, then ascending number. -/
def insertPrio (q : IrqState) (n : Nat) : List Nat → List Nat
  | [] => [n]
  | m :: ms => if (q.src m).prio.toNat < (q.src n).prio.toNat then n :: m :: ms else m :: insertPrio q n ms

/-- INTERRUPT_ROUTING (15 R415): one interconnect cycle. An ACTIVE source is delivered once more only after its
end of interrupt (R414). -/
def execInterruptRouting (s : State) : Out :=
  let t := s.withdrawStale
  let q := t.sys.irq
  if !q.en then .next t
  else
    let ns := (q.sources.filter (fun e => e.2.pending && e.2.en && !e.2.offered && !e.2.active)).map (·.1)
    .next ((ns.foldl (fun l n => insertPrio q n l) []).foldl (fun t n => t.offer n) t)

/-- INTERRUPT_RAISE (15 R414). -/
def execInterruptRaise (n : Fin 384) (s : State) : Out := .next (s.raise n.val)

/-- Burpol folds a source: COUNT into its 31-bit total, IC_OVF into LOST (15 R414). -/
def IrqState.fold (n : Nat) (q : IrqState) : IrqState :=
  let x := q.src n
  let t := (bankGet 0#32 n q.totals).toNat
  let v := min (2 ^ 31 - 1) (t % 2 ^ 31 + x.count.toNat) + fieldAt 31 1 (flag (bitAt t 31 || x.ovf))
  { q.modSrc n (fun y => { y with count := 0, ovf := false }) with totals := bankSet 0#32 n (BitVec.ofNat 32 v) q.totals }

/-- IRQ_COUNT_FOLD: every source. -/
def execIrqCountFold (s : State) : Out :=
  if !s.firmwareOn then .next s
  else .next (s.modIrq (fun q => (q.sources.map (·.1)).foldl (fun q n => q.fold n) q))

/-- IRQ_COUNTS (15 R425). -/
def execIrqCounts (r : Req) (s : State) : Out :=
  .next (s.runOp 0x0151 observe (len 4) (fun s =>
    let a := numAt r.payload 0 2
    let n := numAt r.payload 2 2
    if n = 0 || decide (384 < a + n) then .no stValue dtRange
    else
      let ns := (List.range n).map (· + a)
      let t := s.modIrq (fun q => ns.foldl (fun q m => q.fold m) q)
      .ok (done ((ns.map (fun m => leBytes 4 (bankGet 0#32 m t.sys.irq.totals).toNat)).flatten)) t) r)

/-- What a core's last read returned. -/
def State.irqRead (v : Nat) (s : State) : State := s.modIrq (fun q => { q with readData := BitVec.ofNat 32 v })

/-- IC_CLAIM_READ (15 R416): core k reads its IC_Ck_CLAIM. -/
def execIcClaimRead (k : Fin 4) (s : State) : Out :=
  match (s.sys.irq.cores[k.val]).offer with
  | none => .next (s.irqRead 0x1FF)
  | some n =>
    let x := s.sys.irq.src n
    let t := s.modIrq (fun q =>
      let q := q.modSrc n (fun y => { y with pending := false, active := true, offered := false, core := k })
      { q with cores := vmod q.cores k (fun c => { c with
          offer := none, stack := (n, c.run) :: c.stack, run := if x.fast then 0x10 else x.prio.setWidth 8 }) })
    .next (t.irqRead (n + fieldAt 12 4 x.prio.toNat + fieldAt 16 1 (flag x.fast)))

/-- IC_EOI_WRITE (15 R417). -/
def execIcEoiWrite (k : Fin 4) (value : U32) (s : State) : Out :=
  match (s.sys.irq.cores[k.val]).stack with
  | (n, run) :: rest =>
    if n = bitsOf value.toNat 8 0 then
      .next (s.modIrq (fun q =>
        let q := q.modSrc n (fun y => { y with active := false })
        { q with cores := vmod q.cores k (fun c => { c with stack := rest, run := run }) }))
    else .next (s.modIrq (fun q => { q with eoiErr := true }))
  | [] => .next (s.modIrq (fun q => { q with eoiErr := true }))

/-- A core's access ends in the precise exception of 16 R428. -/
def State.coreFault (core : Fin 4) (cause : MemCause) (addr : Nat) (s : State) : State :=
  s.modSys (fun y => { y with mem := { y.mem with access := some { core := core, data := [], exc := some (cause, addr) } } })

/-- A write of a customer core that 15 R422 refuses. -/
def State.refuseWrite (core : Fin 4) (addr : Nat) (s : State) : State :=
  (s.modIrq (fun q => { q with swErr := true })).coreFault core .bus addr

/-- Sources that a customer core may configure and raise (15 R422). -/
def custSource (n : Nat) : Bool := (decide (336 ≤ n) && decide (n ≤ 351)) || (decide (368 ≤ n) && decide (n ≤ 383))

/-- The heartbeat sources (15 R411). -/
def beatSource (n : Nat) : Bool := decide (364 ≤ n) && decide (n ≤ 367)

/-- IC_SWSET_WRITE (15 R419): the raise of sources 320 to 383, and PENDING of any. A write by a customer core to a
heartbeat source is the heartbeat of R411. -/
def execIcSwsetWrite (core : Fin 4) (value : U32) (s : State) : Out :=
  let n := bitsOf value.toNat 8 0
  if s.isCust core && !custSource n && !beatSource n then .next (s.refuseWrite core 0x60011008)
  else if 384 ≤ n then .next s
  else
    let t := if 320 ≤ n then s.raise n else s
    let t := t.modIrq (fun q => q.modSrc n (fun x => { x with pending := true }))
    let now := t.clk
    .next (if s.isCust core && beatSource n then t.modSys (fun y => { y with wd := { y.wd with custBeat := now } }) else t)

/-- IC_SWCLR_WRITE (15 R419). -/
def execIcSwclrWrite (core : Fin 4) (value : U32) (s : State) : Out :=
  let n := bitsOf value.toNat 8 0
  if s.isCust core && !custSource n then .next (s.refuseWrite core 0x6001100C)
  else if 384 ≤ n then .next s
  else .next (s.modIrq (fun q => (q.withdraw n).modSrc n (fun x => { x with pending := false })))

/-- FAST sources that name core k in TARGET. -/
def IrqState.fastOf (q : IrqState) (k : Fin 4) : Nat :=
  (q.sources.filter (fun e => e.2.fast && (q.target e.1).getLsbD k.val)).length

/-- IC_CFG_n as its fields (15 Table 15-8). -/
def IrqSource.configure (n v : Nat) (x : IrqSource) : IrqSource :=
  { x with
    prio := BitVec.ofNat 4 v, fast := bitAt v 4, en := bitAt v 5, target := if 352 ≤ n then x.target else BitVec.ofNat 4 (v / 256)
    pin := BitVec.ofNat 2 (v / 4096) }

/-- IC_CFG_WRITE (15 R415, R418, R420): not stored when it would make a 33rd FAST source of a core. -/
def execIcCfgWrite (core : Fin 4) (n : Fin 384) (value : U32) (s : State) : Out :=
  let a := 0x60010000 + 4 * n.val
  if s.isCust core && !custSource n.val then .next (s.refuseWrite core a)
  else
    let q := (s.sys.irq.withdraw n.val).modSrc n.val (IrqSource.configure n.val value.toNat)
    if (List.finRange 4).any (fun k => decide (32 < q.fastOf k) && bitAt value.toNat 4 && (q.target n.val).getLsbD k.val) then
      .next ((s.modIrq (fun q => { q with cfgErr := true })).coreFault core .bus a)
    else .next (s.modIrq (fun _ => q))

/-- IC_CFG_n as read. -/
def IrqState.cfgWord (q : IrqState) (n : Nat) : Nat :=
  let x := q.src n
  x.prio.toNat + fieldAt 4 1 (flag x.fast) + fieldAt 5 1 (flag x.en) + fieldAt 8 4 (q.target n).toNat + fieldAt 12 2 x.pin.toNat

/-- IC_STAT_n as read. -/
def IrqSource.statWord (x : IrqSource) : Nat :=
  flag x.pending + 2 * flag x.active + 4 * flag x.offered + 8 * flag x.ovf + fieldAt 4 2 x.core.val + fieldAt 8 8 x.count.toNat

/-- IC_STAT_READ (15 R414, R422): COUNT and IC_OVF clear. -/
def execIcStatRead (core : Fin 4) (n : Fin 384) (s : State) : Out :=
  if s.isCust core && !custSource n.val then .next ((s.irqRead 0).coreFault core .bus (0x60010800 + 4 * n.val))
  else
    .next ((s.irqRead (s.sys.irq.src n.val).statWord).modIrq (fun q => q.modSrc n.val (fun x => { x with count := 0, ovf := false })))

/-- IC_THR_WRITE (15 R424): a value that is not stored changes nothing; a rise withdraws an offer (R415). -/
def execIcThrWrite (core : Fin 4) (k : Fin 4) (value : U32) (s : State) : Out :=
  if s.isCust core && core != k then .next (s.refuseWrite core (0x6001110C + 16 * k.val))
  else
    let v := bitsOf value.toNat 7 0
    if v < 16 ∨ v = 255 then
      .next ((s.modIrq (fun q => { q with cores := vmod q.cores k (fun c => { c with thr := BitVec.ofNat 8 v }) })).withdrawStale)
    else .next s

/-- Cores in reset lose what they had claimed and been offered (15 R421). -/
def IrqState.resetCore (q : IrqState) (k : Fin 4) : IrqState :=
  let c := q.cores[k.val]
  let q := c.stack.foldl (fun q e => q.modSrc e.1 (fun x => { x with active := false })) q
  let q := match c.offer with
    | some n => q.withdraw n
    | none => q
  { q with cores := vmod q.cores k (fun y => { y with run := 0xFF, stack := [], offer := none }) }

/-- IRQ0_N and IRQ1_N as driven: low while a source with the PIN bit is PENDING or ACTIVE (15 R423). -/
def State.irqPinLow (s : State) (i : Fin 2) : Bool :=
  s.power.safety.dieRunning && s.sys.irq.sources.any (fun e => e.2.pin.getLsbD i.val && (e.2.pending || e.2.active))

end Sys2Proof.Machine
end

