-- ==== Sys2Proof/Machine/Watchdog.lean ====
section
/-! DEFINITION. The watchdog (15 R403 to R412, R425) and the reset of the Hawk island (01 R19). -/

namespace Sys2Proof.Machine

/-- Changes the watchdog. -/
def State.modWd (f : Watchdog → Watchdog) (s : State) : State := s.modSys (fun y => { y with wd := f y.wd })

/-- A setting in force since the last restart of the count: 0 WD_CFG, then the parameters in their order. -/
def Watchdog.set (x : Watchdog) (i : Nat) : Nat := x.held.getD i 0

/-- The settings as stored (15 Table 15-3). -/
def State.wdSettings (s : State) : List Nat := (List.range 9).map (fun i => s.param (0x1780 + i))

/-- WDT_HWSTART as latched. -/
def State.wdFused (s : State) : Bool := s.nv.sec.wdtHwstart.latched

/-- A restart of the count: a full period with the stored settings, WD_CFG.EN among them (15 R403, R404, R412). -/
def State.wdRestart (s : State) : State :=
  let v := s.wdSettings
  let now := s.clk
  let on := s.wdFused || bitAt (s.param 0x1780) 0
  s.modWd (fun x => { x with
    run := if x.run == .suspended || x.run == .paused then x.run else if on then .running else .off
    held := v, restart := now, resume := now, counted := 0, warned := false, kick0 := false, kick1 := false, longOpOver := false })

/-- The instant at which the count reaches a number of ms. -/
def Watchdog.reaches (x : Watchdog) (ms : Nat) : Nanos := x.resume + (ms * 1000000 - x.counted)

/-- RAMP (15 R406): the setpoints of POWER and STRING_CURRENT go to zero at G_SLEW. -/
def State.rampSetpoints (s : State) : State :=
  s.eachGroup (fun g t =>
    let m := (t.group g).mode
    if m == .power || m == .stringCurrent then
      (t.setParam (grId g 0x14) 0).modGroup g (fun x => { x with refAtTarget := false })
    else t)

/-- The Hawk island is reset (15 R405, R410; 19 R512; 02 R55; 17 R472; 18 R487): cores, uploads, staging buffers,
streams and the policy claim; commands in flight will be answered by the firmware. FW_ACTIVATE waits for the new one. -/
def State.hawkReset (cause : Nat) (next : Hawk) (s : State) : State :=
  let s := s.forget (fun _ => true)
  let s := s.modIrq (fun q => (List.finRange 4).foldl (fun q k => q.resetCore k) q)
  let s := s.modWd (fun x => { x with
    lastCause := BitVec.ofNat 8 cause, lastCores := BitVec.ofNat 8 (flag x.kick0 + 2 * flag x.kick1), raiseAtRelease := true
    withhold := false })
  let s := s.modHost (fun h => { h with owners := h.owners.map (fun o => { o with staging := none }), recordPending := !h.record.isEmpty })
  let s := s.modNv (fun k => { k with fw := { k.fw with upload := none } })
  let s := s.modLink (fun l => { l with
    streams := l.streams.map (fun x => x.map (fun y => { y with paused := true })), reassemblies := [] })
  let s := s.modSp (fun p => { p with policyOwner := none, record := none })
  let now := s.clk
  (s.modSys (fun y => { y with hawk := next, heldSince := now })).wdRestart

/-- The other slot. -/
def otherSlot (k : Fin 2) : Fin 2 := if k = 0 then 1 else 0

/-- A change of slot by the trial's failure (19 R513): the BOOT record, which named the slot on trial, names the former
one. -/
def State.trialFails (s : State) : State :=
  let slot := otherSlot s.nv.fw.bootSlot
  let s := s.modNv (fun k => { k with fw := { k.fw with trial := false, bootSlot := slot, boots := 0 } })
  (s.storeOpen 0x03 0 16).raise 272

/-- The count expires (15 R405 to R407). In a trial the restart is into the former slot, with cause UPDATE (19 R513; DEDUCED, log entry
138). -/
def State.wdExpire (cause : Nat) (s : State) : State :=
  let x := s.sys.wd
  let n := x.consec + 1
  let now := s.clk
  let s := if x.consec ≠ 0 && !x.policy then
      let ramp := x.set 4 == 1
      let s := (s.modWd (fun y => { y with policy := true, policySince := now, ramped := ramp })).raise 202
      if ramp then s.rampSetpoints else s
    else s
  let s := s.modWd (fun y => { y with consec := n })
  let cause := if s.nv.fw.trial then 3 else cause
  let s := if s.nv.fw.trial then s.trialFails else s
  if x.set 7 ≤ n then ((s.safeState 7 0).hawkReset 4 .held)
  else (s.modWd (fun y => { y with cntResets := satInc y.cntResets })).hawkReset cause .booting

/-- WATCHDOG_KICK (15 R404): a kick of HC0 or HC1; withheld kicks (WD_TEST) are not sent. -/
def execWatchdogKick (hc1 : Bool) (s : State) : Out :=
  let x := s.sys.wd
  if (x.run == .off && !bitAt (s.param 0x1780) 0) || x.run == .paused || x.withhold || (s.sys.hawk != .running && s.sys.hawk != .recovery) then .next s
  else
    let t := s.modWd (fun y => if hc1 then { y with kick1 := true } else { y with kick0 := true })
    let y := t.sys.wd
    if !(y.kick0 && (y.kick1 || !bitAt (y.set 0) 1)) then .next t
    else if y.set 3 ≠ 0 && decide (t.clk < y.restart + y.set 3 * 1000000) then .next ((t.wdExpire 2).settle s)
    else .next (t.wdRestart.modWd (fun z => { z with consec := 0, policy := false }))

/-- WATCHDOG_WARNING (15 R405): once between two restarts, and not when the count has expired. -/
def execWatchdogWarning (s : State) : Out :=
  let x := s.sys.wd
  if x.run != .running || x.set 2 = 0 || x.warned || decide (x.reaches (x.set 1) ≤ s.clk) then .next s
  else .next (((s.atLeast (x.reaches (x.set 1 - x.set 2))).modWd (fun y => { y with warned := true })).raise 200)

/-- WATCHDOG_EXPIRY (15 R405). `drained` tells that the interconnect was drained within 100 µs; otherwise the fault record
counts it. While the island is held in reset the count has nothing left to reset. -/
def execWatchdogExpiry (drained : Bool) (s : State) : Out :=
  let x := s.sys.wd
  if x.run != .running || s.sys.hawk == .held || s.sys.hawk == .off then .next s
  else
    let t := (s.atLeast (x.reaches (x.set 1))).modWd (fun y => { y with drainLost := y.drainLost + flag (!drained) })
    .next ((t.wdExpire 1).settle s)

/-- HAWK_RESET_HOLD_END (15 R407): after 1 s, with CONSEC at 0; the cause WATCHDOG is over. -/
def execHawkResetHoldEnd (s : State) : Out :=
  if s.sys.hawk != .held then .next s
  else
    let t := s.atLeast (s.sys.heldSince + 1000000000)
    let t := (t.modSys (fun y => { y with hawk := .booting })).modSafety (fun x => { x with causes := x.causes &&& ~~~(1#12 <<< 7) })
    .next (t.wdRestart.modWd (fun x => { x with consec := 0 }))

/-- WATCHDOG_HOLD_TIMEOUT (15 R406): HOLD becomes RAMP, once, after WD_HOLD_S with the policy still in force. -/
def execWatchdogHoldTimeout (s : State) : Out :=
  let x := s.sys.wd
  if !x.policy || x.ramped || x.set 5 = 0 then .next s
  else
    let t := (s.atLeast (x.policySince + x.set 5 * 1000000000)).modWd (fun y => { y with ramped := true })
    .next (t.rampSetpoints.settle s)

/-- What has been counted at an instant. -/
def Watchdog.countAt (x : Watchdog) (now : Nanos) : Nanos :=
  if x.run == .running then x.counted + (now - x.resume) else x.counted

/-- LONG_OP is asserted (15 R408): the count is suspended, unless it has reached the period at this instant. -/
def State.longOpStart (s : State) : State :=
  let now := s.clk
  if s.sys.wd.longOp then s
  else
    s.modWd (fun y => { y with
      longOp := true, longOpSince := now, longOpOver := false
      counted := if now < y.reaches (y.set 1) then y.countAt now else y.counted
      run := if y.run == .running && decide (now < y.reaches (y.set 1)) then .suspended else y.run })

/-- LONG_OP is released (15 R408): a full period from here. -/
def State.longOpEnd (s : State) : State :=
  if !s.sys.wd.longOp then s
  else
    let t := s.modWd (fun y => { y with longOp := false, run := if y.run == .suspended then .running else y.run })
    if t.sys.wd.run == .running then t.wdRestart else t

/-- LONG_OP_START. -/
def execLongOpStart (s : State) : Out := .next s.longOpStart

/-- LONG_OP_END. -/
def execLongOpEnd (s : State) : Out := .next s.longOpEnd

/-- LONG_OP_SUSPEND_TIMEOUT (15 R408): WD_NVM_MAX_MS have passed; counting goes on from the value held. -/
def execLongOpSuspendTimeout (s : State) : Out :=
  let x := s.sys.wd
  if x.run != .suspended then .next s
  else
    let t := s.atLeast (x.longOpSince + x.set 6 * 1000000)
    let now := t.clk
    .next (t.modWd (fun y => { y with run := .running, resume := now, longOpOver := true }))

/-- HC2 and HC3 are reset alone (15 R411, 19 R519). -/
def State.resetCust (s : State) : State := s.modIrq (fun q => (q.resetCore 2).resetCore 3)

/-- CUSTOMER_HEARTBEAT_MISSING (15 R411): IS203, HC2 and HC3 are reset alone, and the image starts afresh. -/
def execCustomerHeartbeatMissing (s : State) : Out :=
  if !s.firmwareOn || !bitAt (s.sys.wd.set 0) 2 || s.nv.fw.cust != .running then .next s
  else
    let t := s.atLeast (s.sys.wd.custBeat + s.sys.wd.set 8 * 1000000)
    let now := t.clk
    let t := (t.resetCust.modWd (fun x => { x with custBeat := now })).raise 203
    .next (t.modNv (fun k => { k with fw := { k.fw with custResets := satInc k.fw.custResets } }))

/-- Code of a watchdog state (15 Table 15-5). While LONG_OP stays asserted after WD_NVM_MAX_MS the count runs again. -/
def WdRun.code : WdRun → Nat
  | .off => 0 | .running => 1 | .suspended => 2 | .paused => 3

/-- WD_STATUS (15 Table 15-5). -/
def State.wdStatus (s : State) : Nat :=
  let x := s.sys.wd
  x.run.code + fieldAt 2 1 (flag x.warned) + fieldAt 3 1 (flag x.policy) + fieldAt 4 1 (flag s.wdFused) + fieldAt 8 8 x.consec

/-- WD_LAST (15 Table 15-6). -/
def State.wdLast (s : State) : Nat := s.sys.wd.lastCause.toNat + fieldAt 8 8 s.sys.wd.lastCores.toNat

/-- WD_STATUS_READ. -/
def execWdStatusRead (r : Req) (s : State) : Out :=
  .next (s.runOp 0x0150 observe (len 0) (fun s =>
    .ok (done (leBytes 4 s.wdStatus ++ leBytes 4 s.sys.wd.cntResets.toNat ++ leBytes 4 s.wdLast ++
      leBytes 4 ((s.clk - s.sys.wd.restart) / 1000000))) s) r)

/-- WD_TEST (15 R425). -/
def execWdTest (r : Req) (s : State) : Out :=
  .next (s.runOp 0x0152 service (len 0) (fun s =>
    s.needLease r (
      if !s.allQuiet then .no stState dtGroupState
      else .ok done (s.modWd (fun x => { x with withhold := true })))) r)

end Sys2Proof.Machine
end

