-- ==== Sys2Proof/Machine/NvmOps.lean ====
section
/-! DEFINITION. The MRAM: its partition, the placing of records, the bytes of the read window, and the writing of one
waiting record (19 R498 to R503). -/

namespace Sys2Proof.Machine

/-- Changes the record store. -/
def State.modNvm (f : NvmState → NvmState) (s : State) : State := s.modNv (fun k => { k with nvm := f k.nvm })
/-- Changes the firmware images. -/
def State.modFw (f : FwState → FwState) (s : State) : State := s.modNv (fun k => { k with fw := f k.fw })
/-- Changes fuses and security store. -/
def State.modSec (f : SecState → SecState) (s : State) : State := s.modNv (fun k => { k with sec := f k.sec })

/-- Region of a record type (19 Table 19-3): 0 tables, 1 journal, 2 event log. -/
def regionOf (type : Byte) : Fin 3 :=
  let t := type.toNat
  if t < 0x10 then 0 else if 0x20 ≤ t ∧ t < 0x30 then 2 else 1

/-- First sector of a region and its sectors (19 Table 19-1). -/
def regionSpan : Fin 3 → Nat × Nat
  | 0 => (512, 64)
  | 1 => (576, 128)
  | 2 => (704, 256)

/-- Lines of 64 bytes in a sector. -/
def sectorLines : Nat := 512

/-- Sectors of a region that can be written. -/
def NvmState.writable (n : NvmState) (r : Fin 3) : List Nat :=
  ((List.range (regionSpan r).2).map (fun i => (regionSpan r).1 + i)).filter (fun x => !n.retired.contains x)

/-- The sector after `x` of a region in turn; its first one where there is none before. -/
def NvmState.nextSector (n : NvmState) (r : Fin 3) (x : Option Nat) : Option Nat :=
  let ws := n.writable r
  match x with
  | none => ws.head?
  | some k => match ws.find? (fun y => decide (k < y)) with
    | some y => some y
    | none => ws.head?

/-- A record is the newest of its type and key (19 R502); records are kept in the order of their writing. -/
def NvmState.newest (n : NvmState) (x : NvmRecord) : Bool :=
  (n.records.reverse.find? (fun y => y.type == x.type && y.key == x.key)) == some x

/-- The sector `x` is taken into use: its header is written with a new generation. -/
def NvmState.takeSector (n : NvmState) (r : Fin 3) (x : Nat) : NvmState :=
  { n with
    heads := vmod n.heads r (fun _ => some (x, 1))
    gens := bankSet 0 x (bankGet 0 x n.gens + 1#32) n.gens
    records := n.records.filter (fun y => y.sector != x) }

/-- Places a record at the head. -/
def NvmState.place (n : NvmState) (r : Fin 3) (sec line : Nat) (w : NvmWrite) : NvmState :=
  let bytes := nvmBytes w.payload.length
  let kb := (n.kbRest + bytes) / 1024
  { n with
    records := n.records ++ [{ type := w.type, key := w.key, seq := n.seqs[r.val], gen := (bankGet 0 sec n.gens).setWidth 16
                               payload := w.payload, sector := sec, line := line, bad := false }]
    seqs := vmod n.seqs r (fun v => v + 1#32)
    heads := vmod n.heads r (fun _ => some (sec, line + bytes / 64))
    kbWritten := satAdd n.kbWritten kb
    kbRest := (n.kbRest + bytes) % 1024 }

/-- Writes records in turn. When the sector being filled has no room, the next one is taken: the event log drops what
it held; in the journal and the tables region the sector after it is emptied first, its newest records being written
again at the head (19 R502). `fuel` bounds the sectors taken. -/
def NvmState.append : Nat → List NvmWrite → NvmState → NvmState
  | _, [], n => n
  | 0, _, n => n
  | fuel + 1, w :: ws, n =>
    let r := regionOf w.type
    let fits : Option (Nat × Nat) := match n.heads[r.val] with
      | some (x, used) =>
        if used + nvmBytes w.payload.length / 64 ≤ sectorLines && !n.retired.contains x then some (x, used) else none
      | none => none
    match fits with
    | some (x, used) => (n.place r x used w).append fuel ws
    | none =>
      match n.nextSector r (n.heads[r.val].map (·.1)) with
      | none => n
      | some x =>
        let m := n.takeSector r x
        if r = 2 then m.append fuel (w :: ws)
        else
          match m.nextSector r (some x) with
          | some y =>
            if y = x then m.append fuel (w :: ws)
            else
              let keep := (m.records.filter (fun e => e.sector == y && m.newest e)).map (fun e => (⟨e.type, e.key, e.payload⟩ : NvmWrite))
              ({ m with records := m.records.filter (fun e => e.sector != y) } : NvmState).append fuel (keep ++ w :: ws)
          | none => m.append fuel (w :: ws)

/-- The sector that the next record of a type goes to is under migration: its write waits (19 R505). -/
def NvmState.blocked (n : NvmState) (type : Byte) : Bool :=
  match n.migrating, n.heads[(regionOf type).val] with
  | m :: _, some (x, _) => m == x
  | _, _ => false

/-- Writes one record. -/
def State.writeRecord (w : NvmWrite) (s : State) : State := s.modNvm (fun n => n.append 4096 [w])

/-- The header and payload of a record (19 Table 19-2), then the fill of its last line. -/
def NvmRecord.bytes (x : NvmRecord) : List Byte :=
  let head := [0xA5#8, x.type] ++ leBytes 2 x.payload.length ++ leBytes 4 x.seq.toNat ++ leBytes 2 x.key.toNat ++ leBytes 2 x.gen.toNat
  head ++ leBytes 4 (crc32c (head ++ x.payload)).toNat ++ x.payload

/-- The byte at an offset of the MRAM read window (19 R498, R500); none in a line never written. -/
def State.mramByte (s : State) (off : Nat) : Option Byte :=
  let n := s.nv.nvm
  let sec := off / 32768
  let line := off % 32768 / 64
  let gen := (bankGet 0 sec n.gens).toNat
  if sec < 512 then
    match bankGet? (off / 64) n.lines with
    | some b => some (b.getD (off % 64) 0#8)
    | none => if Config.mediaWritten (off / 64) && s.nv.fw.images[0] == some Image.factory && sec < 192 then some (Config.mediaByte off 0) else none
  else if sec < 960 then
    if line = 0 then (if (bankGet? sec n.gens).isSome then some (Config.mediaByte off gen) else none)
    else
      match n.records.find? (fun r => r.sector == sec && decide (r.line ≤ line) && decide (line < r.line + nvmBytes r.payload.length / 64)) with
      | some r =>
        let i := (line - r.line) * 64 + off % 64
        some (if i < 16 + r.payload.length then r.bytes.getD i 0#8 else Config.mediaByte off gen)
      | none => none
  else if sec < 992 then some (Config.mediaByte off 0)
  else some 0#8

/-- NVM_STATUS.STATE (19 R506, Table 19-8). -/
def NvmState.state (n : NvmState) : Nat := if !n.retired.isEmpty then 2 else if n.spares < 8 then 1 else 0

/-- NVM_STATUS (19 Table 19-8). -/
def State.nvmStatus (s : State) : Nat :=
  let n := s.nv.nvm
  n.state + fieldAt 2 1 (flag (!n.migrating.isEmpty)) + fieldAt 3 1 (flag s.nvmHeld) + fieldAt 4 1 (flag (1024 ≤ n.queue.length)) +
    fieldAt 16 16 n.queue.length

/-- Seconds left in the trial. -/
def State.trialLeft (s : State) : Nat :=
  bitsOf s.nv.fw.trialCfg 15 0 - (s.clk - s.nv.fw.trialStart) / 1000000000

/-- FW_STATUS (19 Table 19-8). -/
def State.fwStatus (s : State) : Nat :=
  let f := s.nv.fw
  f.run.val + fieldAt 1 1 (flag f.trial) + fieldAt 2 1 (flag f.upload.isSome) + fieldAt 3 1 (flag f.ready) +
    fieldAt 4 3 (min f.boots 7) + fieldAt 16 16 (if f.trial then s.trialLeft else 0)

/-- FW_LEVELS (19 Table 19-7). -/
def State.fwLevels (s : State) : Nat :=
  let l (k : Fin 4) : Nat := match s.nv.fw.images[k.val] with
    | some i => i.level
    | none => 0
  l 0 + fieldAt 8 8 (l 2) + fieldAt 16 8 s.nv.sec.rollback

/-- FW_ENGINE_PEND (19 R515). -/
def State.fwPend (s : State) : Nat := s.nv.fw.pendGroups.toNat + fieldAt 8 1 (flag s.nv.fw.pendFloat)

/-- Journal sectors without records that can be written, the one being filled apart. -/
def State.journalFree (s : State) : Nat :=
  let n := s.nv.nvm
  ((n.writable 1).filter (fun x => !n.records.any (fun r => r.sector == x) && (n.heads[1].map (·.1)) != some x)).length

/-- Event-log sectors writable. -/
def State.logSectors (s : State) : Nat := (s.nv.nvm.writable 2).length

/-- The parameter image (02 R53): an item for every writable parameter other than the owners'. -/
def State.imageBytes (s : State) : List Byte :=
  ((List.range 0x1C20).map (fun id =>
    match paramEntry? id with
    | some e => if e.ro || isOwnerParam id then [] else leBytes 2 id ++ [0#8] ++ leBytes 1 e.ty ++ leBytes 8 (container e.ty (s.param id))
    | none => [])).flatten

/-- Parameter values from an image: what it does not hold takes its default (02 R53). -/
def imageValues : Nat → List Byte → Bank U64
  | 0, _ => []
  | fuel + 1, b =>
    if b.length < 12 then []
    else
      let id := numAt b 0 2
      bankSet (BitVec.ofNat 64 (paramDefault id)) id (BitVec.ofNat 64 (numAt b 4 8 % 2 ^ typeWidth (paramType id))) (imageValues fuel (b.drop 12))

/-- The parameter image in MRAM (02 R53). -/
def State.savedImage (s : State) : Option (Bank U64) :=
  (s.nv.nvm.records.reverse.find? (fun r => r.type == 1#8)).map (fun r => imageValues 2724 r.payload)

/-- A header from its 16 bytes. -/
def headerOf (b : List Byte) : TableHeader where
  type := BitVec.ofNat 8 (numAt b 0 1)
  index := BitVec.ofNat 8 (numAt b 1 1)
  version := BitVec.ofNat 16 (numAt b 2 2)
  length := BitVec.ofNat 32 (numAt b 4 4)
  crc := BitVec.ofNat 32 (numAt b 8 4)
  flags := BitVec.ofNat 32 (numAt b 12 4)

/-- A record of the security store, sealed: its bytes are open (19 R516). Every write counts in SEC_STORE_GEN. -/
def State.storeSecure (key : Nat) (s : State) : State := s.storeOpen 4 key 256

/-- PARAM_SAVE commands whose image has been written, or can only be written later, complete (02 R53). -/
def State.completeSaves (a : Reply) (s : State) : State :=
  let rs := s.host.params.saveWaits
  let s := s.modHost (fun h => { h with params := { h.params with saveWaits := [] } })
  rs.foldl (fun t r => t.complete r 0x0204 a) s

/-- EST_LEARN_NOW commands complete (10 R312). -/
def State.completeLearns (a : Reply) (s : State) : State :=
  let rs := s.stack.est.learnWaits
  rs.foldl (fun t r => t.complete r 0x0A03 a) (s.modEst (fun e => { e with learnWaits := [] }))

/-- 48-bit count of 1/1,024 s (12 R372). -/
def State.rtc (s : State) : Nat := (s.clk - s.power.rtcSince) * 1024 / 1000000000 % 2 ^ 48

/-- The retention SRAM holds the time of the last journal write (12 Table 12-7). -/
def State.journalled (s : State) : State :=
  let r := s.rtc
  s.modPower (fun p => { p with keep := { p.keep with journalRtc := r } })

/-- What a record that is now in MRAM brings about. -/
def State.recordWritten (w : NvmWrite) (s : State) : State :=
  let t := w.type.toNat
  let s := if regionOf w.type = 1 then s.journalled else s
  if t = 1 then
    let dirty := w.payload != s.imageBytes
    let rails := (imageValues 2724 w.payload).filter (fun e => decide (0x1500 ≤ e.1) && decide (e.1 < 0x15C0))
    let s := s.modPower (fun p => { p with seq := { p.seq with storeParams := rails } })
    (s.modHost (fun h => { h with params := { h.params with cntSave := h.params.cntSave + 1#32, dirty := dirty } })).completeSaves done
  else if t = 2 then
    let key := w.key.toNat
    match s.host.committing.find? (fun e => e.1 == key) with
    | some e =>
      (s.modHost (fun h => { h with committing := h.committing.erase e })).installTable key { e.2 with inMram := true }
    | none =>
      let mark (b : Bank Table) : Bank Table := b.map (fun e => if e.1 == key then (e.1, { e.2 with inMram := true }) else e)
      let had := (bankGet? key s.host.tables).isSome
      let s := s.modHost (fun h => if (bankGet? key h.arriving).isSome then { h with arriving := mark h.arriving }
        else { h with tables := mark h.tables })
      if key = 0x0600 && had then s.storeSequencer else s
  else if t = 4 then s.modSec (fun x => { x with storeGen := x.storeGen + 1#32 })
  else if t = 0x30 ∨ t = 0x31 then
    let s := s.modEst (fun e => { e with learnCnt := e.learnCnt + 1#32 })
    if s.learnedWaits then s else s.completeLearns done
  else s

/-- The EVENTS_LOST record and its interrupt (19 R503). -/
def State.writeLost (n a b : Nat) (s : State) : State :=
  ((s.modNvm (fun x => { x with lost := none })).writeRecord ⟨0x23#8, 0#16, leBytes 4 n ++ leBytes 8 a ++ leBytes 8 b⟩).raise 271

end Sys2Proof.Machine
end

