-- ==== Sys2Proof/Machine/Nvm.lean ====
section
/-! DEFINITION. The commands and events of the MRAM, the fuses and customer images (19 R499 to R508, R519, R521;
14 R397). -/

namespace Sys2Proof.Machine

/-- The request came on authenticated SMU; while the recovery loader runs and `loader` holds, the service UART does as
well (19 R521). -/
def State.secureVia (s : State) (loader : Bool) (r : Req) : Bool :=
  r.via.transport == .smuAuth || (loader && s.sys.hawk == .recovery && r.via.transport == .uart)

/-- A body that needs authenticated SMU. -/
def State.needSmu (s : State) (loader : Bool) (r : Req) (body : Res) : Res :=
  if s.secureVia loader r then body else .no stPermit 0x0008

/-- NVM_RECORD_WRITE (19 R499, R501, R503). -/
def execNvmRecordWrite (s : State) : Out :=
  let n := s.nv.nvm
  if s.nvmHeld || !s.power.safety.dieRunning then .next s
  else
    match n.waiting with
    | w :: ws =>
      if n.blocked w.type then .next s
      else .next ((((s.modNvm (fun x => { x with waiting := ws })).writeRecord w).recordWritten w).settle s)
    | [] =>
      if n.blocked 0x20#8 then .next s
      else
        match n.lost, n.queue with
        | some (k, a, b), q =>
          if q.length < 1024 then .next (s.writeLost k a b)
          else
            match q with
            | w :: ws => .next ((s.modNvm (fun x => { x with queue := ws })).writeRecord w)
            | [] => .next s
        | none, w :: ws => .next ((s.modNvm (fun x => { x with queue := ws })).writeRecord w)
        | none, [] => .next s

/-- IS269 when NVM_STATUS.STATE differs from a former state's (19 R522). -/
def State.nvmChanged (s s0 : State) : State := s.raiseIf (s.nv.nvm.state != s0.nv.nvm.state) 269

/-- The migration of a sector begins, or, with no spare left, the sector is retired read-only (19 R505, R506). -/
def State.migrate (sector : Nat) (s : State) : State :=
  let n := s.nv.nvm
  if n.retired.contains sector || n.migrating.contains sector then s
  else if n.migrating.length < n.spares then
    (s.modNvm (fun x => { x with migrating := x.migrating ++ [sector] })).longOpStart
  else s.modNvm (fun x => { x with retired := x.retired ++ [sector] })

/-- NVM_SCRUB (19 R505): one written sector, its corrected bits and the byte offsets of its uncorrectable words. -/
def execNvmScrub (sector corrected : Nat) (uncorrectable : List Nat) (s : State) : Out :=
  let cfg := s.param 0x1C00
  let n := s.nv.nvm
  let written := decide (sector < 512) || (decide (960 ≤ sector) && decide (sector < 992)) || (bankGet? sector n.gens).isSome
  if !bitAt cfg 0 || !written || !s.power.safety.dieRunning then .next s
  else
    let last := bankGet 0 sector n.lastScrub
    let t := s.atLeast (last + bitsOf cfg 31 16 * 3600000000000)
    let now := t.clk
    let hit (r : NvmRecord) : Bool := r.sector == sector && uncorrectable.any (fun o =>
      decide (r.line * 64 ≤ o) && decide (o < r.line * 64 + nvmBytes r.payload.length))
    let t := t.modNvm (fun x => { x with
      cntCorr := satAdd x.cntCorr corrected, cntUncorr := satAdd x.cntUncorr uncorrectable.length
      lastScrub := bankSet 0 sector now x.lastScrub
      records := x.records.map (fun r => if hit r then { r with bad := true } else r) })
    .next (if bitsOf cfg 15 8 < corrected || !uncorrectable.isEmpty then (t.migrate sector).nvmChanged s else t)

/-- SECTOR_MIGRATION_COMPLETE (19 R505). -/
def execSectorMigrationComplete (s : State) : Out :=
  match s.nv.nvm.migrating with
  | [] => .next s
  | x :: xs =>
    let t := s.modNvm (fun n => { n with
      migrating := xs, spares := n.spares - 1, migrated := satInc n.migrated
      remap := (x, 64 - n.spares) :: n.remap.filter (fun e => e.1 != x) })
    let t := if xs.isEmpty then t.longOpEnd else t
    .next ((t.raise 268).nvmChanged s)

/-- NVM_WRITE_HOLD (14 R397, 19 R504): TJ_D has left the window. Commands that wait for a write complete as R53, R56
and R312 give. -/
def execNvmWriteHold (s : State) : Out :=
  let tj := s.clock.th.tjD
  if s.clock.th.nvmHold || (decide (s.heldI 0x1708 ≤ tj) && decide (tj ≤ s.heldI 0x1709)) then .next s
  else
    let t := (s.modTh (fun x => { x with nvmHold := true })).raise 195
    let t := (t.completeSaves (partial_ 3 dtNvmDeferred)).completeLearns (partial_ 3 dtNvmDeferred)
    let cs := t.host.committing
    let t := cs.foldl (fun u e => u.installTable e.1 e.2) (t.modHost (fun h => { h with committing := [] }))
    .next (t.settle s)

/-- NVM_WRITE_RESUME (14 R397): TJ_D is 3.0 °C inside the window. -/
def execNvmWriteResume (s : State) : Out :=
  let tj := s.clock.th.tjD
  if s.clock.th.nvmHold && decide (s.heldI 0x1708 + 30 ≤ tj) && decide (tj + 30 ≤ s.heldI 0x1709) then
    .next ((s.modTh (fun x => { x with nvmHold := false })).raise 195)
  else .next s

/-- NVM_STATUS_READ. -/
def execNvmStatusRead (r : Req) (s : State) : Out :=
  .next (s.runOp 0x0F01 observe (len 0) (fun s =>
    .ok (done (leBytes 4 s.nvmStatus ++ leBytes 4 s.fwStatus ++ leBytes 4 s.fwLevels ++ leBytes 4 s.fwPend)) s) r)

/-- Records of the event log, oldest first. -/
def NvmState.logRecords (n : NvmState) : List NvmRecord := n.records.filter (fun r => regionOf r.type == 2)

/-- LOG_READ (19 R521): up to 63 records of 64 bytes; at a place never written UNWRITTEN (R500). -/
def execLogRead (r : Req) (s : State) : Out :=
  .next (s.runOp 0x0F08 security (len 4) (fun s =>
    let rs := s.nv.nvm.logRecords.drop (numAt r.payload 0 4)
    if rs.isEmpty then .no stUnwritten 0
    else .ok (done ((rs.take 63).map (fun x => pad64 x.payload)).flatten) s) r)

/-- A fuse as the array reads: the OR of its two copies (19 R507). -/
def Fuse.reads (f : Fuse) : Bool := f.copyA || f.copyB

/-- Bits [2047:0] of the fuse array with DEV_ROOT as zeros (19 Table 19-4). -/
def State.fuseArray (s : State) : Nat :=
  let c := s.nv.sec
  Config.devId.toNat + Config.mfg.toNat <<< 64 + Config.rootHash.toNat <<< 384 + (2 ^ c.rollback - 1) <<< 768 +
    fieldAt 832 1 (flag c.wdtHwstart.reads) + fieldAt 833 1 (flag c.servicePortDisable.reads) +
    fieldAt 834 1 (flag c.customerCores.reads) + fieldAt 835 1 (flag c.debugLock.reads) +
    Config.svid.toNat <<< 836 + Config.macBase.toNat <<< 852

/-- FUSE_READ. -/
def execFuseRead (r : Req) (s : State) : Out :=
  .next (s.runOp 0x0F09 observe (len 0) (fun s => .ok (done (leBytes 256 s.fuseArray)) s) r)

/-- Both copies are programmed; what they then read is the array's. -/
def Fuse.blow (a b : Bool) (f : Fuse) : Fuse := { f with copyA := f.copyA || a, copyB := f.copyB || b }

/-- One option fuse by its number (19 R507). -/
def SecState.fuse (c : SecState) (k : Nat) : Fuse :=
  match k with
  | 0 => c.wdtHwstart | 1 => c.servicePortDisable | 2 => c.customerCores | _ => c.debugLock

/-- Changes one option fuse. -/
def SecState.modFuse (k : Nat) (f : Fuse → Fuse) (c : SecState) : SecState :=
  match k with
  | 0 => { c with wdtHwstart := f c.wdtHwstart }
  | 1 => { c with servicePortDisable := f c.servicePortDisable }
  | 2 => { c with customerCores := f c.customerCores }
  | _ => { c with debugLock := f c.debugLock }

/-- The fuses are read and latched (19 R507). -/
def SecState.latchFuses (c : SecState) : SecState :=
  let l (f : Fuse) : Fuse := { f with latched := f.reads }
  { c with loaded := true, wdtHwstart := l c.wdtHwstart, servicePortDisable := l c.servicePortDisable, customerCores := l c.customerCores
           debugLock := l c.debugLock }

/-- SEC_FUSES (19 R507): the option fuses as latched, and whether O0's secret has ever been set. -/
def State.secFuses (s : State) : Nat :=
  let c := s.nv.sec
  flag c.wdtHwstart.latched + fieldAt 1 1 (flag c.servicePortDisable.latched) + fieldAt 2 1 (flag c.customerCores.latched) +
    fieldAt 3 1 (flag c.debugLock.latched) + fieldAt 4 1 (flag (s.owner 0).secretSet)

/-- TJ_D lies between 0 °C and 85 °C and AUX is in its operating range (19 R508). -/
def State.fuseWindow (s : State) : Bool :=
  decide (0 ≤ s.clock.th.tjD) && decide (s.clock.th.tjD ≤ 850) && s.power.supply.auxOk

/-- FUSE_BLOW (19 R508): what the two copies read after programming comes with the command. -/
def execFuseBlow (r : Req) (copyA copyB : Bool) (s : State) : Out :=
  .next (s.runOp 0x0F0A security (len 1) (fun s =>
    let k := numAt r.payload 0 1
    if r.owner != 0 then .no stPermit 0
    else s.needSmu false r (
      if 3 < k then .no stValue dtRange
      else if !s.fuseWindow then .no stTemp 0
      else
        let t := s.modSec (SecState.modFuse k (Fuse.blow copyA copyB))
        let a := if (t.nv.sec.fuse k).reads then done else partial_ 0 0x010A
        .ok a ((t).raise 273))) r)

/-! ### Customer images -/

/-- A customer image is valid (19 R509): of the registered key, at CUST_LEVEL or above. -/
def State.custValid (s : State) (i : Image) : Bool :=
  s.nv.sec.custKey.isSome && i.key == s.nv.sec.custKey && decide (s.nv.fw.custLevel.toNat ≤ i.level)

/-- The customer image of a slot. -/
def State.custImage (s : State) (slot : Fin 2) : Option Image := s.nv.fw.images[2 * slot.val + 1]

/-- What HC2 and HC3 do after a fresh start (19 R519). -/
def State.custOutcome (s : State) : CustRun :=
  let cfg := s.param 0x1C13
  if !s.nv.sec.customerCores.latched || !bitAt cfg 0 then .disabled
  else
    match s.custImage (Fin.ofNat 2 (bitsOf cfg 1 1)) with
    | none => .noImage
    | some i => if s.custValid i then .running else .rejected

/-- HC2 and HC3 are reset alone and started afresh (19 R519). -/
def State.custStart (s : State) : State :=
  let run := s.custOutcome
  let slot := Fin.ofNat 2 (bitsOf (s.param 0x1C13) 1 1)
  let now := s.clk
  let t := (s.resetCust.modFw (fun f => { f with cust := run, custSlot := slot })).modWd (fun x => { x with
    custBeat := now, custReset := s.custCores && run != .running })
  t.raiseIf (run != s.nv.fw.cust) 275

/-- CUST_STATUS (19 Table 19-7). -/
def State.custStatus (s : State) : Nat :=
  (match s.nv.fw.cust with | .disabled => 0 | .noImage => 1 | .running => 2 | .rejected => 3) + fieldAt 8 8 s.nv.fw.custResets.toNat

/-- CUST_COMMIT (19 R519). With no image running there is no level to take. -/
def execCustCommit (r : Req) (s : State) : Out :=
  .next (s.runOp 0x0F0B security (len 0) (fun s =>
    s.needSmu false r (
      if !s.nv.sec.customerCores.latched then .no stState 0x0108
      else
        match s.custImage s.nv.fw.custSlot with
        | some i =>
          .ok done (if s.nv.fw.cust == .running then
              s.modFw (fun f => { f with custLevel := BitVec.ofNat 16 (max f.custLevel.toNat i.level) }) else s)
        | none => .ok done s)) r)

/-- CUST_KEY_SET (19 R519). -/
def execCustKeySet (r : Req) (s : State) : Out :=
  .next (s.runOp 0x0E08 security (len 48) (fun s =>
    if r.owner != 0 then .no stPermit 0
    else s.needSmu false r (
      if !s.nv.sec.customerCores.latched then .no stState 0x0108
      else .ok done ((s.modSec (fun c => { c with custKey := some r.payload })).storeSecure 18))) r)

end Sys2Proof.Machine
end

