-- ==== Sys2Proof/Machine/DieReset.lean ====
section
/-! DEFINITION. The reset of the D-die (12 R349, R357; 13 R378; 16 R429, R431): what the A-die, the MRAM, the fuses
and the retention SRAM keep, and the initial value of everything else. The A-die keeps the service port's settings in force
(18 R487, R495). -/

namespace Sys2Proof.Machine

/-- What the security store keeps of an owner (19 R516). -/
def Owner.kept (x : Owner) : Owner :=
  { x with
    state := if x.state == .unprovisioned then .unprovisioned else .provisioned
    session := 0, high := 0, window := 0, attachVia := none, staging := none, resetEnd := none, key := [], keyNo := 0 }

/-- What the retention SRAM and the journal keep of a port (06 R177, R182). -/
def Port.kept (x : Port) : Port :=
  { Port.initial with
    run := x.run, step := x.step, elapsed := x.elapsed, session := x.session, stepTime := x.stepTime
    profileId := x.profileId, profileCommit := x.profileCommit, profile := x.profile, faults := x.faults, first := x.first }

/-- What the Plumb core and the A-die keep of the thermal state (14 R391). -/
def Thermal.kept (x : Thermal) : Thermal :=
  { ClockState.initial.th with
    run := x.run, graceSince := x.graceSince, belowSince := x.belowSince, belowTrip := x.belowTrip, brokenA := x.brokenA
    tjA := x.tjA, winA := x.winA, evalAt := x.evalAt, pvtAt := x.pvtAt }

/-- What the Plumb core keeps of the watchdog over a reset of the D-die (01 R11): its count of resets and the last one. -/
def Watchdog.kept (x : Watchdog) : Watchdog :=
  { Watchdog.initial with
    cntResets := x.cntResets, lastCause := x.lastCause, lastCores := x.lastCores, drainLost := x.drainLost }

/-- What a stream definition keeps. -/
def Stream.kept (x : Stream) : Stream := { x with paused := true, oldest := none }

/-- The D-die is put into reset, or its reset is released: its registers, SRAM and DRAM map start afresh. Definitions of
rings and streams, and the tables and images in MRAM, are taken up again by the firmware (FIRMWARE_BOOT). -/
def State.dieReset (hawk : Hawk) (running : Bool) (s : State) : State :=
  let d := State.reset
  let n := s.nv.nvm
  let now := s.clk
  { d with
    clk := now, freeCtr := s.freeCtr, pending := s.pending
    host := { d.host with
      owners := s.host.owners.map Owner.kept, sent := s.host.sent, closed := s.host.closed
      params := { d.host.params with engine := s.host.params.engine.filter (fun e => decide (0x1B00 ≤ e.1) && decide (e.1 < 0x1B08)) } }
    conv := { d.conv with
      phases := s.conv.phases.map (fun x => { Phase.initial with dfltPin := x.dfltPin })
      link := { d.conv.link with roleStrap := s.conv.link.roleStrap }, banks := s.conv.banks }
    chg := { ports := s.chg.ports.map Port.kept, low := s.chg.low }
    power := { s.power with
      releaseAt := if running then now else s.power.releaseAt
      safety := { s.power.safety with dieRunning := running, clamp := if running then false else s.power.safety.clamp } }
    clock := { d.clock with tb := { d.clock.tb with xtalOk := s.clock.tb.xtalOk, refclkOk := s.clock.tb.refclkOk }, th := s.clock.th.kept }
    sys := { d.sys with hawk := hawk, cold := true, wd := s.sys.wd.kept, ring := { d.sys.ring with rings := s.sys.ring.rings } }
    link := { d.link with
      streams := s.link.streams.map (fun x => x.map Stream.kept)
      tw := { d.link.tw with vio := s.link.tw.vio, releaseFrom := now } }
    port := { s.port with policyOwner := none, record := none, sends := [], heldFrames := [] }
    nv := { s.nv with
      nvm := { n with waiting := [], queue := [], lost := none }
      fw := { s.nv.fw with upload := none, activate := none, cust := .disabled } } }

/-- The D-die loses a mandatory rail: it is in reset until every mandatory rail is GOOD again. -/
def State.dieDown (s : State) : State := if s.power.safety.dieRunning then s.dieReset .off false else s

end Sys2Proof.Machine
end

