-- ==== Sys2Proof/Machine/PortOps.lean ====
section
/-! DEFINITION. The service port's shared operations (18): detach, Hard Reset, the record in force, waiting sends. -/

namespace Sys2Proof.Machine

/-- The port sends something. -/
def State.pdSend (x : PdSent) (s : State) : State := s.modSp (fun p => { p with sent := p.sent ++ [x] })

/-- Every waiting SP_PD_SEND ends with a failure. -/
def State.failSends (detail : Nat) (s : State) : State :=
  let rs := s.port.sends
  rs.foldl (fun t r => t.finish r 0x1005 ⟨stState, 0, detail, []⟩) (s.modSp (fun p => { p with sends := [] }))

/-- The contract ends and the mode is left (18 R485, R489). -/
def State.pdVoid (s : State) : State :=
  let p := s.port
  let s := s.modSp (fun p => { p with
    snkOn := false, ready := false, contract := false, vc := 0, curr := 0, alt := false, requested := false, accepted := false
    inSequence := false, txId := 0, rxId := none })
  (s.raiseIf p.contract 262).raiseIf p.alt 265

/-- The port leaves its attachment for a state (18 R481, R484, R494). -/
def State.portDetach (run : SpRun) (s : State) : State :=
  let p := s.port
  let s := s.pdVoid.modSp (fun p => { p with run := run, srcOn := false, corroded := false, vbusFault := false, rd := true })
  let s := (s.raiseIf (p.run != run) 260).raiseIf p.corroded 266
  s.failSends 0x0103

/-- UC1 has left GOOD: SP_SRC_EN low, detach (18 R481). -/
def State.portSourceLost (s : State) : State :=
  if s.port.run == .attachedSrc then s.portDetach .unattached
  else if s.port.run == .disabled then s
  else s.modSp (fun p => { p with rd := true })

/-- The fuse SERVICE_PORT_DISABLE is latched blown, or the latches are not loaded: the port is off (01 R12, 18 R480). -/
def State.portFused (s : State) : Bool := !s.nv.sec.loaded || s.nv.sec.servicePortDisable.latched

/-- SP_CFG.EN as it acts (18 R480). -/
def State.portOn (s : State) : Bool := bitAt (s.held 0x1B00) 0 && !s.portFused

/-- The port follows SP_CFG.EN and the fuse. -/
def State.portEnable (s : State) : State :=
  if !s.portOn then
    (if s.port.run == .disabled then s else (s.portDetach .disabled).modSp (fun p => { p with rd := false }))
  else if s.port.run == .disabled then (s.modSp (fun p => { p with run := .unattached, rd := true })).raise 260
  else s

/-- The port takes the stored parameters up (18 R495); while nothing serves commands it keeps those it has. -/
def State.pickService (s : State) : State :=
  if s.serving then ((List.range 8).map (0x1B00 + ·)).foldl (fun t id => t.pickParam id) s else s

/-- A write of SP_CFG: a port that is off sees no sequence and no check, so it is switched on at once (18 R495; DEDUCED, log entry 137). -/
def State.portWritten (s : State) : State := if s.port.run == .disabled then s.pickService.portEnable else s

/-- The built-in record (18 R487). -/
def State.builtinRecord (s : State) : PolicyRecord where
  snkV := s.held 0x1B01
  snkI := s.held 0x1B02
  snkImin := s.held 0x1B03
  srcI := s.held 0x1B04
  swap := 0
  alt := flag (bitAt (s.held 0x1B00) 4)

/-- A sink at vSafe5V only, which rejects Enter Mode (18 R487). -/
def safeRecord : PolicyRecord := { snkV := 500, snkI := 50, snkImin := 0, srcI := 0, swap := 0, alt := 0 }

/-- The record that the next atomic message sequence takes, and whether it is the built-in one. -/
def State.nextRecord (s : State) : PolicyRecord × Bool :=
  match s.port.policyOwner, s.port.record with
  | some _, some x => (x, false)
  | _, _ => if bitAt (s.held 0x1B00) 3 then (s.builtinRecord, true) else (safeRecord, false)

/-- SP_SNK_EN is high only at a contract at the record's SNK_V whose PS_RDY has come (18 R485). -/
def ServicePort.feeds (p : ServicePort) : Bool := p.contract && !p.accepted && p.ready && p.vc == p.inForce.snkV

/-- An atomic message sequence starts: the parameters and the record in force may change (18 R487, R495), and SP_SNK_EN follows
(R485); a port switched off meanwhile goes off here. -/
def State.pdBegin (s : State) : State :=
  if s.port.inSequence then s
  else
    let s := s.pickService.portEnable
    let (x, b) := s.nextRecord
    s.modSp (fun p =>
      let q := { p with inForce := x, builtin := b }
      { q with snkOn := if p.run == .attachedSnk then q.feeds else p.snkOn })

/-- PD_RX records go to each EVENT ring of the claim holder (18 R488). -/
def State.pdRx (sop header : Nat) (objects : List Byte) (s : State) : State :=
  let rec_ := pad64 ([0x50#8, 1#8] ++ leBytes 1 sop ++ zeros 1 ++ leBytes 2 header ++ zeros 2 ++ leBytes 8 s.now ++ objects.take 28)
  let s := match s.port.policyOwner with
    | some o => (s.emit .plumb (.ownerEvent o) rec_).store 0x20 0 rec_
    | none => s
  s.raise 261

/-- A Hard Reset sent or received (18 R485, R489, R497). -/
def State.pdHardReset (s : State) : State :=
  (s.pdVoid.modSp (fun p => { p with cntHardReset := satInc p.cntHardReset })).raise 263

/-- The waiting send whose turn it is: a message goes out; a Hard Reset takes effect at its transmission (18 R488). -/
def State.pdNextSend (s : State) : State :=
  match s.port.sends with
  | [] => s
  | r :: rest =>
    if s.port.inSequence then s
    else if numAt r.payload 0 1 = 3 then
      (((s.modSp (fun p => { p with sends := rest })).pdSend .hardReset).pdHardReset).complete r 0x1005 done
    else
      let t := s.pdBegin
      if t.port.run == .disabled then t else t.pdSend (.message (numAt r.payload 2 2 - fieldAt 9 3 (bitsOf (numAt r.payload 2 2) 11 9) + fieldAt 9 3 t.port.txId)
        ((List.range ((r.payload.length - 4) / 4)).map (fun i => BitVec.ofNat 32 (numAt r.payload (4 + 4 * i) 4))))

end Sys2Proof.Machine
end

