-- ==== Sys2Proof/Machine/RailOps.lean ====
section
/-! DEFINITION. Rails and the sequencer: up-sequence, down-sequence, failed rises and running faults (12 R345 to
R366). -/

namespace Sys2Proof.Machine

/-- Rail code of rail i (12 Table 12-1): 0 to 9 Undercoat rails, 10 to 25 slots. -/
def railCode (i : Nat) : Nat := if i < 10 then i else i + 6

/-- Rail number of a code; none for a code that is no rail. -/
def railOfCode (c : Nat) : Option Nat := if c < 10 then some c else if 0x10 ≤ c ∧ c < 0x20 then some (c - 6) else none

/-- Rail i. -/
def State.rail (s : State) (i : Nat) : Rail :=
  if i < 10 then s.power.rails[i % 10]'(Nat.mod_lt _ (by decide)) else s.power.slots[(i - 10) % 16]'(Nat.mod_lt _ (by decide))

/-- Changes rail i; a change of its state raises IS176 + u, or IS186 for a slot (12 R376). When UC1 leaves GOOD the
service port stops sourcing (18 R481). -/
def State.modRail (i : Nat) (f : Rail → Rail) (s : State) : State :=
  let was := (s.rail i).run
  let s := s.modPower (fun p =>
    if i < 10 then { p with rails := vmod p.rails (Fin.ofNat 10 i) f } else { p with slots := vmod p.slots (Fin.ofNat 16 (i - 10)) f })
  let s := s.raiseIf ((s.rail i).run != was) (if i < 10 then 176 + i else 186)
  if i = 1 && was == .good && (s.rail i).run != .good then s.portSourceLost else s

/-- Changes the sequencer. -/
def State.modSqr (f : Sequencer → Sequencer) (s : State) : State := s.modPower (fun p => { p with seq := f p.seq })

/-- Entry of a rail code in a sequencer table. -/
def SeqTable.entry (t : SeqTable) (code : Nat) : Option SeqEntry := t.entries.find? (fun e => e.rail == code)

/-- Entry of rail i in the running sequence's table, else in the store. -/
def State.entryOf (s : State) (i : Nat) : Option SeqEntry :=
  match s.power.seq.table.entry (railCode i) with
  | some e => some e
  | none => s.power.seq.store.entry (railCode i)

/-- UC2 to UC9 (12, after R347). -/
def mandatory (i : Nat) : Bool := decide (2 ≤ i) && decide (i < 10)

/-- A fault of the rail ends the sequence: CRITICAL entries, and UC0, which has no entry and feeds every other rail
(DEDUCED, log entry 84). -/
def State.railCritical (s : State) (i : Nat) : Bool :=
  i == 0 || mandatory i || (match s.entryOf i with | some e => e.critical | none => false)

/-- Rails on which a rail's DEPS rest. -/
def State.depsOf (s : State) (i : Nat) : List Nat :=
  match s.entryOf i with
  | some e => (List.range 26).filter (fun k => bitAt e.deps (railCode k))
  | none => []

/-- A rail is enabled at an instant (12 R356). -/
def Rail.enable (at_ : Nanos) (x : Rail) : Rail :=
  { x with run := .rising, pg := false, uv := false, ov := false, oc := false, ot := false, enabledAt := at_ }

/-! ### Set output and windows (12 R347, R348, R351) -/

/-- A rail or slot parameter as the A-die holds it: the stored value while the firmware runs on the image it loaded, else the copy in
the sequencer store (12 R354, R373). -/
def State.railParam (s : State) (id : Nat) : Nat :=
  if s.power.safety.dieRunning && !s.sys.cold then s.param id
  else ((bankGet? id s.power.seq.storeParams).map (·.toNat)).getD (paramDefault id)

/-- ID of parameter k of rail i. -/
def railId (i k : Nat) : Nat := if i < 10 then 0x1500 + 8 * i + k else 0x1580 + 4 * (i - 10) + k

/-- Outputs of 12 Table 12-2, mV. -/
def railVolts : List Nat := [12000, 5000, 3300, 1800, 750, 1100, 600, 1800, 2500, 900]

/-- UC_TRIM; of UC4 with TH_AVS_OFS, clamped to the trim range (14 R399), 0.1%. -/
def State.trim (s : State) (i : Nat) : Int :=
  let t := signedOf 16 (s.railParam (railId i 1))
  if i = 4 then clampI (-30) 30 (t + s.clock.th.avsOfs) else t

/-- The set output towards which a rail moves, mV. -/
def State.setGoal (s : State) (i : Nat) : Rat := (railVolts.getD i 0 : Nat) * (1000 + (s.trim i : Rat)) / 1000

/-- The set output, which a new trim moves at 1 mV per 10 µs (12 R347). -/
def State.setMv (s : State) (i : Nat) : Rat :=
  let goal := s.setGoal i
  match (s.rail i).setFrom with
  | none => goal
  | some a =>
    let d : Rat := ((s.clk - (s.rail i).setAt : Nat) : Rat) / 10000
    if a ≤ goal then min goal (a + d) else max goal (a - d)

/-- The trim of an undercoat rail has changed since s0: its output starts to move. -/
def State.moveSet (s0 : State) (i : Nat) (s : State) : State :=
  let a := s0.setMv i
  let now := s.clk
  s.modRail i (fun x => { x with setFrom := some a, setAt := now })

/-- A slot supervises its rail (12 R351). -/
def State.senses (s : State) (i : Nat) : Bool := i < 10 || bitAt (s.rail i).cfg 1

/-- The window of a rail, mV at its output, or at EXnn_SNS (12 R348, R351). -/
def State.railWindow (s : State) (i : Nat) : Rat × Rat :=
  let w := s.railParam (railId i (if i < 10 then 2 else 1))
  if i < 10 then
    let v := s.setMv i
    (v * (1000 - (bitsOf w 7 0 : Nat)) / 1000, v * (1000 + (bitsOf w 15 8 : Nat)) / 1000)
  else ((bitsOf w 15 0 : Nat), (bitsOf w 31 16 : Nat))

/-- An output lies in the window. -/
def State.inRailWindow (s : State) (i mv : Nat) : Bool :=
  !s.senses i || (decide ((s.railWindow i).1 ≤ mv) && decide ((mv : Rat) ≤ (s.railWindow i).2))

/-- What the supervisor reports, an output that lies out of the window on the side of the cause, current limit or temperature (12
Table 12-8); a slot has neither of the last two, and without sensing it reports nothing. -/
def State.supervises (s : State) (i cause mv : Nat) : Bool :=
  s.senses i &&
    match cause with
    | 2 => decide ((mv : Rat) < (s.railWindow i).1)
    | 3 => decide ((s.railWindow i).2 < mv)
    | 4 | 5 => decide (i < 10)
    | _ => false

/-- Least time from enable to PG, ns: the filter of the window, and EX_PG_DLY of a slot (12 R348, R351). -/
def State.pgTime (s : State) (i : Nat) : Nat :=
  if i < 10 then bitsOf (s.railParam (railId i 2)) 23 16 * 1000
  else s.railParam (railId i 2) * 1000000 + (if s.senses i then 10000 else 0)

/-- Level of EXnn_EN (12 R350): away from the off level, which follows the POL of the store, while the slot is enabled. -/
def State.exEn (s : State) (x : Fin 16) : Bool :=
  let i := 10 + x.val
  let y := s.rail i
  let on := (y.run == .rising && decide (y.enabledAt ≤ s.clk)) || y.run == .good
  if on then !bitAt y.cfg 0
  else bitAt (((bankGet? (railId i 0) s.power.seq.storeParams).map (·.toNat)).getD (paramDefault (railId i 0))) 0

/-- A rail or slot is enabled at an instant, and takes its UC_CFG or EX_CFG (12 R347, R356, R373). -/
def State.enableRail (i : Nat) (at_ : Nanos) (s : State) : State :=
  let c := s.railParam (railId i 0)
  s.modRail i (fun x => { x.enable at_ with cfg := c })

/-- Every mandatory rail is GOOD. -/
def State.allMandatory (s : State) : Bool := (List.range 26).all (fun i => !mandatory i || (s.rail i).run == .good)

/-- The rail's output is up or rising. -/
def Rail.up (x : Rail) : Bool := x.run == .rising || x.run == .good

/-- A rail fault record (12 Table 12-8), 32 at most, oldest overwritten. -/
def State.recordRail (i cause : Nat) (mv : U16) (s : State) : State :=
  let q := s.power.seq
  let f : RailFault := { rtc := s.rtc, rail := railCode i, cause := cause, stage := if q.run == .up then q.stage else 0xFF
                         attempt := q.retries, mv := mv.toNat }
  s.modPower (fun p => { p with keep := { p.keep with rail := (f :: p.keep.rail).take 32 } })

/-- A rail goes to a stopped state with a cause; its output is down. -/
def Rail.fail (run : RailRun) (cause : Nat) (x : Rail) : Rail :=
  { x with run := run, pg := false, cause := BitVec.ofNat 8 cause, faults := if cause = 6 then x.faults else satInc x.faults
           uv := cause == 2, ov := cause == 3, oc := cause == 4, ot := cause == 5 }

/-- A rail is disabled: its output falls. -/
def Rail.disable (x : Rail) : Rail := { x with run := .lowering, pg := false, uv := false, ov := false, oc := false, ot := false }

/-- A rail whose output is down. -/
def Rail.downNow (x : Rail) : Rail := { x with run := .off, pg := false }

/-- Rails of a stage, by the table in use; stage 0 is UC0. -/
def Sequencer.stageRails (q : Sequencer) (k : Nat) : List Nat :=
  if k = 0 then (if q.sleepOnly then [] else [0])
  else (q.table.entries.filter (fun e => e.stage == k && !(q.sleepOnly && e.sleep))).filterMap (fun e => railOfCode e.rail)

/-- Stages with entries, ascending, after stage k. -/
def Sequencer.stagesAfter (q : Sequencer) (k : Nat) : List Nat :=
  (List.range 16).filter (fun n => decide (k < n) && !(q.stageRails n).isEmpty)

/-- The end of a stage, and of the sequence with the last one (12 R356, R357, R364, R366). -/
def State.stageCheck (s : State) : State :=
  let q := s.power.seq
  let now := s.clk
  if q.run != .up || q.stageEnded then s
  else if (q.stageRails q.stage).all (fun i => (s.rail i).run == .good || (s.rail i).run == .failed) then
    let s := s.modSqr (fun x => { x with stageEnded := true, stepDriven := false, advanced := false, since := now })
    if (q.stagesAfter q.stage).isEmpty then
      ((s.modSqr (fun x => { x with run := .complete })).modSafety (fun x => { x with causes := x.causes &&& ~~~(1#12 <<< 4) })).raise 187
    else s
  else s

/-- The device takes part in STEP_N in this sequence (12 R360, R364, R365). -/
def Sequencer.stepTaken (q : Sequencer) : Bool := q.table.stepEn && !q.stepAlone && !q.sleepOnly

/-- Stage k begins: its entries are enabled DELAY × 10 µs later; one with a DEPS rail that has failed is never enabled
(12 R356). -/
def State.beginStage (k : Nat) (s : State) : State :=
  let now := s.clk
  let s := s.modSqr (fun x => { x with
    stage := k, stageEnded := false, advanced := false, since := now, stepDriven := x.stepTaken
    stepLine := x.stepLine && !x.stepTaken })
  let s := (s.power.seq.stageRails k).foldl (fun t i =>
    let bad := (t.depsOf i).any (fun d => (t.rail d).run == .failed || (t.rail d).run == .fault)
    let delay := match t.entryOf i with | some e => e.delay * 10000 | none => 0
    if bad then (t.recordRail i 6 0).modRail i (Rail.fail .failed 6)
    else if (t.rail i).up then t
    else t.enableRail i (now + delay)) s
  s.stageCheck

/-- An up-sequence begins: with stage 0, or, at a wake from sleep, with the first stage that has rails to raise (12
R356, R360). An up-sequence takes the table of the store; a wake from sleep is none, and keeps its own (R355). -/
def State.startUp (sleepOnly : Bool) (s : State) : State :=
  let s := s.modSqr (fun x => { x with
    run := .up, sleepOnly := sleepOnly, stepAlone := false, table := if sleepOnly then x.table else x.store })
  let now := s.clk
  if sleepOnly then
    match s.power.seq.stagesAfter 0 with
    | k :: _ => s.beginStage k
    | [] => (s.modSqr (fun x => { x with run := .complete, stage := 15, stageEnded := true, since := now })).raise 187
  else s.beginStage 0

/-- Disables the rails of a stage that are up. -/
def State.lowerStage (k : Nat) (s : State) : State :=
  let now := s.clk
  let s := (s.power.seq.stageRails k).foldl (fun t i => if (t.rail i).up then t.modRail i Rail.disable else t) s
  let s := s.modSqr (fun x => { x with stage := k, since := now })
  if s.power.seq.sleepOnly || s.allMandatory then s else s.dieDown

/-- Stages below k with rails that are up, highest first; a rail without an entry goes down with the first one. -/
def State.stagesBelow (s : State) (k : Nat) : List Nat :=
  ((List.range k).filter (fun n => (s.power.seq.stageRails n).any (fun i => (s.rail i).up))).reverse

/-- A down-sequence has ended (12 R358, R360, R367). -/
def State.downEnds (s : State) : State :=
  let q := s.power.seq
  let now := s.clk
  let s := s.modSqr (fun x => { x with run := q.after, since := now, stageEnded := true, stage := if q.after == .complete then 15 else 0 })
  if q.after == .lockout then s.modSafety (fun x => { x with driving := true }) else s

/-- A down-sequence begins (12 R359); `after` tells what follows. -/
def State.startDown (sleepOnly : Bool) (after : SeqRun) (s : State) : State :=
  let s := s.modSqr (fun x => { x with run := .down, sleepOnly := sleepOnly, after := after, stepDriven := false, advanced := false })
  let extra := (List.range 26).filter (fun i => !sleepOnly && i != 0 && (s.rail i).up &&
    !s.power.seq.table.entries.any (fun e => e.rail == railCode i))
  let s := extra.foldl (fun t i => t.modRail i Rail.disable) s
  match s.stagesBelow 16 with
  | k :: _ => s.lowerStage k
  | [] => if extra.isEmpty then s.downEnds else s.modSqr (fun x => { x with stage := 0 })

/-- The sequence has ended with a fault: it is retried, or the device enters LOCKOUT (12 R358). -/
def State.sequenceFails (s : State) : State :=
  let q := s.power.seq
  if q.retries < q.table.retry then (s.modSqr (fun x => { x with retries := x.retries + 1 })).startDown false .retryWait
  else s.startDown false .lockout

/-- Rails that rest on rail i, directly or through others (12 R362), those of the highest stage first. -/
def State.dependents (s : State) (i : Nat) : List Nat :=
  let step (l : List Nat) : List Nat := l ++ (List.range 26).filter (fun k => !l.contains k && (s.depsOf k).any l.contains)
  let all := (step (step (step (step (step [i]))))).filter (fun k => k != i && (s.rail k).up)
  let stage (k : Nat) : Nat := ((s.entryOf k).map (·.stage)).getD 0
  ((List.range 16).reverse).flatMap (fun n => all.filter (fun k => stage k == n))

/-- The dependents of a rail go down as FAILED with cause DEPENDENCY (12 R362). -/
def State.dropDependents (i : Nat) (s : State) : State :=
  (s.dependents i).foldl (fun t k => (t.recordRail k 6 0).modRail k (Rail.fail .failed 6)) s

end Sys2Proof.Machine
end

