-- ==== Sys2Proof/Machine/WakeOps.lean ====
section
/-! DEFINITION. Wake sources of the low-power states (06 R188 to R192): how a source is recorded and what starts a
wake. -/

namespace Sys2Proof.Machine

/-- Changes the low-power state. -/
def State.modLow (f : LowPower → LowPower) (s : State) : State := s.modChg (fun c => { c with low := f c.low })

/-- The wake record (06 Table 6-15). -/
def WakeRecord.bytes (x : WakeRecord) : List Byte :=
  leBytes 1 x.cause ++ leBytes 1 x.left ++ leBytes 2 x.seen.toNat ++ leBytes 4 x.duration ++ leBytes 8 x.runTime.toNat ++
    leBytes 4 (flag x.interrupted + 2 * flag x.auxWait) ++ zeros 4

/-- A source wakes from sleep (06 Table 6-14). -/
def sleepSource (code : Nat) : Bool := code == 1 || (decide (3 ≤ code) && decide (code ≤ 8))

/-- A source wakes from dust-sheet mode (06 Table 6-14). -/
def dustSource (code : Nat) : Bool := decide (1 ≤ code) && decide (code ≤ 4)

/-- A source that the mask does not shut out; WAKE_N and AUX rising are always enabled (06 R188). -/
def LowPower.enabled (code : Nat) (l : LowPower) : Bool := code == 1 || code == 2 || l.mask.getLsbD code

/-- A source is recorded: CAUSE is the first, of several in one count of the real-time counter the lowest (06 R188). -/
def LowPower.note (rtc code : Nat) (l : LowPower) : LowPower :=
  let cause := match l.first with
    | none => code
    | some t => if t = rtc then min code l.record.cause else l.record.cause
  { l with
    first := some (l.first.getD rtc)
    record := { l.record with cause := cause, seen := l.record.seen ||| (1#16 <<< code) } }

/-- The wake starts: from sleep the rails without SLEEP come up (12 R360), from dust-sheet mode the fuses are read and
a cold start begins (01 R12, 06 R192). -/
def State.beginWake (s : State) : State :=
  let l := s.chg.low
  let dust := l.run == .dustSheet
  let spent := (s.clk - l.enteredAt) / 1000000000
  let s := s.modLow (fun x => { x with
    run := .waking, record := { x.record with left := if dust then 2 else 1, duration := min spent (2 ^ 32 - 1) } })
  if dust then (s.modSec SecState.latchFuses).portEnable.startUp false else s.startUp true

/-- A wake source arrives (06 R188 to R191). -/
def State.wakeBy (code : Nat) (s : State) : State :=
  let l := s.chg.low
  let noted := s.modLow (LowPower.note s.rtc code)
  if !l.enabled code then s
  else match l.run with
    | .running => s
    | .enteringSleep => if sleepSource code then noted else s
    | .enteringDustSheet => if dustSource code then noted else s
    | .sleep => if sleepSource code then noted.beginWake else s
    | .dustSheet =>
      if !dustSource code then s
      else if code != 2 && !s.power.supply.auxOk then
        noted.modLow (fun x => { x with record := { x.record with auxWait := true } })
      else noted.beginWake
    | .waking => if (if l.record.left = 2 then dustSource code else sleepSource code) then noted else s

end Sys2Proof.Machine
end

