-- ==== Sys2Proof/Machine/Rails.lean ====
section
/-! DEFINITION. The commands and events of rails, sequencer, brown-out and hold-up (12). -/

namespace Sys2Proof.Machine

/-- RAIL_POWER_GOOD (12 R348, R351, R356): a rising rail has been in its window, at an output of `mv`, for the time of its filter. -/
def execRailPowerGood (rail : Fin 32) (mv : U16) (s : State) : Out :=
  let i := rail.val
  if 26 ≤ i || (s.rail i).run != .rising || !s.inRailWindow i mv.toNat then .next s
  else
    let t := s.atLeast ((s.rail i).enabledAt + s.pgTime i)
    .next (t.modRail i (fun x => { x with run := .good, pg := true })).stageCheck

/-- RAIL_RISE_TIMEOUT (12 R348, R358): a failed rise, at RISE_MS or at OV, OC or OT. -/
def execRailRiseTimeout (rail : Fin 32) (cause : Fin 9) (mv : U16) (s : State) : Out :=
  let i := rail.val
  let c := cause.val
  if 26 ≤ i || (s.rail i).run != .rising || !(c == 1 || (c != 2 && s.supervises i c mv.toNat)) then .next s
  else
    let rise := match s.entryOf i with | some e => e.riseMs * 1000000 | none => 0
    let t := if c = 1 then s.atLeast ((s.rail i).enabledAt + rise) else s
    let t := if c != 1 && mandatory i then t.modSafety (fun x => { x with clamp := true }) else t
    let t := (t.recordRail i c mv).modRail i (Rail.fail .failed c)
    if !t.railCritical i then .next t.stageCheck
    else if t.power.seq.run == .down || t.power.seq.run == .holdUp then .next t
    else .next (t.sequenceFails.settle s)

/-- CRITICAL_RAIL_FAULT (12 R349, R361, R363): the clamp, the safe state, the record, the retry. -/
def execCriticalRailFault (rail : Fin 32) (cause : Fin 9) (mv : U16) (s : State) : Out :=
  let i := rail.val
  let c := cause.val
  if 26 ≤ i || !s.supervises i c mv.toNat || !s.railCritical i then .next s
  else
    let q := s.power.seq.run
    if q == .down || q == .holdUp then .next (if (s.rail i).run == .good || (s.rail i).run == .lowering then s.recordRail i c mv else s)
    else if (s.rail i).run != .good then .next s
    else
      let t := if mandatory i then s.modSafety (fun x => { x with clamp := true }) else s
      let t := (t.recordRail i c mv).modRail i (Rail.fail .fault c)
      .next (((t.safeState 4 0).sequenceFails).settle s)

/-- NONCRITICAL_RAIL_FAULT (12 R362): the rails that rest on it go down first. -/
def execNoncriticalRailFault (rail : Fin 32) (cause : Fin 9) (mv : U16) (s : State) : Out :=
  let i := rail.val
  let c := cause.val
  if 26 ≤ i || !s.supervises i c mv.toNat || s.railCritical i || (s.rail i).run != .good then .next s
  else
    let t := (s.recordRail i c mv).dropDependents i
    .next ((t.modRail i (Rail.fail .fault c)).stageCheck)

/-- SEQUENCER_STAGE_START (12 R356): GAP_US after the end of the stage before, and with the advance of STEP_N where the
device takes part. -/
def execSequencerStageStart (s : State) : Out :=
  let q := s.power.seq
  if q.run != .up || !q.stageEnded then .next s
  else if q.stepTaken && !q.advanced then .next s
  else
    match q.stagesAfter q.stage with
    | k :: _ => .next ((s.atLeast (q.since + q.table.gapUs * 1000)).beginStage k)
    | [] => .next s

/-- STEP_N_ADVANCE (12 R364): the line, which this device has released, has been high for 5 µs; the device advances and drives it low
again. -/
def execStepNAdvance (s : State) : Out :=
  let q := s.power.seq
  if q.run == .up && q.stageEnded && q.stepTaken && !q.stepDriven then
    .next ((s.atLeast (q.since + 5000)).modSqr (fun x => { x with stepLine := false, stepDriven := true, advanced := true }))
  else .next s

/-- STEP_N_TIMEOUT (12 R365). -/
def execStepNTimeout (s : State) : Out :=
  let q := s.power.seq
  if q.run == .up && q.stageEnded && q.stepTaken && !q.advanced then
    .next (((s.atLeast (q.since + q.table.stepTmoMs * 1000000)).modSqr (fun x => { x with stepAlone := true, stepLine := false })).raise 188)
  else .next s

/-- How long the slots that go down without sensing are given (12 R359), ns. -/
def State.offWait (s : State) : Nat :=
  ((List.range 26).filter (fun i => (s.rail i).run == .lowering && !s.senses i)).foldl
    (fun t i => max t (bitsOf (s.rail i).cfg 15 8 * 1000000)) 0

/-- DOWN_SEQUENCE_STAGE (12 R359): the outputs of the stage are down; after GAP_US the next lower stage follows. A rail
that RAIL_OFF disabled is OFF. -/
def execDownSequenceStage (s : State) : Out :=
  let q := s.power.seq
  let due := q.since + s.offWait + q.table.gapUs * 1000
  let off (t : State) : State :=
    (List.range 26).foldl (fun t i => if (t.rail i).run == .lowering then t.modRail i Rail.downNow else t) t
  if q.run != .down then .next (off s)
  else
    let t := off s
    match t.stagesBelow q.stage with
    | k :: _ => .next (((t.atLeast due).lowerStage k).settle s)
    | [] =>
      let left := (List.range 26).filter (fun i => !q.sleepOnly && (t.rail i).run != .off && (t.rail i).run != .failed && (t.rail i).run != .fault)
      if left.isEmpty then .next (t.downEnds.settle s)
      else .next (((t.atLeast due).lowerStage 0).settle s)

/-- SEQUENCE_RETRY_WAIT_END (12 R358). -/
def execSequenceRetryWaitEnd (s : State) : Out :=
  let q := s.power.seq
  if q.run != .retryWait then .next s
  else .next ((s.atLeast (q.since + q.table.retryWaitMs * 1000000)).startUp false)

/-- LOCKOUT_EXIT (12 R358): a fresh sequence with the retry count at 0. -/
def execLockoutExit (s : State) : Out :=
  if s.power.seq.run != .lockout then .next s
  else .next ((s.modSqr (fun x => { x with retries := 0 })).startUp false)

/-- SEQUENCE_RETRY_RESET (12 R358): complete for 10 min. -/
def execSequenceRetryReset (s : State) : Out :=
  let q := s.power.seq
  if q.run != .complete then .next s
  else .next ((s.atLeast (q.since + 600000000000)).modSqr (fun x => { x with retries := 0 }))

/-! ### Supplies, brown-out and hold-up -/

/-- Changes the supplies. -/
def State.modSupply (f : Supplies → Supplies) (s : State) : State := s.modPower (fun p => { p with supply := f p.supply })

/-- AUX_RISE (12 R356, R367; 01 R12): AUX, `aux` in 0.1 V, is in its operating range of 18 V to 60 V; where the Plumb island is powered afresh, the fuses are read and latched;
and an up-sequence starts where none runs. In dust-sheet mode the island stays off; a device that waits for AUX starts
(06 R189), and whether AUX rising is a source of its own comes with WAKE_SOURCE. -/
def execAuxRise (aux : U16) (s : State) : Out :=
  let t := s.modSupply (fun x => { x with auxOk := true, aux := aux })
  if aux.toNat < 180 || 600 < aux.toNat then .next s
  else if s.chg.low.run == .dustSheet then .next (if s.chg.low.record.auxWait then t.beginWake else t)
  else
    let t := if s.islandUp then t else (t.modSec SecState.latchFuses).portEnable
    let t := t.modSafety (fun x => { x with causes := x.causes &&& ~~~(1#12 <<< 5) })
    .next (if t.power.seq.run == .idle then t.startUp false else t)

/-- AUX_BROWN_OUT (12 R346, R367, R369): AUX, `aux` in 0.1 V, has been below AUX_BO for 10 µs and UC0 moves to HOLD; a running up-sequence ends without counting as a retry. -/
def execAuxBrownOut (aux : U16) (s : State) : Out :=
  if !s.power.supply.auxOk || decide (s.power.seq.table.auxBo ≤ aux.toNat) then .next s
  else
    let now := s.clk
    let t := (s.modSupply (fun x => { x with auxOk := false, aux := aux, onHold := true, rideSince := now })).raise 190
    if t.power.seq.run == .up then .next ((t.startDown false .idle).settle s) else .next t

/-- AUX_RETURN (12 R346, R367): AUX, `aux` in 0.1 V, has been above AUX_BO + 0.5 V for 1 ms and UC0 is back on it; within the ride-through the event is recorded in O0's ring. -/
def execAuxReturn (aux : U16) (s : State) : Out :=
  if !s.power.supply.onHold || decide (aux.toNat ≤ s.power.seq.table.auxBo + 5) then .next s
  else
    let t := s.atLeast (s.power.supply.rideSince + 1000000)
    let t := (t.modSupply (fun x => { x with auxOk := true, aux := aux, onHold := false })).raise 190
    .next (if s.power.seq.run == .complete then t.openEvent .plumb .o0Event else t)

/-- Learned values of the flush, in the order of 12 R368. -/
def State.flushRecords (s : State) : List NvmWrite :=
  [⟨0x10#8, 0#16, ((List.finRange 4).map s.ccItem).flatten⟩,
   ⟨0x11#8, 0#16, ((List.finRange 4).map (fun p => leBytes 4 (s.strPort p).faultWord)).flatten⟩,
   ⟨0x12#8, 0#16, ((List.finRange 64).map (fun p => (s.phase p).counterItem p)).flatten⟩] ++
  ((List.finRange 64).filter (fun m => s.moduleEn m && ((s.mest m).used (s.nCell m)).all (·.started))).map (fun m => ⟨0x30#8, BitVec.ofNat 16 m.val, s.moduleRecord m⟩) ++
  [⟨0x31#8, 0#16, s.stringRecord⟩,
   ⟨0x13#8, 0#16, leBytes 4 s.sys.wd.cntResets.toNat ++ leBytes 4 s.clock.th.cntTrips.toNat ++ leBytes 4 s.clock.th.hoursHot.toNat⟩]

/-- Writes records while a budget of bytes lasts; answers what is left of it and the records not written. -/
def State.spend : Nat → List NvmWrite → State → State × Nat × List NvmWrite
  | b, [], s => (s, b, [])
  | b, w :: ws, s =>
    if nvmBytes w.payload.length ≤ b then (s.writeRecord w).spend (b - nvmBytes w.payload.length) ws else (s, b, w :: ws)

/-- The flush of the hold-up (12 R368, 19 R503): what waits, up to 64 KB of learned values, then queued events while the
64 KB last; the number of the remainder is kept in the retention SRAM. With writes held back by temperature the journal
writes are skipped. -/
def State.flush (s : State) : State :=
  let now := s.now
  let n := s.nv.nvm
  let keepLost (k : Nat) (t : State) : State :=
    if k = 0 then t
    else t.modPower (fun p => { p with keep := { p.keep with evtLost := some (match t.nv.nvm.lost with
      | some (m, a, b) => (m + k, a, b)
      | none => (k, now, now)) } })
  if s.nvmHeld then keepLost n.queue.length (s.modNvm (fun x => { x with waiting := [], queue := [] }))
  else
    let s := s.modNvm (fun x => { x with waiting := [], queue := [] })
    let s := n.waiting.foldl (fun t w => t.writeRecord w) s
    let (s, b, _) := s.spend 65536 s.flushRecords
    let (s, _, rest) := s.spend b n.queue
    keepLost rest.length s

/-- RIDE_THROUGH_EXPIRY (12 R367, R368): the safe state with cause AUX_LOST and the flush. -/
def execRideThroughExpiry (s : State) : Out :=
  let x := s.power.supply
  let q := s.power.seq.run
  if x.auxOk || !x.onHold || !(q == .complete) then .next s
  else
    let t := s.atLeast (x.rideSince + s.power.seq.table.rideMs * 1000000)
    let t := (t.safeState 5 (flag t.nvmHeld)).flush
    let t := if s.nvmHeld then t.modPower (fun p => { p with keep := { p.keep with
        rail := (⟨t.rtc, 0, 8, 0xFF, p.seq.retries, 0⟩ :: p.keep.rail).take 32 } }) else t
    .next ((t.modSqr (fun y => { y with run := .holdUp })).settle s)

/-- HOLD_UP_FLUSH_COMPLETE (12 R368, Table 12-6): the journal time goes to the retention SRAM and the rails go down. -/
def execHoldUpFlushComplete (s : State) : Out :=
  if s.power.seq.run != .holdUp then .next s
  else
    let t := if s.nvmHeld then s else s.journalled
    .next ((t.startDown false .idle).settle s)

/-- HOLD_READY_CHANGE (12 R370): HOLD as measured, 0.1 V. -/
def execHoldReadyChange (hold : U16) (s : State) : Out :=
  .next (s.modSupply (fun x => { x with hold := hold })).holdCheck

/-- RETENTION_LOSS (12 R371, R372; 01 R12): KA, AUX and HOLD are below 4.5 V. -/
def execRetentionLoss (s : State) : Out :=
  let now := s.clk
  let t := (List.range 26).foldl (fun t i => t.modRail i (fun x => { x with run := .off, pg := false })) s
  let t := t.dieDown
  let t := t.modPower (fun p => { p with
    keep := { plumb := [], rail := [], journalRtc := 0, lost := true, evtLost := none }
    seq := { p.seq with run := .idle, stage := 0, stageEnded := false, retries := 0, stepAlone := false, stepDriven := false }
    supply := { p.supply with auxOk := false, onHold := false, kaOk := false, holdReady := false }
    safety := { p.safety with causes := 0, driving := false }
    rtcSince := now })
  let unlatch (f : Fuse) : Fuse := { f with latched := false }
  let t := t.modSec (fun c => { c with
    loaded := false, wdtHwstart := unlatch c.wdtHwstart, servicePortDisable := unlatch c.servicePortDisable
    customerCores := unlatch c.customerCores, debugLock := unlatch c.debugLock })
  let t := t.modChg (fun c => { c with low := ChargeState.initial.low, ports := c.ports.map (fun p => { Port.initial with faults := p.faults, first := p.first }) })
  .next (t.portEnable.settle s)

/-! ### Release of the D-die reset -/

/-- RESET_N is driven low: the D-die is in reset, or the output clamp acts (21 R537). -/
def State.resetNLow (s : State) : Bool := !s.power.safety.dieRunning || s.power.safety.clamp

/-- D_DIE_RESET_RELEASE (12 R357; 13 R378, R387; 15 R403; 21 R536, R537, R539): every mandatory rail is GOOD. The straps
and the levels of the phase banks are read, SRAM and map are zero, device time is 0. Each strap comes with its eight samples, each bank
with its supply in mV. -/
def execDDieResetRelease (pairRole bootSel0 : BitVec 8) (banks : List Nat) (s : State) : Out :=
  if s.power.safety.dieRunning || !s.allMandatory then .next s
  else
    let refSel := match s.savedImage with
      | some b => ((bankGet? 0x1600 b).map (·.toNat)).getD (paramDefault 0x1600)
      | none => paramDefault 0x1600
    let t := s.dieReset .booting true
    let t := t.modSafety (fun x => { x with bootSel0 := strapHigh bootSel0 })
    let t := t.modConv (fun c => { c with
      link := { c.link with roleStrap := strapHigh pairRole }
      banks := Vector.ofFn (fun (k : Fin 8) =>
        let mv := banks.getD k.val 0
        let b : PhaseBank := { high := decide (2500 < mv), inWindow := true }
        { b with inWindow := b.inside mv }) })
    let ref := if bitAt refSel 8 then t.clock.tb.refclkOk else !t.clock.tb.xtalOk && t.clock.tb.refclkOk
    let t := t.modTb (fun x => { x with refclk := ref, refSel := bitAt refSel 8, refAuto := bitAt refSel 9 })
    let now := t.clk
    .next (if t.wdFused then t.modWd (fun x => { x with run := .running, restart := now, resume := now }) else t)

/-! ### Commands -/

/-- UC_STATUS and EX_STATUS (12 Table 12-12). -/
def Rail.status (slot : Bool) (x : Rail) : Nat :=
  (match x.run with | .off => 0 | .rising => 1 | .good => 2 | .failed => 3 | .fault => 4 | .lowering => 5) +
    fieldAt 3 1 (flag x.pg) + fieldAt 4 1 (flag x.uv) + fieldAt 5 1 (flag x.ov) + fieldAt 6 1 (flag (x.oc && !slot)) +
    fieldAt 7 1 (flag (x.ot && !slot)) + fieldAt 8 8 x.cause.toNat + fieldAt 16 16 x.faults.toNat

/-- The content of the sequencer store: the table's body and the parameter copy (12 R354). -/
def Sequencer.storeBytes (q : Sequencer) : List Byte :=
  q.storeBody ++ (q.storeParams.map (fun e => leBytes 2 e.1 ++ leBytes 8 e.2.toNat)).flatten

/-- The sequencer status word (12 Table 12-14). -/
def State.seqStatus (s : State) : Nat :=
  let q := s.power.seq
  let x := s.power.supply
  (if q.run == .complete then 0xF else q.stage) + fieldAt 4 1 (flag q.stepAlone) + fieldAt 5 1 (flag x.holdReady) +
    fieldAt 6 1 (flag x.onHold) + fieldAt 7 1 (flag s.faultLow) + fieldAt 8 1 (flag s.power.safety.driving) +
    fieldAt 9 3 q.retries + fieldAt 16 16 (Config.storeCrc q.storeBytes).toNat

/-- Rails in use: UC0 and those with an entry in table 06:00. -/
def State.railsInUse (s : State) : List Nat :=
  (List.range 26).filter (fun i => i == 0 || (s.power.seq.store.entry (railCode i)).isSome)

/-- RAIL_STATUS (12 Table 12-13). -/
def execRailStatus (r : Req) (s : State) : Out :=
  .next (s.runOp 0x0C01 observe (fun p => if p.length ≠ 1 then some dtLength else if 1 < numAt p 0 1 then some dtReserved else none) (fun s =>
    let item (i : Nat) : List Byte :=
      let x := s.rail i
      leBytes 1 (railCode i) ++ [0#8] ++ leBytes 2 x.minMv.toNat ++ leBytes 2 x.maxMv.toNat ++ zeros 2 ++ leBytes 4 (x.status (10 ≤ i))
    let a := leBytes 4 s.seqStatus ++ leBytes 2 s.power.supply.hold.toNat ++ leBytes 2 s.power.supply.aux.toNat ++
      (s.railsInUse.map item).flatten
    let clear (x : Rail) : Rail := { x with minMv := x.mv, maxMv := x.mv }
    .ok (done a) (if numAt r.payload 0 1 = 1 then
        s.modPower (fun p => { p with rails := p.rails.map clear, slots := p.slots.map clear }) else s)) r)

/-- A sequence is running (12 R375). -/
def State.sequencing (s : State) : Bool :=
  let q := s.power.seq.run
  q == .up || q == .down || q == .retryWait || q == .holdUp

/-- The rail may not be switched now (12 R375). -/
def State.railBusy (s : State) (i : Nat) : Bool :=
  (s.rail i).run == .rising || (s.rail i).run == .lowering || s.sequencing

/-- RAIL_ON (12 R375). -/
def execRailOn (r : Req) (s : State) : Out :=
  .next (s.runOp 0x0C02 service (len 1) (fun s =>
    match railOfCode (numAt r.payload 0 1) with
    | none => .no stValue dtRange
    | some i =>
      match s.power.seq.store.entry (railCode i) with
      | none => .no stState 0x0103
      | some e =>
        if s.railBusy i then .no stBusy 0x0104
        else if (s.rail i).run == .good then .ok done (s)
        else if !(List.range 26).all (fun k => !bitAt e.deps (railCode k) || (s.rail k).run == .good) then .no stState 0x0102
        else
          let now := s.clk
          let t := s.modSqr (fun q => { q with table := { q.table with
            entries := q.table.entries.filter (fun x => x.rail != e.rail) ++ [e] } })
          .ok done (t.enableRail i now)) r)

/-- RAIL_OFF (12 R362, R375). -/
def execRailOff (r : Req) (s : State) : Out :=
  .next (s.runOp 0x0C03 service (len 1) (fun s =>
    match railOfCode (numAt r.payload 0 1) with
    | none => .no stValue dtRange
    | some i =>
      if s.railCritical i then .no stState 0x0101
      else if s.railBusy i then .no stBusy 0x0104
      else if (s.rail i).run == .good then
        .ok done (((s.dropDependents i).modRail i Rail.disable))
      else .ok done ((s.modRail i (fun x => { x with run := .off })))) r)

/-- A rail fault record as stored (12 Table 12-8). -/
def RailFault.bytes (f : RailFault) : List Byte :=
  leBytes 8 f.rtc ++ leBytes 1 f.rail ++ leBytes 1 f.cause ++ leBytes 1 f.stage ++ leBytes 1 f.attempt ++ leBytes 2 f.mv ++ zeros 2

/-- FAULT records of the last 8 starts in the event log, newest first. -/
def State.startRecords (s : State) : List Byte :=
  let n := s.nv.nvm
  match n.starts.getLast? with
  | none => []
  | some q =>
    (((n.records.filter (fun x => x.type == 0x22#8 && decide ((x.seq - q).toNat < 2 ^ 31))).reverse.take 111).map (fun x => x.payload)).flatten

/-- RAIL_HISTORY (12 Table 12-13): 32 places of rail fault records, those never written zero. -/
def execRailHistory (r : Req) (s : State) : Out :=
  .next (s.runOp 0x0C04 observe (len 0) (fun s =>
    let b := (s.power.keep.rail.map RailFault.bytes).flatten
    .ok (done (b ++ zeros (512 - b.length) ++ s.startRecords)) s) r)

end Sys2Proof.Machine
end

