-- ==== Sys2Proof/Machine/MemOps.lean ====
section
/-! DEFINITION. Memory: the map, access rights, unwritten granules, integrity failures, and the bytes at an address (16
R426 to R434). -/

namespace Sys2Proof.Machine

/-- The ranges of 16 Tables 16-1 and 16-2 that differ in their rights. -/
inductive Region where
  | bootRom
  | map
  | burpolSram
  | custSram
  | pairWindow
  | mram
  | engine
  | registers
  | descriptors
  | burpolDram
  | custDram
  | pool
  | outside
  deriving DecidableEq, Repr

/-- The region of an address. -/
def regionAt (a : Nat) : Region :=
  if a < 0x40000 then .bootRom
  else if a < 0x10000000 then .outside
  else if a < 0x10038000 then .map
  else if a < 0x10800000 then .burpolSram
  else if a < 0x10C00000 then .custSram
  else if a < 0x10FF0000 then .burpolSram
  else if a < 0x11000000 then .pairWindow
  else if a < 0x20000000 then .outside
  else if a < 0x22000000 then .mram
  else if a < 0x40000000 then .outside
  else if a < 0x40880000 then .engine
  else if a < 0x60000000 then .outside
  else if a < 0x60030000 then .registers
  else if a < 0x1000000000 then .outside
  else if a < 0x1002000000 then .descriptors
  else if a < 0x1030000000 then .burpolDram
  else if a < 0x1040000000 then .custDram
  else if a < 0x11C0000000 then .pool
  else .outside

/-- A region of SRAM with ECC. -/
def Region.isSram (r : Region) : Bool := r == .map || r == .burpolSram || r == .custSram || r == .pairWindow

/-- A region of usable DRAM. -/
def Region.isDram (r : Region) : Bool := r == .descriptors || r == .burpolDram || r == .custDram || r == .pool

/-- Who makes an access (16 Table 16-3). -/
inductive Agent where
  | core (k : Fin 4)
  | dma (c : Fin 32)
  deriving DecidableEq, Repr

/-- A customer core or a customer channel (16 R427). -/
def State.custAgent (s : State) (g : Agent) : Bool :=
  s.custCores && (match g with | .core k => decide (2 ≤ k.val) | .dma c => decide (24 ≤ c.val))

/-- The access is permitted (16 Table 16-3; 01 R14). -/
def State.permitted (s : State) (g : Agent) (write : Bool) (a : Nat) : Bool :=
  let cust := s.custAgent g
  let core := match g with | .core _ => true | .dma _ => false
  match regionAt a with
  | .outside => false
  | .bootRom => !cust && !write
  | .map => core && !cust && !write
  | .burpolSram => !cust
  | .custSram | .custDram => true
  | .pairWindow => !cust
  | .mram => !cust && !write
  | .engine =>
    if write then (match g with | .core k => decide (k.val < 2) | .dma _ => false) else core || !cust
  | .registers => core
  | .descriptors => core && !cust && !write
  | .burpolDram | .pool => !cust

/-- Changes memory. -/
def State.modMem (f : MemState → MemState) (s : State) : State := s.modSys (fun y => { y with mem := f y.mem })

/-- Granule number of a DRAM address. -/
def granule (a : Nat) : Nat := (a - 0x1000000000) / 4096

/-- A ring descriptor (16 Table 16-12). -/
def Ring.bytes (r : Ring) : List Byte :=
  leBytes 4 r.base ++ leBytes 1 r.sizeLog2 ++ leBytes 1 r.owner.val ++ leBytes 1 r.kind ++
    leBytes 1 (flag r.stop + 2 + 4 * flag r.fixed) ++ leBytes 4 r.wr.toNat ++ leBytes 4 r.rd.toNat ++ leBytes 4 r.drop.toNat ++
    leBytes 4 r.notify.toNat ++ leBytes 4 r.source.toNat ++ leBytes 4 r.epoch.toNat

/-- Slots of a ring. -/
def Ring.capacity (r : Ring) : Nat := 2 ^ (r.sizeLog2 - 6)

/-- The granules of a ring. -/
def Ring.granules (r : Ring) : Nat := 2 ^ (r.sizeLog2 - 12)

/-- A VALID ring whose buffer holds an address of the pool. -/
def State.ringAt (s : State) (a : Nat) : Bool :=
  s.sys.ring.rings.any (fun e => decide (e.2.base ≤ granule a) && decide (granule a < e.2.base + e.2.granules))

/-- The granule's map bit reads WRITTEN; a granule of the descriptor table is written with its first ring. -/
def State.isWritten (s : State) (g : Nat) : Bool :=
  s.sys.mem.written.contains g || (decide (g < 8192) && s.sys.ring.rings.any (fun e => e.1 / 128 == g))

/-- What a read of a ring's buffer finds: ciphertext, which the records that went to the ring so far decide (16 R451, R452). -/
def State.ringCipher (s : State) (a : Nat) : Byte :=
  match s.sys.ring.rings.find? (fun e => decide (e.2.base ≤ granule a) && decide (granule a < e.2.base + e.2.granules)) with
  | some e => Config.cipherByte a (e.2.wr.toNat + 2 ^ 32 * e.2.epoch.toNat)
  | none => s.sys.mem.byte a

/-- A read of the address reports UNWRITTEN (16 R433, 19 R500). -/
def State.unwrittenAt (s : State) (a : Nat) : Bool :=
  let r := regionAt a
  if r.isDram then !s.isWritten (granule a)
  else if r == .mram then (s.mramByte (a - 0x20000000)).isNone
  else false

/-- The byte that a permitted read returns; the ring pool holds ciphertext (16 R451). -/
def State.memByte (s : State) (a : Nat) : Byte :=
  if s.unwrittenAt a then 0#8
  else
    match regionAt a with
    | .bootRom => Config.romByte a
    | .map => BitVec.ofNat 8 (maskOf 8 (fun i => s.isWritten ((a - 0x10000000) * 8 + i)))
    | .mram => (s.mramByte (a - 0x20000000)).getD 0#8
    | .descriptors =>
      match bankGet? ((a - 0x1000000000) / 32) s.sys.ring.rings with
      | some r => r.bytes.getD (a % 32) 0#8
      | none => 0#8
    | .pool => s.ringCipher a
    | _ => s.sys.mem.byte a

/-- Inserts a number into an ascending list. -/
def insertAsc (n : Nat) : List Nat → List Nat
  | [] => [n]
  | x :: xs => if n < x then n :: x :: xs else if n = x then x :: xs else x :: insertAsc n xs

/-- The first write to an unwritten granule fills it with zero lines (16 R432). -/
def MemState.touch (g : Nat) (m : MemState) : MemState :=
  if m.written.contains g then m
  else
    let lo := 0x1000000000 + g * 4096
    { m with
      written := insertAsc g m.written
      bytes := m.bytes.filter (fun e => decide (e.1 < lo) || decide (lo + 4096 ≤ e.1))
      failing := m.failing.filter (fun l => decide (l * 64 < lo) || decide (lo + 4096 ≤ l * 64)) }

/-- A permitted write of one byte: the line's tag or ECC word is good again (16 R430). -/
def MemState.putByte (a : Nat) (b : Byte) (m : MemState) : MemState :=
  let m := if (regionAt a).isDram then m.touch (granule a) else m
  { m with bytes := bankSet 0#8 a b m.bytes, failing := m.failing.filter (fun l => l != a / 64) }

/-- Writes bytes at successive addresses. -/
def MemState.putBytes : List Byte → Nat → MemState → MemState
  | [], _, m => m
  | b :: bs, a, m => MemState.putBytes bs (a + 1) (m.putByte a b)

/-- An integrity failure at an address (16 R430): counted, the first one latched, an event in O0's ring. -/
def State.integrity (a : Nat) (s : State) : State :=
  let line := a / 64
  let dram := (regionAt a).isDram
  let s := s.modMem (fun m => { m with
    failing := insertAsc line m.failing
    cntTagfail := if dram then satInc m.cntTagfail else m.cntTagfail
    cntUncorr := if dram then m.cntUncorr else satInc m.cntUncorr
    firstErr := if m.firstErr == 0 then BitVec.ofNat 32 (1 + fieldAt 8 24 (a / 65536)) else m.firstErr })
  s.openEvent .burpol .o0Event

/-- A read reported UNWRITTEN is counted (16 Table 16-7). -/
def State.countUnwritten (s : State) : State := s.modMem (fun m => { m with cntUnwritten := satInc m.cntUnwritten })

/-- Addresses a, a + 1, … of n bytes. -/
def addresses (a n : Nat) : List Nat := (List.range n).map (a + ·)

/-- The first address of a range that lies in a failing line. -/
def State.failingAt (s : State) (as : List Nat) : Option Nat := as.find? (fun a => s.sys.mem.failing.contains (a / 64))

/-- The outcome of a core's load or store. -/
def State.coreDone (core : Fin 4) (data : List Byte) (s : State) : State :=
  s.modMem (fun m => { m with access := some { core := core, data := data, exc := none } })

end Sys2Proof.Machine
end

