-- ==== Sys2Proof/Machine/Dma.lean ====
section
/-! DEFINITION. The DMA channels (16 R435 to R443): descriptors, bursts, completion entries, halts, and the registers
that start and stop them. -/

namespace Sys2Proof.Machine

/-- One channel. -/
def State.dma (s : State) (c : Fin 32) : DmaChannel := s.sys.dma[c.val]

/-- Changes one channel. -/
def State.modDma (c : Fin 32) (f : DmaChannel → DmaChannel) (s : State) : State :=
  s.modSys (fun y => { y with dma := vmod y.dma c f })

/-- Every channel in turn. -/
def State.eachDma (f : Fin 32 → State → State) (s : State) : State := (List.finRange 32).foldl (fun t c => f c t) s

/-- DMA_DESC, the address of the list. -/
def DmaChannel.start (x : DmaChannel) : Nat := x.descLo.toNat + 2 ^ 32 * x.descHi.toNat

/-- DMA_CRING, the address of the completion ring. -/
def DmaChannel.cring (x : DmaChannel) : Nat := x.cringLo.toNat + 2 ^ 32 * x.cringHi.toNat

/-- Entries of the completion ring. -/
def DmaChannel.entries (x : DmaChannel) : Nat := 2 ^ x.cringLog2.toNat

/-- The completion ring has no room (16 R438). -/
def DmaChannel.full (x : DmaChannel) : Bool := (x.wr - x.rd).toNat == x.entries

/-- RUNNING or WAIT_CRING. -/
def DmaChannel.active (x : DmaChannel) : Bool := x.run == .running || x.run == .waitCring

/-- Code of DMA_STATUS.STATE. -/
def DmaRun.code : DmaRun → Nat
  | .idle => 0 | .running => 1 | .waitCring => 2 | .halted => 3

/-- The fields of a descriptor's 32 bytes (16 Table 16-4). -/
def descOf (b : List Byte) : DmaDesc where
  src := numAt b 0 5
  dst := numAt b 8 5
  len := numAt b 16 4
  mode := bitsOf (numAt b 20 1) 1 0
  dir := bitAt (numAt b 20 1) 2
  last := bitAt (numAt b 20 1) 3
  irq := bitAt (numAt b 20 1) 4
  esize := numAt b 21 1
  tag := BitVec.ofNat 16 (numAt b 22 2)
  param := BitVec.ofNat 32 (numAt b 24 4)
  owner := BitVec.ofNat 8 (numAt b 28 1)

/-- Streams of an INTERLEAVE descriptor. -/
def DmaDesc.streams (d : DmaDesc) : Nat := bitsOf d.param.toNat 6 0

/-- Element size of INTERLEAVE, bytes. -/
def DmaDesc.unit (d : DmaDesc) : Nat := 2 ^ d.esize

/-- Element bits of BITPLANE. -/
def DmaDesc.width (d : DmaDesc) : Nat := 8 * 2 ^ d.esize

/-- The mode's parameters are in the ranges of 16 R436. -/
def DmaDesc.modeOk (d : DmaDesc) : Bool :=
  match d.mode with
  | 0 => !d.dir && d.esize == 0 && d.param == 0
  | 1 => d.src == 0 && !d.dir && d.esize == 0
  | 2 =>
    decide (d.esize ≤ 3) && decide (d.param.toNat < 128) && decide (2 ≤ d.streams) && decide (d.streams ≤ 64) &&
      d.len % (d.streams * d.unit) == 0
  | _ => decide (d.esize ≤ 2) && d.param == 0 && 8 * d.len % d.width == 0 && 8 * d.len / d.width % 64 == 0

/-- A descriptor that does not end its list (16 R435). -/
def descValid (b : List Byte) : Bool :=
  let d := descOf b
  zeroAt b 5 3 && zeroAt b 13 3 && zeroAt b 29 3 && bitsOf (numAt b 20 1) 7 5 == 0 && bitsOf (numAt b 28 1) 6 4 == 0 &&
    decide (1 ≤ d.len) && decide (d.len ≤ 16777216) && d.modeOk

/-- Source bytes that destination byte x takes its bits from: one, or eight with a bit number (16 R436). -/
def DmaDesc.sources (d : DmaDesc) (x : Nat) : List (Nat × Nat) :=
  match d.mode with
  | 0 => [(d.src + x, 0)]
  | 1 => []
  | 2 =>
    let k := d.streams
    let n := d.len / (k * d.unit)
    let u := x / d.unit
    let v := if d.dir then (u % n) * k + u / n else (u % k) * n + u / k
    [(d.src + v * d.unit + x % d.unit, 0)]
  | _ =>
    let w := d.width
    let n := 8 * d.len / w
    (List.range 8).map (fun t =>
      if d.dir then
        let j := x / (w / 8)
        let b := 8 * (x % (w / 8)) + t
        (d.src + b * (n / 8) + j / 8, j % 8)
      else
        let j := 8 * (x % (n / 8)) + t
        let b := x / (n / 8)
        (d.src + j * (w / 8) + b / 8, b % 8))

/-- Destination byte x, from the bytes at its sources. -/
def DmaDesc.byte (d : DmaDesc) (rd : Nat → Byte) (x : Nat) : Byte :=
  match d.mode with
  | 1 => BitVec.ofNat 8 (bitsOf d.param.toNat (8 * (x % 4) + 7) (8 * (x % 4)))
  | 3 => BitVec.ofNat 8 ((d.sources x).zipIdx.map (fun e => fieldAt e.2 1 (flag ((rd e.1.1).getLsbD e.1.2)))).sum
  | _ => match d.sources x with
    | e :: _ => rd e.1
    | [] => 0#8

/-- Source and destination overlap: the result is undefined (16 R436). -/
def DmaDesc.overlaps (d : DmaDesc) : Bool :=
  d.mode != 1 && decide (d.src < d.dst + d.len) && decide (d.dst < d.src + d.len)

/-- Bytes of the next burst: up to BURST + 1 lines, within one granule at the destination and, for COPY, at the source
(16 R437). -/
def DmaChannel.burstBytes (x : DmaChannel) (d : DmaDesc) : Nat :=
  let a := d.dst + x.done
  let n := min (min (d.len - x.done) ((x.burst.toNat + 1) * 64 - a % 64)) (4096 - a % 4096)
  if d.mode = 0 then min n (4096 - (d.src + x.done) % 4096) else n

/-- The order of 16 R442; a completed descriptor's status gives way to none. -/
def abortRank (status : Nat) : Nat :=
  match status with
  | 0x80 => 1 | 0x81 => 2 | 0x82 => 2 | 0x31 => 3 | 0x30 => 4 | _ => 0

/-- The channel ends its descriptor with a status, at a burst's end (16 R439 to R442). -/
def DmaChannel.stop (status addr : Nat) (x : DmaChannel) : DmaChannel :=
  let halt : Bool := status == 0x80 || status == 0x81 || status == 0x82
  if !x.active then x
  else
    let x := if halt && !x.haltAfter then { x with haltAfter := true, cause := BitVec.ofNat 8 status, errAddr := addr } else x
    let x := if status == 0x31 then { x with stopAfter := true } else x
    match x.entry, x.desc with
    | some e, _ =>
      if decide (abortRank status < abortRank e.status.toNat) then
        { x with entry := some { e with status := BitVec.ofNat 8 status } }
      else x
    | none, some d => { x with entry := some ⟨d.tag, BitVec.ofNat 8 status, d.last, d.irq, x.done⟩ }
    | none, none =>
      if x.haltAfter then { x with run := .halted, haltAfter := false, stopAfter := false }
      else if x.stopAfter then { x with run := .idle, stopAfter := false }
      else x

/-- A channel is stopped; with no descriptor in work a halt shows at once. -/
def State.stopDma (c : Fin 32) (status addr : Nat) (s : State) : State :=
  let was := (s.dma c).run
  let t := s.modDma c (DmaChannel.stop status addr)
  t.raiseIf (was != .halted && (t.dma c).run == .halted) (204 + c.val)

/-- Owner that a descriptor belongs to; none for the firmware's (16 R435). -/
def DmaDesc.ownerOf (d : DmaDesc) : Option (Fin 16) :=
  if d.owner.getLsbD 7 then none else some (Fin.ofNat 16 d.owner.toNat)

/-- Channels that work on a descriptor of a resetting owner complete it ABORTED_OWNER_RESET (16 R441). -/
def State.dmaOwnerReset (o : Fin 16) (s : State) : State :=
  s.eachDma (fun c t =>
    match (t.dma c).desc with
    | some d => if d.ownerOf == some o && (t.dma c).entry.isNone then t.stopDma c 0x30 0 else t
    | none => t)

/-- First address of a list at which the access is not permitted. -/
def State.firstDenied (s : State) (g : Agent) (write : Bool) (as : List Nat) : Option Nat :=
  as.find? (fun a => !s.permitted g write a)

/-- The line at this address fails its check now. -/
def State.spoil (failing : Option Nat) (as : List Nat) (s : State) : State :=
  match failing with
  | none => s
  | some a =>
    let r := regionAt a
    if as.any (fun x => x / 64 == a / 64) && (r.isSram || r.isDram) && !s.unwrittenAt a then
      s.modMem (fun m => { m with failing := insertAsc (a / 64) m.failing })
    else s

/-- An address read that lies in a failing line of a written granule. -/
def State.failingRead (s : State) (as : List Nat) : Option Nat := s.failingAt (as.filter (fun a => !s.unwrittenAt a))

/-- The channel fetches its descriptor (16 R435, R441). -/
def State.fetchDesc (failing : Option Nat) (c : Fin 32) (s : State) : State :=
  let x := s.dma c
  if x.run != .running || x.desc.isSome || x.entry.isSome then s
  else
    let as := addresses x.at_ 32
    let put (d : DmaDesc) (t : State) : State := t.modDma c (fun y => { y with desc := some d, done := 0, unwritten := false })
    match s.firstDenied (.dma c) false as with
    | some a => (put (descOf []) s).stopDma c 0x80 a
    | none =>
      let s := s.spoil failing as
      match s.failingRead as with
      | some a => ((put (descOf []) s).integrity a).stopDma c 0x81 a
      | none =>
        let b := as.map s.memByte
        let d := descOf b
        let t := put d s
        if !descValid b then t.stopDma c 0x82 x.at_
        else match d.ownerOf with
          | some o => if t.resetting o then t.stopDma c 0x30 0 else t
          | none => t

/-- The SRAM corrects a single-bit error at an address that is read (16 R430). -/
def State.correct (corrected : Option Nat) (as : List Nat) (s : State) : State :=
  match corrected with
  | none => s
  | some a =>
    if (regionAt a).isSram && as.any (fun x => x / 8 == a / 8) then s.modMem (fun m => { m with cntCorr := satInc m.cntCorr }) else s

/-- One burst of a channel (16 R436, R437, R439, R442). -/
def State.burst (failing corrected : Option Nat) (c : Fin 32) (d : DmaDesc) (s : State) : State :=
  let x := s.dma c
  let n := x.burstBytes d
  let offs := addresses x.done n
  let reads := offs.flatMap (fun o => (d.sources o).map (·.1))
  let writes := addresses (d.dst + x.done) n
  match s.firstDenied (.dma c) false reads with
  | some a => s.stopDma c 0x80 a
  | none =>
    match s.firstDenied (.dma c) true writes with
    | some a => s.stopDma c 0x80 a
    | none =>
      let s := s.spoil failing reads
      match s.failingRead reads with
      | some a => (s.integrity a).stopDma c 0x81 a
      | none =>
        let data := if d.overlaps then s.freeBytes n else offs.map (d.byte s.memByte)
        let s : State := if d.overlaps then { s with freeCtr := s.freeCtr + 1 } else s
        let unw := reads.any s.unwrittenAt
        let s := s.correct corrected reads
        let s := s.modMem (MemState.putBytes data (d.dst + x.done))
        s.modDma c (fun y =>
          let y := { y with done := y.done + n, unwritten := y.unwritten || unw, credit := y.credit - n }
          if y.done < d.len then y
          else { y with entry := some ⟨d.tag, if y.unwritten then 0x40 else 0, d.last, d.irq, y.done⟩ })

/-- A channel with a burst to issue. -/
def DmaChannel.next (x : DmaChannel) : Option DmaDesc :=
  if x.run == .running && x.entry.isNone then x.desc else none

/-- Deficit round-robin: the channel whose credit covers its next burst, from the turn on; each arrival of the turn at
a channel with work adds SHARE × 64 to its credit (16 R437). -/
def State.chooseDma : Nat → State → Option (Fin 32 × DmaDesc × State)
  | 0, _ => none
  | f + 1, s =>
    let c := s.sys.dmaTurn
    let x := s.dma c
    let pass (s : State) : State :=
      let s := s.modSys (fun y => { y with dmaTurn := Fin.ofNat 32 (c.val + 1) })
      s.modDma s.sys.dmaTurn (fun y => if y.next.isSome then { y with credit := y.credit + y.share.toNat * 64 } else { y with credit := 0 })
    match x.next with
    | some d => if x.burstBytes d ≤ x.credit then some (c, d, s) else State.chooseDma f (pass s)
    | none => State.chooseDma f (pass s)

/-- DMA_BURST (16 R437): `failing` is an address whose tag or ECC word fails in this burst, `corrected` one whose SRAM word has a
single-bit error. -/
def execDmaBurst (failing corrected : Option Nat) (s : State) : Out :=
  let t := s.eachDma (State.fetchDesc failing)
  if (List.finRange 32).all (fun c => (t.dma c).next.isNone) then .next t
  else match t.chooseDma 1024 with
    | none => .next t
    | some (c, d, u) => .next (u.burst failing corrected c d)

/-- Bytes of a completion entry (16 Table 16-5). -/
def DmaEntry.bytesAt (now : Nat) (e : DmaEntry) : List Byte :=
  leBytes 2 e.tag.toNat ++ leBytes 1 e.status.toNat ++ leBytes 1 (flag e.last) ++ leBytes 4 e.bytes ++ leBytes 8 now

/-- The channel after its entry: halted, idle, or at the next descriptor (16 R438 to R442). -/
def DmaChannel.after (e : DmaEntry) (x : DmaChannel) : DmaChannel :=
  let y := { x with entry := none, haltAfter := false, stopAfter := false, cnt := x.cnt + 1#32 }
  if x.haltAfter then { y with run := .halted }
  else if x.stopAfter || e.last then { y with run := .idle, desc := none }
  else { y with run := .running, desc := none, done := 0, at_ := x.at_ + 32 }

/-- DMA_DESCRIPTOR_COMPLETE (16 R438): an entry that the channel may not write is a bus error too. -/
def execDmaDescriptorComplete (c : Fin 32) (s : State) : Out :=
  let x := s.dma c
  match x.entry with
  | none => .next s
  | some e =>
    if x.full then
      .next ((s.modDma c (fun y => { y with run := .waitCring })).raiseIf (x.run != .waitCring) (204 + c.val))
    else
      let a := x.cring + 16 * (x.wr.toNat % x.entries)
      let irq := (e.irq && x.irqEn) || (e.status != 0 && e.status != 0x40) || x.haltAfter
      match s.firstDenied (.dma c) true (addresses a 16) with
      | some b =>
        .next ((s.modDma c (fun y => { y with
          run := .halted, entry := none, haltAfter := false, stopAfter := false, cause := 0x80, errAddr := b })).raise (204 + c.val))
      | none =>
        let now := s.now
        let t := if e.status == 0x40 then s.countUnwritten else s
        let t := t.modMem (MemState.putBytes (e.bytesAt now) a)
        .next ((t.modDma c (fun y => { (y.after e) with wr := y.wr + 1#16 })).raiseIf irq (204 + c.val))

/-- A customer core's access to a register it may not reach (16 R443). -/
def State.custDenied (s : State) (core : Fin 4) (c : Option (Fin 32)) : Bool :=
  s.isCust core && (match c with | some k => decide (k.val < 24) | none => true)

/-- DMA_KICK (16 R443). The bit of a channel that it starts reads 1 while the channel is at work (00 Table 0-4; DESIGN CHOICE, log
entry 126: the spec gives no instant at which a trigger bit goes back to 0). -/
def execDmaKick (core : Fin 4) (value : U32) (s : State) : Out :=
  if s.custDenied core none then .next (s.coreFault core .bus 0x60020808)
  else
    .next (s.eachDma (fun c t =>
      let x := t.dma c
      if value.getLsbD c.val && x.run == .idle && x.en && t.sys.dmaEn then
        t.modDma c (fun y => { y with run := .running, at_ := y.start, desc := none, done := 0, entry := none, kicked := true, halted := false })
      else t))

/-- DMA_HALT_WRITE (16 R443). The bit reads 1 until the channel has halted (DESIGN CHOICE, log entry 126). -/
def execDmaHaltWrite (core : Fin 4) (value : U32) (s : State) : Out :=
  if s.custDenied core none then .next (s.coreFault core .bus 0x6002080C)
  else .next (s.eachDma (fun c t =>
    if value.getLsbD c.val then (t.modDma c (fun y => { y with halted := true })).stopDma c 0x80 0 else t))

/-- DMA_CHANNEL_DISABLE (16 R440). -/
def execDmaChannelDisable (c : Fin 32) (s : State) : Out :=
  .next ((s.stopDma c 0x31 0).modDma c (fun x => { x with en := false }))

/-- DMA_GLOBAL_DISABLE (16 Table 16-11): every channel stops. -/
def execDmaGlobalDisable (s : State) : Out :=
  .next ((s.eachDma (fun c t => t.stopDma c 0x31 0)).modSys (fun y => { y with dmaEn := false }))

/-- DMA_RESUME (16 R439). -/
def execDmaResume (c : Fin 32) (s : State) : Out :=
  let on := s.sys.dmaEn
  .next (s.modDma c (fun x =>
    if x.run != .halted then x
    else
      let last := match x.desc with | some d => d.last | none => false
      let a := if x.desc.isSome then x.at_ + 32 else x.at_
      if last || !x.en || !on then { x with run := .idle, desc := none }
      else { x with run := .running, desc := none, done := 0, at_ := a, halted := false }))

/-- DMA_CRING_RD_WRITE (16 R438): room releases WAIT_CRING. -/
def execDmaCringRdWrite (c : Fin 32) (value : U32) (s : State) : Out :=
  .next (s.modDma c (fun x =>
    let y := { x with rd := BitVec.ofNat 16 value.toNat }
    if y.run == .waitCring && !y.full then { y with run := .running } else y))

end Sys2Proof.Machine
end

