-- ==== Sys2Proof/Machine/Memory.lean ====
section
/-! DEFINITION. What the Hawk cores do to memory and to the hardware registers (16 R426 to R434, R443; 20 R526, R527). -/

namespace Sys2Proof.Machine

/-- The registers of 20 Table 20-5. -/
inductive HwReg where
  | mb (i : Fin 4)
  | mbOwnQ (o : Fin 16)
  | mbOwnSeq (o : Fin 16)
  | icCfg (n : Fin 384)
  | icStat (n : Fin 384)
  | icCtrl
  | icId
  | icSwset
  | icSwclr
  | icPend (w : Fin 12)
  | icClaim (k : Fin 4)
  | icEoi (k : Fin 4)
  | icRun (k : Fin 4)
  | icThr (k : Fin 4)
  | dma (c : Fin 32) (r : Fin 12)
  | dmaG (r : Fin 16)
  deriving DecidableEq, Repr

/-- The register whose word is at an address of the register space (20 R526). -/
def hwReg (a : Nat) : Option HwReg :=
  if a % 4 ≠ 0 then none
  else if a < 0x60000000 then none
  else if a < 0x60000010 then some (.mb (Fin.ofNat 4 (a / 4)))
  else if a < 0x60000040 then none
  else if a < 0x60000080 then some (.mbOwnQ (Fin.ofNat 16 (a / 4)))
  else if a < 0x600000C0 then some (.mbOwnSeq (Fin.ofNat 16 (a / 4)))
  else if a < 0x60010000 then none
  else if a < 0x60010600 then some (.icCfg (Fin.ofNat 384 ((a - 0x60010000) / 4)))
  else if a < 0x60010800 then none
  else if a < 0x60010E00 then some (.icStat (Fin.ofNat 384 ((a - 0x60010800) / 4)))
  else if a = 0x60011000 then some .icCtrl
  else if a = 0x60011004 then some .icId
  else if a = 0x60011008 then some .icSwset
  else if a = 0x6001100C then some .icSwclr
  else if a < 0x60011040 then none
  else if a < 0x60011070 then some (.icPend (Fin.ofNat 12 ((a - 0x60011040) / 4)))
  else if a < 0x60011100 then none
  else if a < 0x60011140 then
    let k : Fin 4 := Fin.ofNat 4 ((a - 0x60011100) / 16)
    match a / 4 % 4 with
    | 0 => some (.icClaim k) | 1 => some (.icEoi k) | 2 => some (.icRun k) | _ => some (.icThr k)
  else if a < 0x60020000 then none
  else if a < 0x60020800 then
    let r := a % 64 / 4
    if h : r < 12 then some (.dma (Fin.ofNat 32 ((a - 0x60020000) / 64)) ⟨r, h⟩) else none
  else if a < 0x60020840 then some (.dmaG (Fin.ofNat 16 (a / 4)))
  else none

/-- Number of commands in flight of an owner. -/
def State.inFlight (s : State) (o : Fin 16) : Nat := (s.host.record.filter (fun c => c.req.owner == o)).length

/-- A mask of the channels that meet a test. -/
def State.dmaMask (s : State) (f : DmaChannel → Bool) : Nat :=
  ((List.finRange 32).map (fun c => if f (s.dma c) then 2 ^ c.val else 0)).sum

/-- Granules whose map bit reads WRITTEN. -/
def State.mapWritten (s : State) : Nat :=
  s.sys.mem.written.length +
    ((s.sys.ring.rings.map (fun e => e.1 / 128)).eraseDups.filter (fun g => !s.sys.mem.written.contains g)).length

/-- A register of a DMA channel as read (16 Table 16-7). -/
def DmaChannel.reg (x : DmaChannel) : Nat → Nat
  | 0 => flag x.en + 2 * flag x.irqEn
  | 1 => x.share.toNat + fieldAt 8 4 x.burst.toNat + fieldAt 12 4 x.cringLog2.toNat
  | 2 => x.descLo.toNat
  | 3 => x.descHi.toNat
  | 4 => x.cringLo.toNat
  | 5 => x.cringHi.toNat
  | 6 => x.wr.toNat
  | 7 => x.rd.toNat
  | 8 => x.run.code + 8 * flag (x.run == .halted) + fieldAt 8 8 x.cause.toNat
  | 9 => x.errAddr % 2 ^ 32
  | 10 => x.errAddr / 2 ^ 32
  | _ => x.cnt.toNat

/-- A register as read, less the effects of the read (20 Table 20-5). -/
def State.regValue (s : State) (r : HwReg) : Nat :=
  let q := s.sys.irq
  let m := s.sys.mem
  match r with
  | .mb i =>
    if i = 0 then 0x01101000
    else if i = 1 then 0
    else if i = 2 then
      flag s.host.recordPending + 2 * flag (decide (4096 ≤ s.host.record.length)) + fieldAt 16 13 s.host.record.length
    else s.host.poeCnt.toNat
  | .mbOwnQ o => s.inFlight o
  | .mbOwnSeq o => (s.owner o).high.toNat
  | .icCfg n => q.cfgWord n.val
  | .icStat n => (q.src n.val).statWord
  | .icCtrl => flag q.en + 2 * flag q.eoiErr + 4 * flag q.cfgErr + 8 * flag q.swErr
  | .icId => 0x01040180
  | .icSwset | .icSwclr | .icEoi _ => 0
  | .icPend w => maskOf 32 (fun j => (q.src (32 * w.val + j)).pending)
  | .icClaim _ => 0x1FF
  | .icRun k => (q.cores[k.val]).run.toNat
  | .icThr k => (q.cores[k.val]).thr.toNat
  | .dma c i => (s.dma c).reg i.val
  | .dmaG i =>
    match i.val with
    | 0 => flag s.sys.dmaEn + 2 * flag s.custCores
    | 1 => 0x01100020
    | 2 => s.dmaMask (fun x => x.kicked && x.active)
    | 3 => s.dmaMask (fun x => x.halted && x.active)
    | 4 => s.dmaMask DmaChannel.active
    | 5 => s.dmaMask (fun x => x.run == .halted)
    | 6 => ((List.finRange 32).map (fun c => if (s.dma c).active then (s.dma c).share.toNat else 0)).sum
    | 7 => m.cntCorr.toNat
    | 8 => m.cntUncorr.toNat
    | 9 => m.cntTagfail.toNat
    | 10 => m.cntUnwritten.toNat
    | 13 => m.firstErr.toNat
    | 14 => s.dmaMask (fun x => x.run == .waitCring)
    | 15 => s.mapWritten
    | _ => 0

/-- The state a meaning answers. -/
def stateOf (s : State) (o : Out) : State :=
  match o with
  | .next t => t
  | _ => s

/-- A customer core may not make this access at all: of the mailbox block, or of DMA registers but those of its channels
(16 Table 16-3, R443). Accesses of the interrupt controller are 15 R422's. -/
def State.regDenied (s : State) (core : Fin 4) (r : HwReg) : Bool :=
  match r with
  | .mb _ | .mbOwnQ _ | .mbOwnSeq _ => s.isCust core
  | .dma c _ => s.custDenied core (some c)
  | .dmaG _ => s.custDenied core none
  | _ => false

/-- MEM_DISCARD (16 R434): a count outside 1 to 262,144, or granules beyond the DRAM, discard nothing. -/
def MemState.discard (g n : Nat) (m : MemState) : MemState :=
  let inside (a : Nat) : Bool := decide (0x1000000000 + g * 4096 ≤ a) && decide (a < 0x1000000000 + (g + n) * 4096)
  { m with
    written := m.written.filter (fun x => decide (x < g) || decide (g + n ≤ x))
    bytes := m.bytes.filter (fun e => !inside e.1)
    failing := m.failing.filter (fun l => !inside (l * 64)) }

/-- MEM_DISCARD: the write of MEM_DISCARD_CNT. -/
def execMemDiscard (count : U32) (s : State) : Out :=
  let n := bitsOf count.toNat 18 0
  if n = 0 ∨ 262144 < n then .next s
  else .next (s.modMem (fun m => m.discard m.discardAddr.toNat n))

/-- MEM_FIRST_ERR_CLEAR (16 R430). -/
def execMemFirstErrClear (value : U32) (s : State) : Out :=
  if value.getLsbD 0 then .next (s.modMem (fun m => { m with firstErr := 0 })) else .next s

/-- RECORD_ACK (20 R527). The trigger bit reads 0 again at once, since its action is whole (DESIGN CHOICE, log entry 126). -/
def execRecordAck (s : State) : Out := .next (s.modHost (fun h => { h with recordPending := false }))

/-- A write of a DMA channel's register (16 Tables 16-7 to 16-10); false where it completes with a bus error. The bits of an address
that must be 0 are not held (DESIGN CHOICE, log entry 127: the spec gives no effect of a write that sets them). -/
def State.writeDma (c : Fin 32) (r v : Nat) (s : State) : State × Bool :=
  let x := s.dma c
  let quiet := x.run == .idle || x.run == .halted
  let put (f : DmaChannel → DmaChannel) : State × Bool := if quiet then (s.modDma c f, true) else (s, false)
  match r with
  | 0 =>
    let s := if bitAt v 0 then s.modDma c (fun y => { y with en := true }) else stateOf s (execDmaChannelDisable c s)
    (s.modDma c (fun y => { y with irqEn := bitAt v 1 }), true)
  | 1 =>
    let l := bitsOf v 15 12
    put (fun y => { y with
      share := if bitsOf v 7 0 = 0 then 1 else BitVec.ofNat 8 v, burst := BitVec.ofNat 4 (v / 256)
      cringLog2 := if 4 ≤ l ∧ l ≤ 12 then BitVec.ofNat 4 l else 4 })
  | 2 => put (fun y => { y with descLo := BitVec.ofNat 32 (v / 32 * 32) })
  | 3 => put (fun y => { y with descHi := BitVec.ofNat 32 (v % 256) })
  | 4 => put (fun y => { y with cringLo := BitVec.ofNat 32 (v / 16 * 16) })
  | 5 => put (fun y => { y with cringHi := BitVec.ofNat 32 (v % 256) })
  | 7 => (stateOf s (execDmaCringRdWrite c (BitVec.ofNat 32 v) s), true)
  | 8 => (if bitAt v 3 then stateOf s (execDmaResume c s) else s, true)
  | _ => (s, true)

/-- A write of a register that every DMA channel or the memory shares (16 Table 16-7). -/
def State.writeDmaG (core : Fin 4) (i : Nat) (v : U32) (s : State) : State :=
  match i with
  | 0 => if v.getLsbD 0 then s.modSys (fun y => { y with dmaEn := true }) else stateOf s (execDmaGlobalDisable s)
  | 2 => stateOf s (execDmaKick core v s)
  | 3 => stateOf s (execDmaHaltWrite core v s)
  | 11 => s.modMem (fun m => { m with discardAddr := BitVec.ofNat 32 (bitsOf v.toNat 20 0) })
  | 12 => stateOf s (execMemDiscard v s)
  | 13 => stateOf s (execMemFirstErrClear v s)
  | _ => s

/-- A word written by a core to a register (20 R526; 16 R443; 15 R422, R424; 00 Table 0-4). -/
def State.writeReg (core : Fin 4) (a : Nat) (v : U32) (s : State) : State :=
  let s := s.coreDone core []
  match hwReg a with
  | none => s.coreFault core .bus a
  | some r =>
    if s.regDenied core r then s.coreFault core .bus a
    else
      let cust := s.isCust core
      match r with
      | .mb i => if i = 1 && v.getLsbD 0 then stateOf s (execRecordAck s) else s
      | .mbOwnQ _ | .mbOwnSeq _ => s
      | .icCfg n => stateOf s (execIcCfgWrite core n v s)
      | .icSwset => stateOf s (execIcSwsetWrite core v s)
      | .icSwclr => stateOf s (execIcSwclrWrite core v s)
      | .icEoi k => if cust && core != k then s.refuseWrite core a else stateOf s (execIcEoiWrite k v s)
      | .icThr k => stateOf s (execIcThrWrite core k v s)
      | .icClaim k | .icRun k => if cust && core != k then s.refuseWrite core a else s
      | .icCtrl =>
        if cust then s.refuseWrite core a
        else s.modIrq (fun q => { q with
          en := v.getLsbD 0, eoiErr := q.eoiErr && !v.getLsbD 1, cfgErr := q.cfgErr && !v.getLsbD 2, swErr := q.swErr && !v.getLsbD 3 })
      | .icStat _ | .icId | .icPend _ => if cust then s.refuseWrite core a else s
      | .dma c i =>
        let (t, stored) := s.writeDma c i.val v.toNat
        if stored then t else t.coreFault core .bus a
      | .dmaG i => s.writeDmaG core i.val v

/-- REGISTER_WRITE (00 R9, R10; 20 R526). -/
def execRegisterWrite (core : Fin 4) (address : Nat) (value : U32) (s : State) : Out := .next (s.writeReg core address value)

/-- A word read by a core from a register, with what the read does. -/
def State.readReg (core : Fin 4) (a : Nat) (s : State) : State :=
  match hwReg a with
  | none => s.coreFault core .bus a
  | some r =>
    if s.regDenied core r then s.coreFault core .bus a
    else match r with
      | .icStat n =>
        let t := stateOf s (execIcStatRead core n (s.coreDone core (leBytes 4 (s.regValue r))))
        t
      | .icClaim k =>
        let t := stateOf s (execIcClaimRead k s)
        t.coreDone core (leBytes 4 t.sys.irq.readData.toNat)
      | _ => s.coreDone core (leBytes 4 (s.regValue r))

/-- A core's load of n bytes (16 R426 to R433). -/
def State.load (core : Fin 4) (a n : Nat) (bad : Option Bool) (s : State) : State :=
  let as := addresses a n
  match s.firstDenied (.core core) false as with
  | some b => s.coreFault core .bus b
  | none =>
    if as.any (fun x => regionAt x == .registers) then
      if n = 4 then s.readReg core a else s.coreFault core .bus a
    else
      let r := regionAt a
      let s := if bad == some true then s.spoil (some a) as else s
      let s := if bad == some false && r.isSram then s.modMem (fun m => { m with cntCorr := satInc m.cntCorr }) else s
      match s.failingRead as with
      | some b => (s.integrity b).coreFault core .integrity b
      | none =>
        match as.find? s.unwrittenAt with
        | some b => (s.countUnwritten).coreFault core .unwritten b
        | none => s.coreDone core (as.map s.memByte)

/-- A core's store (16 R426 to R432). -/
def State.storeMem (core : Fin 4) (a : Nat) (data : List Byte) (s : State) : State :=
  let as := addresses a data.length
  match s.firstDenied (.core core) true as with
  | some b => s.coreFault core .bus b
  | none =>
    if as.any (fun x => regionAt x == .registers) then
      if data.length = 4 then s.writeReg core a (BitVec.ofNat 32 (ofLe data)) else s.coreFault core .bus a
    else (s.modMem (MemState.putBytes data a)).coreDone core []

/-- CORE_MEMORY_ACCESS (16 R428): a load of `length` bytes, or a store of the bytes given. `bad` tells that the line's
tag or double-bit check fails now (true), or that the SRAM corrects a bit (false). -/
def execCoreMemoryAccess (core : Fin 4) (address : Nat) (write : Option (List Byte)) (length : Nat) (bad : Option Bool)
    (s : State) : Out :=
  match write with
  | some bs => .next (s.storeMem core address bs)
  | none => .next (s.load core address length bad)

end Sys2Proof.Machine
end

