-- ==== Sys2Proof/Machine/Rings.lean ====
section
/-! DEFINITION. Rings and push streams (16 R444 to R456; 17 R469 to R472, R479): records appended, notifications, notices,
stream datagrams, and the ring and stream opcodes. -/

namespace Sys2Proof.Machine

/-- Slots from RD to WR (16 R445). -/
def Ring.fill (x : Ring) : Nat := (x.wr - x.rd).toNat

/-- Slots of a record. -/
def slotsOf (bytes : List Byte) : Nat := (bytes.length + 63) / 64

/-- RD moves to an index; records that end before it are gone. -/
def Ring.advance (rd : U32) (x : Ring) : Ring :=
  { x with
    rd := rd
    records := x.records.filter (fun e =>
      let d := (e.1 + BitVec.ofNat 32 (slotsOf e.2) - rd).toNat
      decide (0 < d) && decide (d < 2 ^ 31)) }

/-- Passes over the oldest record, counted in DROP (16 R446). -/
def Ring.passOver (x : Ring) : Ring :=
  match x.records with
  | e :: _ => { (x.advance (e.1 + BitVec.ofNat 32 (slotsOf e.2))) with drop := satInc x.drop }
  | [] => x.advance x.wr

/-- Passes over records until L slots are free. -/
def Ring.makeRoom : Nat → Nat → Ring → Ring
  | 0, _, x => x
  | f + 1, l, x => if x.fill + l ≤ x.capacity then x else Ring.makeRoom f l x.passOver

/-- A record at WR. -/
def Ring.push (bytes : List Byte) (x : Ring) : Ring :=
  { x with records := x.records ++ [(x.wr, bytes)], wr := x.wr + BitVec.ofNat 32 (slotsOf bytes) }

/-- A record meets the ring's policy (16 R446); whether it was written. -/
def Ring.append (bytes : List Byte) (x : Ring) : Ring × Bool :=
  let l := slotsOf bytes
  if x.capacity < l then ({ x with drop := satInc x.drop }, false)
  else if x.fill + l ≤ x.capacity then (x.push bytes, true)
  else if x.stop then ({ x with drop := satInc x.drop }, false)
  else ((x.makeRoom (x.records.length + 1) l).push bytes, true)

/-- The 64 bytes at an index; zeros where no record is. -/
def Ring.slot (i : U32) (x : Ring) : List Byte :=
  match x.records.find? (fun e => decide ((i - e.1).toNat < slotsOf e.2)) with
  | some e => pad64 (slice e.2 (64 * (i - e.1).toNat) 64)
  | none => zeros 64

/-- DRAM address of an index (16 R445). -/
def Ring.slotAddr (i : U32) (x : Ring) : Nat := 0x1000000000 + x.base * 4096 + i.toNat % x.capacity * 64

/-- A ring by its ID. -/
def State.ring? (s : State) (id : Nat) : Option Ring := bankGet? id s.sys.ring.rings

/-- Changes a ring. -/
def State.modRing (id : Nat) (f : Ring → Ring) (s : State) : State :=
  s.modSys (fun y => { y with ring := { y.ring with rings := y.ring.rings.map (fun e => if e.1 == id then (e.1, f e.2) else e) } })

/-- A RING_NOTICE for an ATTACHED owner (17 R469). -/
def State.ringNotice (id : Nat) (x : Ring) (s : State) : State :=
  let o := s.owner x.owner
  match o.attachVia with
  | some v =>
    if o.state == .attached && s.serving then
      (s.modOwner x.owner (fun y => { y with notices := y.notices + 1#32 })).send
        { owner := x.owner, via := v, raw := none, tag := 0, seq := o.notices + 1#32, wire := [], notifyQueued := false, noReply := false, opcode := 0x0D00
          status := BitVec.ofNat 8 stDone, limit := 0, detail := 0
          payload := leBytes 4 id ++ leBytes 4 x.wr.toNat ++ leBytes 4 x.fill, crcOnly := false, notice := true }
    else s
  | none => s

/-- The fill against NOTIFY (16 R447). -/
def State.ringNotify (id : Nat) (s : State) : State :=
  match s.ring? id with
  | none => s
  | some x =>
    let n := x.notify.toNat
    if n = 0 then s
    else if x.fill < n then (if x.notified then s.modRing id (fun y => { y with notified := false }) else s)
    else if x.notified then s
    else ((s.modRing id (fun y => { y with notified := true })).raise (300 + x.owner.val)).ringNotice id x

/-! ### Streams (17 R470 to R472) -/

/-- One stream. -/
def State.stream (s : State) (i : Fin 32) : Option Stream := s.link.streams[i.val]

/-- Changes a stream. -/
def State.modStream (i : Fin 32) (f : Stream → Stream) (s : State) : State :=
  s.modLink (fun l => { l with streams := vmod l.streams i (fun x => x.map f) })

/-- The port that carries a stream: the lowest in its mask with link and address (DESIGN CHOICE, log entry 95: the spec says no more
than "port mask"). -/
def State.streamPort (s : State) (x : Stream) : Option (Fin 2) :=
  (List.finRange 2).find? (fun q => bitAt x.portMask q.val && (s.link.eth[q.val]).up && (s.link.eth[q.val]).set.ip != 0)

/-- The next hop of an address: itself on the port's subnet, the gateway elsewhere; 0 none (17 Table 17-1). -/
def EthPort.nextHop (addr : U32) (x : EthPort) : U32 :=
  if (addr ^^^ x.set.ip) &&& x.set.mask == 0 then addr else x.set.gw

/-- The next hop of an address is resolved by ARP (17 R468). -/
def LinkState.resolved (q : Fin 2) (addr : U32) (l : LinkState) : Bool := l.arp.contains (q, (l.eth[q.val]).nextHop addr)

/-- A port knows the hardware address of a next hop: it has answered, or sent something (17 R458; DEDUCED, log entry 136). -/
def LinkState.learn (q : Fin 2) (addr : U32) (l : LinkState) : LinkState :=
  let hop := (l.eth[q.val]).nextHop addr
  if hop == 0 || l.arp.contains (q, hop) then l else { l with arp := l.arp ++ [(q, hop)] }

/-- The datagram of a stream with n records from RD, sealed under the owner's stream key (17 Table 17-7, R471). -/
def State.streamBytes (s : State) (x : Stream) (r : Ring) (n : Nat) : List Byte :=
  let o := s.owner x.owner
  let head := [0x54#8, 1#8] ++ leBytes 1 x.owner.val ++ leBytes 1 n ++ leBytes 4 x.createNo.toNat ++ leBytes 8 x.dseq.toNat ++
    leBytes 4 x.ring ++ leBytes 4 r.rd.toNat ++ leBytes 4 r.drop.toNat ++ leBytes 4 o.epoch.toNat
  let nonce := leBytes 4 x.createNo.toNat ++ leBytes 8 x.dseq.toNat
  let key := o.streamKey x.owner
  let c := gcmText key nonce (((List.range n).map (fun k => r.slot (r.rd + BitVec.ofNat 32 k))).flatten)
  head ++ c ++ gcmTag key nonce head c

/-- Bytes of stream datagrams that left a port in the last 10 ms. -/
def EthPort.streamed (now : Nanos) (x : EthPort) : Nat :=
  ((x.streamLog.filter (fun e => decide (now < e.1 + 10000000))).map (·.2)).sum

/-- Indices i, i + 1, … -/
def indices (i : U32) (n : Nat) : List U32 := (List.range n).map (fun k => i + BitVec.ofNat 32 k)

/-- Since when the oldest record left in a ring has waited. -/
def waitingFrom (now : Nanos) (x : Ring) : Option Nanos := if x.fill = 0 then none else some now

/-- RD of a ring has moved: with nothing left, no record of it waits in a stream. -/
def State.rdMoved (id : Nat) (s : State) : State :=
  match s.ring? id with
  | none => s
  | some x =>
    let s := if x.fill = 0 then s.modLink (fun l => { l with streams := l.streams.map (fun y => y.map (fun z =>
        if z.ring == id then { z with oldest := none } else z)) })
      else s
    s.ringNotify id

/-- One datagram of a stream, or its deferral (17 R471). While ARP has not resolved the address, the transport is down (R468): the port
asks for it and the records stay. -/
def State.streamSend (i : Fin 32) (s : State) : State :=
  match s.stream i with
  | none => s
  | some x =>
    match s.ring? x.ring, s.streamPort x with
    | some r, some q =>
      let n := min r.fill x.records
      if x.paused || n = 0 then s
      else if !s.link.resolved q x.addr then
        let hop := (s.link.eth[q.val]).nextHop x.addr
        if hop == 0 then s else s.modLink (fun l => ({ l with out := l.out ++ [.arpRequest q hop] } : LinkState).transmit q 1)
      else
        let book : Fin 2 := if s.link.prp then 0 else q
        let size := 48 + 64 * n
        let now := s.clk
        let port := s.link.eth[book.val]
        if s.param (0x1A08 + 16 * book.val) * 1250 < port.streamed now + size then
          (s.modStream i (fun y => { y with deferrals := satInc y.deferrals })).raise (241 + 8 * book.val)
        else
          let bytes := s.streamBytes x r n
          let r := r.advance (r.rd + BitVec.ofNat 32 n)
          let s := s.modLink (fun l => ({ l with
            out := l.out ++ [.stream q x.addr x.udp bytes]
            eth := vmod l.eth book (fun y => { y with
              streamLog := y.streamLog.filter (fun e => decide (now < e.1 + 10000000)) ++ [(now, size)] }) } : LinkState).transmit q 1)
          let s := s.modRing x.ring (fun _ => r)
          (s.modStream i (fun y => { y with dseq := y.dseq + 1#64, oldest := waitingFrom now r })).ringNotify x.ring
    | _, _ => s

/-- The streams of a ring after a record has come: a datagram goes out once N records wait. -/
def State.streamsOf (id : Nat) (s : State) : State :=
  (List.finRange 32).foldl (fun t i =>
    match t.stream i with
    | some x =>
      if x.ring == id then
        let now := t.clk
        let t := t.modStream i (fun y => { y with oldest := match y.oldest with | some a => some a | none => some now })
        match t.ring? id with
        | some r => if x.records ≤ r.fill then t.streamSend i else t
        | none => t
      else t
    | none => t) s

/-- STREAM_FLUSH_TIMEOUT (17 R471). -/
def execStreamFlushTimeout (slot : Fin 32) (s : State) : Out :=
  match s.stream slot with
  | none => .next s
  | some x =>
    match x.oldest with
    | none => .next s
    | some t0 => .next (((s.atLeast (t0 + x.flushMs * 1000000))).streamSend slot)

/-! ### The ring writer (16 R446 to R448, R452, R454) -/

/-- The lines of a written record are good; its granules are written (16 R430, R432). -/
def State.ringMemory (as : List Nat) (s : State) : State :=
  s.modMem (fun m => as.foldl (fun m a =>
    let m := m.touch (granule a)
    { m with failing := m.failing.filter (fun l => l != a / 64) }) m)

/-- One record for one ring. -/
def State.appendTo (id : Nat) (bytes : List Byte) (s : State) : State :=
  match s.ring? id with
  | none => s
  | some x =>
    if s.resetting x.owner then s.modRing id (fun y => { y with dropLater := y.dropLater + 1 })
    else
      let (y, written) := x.append bytes
      let s := s.modRing id (fun _ => y)
      let s := if written then s.ringMemory ((indices x.wr (slotsOf bytes)).map (fun i => x.slotAddr i)) else s
      if written then (s.ringNotify id).streamsOf id else s

/-- RING_RECORD_APPEND (16 R446): the oldest record of a source's queue goes to every ring that receives it. -/
def execRingRecordAppend (source : RingSource) (s : State) : Out :=
  match s.sys.ring.queue.find? (fun x => x.source == source) with
  | none => .next s
  | some x =>
    let ids := (s.sys.ring.rings.filter (fun e => s.ringTakes x.dest e.1 e.2)).map (·.1)
    let t := s.modSys (fun y => { y with ring := { y.ring with queue := y.ring.queue.erase x } })
    .next (ids.foldl (fun t id => t.appendTo id x.bytes) t)

/-- An owner reset (16 R452; 17 R472): the owner's rings are emptied under its new epoch, its streams deleted. -/
def State.ringOwnerReset (o : Fin 16) (s : State) : State :=
  let epoch := (s.owner o).epoch
  let s := s.modSys (fun y => { y with ring := { y.ring with
    rings := y.ring.rings.map (fun e =>
      if e.2.owner == o then
        (e.1, { e.2 with rd := e.2.wr, drop := BitVec.ofNat 32 e.2.dropLater, dropLater := 0, epoch := epoch, records := [], notified := false })
      else e) } })
  s.modLink (fun l => { l with streams := l.streams.map (fun x => match x with
    | some y => if y.owner == o then none else some y
    | none => none) })

/-! ### Ring opcodes (16 R455, R456) -/

/-- Ring opcodes' details. -/
def dtRingQuota : Nat := 0x0101
/-- NOT_OWNER. -/
def dtNotOwner : Nat := 0x0102
/-- NO_RING. -/
def dtNoRing : Nat := 0x0103
/-- FIXED_RING. -/
def dtFixedRing : Nat := 0x0104
/-- BAD_INDEX. -/
def dtBadIndex : Nat := 0x0105
/-- COMPLETION_EXISTS. -/
def dtCompletionExists : Nat := 0x0106
/-- POOL_FULL. -/
def dtPoolFull : Nat := 0x0107
/-- INTEGRITY. -/
def dtIntegrity : Nat := 0x0108

/-- A privilege of an owner. -/
def State.hasPriv (s : State) (o : Fin 16) (bit : Nat) : Bool := (s.owner o).priv.getLsbD bit

/-- SOURCE is one of 16 Table 16-13. -/
def sourceOk (kind source : Nat) : Bool :=
  let k := bitsOf source 7 0
  let i := bitsOf source 15 8
  let x := bitsOf source 31 16
  match kind with
  | 0 => ((k == 1 || k == 2) && decide (i < 8) && x == 0) || (k == 3 && decide (i < 4) && decide (1 ≤ x))
  | 2 => (k == 1 && decide (i < 16) && x == 0) || (k == 2 && decide (i < 4) && x == 0) || (k == 3 && decide (i < 8))
  | _ => source == 0

/-- Granules that an owner's rings take. -/
def State.ringGranules (s : State) (o : Fin 16) : Nat :=
  ((s.sys.ring.rings.filter (fun e => e.2.owner == o)).map (fun e => e.2.granules)).sum

/-- The lowest free block of n granules, aligned to its size, from a granule on (16 R444; DESIGN CHOICE, log entry 94: which free block
the pool takes is not stated). -/
def freeBlock (rings : List (Nat × Ring)) (n : Nat) : Nat → Nat → Option Nat
  | 0, _ => none
  | f + 1, g =>
    let g := (g + n - 1) / n * n
    if 0x1C0000 < g + n then none
    else match rings.find? (fun e => decide (e.2.base < g + n) && decide (g < e.2.base + e.2.granules)) with
      | none => some g
      | some e => freeBlock rings n f (e.2.base + e.2.granules)

/-- The lowest free ring ID from 2 upwards. -/
def freeRingId (rings : List (Nat × Ring)) : Nat → Nat → Nat
  | 0, i => i
  | f + 1, i => if rings.any (fun e => e.1 == i) then freeRingId rings f (i + 1) else i

/-- Inserts a ring, IDs ascending. -/
def insertRing (id : Nat) (x : Ring) : List (Nat × Ring) → List (Nat × Ring)
  | [] => [(id, x)]
  | e :: es => if id < e.1 then (id, x) :: e :: es else e :: insertRing id x es

/-- RING_CREATE (16 R456; 02 R29). -/
def execRingCreate (r : Req) (s : State) : Out :=
  .next (s.runOp 0x0D01 [1, 16] (lenZ 12 [(3, 1)]) (fun s =>
    let p := r.payload
    let kind := numAt p 0 1
    let size := numAt p 1 1
    let source := numAt p 8 4
    let rings := s.sys.ring.rings
    if 4 < kind ∨ size < 12 ∨ 30 < size ∨ 1 < numAt p 2 1 then .no stValue dtRange
    else if kind = 4 && !(r.owner == 0 && s.hasPriv r.owner 4) then .no stPermit 0
    else if kind ≠ 4 && !s.hasPriv r.owner 0 then .no stPermit 0
    else if !sourceOk kind source then .no stValue dtRange
    else if kind = 3 && rings.any (fun e => e.2.kind == 3 && e.2.owner == r.owner) then .no stValue dtCompletionExists
    else if (s.owner r.owner).ringQuota.toNat < s.ringGranules r.owner + 2 ^ (size - 12) then .no stState dtRingQuota
    else match freeBlock rings (2 ^ (size - 12)) (rings.length + 1) 0x40000 with
      | none => .no stState dtPoolFull
      | some base =>
        let id := freeRingId rings rings.length 2
        let now := s.clk
        let x : Ring :=
          { base := base, sizeLog2 := size, owner := r.owner, kind := kind, stop := numAt p 2 1 == 1, fixed := false, wr := 0, rd := 0
            drop := 0, notify := BitVec.ofNat 32 (numAt p 4 4), source := BitVec.ofNat 32 source, epoch := (s.owner r.owner).epoch
            records := [], notified := false, dropLater := 0, due := now + bitsOf source 31 16 * 1000000 }
        let a := done (leBytes 4 id ++ leBytes 4 base)
        let t := s.modSys (fun y => { y with ring := { y.ring with rings := insertRing id x y.ring.rings } })
        .ok a ((t.storeSecure 16))) r)

/-- RING_DELETE (16 R455, R456): streams bound to the ring end with it (DESIGN CHOICE, log entry 95: its ID may name another owner's
ring next). -/
def execRingDelete (r : Req) (s : State) : Out :=
  .next (s.runOp 0x0D02 [1, 16] (len 4) (fun s =>
    let id := numAt r.payload 0 4
    match s.ring? id with
    | none => .no stValue dtNoRing
    | some x =>
      if !(if x.owner == r.owner then s.hasPriv r.owner 0 else s.hasPriv r.owner 4) then .no stPermit dtNotOwner
      else if x.fixed then .no stState dtFixedRing
      else
        let t := s.modSys (fun y => { y with ring := { y.ring with
          rings := bankDrop id y.ring.rings } })
        let t := t.modMem (fun m => m.discard x.base x.granules)
        let t := t.modLink (fun l => { l with streams := l.streams.map (fun z => match z with
          | some w => if w.ring == id then none else some w
          | none => none) })
        .ok done ((t.storeSecure 16))) r)

/-- RING_STATUS (16 R455). -/
def execRingStatus (r : Req) (s : State) : Out :=
  .next (s.runOp 0x0D03 [1, 16] (len 4) (fun s =>
    match s.ring? (numAt r.payload 0 4) with
    | none => .no stValue dtNoRing
    | some x =>
      if !(if x.owner == r.owner then s.hasPriv r.owner 0 else s.hasPriv r.owner 4) then .no stPermit dtNotOwner
      else .ok (done x.bytes) s) r)

/-- The record that holds an index. -/
def Ring.recordAt (i : U32) (x : Ring) : Option (U32 × List Byte) :=
  x.records.find? (fun e => decide ((i - e.1).toNat < slotsOf e.2))

/-- Slots of a read that lie before the first record that fails its tag (16 R456). -/
def Ring.goodSlots (failing : List Nat) (is : List U32) (x : Ring) : List U32 :=
  let ok := is.takeWhile (fun i => !failing.contains (x.slotAddr i / 64))
  match is.drop ok.length with
  | [] => ok
  | i :: _ => match x.recordAt i with
    | some e => ok.takeWhile (fun j => decide (slotsOf e.2 ≤ (j - e.1).toNat))
    | none => ok

/-- RING_READ (16 R455, R456): slots from the start, up to a record that fails its tag. A start index of WR is outside the range that
the text under 16 Table 16-15 gives (log entry 135). -/
def execRingRead (r : Req) (s : State) : Out :=
  let p := r.payload
  .next (s.runOp 0x0D04 observe (fun p =>
      if p.length ≠ 12 then some dtLength else if 4 ≤ numAt p 5 1 || !zeroAt p 6 2 then some dtReserved else none) (fun s =>
    let id := numAt p 0 4
    let n := numAt p 4 1
    let peek := bitAt (numAt p 5 1) 0
    let from_ := bitAt (numAt p 5 1) 1
    match s.ring? id with
    | none => .no stValue dtNoRing
    | some x =>
      let start : U32 := if from_ then BitVec.ofNat 32 (numAt p 8 4) else x.rd
      if x.owner != r.owner then .no stPermit dtNotOwner
      else if n = 0 ∨ 63 < n then .no stValue dtRange
      else if from_ && decide (x.fill ≤ (start - x.rd).toNat) then .no stValue dtBadIndex
      else
        let is := indices start (min n (x.wr - start).toNat)
        let good := x.goodSlots s.sys.mem.failing is
        let body (y : Ring) : List Byte :=
          leBytes 4 y.wr.toNat ++ leBytes 4 start.toNat ++ leBytes 4 y.drop.toNat ++ leBytes 2 good.length ++ zeros 2 ++
            (good.map (fun i => x.slot i)).flatten
        if good.length = is.length then
          let t := if peek then s else s.modRing id (Ring.advance (start + BitVec.ofNat 32 good.length))
          .ok (done (body x)) (t.rdMoved id)
        else
          let bad : U32 := start + BitVec.ofNat 32 (is.takeWhile (fun i => !s.sys.mem.failing.contains (x.slotAddr i / 64))).length
          let past : U32 := match x.recordAt bad with
            | some e => e.1 + BitVec.ofNat 32 (slotsOf e.2)
            | none => bad + 1#32
          let y := { x with drop := satInc x.drop }
          let y := if peek then y else y.advance past
          .ok (partial_ 0 dtIntegrity (body y)) (((s.integrity (x.slotAddr bad)).modRing id (fun _ => y)).rdMoved id)) r)

/-- RING_ACK (16 R455, R456). -/
def execRingAck (r : Req) (s : State) : Out :=
  .next (s.runOp 0x0D05 observe (len 8) (fun s =>
    let id := numAt r.payload 0 4
    let rd : U32 := BitVec.ofNat 32 (numAt r.payload 4 4)
    match s.ring? id with
    | none => .no stValue dtNoRing
    | some x =>
      if x.owner != r.owner then .no stPermit dtNotOwner
      else if x.fill < (rd - x.rd).toNat then .no stValue dtBadIndex
      else .ok done ((s.modRing id (Ring.advance rd)).rdMoved id)) r)

/-- RING_LIST (16 R455). -/
def execRingList (r : Req) (s : State) : Out :=
  .next (s.runOp 0x0D06 observe (len 4) (fun s =>
    let ids := (s.sys.ring.rings.filter (fun e => e.2.owner == r.owner && decide (numAt r.payload 0 4 ≤ e.1))).map (·.1)
    let ids := ids.take (if r.via.transport == .smuAuth then 1015 else 1019)
    .ok (done (leBytes 2 ids.length ++ zeros 2 ++ (ids.map (leBytes 4)).flatten)) s) r)

/-- MEM_STATUS (16 R455). -/
def execMemStatus (r : Req) (s : State) : Out :=
  .next (s.runOp 0x0D07 observe (len 0) (fun s =>
    let m := s.sys.mem
    .ok (done (leBytes 4 m.cntCorr.toNat ++ leBytes 4 m.cntUncorr.toNat ++ leBytes 4 m.cntTagfail.toNat ++
      leBytes 4 m.cntUnwritten.toNat ++ leBytes 4 m.firstErr.toNat)) s) r)

/-! ### Stream opcodes (17 R470, R479) -/

/-- STREAM_CREATE (17 R470, R479). -/
def execStreamCreate (r : Req) (s : State) : Out :=
  .next (s.runOp 0x0D10 observe (lenZ 16 [(14, 2)]) (fun s =>
    let p := r.payload
    let id := numAt p 0 4
    let mask := numAt p 10 1
    let n := numAt p 11 1
    let flush := numAt p 12 2
    let ports := (List.finRange 2).filter (fun q => bitAt mask q.val)
    match s.ring? id with
    | none => .no stValue dtNoRing
    | some x =>
      if x.owner != r.owner then .no stPermit dtNotOwner
      else if 4 ≤ mask ∨ n = 0 ∨ 140 < n ∨ flush = 0 ∨ 10000 < flush then .no stValue dtRange
      else if ports.any (fun q => decide ((s.link.eth[q.val]).maxUdp < 48 + 64 * n)) then .no stValue dtRange
      else if ports.all (fun q => (s.link.eth[q.val]).set.ip == 0) then .no stState 0x010A
      else match (List.finRange 32).find? (fun i => (s.stream i).isNone) with
        | none => .no stState 0x0109
        | some i =>
          let no := (s.owner r.owner).streamCreations
          let now := s.clk
          let y : Stream :=
            { owner := r.owner, ring := id, portMask := mask, addr := BitVec.ofNat 32 (numAt p 4 4), udp := BitVec.ofNat 16 (numAt p 8 2)
              records := n, flushMs := flush, createNo := no, dseq := 0, deferrals := 0, paused := false, oldest := waitingFrom now x }
          let t := s.modOwner r.owner (fun o => { o with streamCreations := o.streamCreations + 1#32 })
          let t := t.modLink (fun l => { l with streams := vmod l.streams i (fun _ => some y) })
          let t := if n ≤ x.fill then t.streamSend i else t
          .ok (done (leBytes 1 i.val ++ zeros 3 ++ leBytes 4 no.toNat)) (t.storeSecure 17)) r)

/-- STREAM_DELETE (17 R479); an empty slot is out of range (DEDUCED, log entry 95). -/
def execStreamDelete (r : Req) (s : State) : Out :=
  .next (s.runOp 0x0D11 [1, 16] (len 1) (fun s =>
    let n := numAt r.payload 0 1
    if h : n < 32 then
      match s.stream ⟨n, h⟩ with
      | none => .no stValue dtRange
      | some x =>
        if !(if x.owner == r.owner then s.hasPriv r.owner 0 else s.hasPriv r.owner 4) then .no stPermit dtNotOwner
        else .ok done ((s.modLink (fun l => { l with streams := vmod l.streams ⟨n, h⟩ (fun _ => none) })).storeSecure 17)
    else .no stValue dtRange) r)

/-- STREAM_STATUS (17 R479). -/
def execStreamStatus (r : Req) (s : State) : Out :=
  .next (s.runOp 0x0D12 observe (len 1) (fun s =>
    let n := numAt r.payload 0 1
    if h : n < 32 then
      match s.stream ⟨n, h⟩ with
      | none => .no stValue dtRange
      | some x => .ok (done (leBytes 4 x.createNo.toNat ++ leBytes 8 x.dseq.toNat ++ leBytes 4 x.deferrals.toNat)) s
    else .no stValue dtRange) r)

end Sys2Proof.Machine
end

