-- ==== Sys2Proof/Machine/Time.lean ====
section
/-! DEFINITION. Device time: references, the servo, steps, PPS (13). -/

namespace Sys2Proof.Machine

/-- Code of source 1 or 2 of TB_CFG (13 Table 13-4); 0 for none. -/
def State.srcCode (s : State) (k : Nat) : Nat :=
  match k with
  | 1 => bitsOf (s.held 0x1600) 2 0
  | 2 => bitsOf (s.held 0x1600) 5 3
  | _ => 0

/-- A source is present: 1 PPS_IN, 2 PTP, 3 both (13 R380). -/
def State.srcPresent (s : State) (k : Nat) : Bool :=
  let b := s.clock.tb
  match s.srcCode k with
  | 1 => b.ppsPresent
  | 2 => b.ptpPresent
  | 3 => b.ppsPresent && b.ptpPresent
  | _ => false

/-- x moved towards a target by at most d. -/
def towardsQ (x target d : Rat) : Rat := if x < target then min target (x + d) else max target (x - d)

/-- TB_SLEW_RATE, ppb per s. -/
def State.slewRate (s : State) : Rat := (s.held 0x1603 : Rat)

/-- TB_SLEW_MAX, ppb. -/
def State.slewMax (s : State) : Rat := (s.held 0x1602 : Rat) * 100

/-- y in force, ppb: in FREE it moves to TB_XTAL_TRIM at TB_SLEW_RATE (13 Table 13-2). -/
def State.freqNow (s : State) : Rat :=
  let b := s.clock.tb
  if b.run == .free then
    towardsQ b.freq ((s.heldI 0x160A : Rat) * 10) (s.slewRate * (((s.clk - b.holdSince : Nat) : Rat) / 1000000000))
  else b.freq

/-- Mean of y over the last 64 s. -/
def Timebase.meanFreq (now : Nanos) (b : Timebase) : Rat :=
  let ys := (b.freqs.filter (fun e => decide (now ≤ e.1 + 64000000000))).map (·.2)
  if ys.isEmpty then b.freq else ys.sum / (ys.length : Nat)

/-- A change of state or source raises IS316 (13 R389). -/
def State.tbTo (run : TbRun) (src : Nat) (s : State) : State :=
  let b := s.clock.tb
  let y := s.freqNow
  (s.modTb (fun x => { x with run := run, src := src, good := 0, freq := y })).raiseIf (b.run != run || b.src != src) 316

/-- Transitions of 13 Table 13-2 that follow from which sources are present. -/
def State.followSources (s : State) : State :=
  let b := s.clock.tb
  let now := s.clk
  let p1 := s.srcPresent 1
  let p2 := s.srcPresent 2
  let s := s.modTb (fun x => { x with src1Since := if !p1 then none else match x.src1Since with | some t => some t | none => some now })
  match b.run with
  | .free | .holdover => if p1 then s.tbTo .acquiring 1 else if p2 then s.tbTo .acquiring 2 else s
  | .acquiring | .locked =>
    if s.srcPresent b.src then s
    else if p1 then s.tbTo .acquiring 1
    else if p2 then s.tbTo .acquiring 2
    else
      let y := b.meanFreq now
      ((s.tbTo .holdover 0).modTb (fun x => { x with freq := y, holdSince := now, cntLoss := satInc x.cntLoss }))

/-- No group runs, none is paired, nothing is scheduled, no sweep and no enumeration is under way (13 R382). -/
def State.stepQuiet (s : State) : Bool :=
  s.allQuiet && s.conv.groups.toList.all (fun g => !g.pair.paired) && s.conv.schedule.isEmpty &&
    s.stack.stp.sweeps.toList.all (fun x => x.run == .idle) && s.stack.chain.enumerate.isNone

/-- A step of an offset is permitted (13 R382). -/
def State.stepPermitted (s : State) (theta : Int) : Bool :=
  let b := s.clock.tb
  (decide ((s.held 0x1601 : Int) < theta) || (!b.aligned && decide (0 < theta))) &&
    (bitAt (s.held 0x1600) 6 || (!b.aligned && bitAt (s.held 0x1600) 7)) && s.stepQuiet

/-- The parameters of the timebase take effect at a measurement, which each source event is (13 R387); REF_SEL and REF_AUTO wait for
the next release of the reset. With OUT_EN clear PPS_OUT is low (R385). -/
def State.pickTime (s : State) : State :=
  let y := s.freqNow
  let now := s.clk
  let s := s.modTb (fun x => if x.run == .free then { x with freq := y, holdSince := now } else x)
  let s := ((List.range 12).map (0x1600 + ·)).foldl (fun t id => t.pickParam id) s
  if bitAt (s.held 0x1607) 1 then s else s.modTb (fun x => { x with ppsOut := false })

/-- A step of device time (13 R383). -/
def State.timeStep (d : Nat) (s : State) : State :=
  let old := s.now
  let clk := s.clk
  let s := s.modTb (fun x => { x with
    step := x.step + d, aligned := true, alignPending := false, stepLast := BitVec.ofNat 64 (old + d), stepSize := BitVec.ofNat 64 d
    cntSteps := satInc x.cntSteps, lastMeas := clk })
  let s := (s.event .burpol .everyEvent 0x74 (zeros 6 ++ leBytes 8 old ++ leBytes 8 (old + d))).raise 317
  let lead := s.held 0x0D02 * 1000 + 20000
  let now := s.now
  (s.eachGroup (fun g t => t.restartTimer g)).modChain (fun c =>
    { c with nextSample := if c.period = 0 then c.nextSample else multipleFrom c.period (now + lead) })

/-- y_t of the slew profile: the fastest correction that lets y reach 0 as the offset does (13 R381). -/
def State.slewTarget (s : State) (theta : Int) : Rat :=
  let m := min s.slewMax (sqrtQ (2 * s.slewRate * absQ (theta : Rat)))
  if theta < 0 then -m else m

/-- A measurement of the source in use (13 R381, R382). -/
def State.measureOffset (theta : Int) (s : State) : State :=
  let b := s.clock.tb
  let clk := s.clk
  let ts : Rat := ((clk - b.lastMeas : Nat) : Rat) / 1000000000
  let th := s.held 0x160B
  let big := decide (s.held 0x1601 < theta.natAbs)
  let step := s.stepPermitted theta
  let pending := if step then false else if (s.held 0x1601 : Int) < theta then true else if big then b.alignPending else false
  let s := s.modTb (fun x => { x with
    offset := clampI (-2147483648) 2147483647 theta, lastMeas := clk, alignPending := pending
    ofsPeak := if x.ofsPeak.toNat < theta.natAbs then BitVec.ofNat 32 (min theta.natAbs 4294967295) else x.ofsPeak })
  if step then s.timeStep theta.toNat
  else
    let slewing := b.profile || big
    let profile := slewing && decide (th < theta.natAbs)
    let integ := if slewing then b.integ else b.integ + s.heldQ 0x1605 * theta * ts
    let yt := if slewing then s.slewTarget theta else s.heldQ 0x1604 * theta + integ
    let y := clampQ (-s.slewMax) s.slewMax (towardsQ b.freq yt (s.slewRate * ts))
    let integ := if slewing && !profile then y else integ
    let limit := decide (absQ y = s.slewMax)
    let good := if theta.natAbs ≤ th then b.good + 1 else 0
    let s := s.modTb (fun x => { x with
      freq := y, integ := integ, profile := profile, slewLimit := limit, good := good
      freqs := (clk, y) :: x.freqs.filter (fun e => decide (clk ≤ e.1 + 64000000000)) })
    if b.run == .acquiring && 16 ≤ good then
      (s.modTb (fun x => { x with run := .locked, ofsPeak := BitVec.ofNat 32 (min theta.natAbs 4294967295) })).raise 316
    else s

/-- The source in use has the code k. -/
def State.usesSource (s : State) (k : Nat) : Bool :=
  let b := s.clock.tb
  (b.run == .acquiring || b.run == .locked) && s.srcCode b.src == k

/-- Nearest whole number of seconds to a time in ns. -/
def nearestSecond (t : Int) : Int := (t + 500000000) / 1000000000 * 1000000000

/-- Offset that a PPS_IN edge at timestamp t gives (13 R384): while not aligned the next whole second, then the nearest;
with code 3 whole seconds come from PTP. -/
def State.ppsOffset (s : State) (t : Int) : Int :=
  if s.usesSource 3 then nearestSecond (t + s.clock.tb.ptpOffset) - t
  else if s.clock.tb.aligned then nearestSecond t - t
  else (t + 999999999) / 1000000000 * 1000000000 - t

/-- PPS_IN_EDGE (13 R380, R384, R385): the device time of an edge after its filter, of which IN_POL selects the falling ones or the
rising. The expected whole second is a
whole number of seconds after the edge before (DEDUCED, log entry 86). -/
def execPpsInEdge (time : Nat) (falling : Bool) (s : State) : Out :=
  if falling != bitAt (s.held 0x1607) 0 then .next s else
  let s := ((s.atDevice time).pickTime).triggerKind 5 (fun _ => true)
  let t : Int := (time : Int) - s.heldI 0x1608
  let clk := s.clk
  let s := (s.modTb (fun x => { x with ppsLast := BitVec.ofNat 64 t.toNat })).raise 318
  match s.clock.tb.ppsAt with
  | none => .next (s.modTb (fun x => { x with ppsAt := some clk }))
  | some p =>
    let d : Int := (clk - p : Nat)
    let off := decide (100000 < (d - nearestSecond d).natAbs)
    let run := if off then s.clock.tb.ppsOffRun + 1 else 0
    let ok := decide (d ≤ 1500000000) && decide (run ≤ 2)
    let s := (s.modTb (fun x => { x with ppsAt := some clk, ppsOffRun := run, ppsPresent := ok })).followSources
    .next (if ok && !off && (s.usesSource 1 || s.usesSource 3) then s.measureOffset (s.ppsOffset t) else s)

/-- PPS_SOURCE_LOSS (13 R380): no edge for 1.5 s. -/
def execPpsSourceLoss (s : State) : Out :=
  if !s.clock.tb.ppsPresent then .next s
  else
    let t := match s.clock.tb.ppsAt with
      | some p => s.atLeast (p + 1500000001)
      | none => s
    .next (t.modTb (fun x => { x with ppsPresent := false })).followSources

/-- HOLDOVER_TIMEOUT (13 R380). -/
def execHoldoverTimeout (s : State) : Out :=
  let b := s.clock.tb
  if b.run != .holdover then .next s
  else
    let t := s.atLeast (b.holdSince + s.held 0x1606 * 1000000000)
    let now := t.clk
    .next ((t.tbTo .free 0).modTb (fun x => { x with holdSince := now }))

/-- PRIMARY_SOURCE_RETURN (13 R380): SRC1 has been present for 60 s. -/
def execPrimarySourceReturn (s : State) : Out :=
  let b := s.clock.tb
  match b.src1Since with
  | some t0 =>
    if (b.run == .acquiring || b.run == .locked) && b.src == 2 && s.srcPresent 1 then
      .next ((s.atLeast (t0 + 60000000000)).tbTo .acquiring 1)
    else .next s
  | none => .next s

/-- PPS_OUT_PULSE (13 R385): PPS_OUT rises at the next whole second of device time, or falls OUT_W ms after its rise. -/
def execPpsOutPulse (s : State) : Out :=
  let cfg := s.held 0x1607
  if s.clock.tb.ppsOut then
    .next ((s.atLeast (s.clock.tb.ppsOutAt + bitsOf cfg 15 8 * 1000000)).modTb (fun x => { x with ppsOut := false }))
  else if !bitAt cfg 1 then .next s
  else
    let t := s.atDevice (multipleFrom 1000000000 s.now)
    let now := t.clk
    .next (t.modTb (fun x => { x with ppsOut := true, ppsOutAt := now }))

/-! ### References (13 R377) -/

/-- A reference runs: false the crystal, true REFCLK_IN. -/
def Timebase.refOk (k : Bool) (b : Timebase) : Bool := if k then b.refclkOk else b.xtalOk

/-- REF_LOST: the preferred reference has failed. -/
def State.refLost (s : State) : Bool := !s.clock.tb.refOk s.clock.tb.refSel

/-- The other reference takes over. -/
def State.switchRef (k : Bool) (s : State) : State :=
  (s.modTb (fun x => { x with refclk := k, refCnt := satInc x.refCnt })).raise 319

/-- REFERENCE_FAILURE (13 R377). -/
def execReferenceFailure (refclk : Bool) (s : State) : Out :=
  if !s.clock.tb.refOk refclk then .next s
  else
    let t := (s.modTb (fun x => if refclk then { x with refclkOk := false } else { x with xtalOk := false })).raise 319
    let b := t.clock.tb
    if !b.refOk true && !b.refOk false then .next ((t.safeState 6 0).settle s)
    else if b.refclk == refclk && b.refAuto then .next (t.switchRef (!refclk))
    else .next t

/-- REFERENCE_RESTORED (13 R377, 12 R366): the CLOCK cause ends; a synthesiser without a reference takes it. -/
def execReferenceRestored (refclk : Bool) (s : State) : Out :=
  if s.clock.tb.refOk refclk then .next s
  else
    let alone := !s.clock.tb.refOk (!refclk)
    let t := s.modTb (fun x => if refclk then { x with refclkOk := true } else { x with xtalOk := true })
    let t := t.modSafety (fun x => { x with causes := x.causes &&& ~~~(1#12 <<< 6) })
    .next (if alone && t.clock.tb.refclk != refclk then t.switchRef refclk else t)

/-- PLL_LOCK_CHANGE (13 R389). -/
def execPllLockChange (lock : Bool) (s : State) : Out :=
  .next ((s.modTb (fun x => { x with pllLock := lock })).raiseIf (lock != s.clock.tb.pllLock) 319)

/-! ### Commands (13 R388) -/

/-- TB_STATUS (13 Table 13-6). -/
def State.tbStatus (s : State) : Nat :=
  let b := s.clock.tb
  (match b.run with | .free => 0 | .acquiring => 1 | .locked => 2 | .holdover => 3) + fieldAt 3 3 (s.srcCode b.src) +
    fieldAt 6 1 (flag b.aligned) + fieldAt 7 1 (flag b.alignPending) + fieldAt 8 1 (flag b.refclk) +
    fieldAt 9 1 (flag s.refLost) + fieldAt 10 1 (flag b.pllLock) + fieldAt 11 1 (flag b.slewLimit)

/-- TB_STATUS_READ. -/
def execTbStatusRead (r : Req) (s : State) : Out :=
  .next (s.runOp 0x0130 observe (len 0) (fun s =>
    .ok (done (leBytes 4 s.tbStatus ++ leBytes 4 (codeOf 32 s.clock.tb.offset) ++ leBytes 4 (fitS 32 (roundQ s.freqNow)) ++ leBytes 8 s.now)) s) r)

/-- TB_ALIGN_NOW. -/
def execTbAlignNow (r : Req) (s : State) : Out :=
  .next (s.runOp 0x0131 configure (len 0) (fun s =>
    let b := s.clock.tb
    if !b.alignPending then .no stState 0x0102
    else if !s.stepPermitted b.offset then .no stState dtGroupState
    else .ok done (s.timeStep b.offset.toNat)) r)

/-- TB_SET_TOD. -/
def execTbSetTod (r : Req) (s : State) : Out :=
  .next (s.runOp 0x0132 service (len 8) (fun s =>
    let t := numAt r.payload 0 8
    let c := if s.clock.tb.run == .acquiring || s.clock.tb.run == .locked then s.srcCode s.clock.tb.src else 0
    if t ≤ s.now then .no stValue 0x0101
    else if c = 2 ∨ c = 3 then .no stState 0x0103
    else if !s.stepPermitted ((t : Int) - s.now) then .no stState dtGroupState
    else .ok done ((s.timeStep (t - s.now)))) r)

end Sys2Proof.Machine
end

