-- ==== Sys2Proof/Machine/Links.lean ====
section
/-! DEFINITION. The Ethernet ports, PTP, PRP, TW0 and TW1 (17 R457 to R464, R473 to R479). -/

namespace Sys2Proof.Machine

/-- One Ethernet port. -/
def State.eth (s : State) (q : Fin 2) : EthPort := s.link.eth[q.val]

/-- Changes an Ethernet port. -/
def State.modEth (q : Fin 2) (f : EthPort → EthPort) (s : State) : State := s.modLink (fun l => { l with eth := vmod l.eth q f })

/-- Parameter k of port q (17 Table 17-1). -/
def etId (q : Fin 2) (k : Nat) : Nat := 0x1A00 + 16 * q.val + k

/-- Interrupt source j of port q (17 R460). -/
def etSource (q : Fin 2) (j : Nat) : Nat := 236 + 8 * q.val + j

/-- ETH_STATUS (17 Table 17-4). -/
def EthPort.status (x : EthPort) : Nat :=
  flag x.up + fieldAt 1 2 (if x.up then x.speed else 0) + fieldAt 3 1 (flag (x.up && x.duplex)) +
    fieldAt 4 3 (match x.ptp with
      | .disabled => 0 | .listening => 1 | .uncalibrated => 2 | .slave => 3 | .preMaster => 4 | .master => 5 | .passive => 6 | .faulty => 7) +
    fieldAt 7 1 (flag x.lanOk) + fieldAt 8 1 (flag x.addrConflict)

/-- Mean path delay, ns (17 R462). -/
def EthPort.delay (x : EthPort) : Rat := if x.delays.isEmpty then 0 else x.delays.sum / (x.delays.length : Nat)

/-- ETH_PTP_DELAY. -/
def EthPort.delayWord (x : EthPort) : Nat := fitU 32 (roundQ x.delay)

/-- A frame error of a port (02 R36): counted, and IS237 + 8q for the first in each second. -/
def State.ethError (q : Fin 2) (s : State) : State :=
  let second := s.now / 1000000000
  let first := (s.eth q).errSecond != some second
  (s.modEth q (fun x => { x with cntErr := satInc x.cntErr, errSecond := some second })).raiseIf first (etSource q 1)

/-! ### PTP (17 R461 to R463) -/

/-- PTP runs on a port: EN, the port in use, link up. -/
def State.ptpOn (s : State) (q : Fin 2) : Bool :=
  bitAt (s.param (etId q 6)) 0 && (s.eth q).set.cfg.getLsbD 0 && (s.eth q).up

/-- The order of the best-master algorithm on two parents. -/
def PtpParent.better (a b : PtpParent) : Bool :=
  let ka := [a.priority1, a.clockClass, a.priority2, a.identity.toNat, a.steps]
  let kb := [b.priority1, b.clockClass, b.priority2, b.identity.toNat, b.steps]
  decide (List.lex ka kb (fun x y => decide (x < y)) = true)

/-- The parent of a port on which PTP runs. -/
def State.parentOf (s : State) (q : Fin 2) : Option PtpParent := if s.ptpOn q then (s.eth q).parent else none

/-- The port that the algorithm selects as SLAVE. -/
def State.slavePort (s : State) : Option (Fin 2) :=
  match s.parentOf 0, s.parentOf 1 with
  | some a, some b => some (if b.better a then 1 else 0)
  | some _, none => some 0
  | none, some _ => some 1
  | none, none => none

/-- A port may become MASTER (17 R461). -/
def State.masterOk (s : State) (q : Fin 2) : Bool := bitAt (s.param (etId q 6)) 3 && !s.link.prp

/-- The state of a port beside the present choice of SLAVE. -/
def State.ptpNext (s : State) (q : Fin 2) : PtpRun :=
  let x := s.eth q
  let other : Fin 2 := if q = 0 then 1 else 0
  if !s.ptpOn q then .disabled
  else match s.slavePort with
    | some m =>
      if m = q then (if x.ptp == .slave then .slave else .uncalibrated)
      else if s.masterOk q && s.masterOk other then .master
      else .passive
    | none => if x.ptp == .master && s.masterOk q then .master else .listening

/-- The states of both ports follow the parents (17 R461, R463); PTP is a source while a port is SLAVE. -/
def State.ptpDecide (s : State) : State :=
  let a := s.ptpNext 0
  let b := s.ptpNext 1
  let ca := (s.eth 0).ptp != a
  let cb := (s.eth 1).ptp != b
  let s := (s.modEth 0 (fun x => { x with ptp := a })).modEth 1 (fun x => { x with ptp := b })
  let s := (s.raiseIf ca (etSource 0 3)).raiseIf cb (etSource 1 3)
  (s.modTb (fun x => { x with ptpPresent := a == .slave || b == .slave })).followSources

/-- 2^k s in ns. -/
def logInterval (k : Int) : Nanos := if 0 ≤ k then 1000000000 * 2 ^ k.toNat else 1000000000 / 2 ^ (-k).toNat

/-- A signed 4-bit field of ETH_PTP_CFG. -/
def State.ptpLog (s : State) (q : Fin 2) (lo : Nat) : Int := signedOf 4 (bitsOf (s.param (etId q 6)) (lo + 3) lo)

/-- DOMAIN of a port. -/
def State.ptpDomain (s : State) (q : Fin 2) : Nat := bitsOf (s.param (etId q 6)) 15 8

/-- PHY latency of a port: ingress and egress (17 Table 17-1). -/
def State.ptpLatency (s : State) (q : Fin 2) : Nat × Nat :=
  (bitsOf (s.param (etId q 7)) 15 0, bitsOf (s.param (etId q 7)) 31 16)

/-- An Announce at a port: it becomes, or goes on as, the parent unless the present one is better. -/
def State.announce (q : Fin 2) (p : PtpParent) (s : State) : State :=
  if !s.ptpOn q then s
  else
    let now := s.clk
    let take : Bool := match (s.eth q).parent with
      | none => true
      | some old => old.identity == p.identity || p.better old
    if !take then s
    else
      (s.modEth q (fun x =>
        let same : Bool := match x.parent with | some old => old.identity == p.identity | none => false
        let keep : PtpParent := match x.parent with
          | some old => if same then { p with logSync := old.logSync, logDreq := old.logDreq } else p
          | none => p
        { x with
          parent := some keep, lastAnnounce := now
          lastSync := if same then x.lastSync else none, delays := if same then x.delays else []
          ptp := if same then x.ptp else if x.ptp == .slave then .uncalibrated else x.ptp })).ptpDecide

/-- PTP_SYNC_RECEIVED (17 R462): `offset` is t1 less t2 as stamped at the PHY interface. -/
def execPtpSyncReceived (q : Fin 2) (offset logSync : Reading) (s : State) : Out :=
  let x := s.eth q
  if x.ptp != .slave && x.ptp != .uncalibrated then .next s
  else
    let now := s.clk
    let s := s.modEth q (fun y => { y with
      lastSync := some now, parent := match y.parent with | some p => some { p with logSync := logSync } | none => none })
    if x.delays.length < 2 then .next s
    else
      let s := s.pickTime
      let theta := roundQ ((offset + (s.ptpLatency q).1 : Int) + x.delay + (s.heldI 0x1609 : Int))
      let s := if x.ptp == .slave then s else (s.modEth q (fun y => { y with ptp := .slave })).ptpDecide.raise (etSource q 3)
      let s := s.modTb (fun b => { b with ptpOffset := theta })
      .next (if s.usesSource 2 then s.measureOffset theta else s)

/-- PTP_DELAY_REQ_SEND (17 R462). -/
def execPtpDelayReqSend (q : Fin 2) (s : State) : Out :=
  let x := s.eth q
  match x.parent with
  | none => .next s
  | some p =>
    if (x.ptp != .slave && x.ptp != .uncalibrated) || x.lastSync.isNone then .next s
    else
      let s := s.atLeast (x.lastDelayReq + logInterval (max (s.ptpLog q 28) p.logDreq))
      let now := s.clk
      .next (s.modLink (fun l => ({ l with
        out := l.out ++ [.delayReq q], eth := vmod l.eth q (fun y => { y with lastDelayReq := now }) } : LinkState).transmitPtp q 1))

/-- PTP_MASTER_SEND (17 R461): a LISTENING port that may be MASTER becomes it (DESIGN CHOICE, log entry 97: the announce receipt
time-out of the default algorithm has passed when it first sends). -/
def execPtpMasterSend (q : Fin 2) (s : State) : Out :=
  let x := s.eth q
  let becomes := x.ptp == .listening && s.masterOk q
  if x.ptp != .master && !becomes then .next s
  else
    let s := if becomes then (s.modEth q (fun y => { y with ptp := .master })).raise (etSource q 3) else s
    let s := if becomes then s else s.atLeast (x.lastMaster + logInterval (s.ptpLog q 16))
    let now := s.clk
    let parent := match s.slavePort with | some m => s.parentOf m | none => none
    let (cls, steps) : Nat × Nat :=
      match s.clock.tb.run with
      | .locked => (match parent with
        | some p => (p.clockClass, p.steps + 1)
        | none => ((Config.freeByte s.freeCtr 0).toNat, 0))
      | .holdover => (187, 0)
      | _ => (248, 0)
    let t : State := { s with freeCtr := s.freeCtr + 1 }
    .next (t.modLink (fun l => ({ l with
      out := l.out ++ [.sync q (bitAt (s.param (etId q 6)) 1) s.now, .announce q cls steps]
      eth := vmod l.eth q (fun y => { y with lastMaster := now }) } : LinkState).transmitPtp q 2))

/-- PTP_SOURCE_LOSS (17 R463): the first of the Announce and Sync limits that passes. -/
def execPtpSourceLoss (q : Fin 2) (s : State) : Out :=
  let x := s.eth q
  match x.parent with
  | none => .next s
  | some p =>
    let a := x.lastAnnounce + bitsOf (s.param (etId q 6)) 27 24 * logInterval p.logAnn
    let t := match x.lastSync with
      | some b => min a (b + 4 * logInterval p.logSync)
      | none => a
    .next (((s.atLeast t).modEth q (fun y => { y with parent := none, lastSync := none, delays := [] })).ptpDecide)

/-! ### Ports (17 R457 to R460) -/

/-- ETH_LINK_CHANGE (17 R460): `speed` 0 to 2 for 10, 100, 1,000 Mbit/s; ETH_CFG.SPEED overrides it. -/
def execEthLinkChange (q : Fin 2) (up : Bool) (speed : Fin 3) (duplex : Bool) (s : State) : Out :=
  let x := s.eth q
  let fixed := bitsOf x.set.cfg.toNat 3 2
  let on := up && x.set.cfg.getLsbD 0
  let t := s.modEth q (fun y => { y with
    up := on, speed := if fixed = 0 then speed.val + 1 else fixed, duplex := duplex || fixed == 3
    parent := if on then y.parent else none, lastSync := if on then y.lastSync else none, delays := if on then y.delays else [] })
  .next ((t.raiseIf (x.up != on) (etSource q 0)).ptpDecide)

/-- The settings that a port takes at its restart; under PRP port 1 has port 0's addresses (17 R459, R460, R464). -/
def State.ethSettings (s : State) (q : Fin 2) : EthSettings :=
  let prp := bitAt (s.param (etId 0 0)) 4
  let src : Fin 2 := if prp then 0 else q
  { cfg := BitVec.ofNat 32 (setBitAt (s.param (etId q 0)) 4 prp)
    mac := BitVec.ofNat 64 (if s.param (etId src 1) = 0 then Config.macBase.toNat + src.val else s.param (etId src 1))
    ip := BitVec.ofNat 32 (s.param (etId src 2)), mask := BitVec.ofNat 32 (s.param (etId src 3))
    gw := BitVec.ofNat 32 (s.param (etId src 4)), vlan := BitVec.ofNat 32 (s.param (etId src 5)) }

/-- A port takes its configuration. -/
def State.ethRestart (q : Fin 2) (s : State) : State :=
  let c := s.ethSettings q
  let was := (s.eth q).up
  let t := s.modEth q (fun x => { x with set := c, restarting := false, addrConflict := false, up := x.up && c.cfg.getLsbD 0 })
  (t.raiseIf (was && !(t.eth q).up) (etSource q 0)).ptpDecide

/-- ETH_PORT_RESTART (17 R459): once the response has left. -/
def execEthPortRestart (q : Fin 2) (s : State) : Out := if (s.eth q).restarting then .next (s.ethRestart q) else .next s

/-- ETH_RESTART (17 R459, R479). -/
def execEthRestart (r : Req) (s : State) : Out :=
  .next (s.runOp 0x0161 configure (len 1) (fun s =>
    let m := numAt r.payload 0 1
    if 4 ≤ m then .no stValue dtRange
    else
      let t := (List.finRange 2).foldl (fun t q => if bitAt m q.val then t.modEth q (fun x => { x with restarting := true }) else t) s
      .ok done t) r)

/-! ### Frames (17 R457, R458, R464) -/

/-- Longest frame that a port accepts. -/
def EthPort.maxFrame (x : EthPort) (tagged : Bool) : Nat :=
  if x.set.cfg.getLsbD 5 then 9216 else if tagged then 1522 else 1518

/-- The VLAN filter. -/
def EthPort.vlanOk (x : EthPort) (v : Option Nat) : Bool :=
  match v with
  | none => true
  | some vid => !x.set.vlan.getLsbD 15 || vid == bitsOf x.set.vlan.toNat 11 0

/-- A group address, or the port's own. -/
def EthPort.takes (x : EthPort) (dest : U64) : Bool := dest.getLsbD 40 || dest == x.set.mac

/-- A frame of a known peer has arrived at a port (17 R464). -/
def State.lanHeard (q : Fin 2) (src : U64) (s : State) : State :=
  if !s.link.prp || !s.link.prpPeers.contains src then s
  else
    let now := s.clk
    let was := (s.eth q).lanOk
    (s.modEth q (fun x => { x with lanOk := true, lanSeen := now })).raiseIf (!was) (etSource q 4)

/-- A PTP message runs on each port separately. -/
def isPtpMessage (p : EthPayload) : Bool :=
  match p with
  | .ptpAnnounce .. | .ptpDelayReq .. | .ptpDelayResp .. => true
  | _ => false

/-- The duplicate table of PRP: true for a later copy (17 R464). -/
def State.prpDuplicate (s : State) (f : EthFrame) : Bool :=
  match f.prp with
  | some (seq, _) =>
    s.link.prp && !isPtpMessage f.payload &&
      s.link.prpTable.any (fun e => e.source == f.src && e.seq == seq && decide (s.clk < e.at_ + 400000000))
  | none => false

/-- The first copy of a frame enters the table of 1,024. -/
def State.prpRemember (f : EthFrame) (s : State) : State :=
  match f.prp with
  | some (seq, _) =>
    if s.link.prp && !isPtpMessage f.payload then
      let now := s.clk
      s.modLink (fun l =>
        let kept := l.prpTable.filter (fun e => decide (now < e.at_ + 400000000))
        { l with prpTable := (kept ++ [({ source := f.src, seq := seq, at_ := now } : PrpEntry)]).drop (kept.length + 1 - 1024) })
    else s
  | none => s

/-- What an accepted frame does; a datagram to port 50598 is the row SMU_DATAGRAM. -/
def State.frameContent (q : Fin 2) (f : EthFrame) (s : State) : State :=
  let x := s.eth q
  let ip := x.set.ip
  match f.payload with
  | .arp sender target request =>
    if ip == 0 then s
    else
    let s := s.modLink (LinkState.learn q sender)
    if request then
      if target == ip then s.modLink (fun l => ({ l with out := l.out ++ [.arpReply q sender] } : LinkState).transmit q 1) else s
    else if sender == ip && f.src != x.set.mac then
      (s.modEth q (fun y => { y with addrConflict := true })).raiseIf (!x.addrConflict) (etSource q 6)
    else s
  | .icmpEcho dest =>
    if x.set.cfg.getLsbD 14 && ip != 0 && dest == ip then
      s.modLink (fun l => ({ l with out := l.out ++ [.echoReply q f.src] } : LinkState).transmit q 1)
    else s
  | .udp .. => s
  | .ptpAnnounce domain identity p1 cls p2 steps logAnn =>
    if domain == s.ptpDomain q then
      s.announce q { identity := identity, priority1 := p1, clockClass := cls, priority2 := p2, steps := steps, logAnn := logAnn
                     logSync := 0, logDreq := 0 }
    else s
  | .ptpDelayReq domain =>
    if x.ptp == .master && domain == s.ptpDomain q then
      s.modLink (fun l => ({ l with out := l.out ++ [.delayResp q] } : LinkState).transmitPtp q 1)
    else s
  | .ptpDelayResp domain sum minInterval =>
    if (x.ptp == .slave || x.ptp == .uncalibrated) && domain == s.ptpDomain q then
      let (ing, egr) := s.ptpLatency q
      let d : Rat := ((sum - ing - egr : Int) : Rat) / 2
      s.modEth q (fun y => { y with
        delays := (y.delays ++ [d]).drop (y.delays.length + 1 - 8)
        parent := match y.parent with | some p => some { p with logDreq := minInterval } | none => none })
    else s
  | .prpSupervision peer =>
    if s.link.prp then
      (s.modLink (fun l => { l with prpPeers := if l.prpPeers.contains peer then l.prpPeers else l.prpPeers ++ [peer] })).lanHeard q peer
    else s
  | .other => s

/-- ETH_FRAME_RECEIVED (17 R457, R458, R460, R464). -/
def execEthFrameReceived (q : Fin 2) (frame : EthFrame) (s : State) : Out :=
  let x := s.eth q
  if !x.up then .next s
  else if !frame.fcsOk || !frame.sumOk || frame.overflow || x.maxFrame frame.vlan.isSome < frame.length then
    .next ((s.modEth q (fun y => { y with cntDrop := satInc y.cntDrop })).raiseIf frame.overflow (etSource q 2))
  else
    let s := s.modEth q (fun y => { y with cntRx := y.cntRx + 1#32 })
    if !x.vlanOk frame.vlan || !x.takes frame.dest then .next s
    else
      let s := s.lanHeard q frame.src
      if s.prpDuplicate frame then .next s else .next ((s.prpRemember frame).frameContent q frame)

/-- PRP_SUPERVISION_SEND (17 R464). -/
def execPrpSupervisionSend (s : State) : Out :=
  if !s.link.prp then .next s
  else
    let t := s.atLeast (s.link.prpSent + 2000000000)
    let now := t.clk
    .next (t.modLink (fun l => ({ l with prpSent := now, out := l.out ++ [.supervision l.prpSeq] } : LinkState).transmit 0 1))

/-- PRP_LAN_TIMEOUT (17 R464). -/
def execPrpLanTimeout (q : Fin 2) (s : State) : Out :=
  if !s.link.prp || !(s.eth q).lanOk then .next s
  else .next (((s.atLeast ((s.eth q).lanSeen + 6000000000)).modEth q (fun x => { x with lanOk := false })).raise (etSource q 4))

/-! ### TW0 (17 R473 to R476) -/

/-- Changes the two-wire part. -/
def State.modTw (f : TwoWire → TwoWire) (s : State) : State := s.modLink (fun l => { l with tw := f l.tw })

/-- TW_STATUS (17 Table 17-11). -/
def TwoWire.status (w : TwoWire) : Nat :=
  (match w.address with | some a => a.toNat | none => 0) + fieldAt 7 1 (flag w.vio) + fieldAt 8 1 (flag w.attn) +
    fieldAt 9 1 (flag w.tw1.isSome)

/-- TW0 commands that have no final response read yet (17 R474). -/
def State.twHeld (s : State) : Nat :=
  (s.host.record.filter (fun c => c.req.via.transport == .tw0)).length +
    (s.link.tw.queue.filter (fun x => !x.notice && x.status != 1)).length

/-- A transaction of the host begins with a START, which takes TW0_TIM up (17 R478), and leaves the pointer past the byte it ended on
(R473). -/
def State.twStart (pointer : U16) (s : State) : State := (s.pickParam 0x1A21).modTw (fun w => { w with pointer := pointer })

/-- TW0_RELEASE_RESPONSE (17 R474): TW_CNT_TX counts the frame answered. -/
def execTw0ReleaseResponse (s : State) : Out :=
  if s.link.tw.address.isNone then .next s
  else
    .next ((s.twStart 9).modTw (fun w => if w.queue.isEmpty then w else { w with queue := w.queue.tail, cntTx := w.cntTx + 1#32 }))

/-- STATUS of the window (17 Table 17-9). -/
def State.twStatusByte (s : State) : Nat :=
  let w := s.link.tw
  flag w.attn + 2 * flag (decide (s.clk < w.busyUntil)) + 4 * flag (!w.queue.isEmpty) + 8 * flag (s.chg.low.run == .waking) +
    16 * flag (decide (16 ≤ s.twHeld))

/-- TW0_STATUS_READ (17 R476): the read cancels a pending attention. -/
def execTw0StatusRead (s : State) : Out :=
  if s.link.tw.address.isNone then .next s
  else
    let b := s.twStatusByte
    .next ((s.twStart 2).modTw (fun w => { w with data := BitVec.ofNat 8 b, attn := false }))

/-- TW0_ATTN_CAUSE_READ (17 Table 17-8; 00 R9). -/
def execTw0AttnCauseRead (s : State) : Out :=
  if s.link.tw.address.isNone then .next s else .next ((s.twStart 3).modTw (fun w => { w with data := w.attnCause, attnCause := 0 }))

/-- ATTENTION_WRITE (17 R476). -/
def execAttentionWrite (outcome : AttnOutcome) (s : State) : Out :=
  let w := s.link.tw
  let cfg := s.param 0x1A20
  if !w.attn || w.address.isNone || !bitAt cfg 0 then .next s
  else
    let s := s.atLeast (max w.attnFrom (s.clk + bitsOf cfg 23 16 * 100))
    let retry := s.clk + bitsOf cfg 31 24 * 1000000
    let s := s.pickParam 0x1A21
    match outcome with
    | .sent =>
      let own := match w.address with | some a => a.toNat | none => 0
      .next ((s.modTw (fun x => { x with
        attn := false, attnOut := x.attnOut ++ [(BitVec.ofNat 7 (bitsOf cfg 7 1), leBytes 1 own ++ leBytes 1 x.attnCause.toNat)] })).raise 253)
    | .arbitrationLost => .next ((s.modTw (fun x => { x with cntArb := satInc x.cntArb, attnFrom := retry })).raise 252)
    | .nacked => .next (s.modTw (fun x => { x with attnFrom := retry }))

/-- TW0_ISLAND_RESET_RELEASE (17 R473): with the eight samples of each address strap (21 R539). -/
def execTw0IslandResetRelease (addr0 addr1 : BitVec 8) (s : State) : Out :=
  let w := s.link.tw
  if w.address.isSome || !s.power.safety.dieRunning then .next s
  else
    let t := s.atLeast (if w.vio then w.releaseFrom else s.clk + 1000000)
    .next (t.modTw (fun x => { x with vio := true, address := some (BitVec.ofNat 7 (0x58 + 2 * flag (strapHigh addr1) + flag (strapHigh addr0))) }))

/-- The TW0 island is cycled (17 R475). -/
def State.twCycle (wait : Nanos) (s : State) : State :=
  let frames := s.link.tw.queue
  let from_ := s.clk + wait
  let s := (s.modTw (fun w => { w with
    address := none, releaseFrom := from_, request := [], pointer := 0, busyUntil := 0, queue := [], attn := false, attnCause := 0
    cntCycles := satInc w.cntCycles })).raise 255
  frames.foldl (fun t x => t.send x) s

/-- TW0_ISLAND_CYCLE: TW_VIO has been cycled. -/
def execTw0IslandCycle (s : State) : Out := .next ((s.twCycle 1000000).modTw (fun w => { w with vio := true }))

/-- TW_CYCLE (17 R475, R479). -/
def execTwCycle (r : Req) (s : State) : Out :=
  .next (s.runOp 0x0162 service (len 0) (fun s =>
    if r.via.transport == .tw0 then .no stState 0x0101
    else .ok done ((s.twCycle 10000000))) r)

/-! ### TW1 (17 R477) -/

/-- The transfer under way ends with an answer. -/
def State.tw1End (r : Req) (a : Reply) (s : State) : State :=
  ((s.modTw (fun w => { w with tw1 := none }))).complete r 0x0163 a

/-- TW1_XFER (17 R477, R479): transfers are serialised. -/
def execTw1Xfer (r : Req) (outcome : Tw1Outcome) (s : State) : Out :=
  let p := r.payload
  let wr := numAt p 2 2
  let rd := numAt p 4 2
  match s.link.tw.tw1 with
  | some _ => .next s
  | none =>
    .next (s.runOp 0x0163 service (fun p =>
        if p.length < 8 then some dtLength
        else if 256 < numAt p 2 2 || p.length ≠ 8 + numAt p 2 2 then some dtLength
        else if !zeroAt p 1 1 || !zeroAt p 6 2 then some dtReserved else none) (fun s =>
      let s := s.modTw (fun w => { w with tw1Out := some (BitVec.ofNat 7 (numAt p 0 1), slice p 8 wr, rd) })
      if 128 ≤ numAt p 0 1 ∨ 256 < rd then .no stValue dtRange
      else match outcome with
        | .done bytes =>
          let a := done (bytes.take rd ++ zeros (rd - bytes.length))
          .ok a (s.raise 256)
        | .nackAddress => .ok ⟨stState, 0, 0x0102, []⟩ (s.raise 257)
        | .nackData n =>
          let a := partial_ 0 0x0102 (leBytes 2 (min n wr))
          .ok a ((s.raise 257).raise 256)
        | .stretched => .wait (s.modTw (fun w => { w with tw1 := some r }))) r)

/-- TW1_STRETCH_TIMEOUT (17 R477): the bus is cleared; the host's transfer ends TW1_BUS. `lost` tells a lost
arbitration from a stretch, which are treated alike. -/
def execTw1StretchTimeout (lost : Bool) (s : State) : Out :=
  let s := if lost then s else s.atLeast (s.clk + bitsOf (s.param 0x1A22) 15 8 * 1000000)
  match s.link.tw.tw1 with
  | none => .next (s.raise 258)
  | some r => .next ((s.tw1End r ⟨stState, 0, 0x0103, []⟩).raise 258)

/-- LINK_STATUS (17 R479). -/
def execLinkStatus (r : Req) (s : State) : Out :=
  .next (s.runOp 0x0160 observe (len 0) (fun s =>
    let port (q : Fin 2) : List Byte :=
      let x := s.eth q
      leBytes 4 x.status ++ leBytes 4 x.delayWord ++ leBytes 4 x.cntRx.toNat ++ leBytes 4 x.cntTx.toNat ++
        leBytes 4 x.cntErr.toNat ++ leBytes 4 x.cntDrop.toNat
    .ok (done (port 0 ++ port 1 ++ leBytes 4 s.link.tw.status)) s) r)

end Sys2Proof.Machine
end

