-- ==== Sys2Proof/Machine/Mailbox.lean ====
section
/-! DEFINITION. How a mailbox frame arrives and is accepted (02 R34 to R38, R42; 06 R188, R191; 17 R465, R466, R474; 18
R491): SMU datagrams and segments, the TW0 request buffer, frames of the service UART. -/

namespace Sys2Proof.Machine

/-! ### The opcodes -/

/-- What check 10 asks for, by opcode (02 R47 and the opcode tables); none where check 9 does not know the opcode. -/
def opcodeAlts (op : Nat) : Option Alts :=
  if [0x0130, 0x0140, 0x0150, 0x0151, 0x0160, 0x0201, 0x0203, 0x0206, 0x0301, 0x0306, 0x0401, 0x0402, 0x0406, 0x0501,
      0x0502, 0x0503, 0x0601, 0x0612, 0x0701, 0x0704, 0x0801, 0x0802, 0x0805, 0x0807, 0x0809, 0x0901, 0x0903, 0x0A01,
      0x0A02, 0x0B03, 0x0B04, 0x0C01, 0x0C04, 0x0D04, 0x0D05, 0x0D06, 0x0D07, 0x0D10, 0x0D12, 0x0F01, 0x0F09, 0x1001,
      0x1101].contains op then some observe
  else if [0x0403, 0x0404, 0x0405, 0x0602, 0x0603, 0x0610, 0x0702, 0x0703, 0x0705, 0x0706, 0x0806, 0x0B01, 0x0B02, 0x0E05,
      0x0E06, 0x1104].contains op then some control
  else if [0x0131, 0x0161, 0x0204, 0x0205, 0x0302, 0x0303, 0x0304, 0x0305, 0x0307, 0x0504, 0x0803, 0x0902, 0x0906, 0x0A03,
      0x1102, 0x1103].contains op then some configure
  else if [0x0132, 0x0141, 0x0152, 0x0162, 0x0163, 0x0505, 0x0506, 0x0611, 0x0707, 0x0708, 0x0804, 0x0808, 0x0904, 0x0905,
      0x0907, 0x0A04, 0x0A05, 0x0C02, 0x0C03, 0x1002, 0x1003, 0x1004, 0x1005].contains op then some service
  else if [0x0E04, 0x0E08, 0x0F02, 0x0F03, 0x0F04, 0x0F05, 0x0F06, 0x0F07, 0x0F08, 0x0F0A, 0x0F0B].contains op then some security
  else if [0x0D01, 0x0D02, 0x0D03, 0x0D11].contains op then some [1, 16]
  else if op = 0x0202 then some [4, 2, 16]
  else if [0x0E01, 0x0E02, 0x0E03, 0x0E07].contains op then some anyOwner
  else none

/-! ### The frame -/

/-- Bytes of the GCM tag behind the payload. -/
def tagBytes (v : Via) : Nat := if v.transport == .smuAuth then 16 else 0

/-- Checks 1 and 2 of 02 Table 2-5: the length, the largest payload of Table 2-3, and the CRC-32C. -/
def frameWhole (v : Via) (b : List Byte) : Bool :=
  decide (16 ≤ b.length) && numAt b 6 2 + 16 + tagBytes v == b.length && decide (b.length ≤ 4096) &&
    (v.transport == .smuAuth || (crc32c (b.take 12 ++ b.drop 16)).toNat == numAt b 12 4)

/-- Check 3 of 02 Table 2-5, and the payload behind it: on authenticated SMU the payload opened, where the tag is right under the
attach key for OWNER_ATTACH and under the session key for any other request (02 R35, 17 R467). An owner without a secret, or
without a session, has no such key. -/
def State.openFrame (s : State) (v : Via) (b : List Byte) : Option (List Byte) :=
  let n := numAt b 6 2
  let data := slice b 16 n
  if v.transport != .smuAuth then some data
  else
    let i := Fin.ofNat 16 (numAt b 1 1)
    let o := s.owner i
    let attach : Bool := numAt b 4 2 = 0x0E01
    let k := o.frameKey i attach
    let nonce := smuNonce k.2 i.val 0 (numAt b 8 4)
    if o.secretSet && (attach || o.state == .attached) && slice b (16 + n) 16 == gcmTag k.1 nonce (b.take 12) data then
      some (gcmText k.1 nonce data)
    else none

/-- The request a frame carries (02 Table 2-3), with its payload as check 3 leaves it. -/
def State.frameRequest (s : State) (v : Via) (b : List Byte) : Req where
  owner := Fin.ofNat 16 (numAt b 1 1)
  via := v
  tag := BitVec.ofNat 12 (numAt b 2 2)
  seq := BitVec.ofNat 32 (numAt b 8 4)
  notifyQueued := bitAt (numAt b 2 2) 12
  noReply := bitAt (numAt b 2 2) 13
  payload := (s.openFrame v b).getD []

/-- A frame error of a transport (02 R36). -/
def State.frameError (v : Via) (s : State) : State :=
  match v.transport with
  | .smuAuth | .smuCrc => s.ethError v.port
  | .tw0 => (s.modTw (fun w => { w with cntErr := satInc w.cntErr })).raise 254
  | .uart => s.modSp (fun p => { p with cntFrameErr := satInc p.cntFrameErr })

/-! ### The checks -/

/-- Checks 3 to 5 of 02 Table 2-5; the recovery loader serves O0 alone on any transport (19 R511). -/
def State.checkSender (s : State) (b : List Byte) (r : Req) : Option (Nat × Nat) :=
  let o := s.owner r.owner
  let loader := s.sys.hawk == .recovery
  if (s.openFrame r.via b).isNone then some (stAuth, 0)
  else if numAt b 0 1 ≠ 2 then some (stValue, 0x0001)
  else if bitsOf (numAt b 1 1) 7 4 ≠ 0 || bitsOf (numAt b 2 2) 15 14 ≠ 0 then some (stValue, dtReserved)
  else if o.state == .unprovisioned || (loader && r.owner != 0) then some (stPermit, 0x0008)
  else if !loader && !o.transports.getLsbD (transportBit r.via.transport) then some (stPermit, 0x0008)
  else none

/-- Check 7: the replay window (02 R37). The detail of a rejection, 0 when accepted, and the owner with the number
consumed. -/
def Owner.consume (q : U32) (o : Owner) : Nat × Owner :=
  let d := (q - o.high).toNat
  if d = 0 then (0x0004, o)
  else if d < 2 ^ 31 then
    (0, { o with window := (if d < 1024 then o.window <<< d else 0#1024) ||| 1#1024, high := q })
  else
    let age := (o.high - q).toNat
    if 1024 ≤ age then (0x0005, o)
    else if o.window.getLsbD age then (0x0004, o)
    else (0, { o with window := o.window ||| (1#1024 <<< age) })

/-- Check 7 as an opcode meets it: OWNER_ATTACH is exempt, and on authenticated SMU its number is newer than that of the
last one accepted (17 R467). -/
def Owner.checkSequence (op : Nat) (r : Req) (o : Owner) : Nat × Owner :=
  if op ≠ 0x0E01 then o.consume r.seq
  else if r.via.transport != .smuAuth then (0, o)
  else
    match o.lastAttach with
    | some a =>
      let d := (r.seq - a).toNat
      (if d = 0 || decide (2 ^ 31 ≤ d) then 0x0004 else 0, o)
    | none => (0, o)

/-- Commands of an owner in flight. -/
def State.inFlightOf (s : State) (o : Fin 16) : Nat := (s.host.record.filter (fun c => c.req.owner == o)).length

/-- Checks 8 to 11, and the acceptance closed on the way into a low-power state (06 R186). -/
def State.checkCommand (s : State) (op : Nat) (r : Req) : Option (Nat × Nat) :=
  let o := s.owner r.owner
  if s.host.record.any (sameCmd r) then some (stSequence, 0x0006)
  else if s.sys.hawk == .recovery && !recoveryOpcodes.contains op then some (stOpcode, 0)
  else
    match opcodeAlts op with
    | none => some (stOpcode, 0)
    | some alts =>
      if !permits o.priv alts then some (stPermit, 0)
      else if o.qdepth.toNat ≤ s.inFlightOf r.owner then some (stBusy, 0x0009)
      else if 4096 ≤ s.host.record.length then some (stBusy, 0x000A)
      else if s.host.closed then some (stState, 0x0104)
      else none

/-- The request enters the command record (02 R40). -/
def State.enterRecord (op : Nat) (r : Req) (s : State) : State :=
  let s := s.record r op
  if op = 0x0E01 && r.via.transport == .smuAuth then
    (s.modOwner r.owner (fun o => { o with lastAttach := some r.seq })).storeSecure r.owner.val
  else s

/-- A whole frame meets the acceptance checks of 02 Table 2-5 in order (02 R36). An accepted command waits in the record
for its execution. -/
def State.accept (v : Via) (b : List Byte) (s : State) : State :=
  if !frameWhole v b then s.frameError v
  else
    let r := s.frameRequest v b
    let op := numAt b 4 2
    let refuse (t : State) (st d : Nat) : State := t.answer (some (BitVec.ofNat 32 (numAt b 0 4))) r op ⟨st, 0, d, []⟩
    match s.checkSender b r with
    | some (st, d) =>
      let t := if st = stAuth then s.audit r.owner.val st op r.tag.toNat r.seq.toNat [] else s
      refuse t st d
    | none =>
      let o := s.owner r.owner
      if s.resetting r.owner || (op ≠ 0x0E01 && o.state != .attached) then refuse s stState 0x0007
      else
        let (d, o) := o.checkSequence op r
        if d ≠ 0 then refuse s stSequence d
        else
          let t := s.modOwner r.owner (fun _ => o)
          match t.checkCommand op r with
          | some (st, e) => refuse t st e
          | none => t.enterRecord op r

/-- Frames held on a port during a wake. -/
def LowPower.heldOn (v : Via) (l : LowPower) : Nat :=
  (l.heldFrames.filter (fun e => e.1.port == v.port && (e.1.transport == .tw0) == (v.transport == .tw0))).length

/-- A frame is held until the wake completes, 32 on a port at most (06 R191). -/
def State.holdFrame (v : Via) (b : List Byte) (s : State) : State :=
  if 32 ≤ s.chg.low.heldOn v then s.frameError v
  else s.modLow (fun l => { l with heldFrames := l.heldFrames ++ [(v, b)] })

/-- Whether a frame is a wake source of 06 Table 6-14 for sleep: on SMU a request that passes checks 1 to 5, on TW0 any, since the
address matched. -/
def State.wakes (s : State) (v : Via) (b : List Byte) : Bool :=
  match v.transport with
  | .tw0 => s.chg.low.enabled 8
  | .uart => false
  | _ => s.chg.low.enabled 7 && frameWhole v b && (s.checkSender b (s.frameRequest v b)).isNone

/-- A frame arrives at the mailbox: it is accepted while commands are served. Asleep it wakes the device, or is answered as
closed (06 R186). While the device wakes, boots or restarts it is held, and answered then (01 R24, 06 R191; DESIGN CHOICE, log
entry 123). -/
def State.receive (v : Via) (b : List Byte) (s : State) : State :=
  let code := if v.transport == .tw0 then 8 else 7
  match s.chg.low.run with
  | .sleep => if s.wakes v b then (s.wakeBy code).holdFrame v b else s.accept v b
  | .waking => (if s.chg.low.record.left = 1 && s.wakes v b then s.wakeBy code else s).holdFrame v b
  | .dustSheet => s
  | _ => if s.serving then s.accept v b else s.holdFrame v b

/-! ### SMU (17 R465, R466) -/

/-- Transport of an SMU frame: authenticated when its integrity field is 0 (17 R465). -/
def smuVia (q : Fin 2) (addr : U32) (udp : U16) (b : List Byte) : Via :=
  { transport := if numAt b 12 4 = 0 then .smuAuth else .smuCrc, port := q, addr := addr, udp := udp }

/-- A reassembly is the one of this sender and MSG_ID. -/
def Reassembly.isOf (q : Fin 2) (addr : U32) (udp id : U16) (x : Reassembly) : Bool :=
  x.port == q && x.addr == addr && x.udp == udp && x.id == id

/-- The reassemblies without one. -/
def State.dropReassembly (q : Fin 2) (addr : U32) (udp id : U16) (s : State) : State :=
  s.modLink (fun l => { l with reassemblies := l.reassemblies.filter (fun x => !x.isOf q addr udp id) })

/-- A 17th reassembly on a port discards its oldest (17 R466). -/
def State.makeReassembly (q : Fin 2) (s : State) : State :=
  let mine := s.link.reassemblies.filter (fun x => x.port == q)
  match mine with
  | x :: _ => if mine.length < 16 then s else (s.dropReassembly q x.addr x.udp x.id).ethError q
  | [] => s

/-- The segment fits beside those received: inside TOTAL, the same COUNT and TOTAL, a new INDEX, no overlap. -/
def Reassembly.takes (count total index off : Nat) (part : List Byte) (x : Reassembly) : Bool :=
  x.count == count && x.total == total && x.parts.all (fun p =>
    p.1 != index && (decide (p.2.1 + p.2.2.length ≤ off) || decide (off + part.length ≤ p.2.1)))

/-- Segments by ascending OFFSET. -/
def insertPart (p : Nat × Nat × List Byte) : List (Nat × Nat × List Byte) → List (Nat × Nat × List Byte)
  | [] => [p]
  | q :: qs => if p.2.1 ≤ q.2.1 then p :: q :: qs else q :: insertPart p qs

/-- The frame is complete: COUNT segments that cover TOTAL bytes; without overlap their lengths add up to it. -/
def Reassembly.whole (x : Reassembly) : Bool :=
  x.parts.length == x.count && (x.parts.map (fun p => p.2.2.length)).sum == x.total

/-- A segment (17 Table 17-5). -/
def State.segment (q : Fin 2) (addr : U32) (udp : U16) (b : List Byte) (s : State) : State :=
  let seg := numAt b 1 1
  let index := bitsOf seg 3 0
  let count := bitsOf seg 7 4
  let id := BitVec.ofNat 16 (numAt b 2 2)
  let off := numAt b 4 2
  let total := numAt b 6 2
  let part := b.drop 8
  let now := s.clk
  let formed := decide (8 < b.length) && decide (2 ≤ count) && decide (index < count) && decide (17 ≤ total) && decide (total ≤ 4112)
  let bad := (s.dropReassembly q addr udp id).ethError q
  if !formed || total < off + part.length then bad
  else
    let old := s.link.reassemblies.find? (fun x => x.isOf q addr udp id)
    let x : Reassembly := old.getD
      { port := q, addr := addr, udp := udp, id := id, count := count, total := total, parts := [], since := now }
    if !x.takes count total index off part then bad
    else
      let y : Reassembly := { x with parts := insertPart (index, off, part) x.parts }
      if y.whole then
        let frame := (y.parts.map (fun p => p.2.2)).flatten
        (s.dropReassembly q addr udp id).receive (smuVia q addr udp frame) frame
      else if y.parts.length == y.count then bad
      else if old.isSome then
        s.modLink (fun l => { l with reassemblies := l.reassemblies.map (fun z => if z.isOf q addr udp id then y else z) })
      else (s.makeReassembly q).modLink (fun l => { l with reassemblies := l.reassemblies ++ [y] })

/-- SMU_DATAGRAM (17 R465). -/
def execSmuDatagram (port : Fin 2) (addr : U32) (udp : U16) (frame : List Byte) (s : State) : Out :=
  let x := s.eth port
  if !x.up || x.set.ip == 0 || x.maxUdp < frame.length then .next s
  else
  let s := s.modLink (LinkState.learn port addr)
  if numAt frame 0 1 = 2 then .next (s.receive (smuVia port addr udp frame) frame)
  else if numAt frame 0 1 = 0x53 then .next (s.segment port addr udp frame)
  else .next (s.ethError port)

/-- SMU_SEGMENT_REASSEMBLY_TIMEOUT (17 R466). -/
def execSmuSegmentReassemblyTimeout (port : Fin 2) (addr : U32) (udp : U16) (id : U16) (s : State) : Out :=
  match s.link.reassemblies.find? (fun x => x.isOf port addr udp id) with
  | some x =>
    .next (((s.atLeast (x.since + s.param (etId port 9) * 1000000)).dropReassembly port addr udp id).ethError port)
  | none => .next s

/-! ### TW0 (17 R474) -/

/-- TW0_SUBMIT_REQUEST: a DOORBELL that is NACKed has no effect. -/
def execTw0SubmitRequest (buffer : List Byte) (s : State) : Out :=
  let w := s.link.tw
  let buf := (buffer ++ zeros 4096).take 4096
  let v : Via := { transport := .tw0, port := 0, addr := 0, udp := 0 }
  if w.address.isNone || s.clk < w.busyUntil || 16 ≤ s.twHeld || s.chg.low.run == .dustSheet then .next s
  else
    let until_ := s.clk + 20000
    let t := (s.twStart 9).modTw (fun x => { x with request := buf, busyUntil := until_ })
    if 4080 < numAt buf 6 2 then .next (t.frameError v)
    else .next (t.receive v (buf.take (16 + numAt buf 6 2)))

/-! ### The service UART (18 R491, R492) -/

/-- COBS: the bytes between two delimiters decoded; none where a block runs past the end. `fuel` bounds the blocks. -/
def cobs : Nat → List Byte → Option (List Byte)
  | 0, _ => none
  | _ + 1, [] => some []
  | fuel + 1, c :: rest =>
    let n := c.toNat - 1
    if c == 0#8 || rest.length < n then none
    else
      match cobs fuel (rest.drop n) with
      | none => none
      | some out => some (rest.take n ++ (if c.toNat = 255 || (rest.drop n).isEmpty then out else 0#8 :: out))

/-- Transport of a frame of the service UART. -/
def uartVia : Via := { transport := .uart, port := 0, addr := 0, udp := 0 }

/-- A complete frame of the UART: taken while commands are served or, asleep, answered (06 R186); held otherwise, two at most
(18 R491). -/
def State.uartFrame (b : List Byte) (s : State) : State :=
  if s.serving || s.chg.low.run == .sleep then s.accept uartVia b
  else if 2 ≤ s.port.heldFrames.length then s.frameError uartVia
  else s.modSp (fun p => { p with heldFrames := p.heldFrames ++ [b] })

/-- Framing errors are counted; IS267 is raised at the first in each second (18 R492). -/
def State.framingErrors (fe : Nat) (s : State) : State :=
  if fe = 0 then s
  else
    let second := s.now / 1000000000
    let first := s.port.feSecond != some second
    (s.modSp (fun p => { p with cntUartFe := satAdd p.cntUartFe fe, feSecond := some second })).raiseIf first 267

/-- SERVICE_UART_FRAME (18 R491): the bytes before a delimiter, and how many of them carry FE. The UART has taken SP_UART_BAUD up at a
character boundary (R495). -/
def execServiceUartFrame (coded : List Byte) (fe : Nat) (s : State) : Out :=
  if !s.port.alt then .next s
  else
    let t := (s.pickParam 0x1B05).framingErrors fe
    if coded.isEmpty then .next t
    else if 4114 < coded.length || fe ≠ 0 then .next (t.frameError uartVia)
    else
      match cobs (coded.length + 1) coded with
      | some b => .next (t.uartFrame b)
      | none => .next (t.frameError uartVia)

/-- UART_INTER_BYTE_TIMEOUT (18 R491). -/
def execUartInterByteTimeout (part : List Byte) (s : State) : Out :=
  if !s.port.alt || part.isEmpty then .next s else .next (s.frameError uartVia)

/-- The frames held for the firmware are served, oldest first (06 R191, 18 R491). -/
def State.serveHeld (s : State) : State :=
  let fs := s.chg.low.heldFrames
  let us := s.port.heldFrames
  let s := (s.modLow (fun l => { l with heldFrames := [] })).modSp (fun p => { p with heldFrames := [] })
  let s := fs.foldl (fun t e => t.accept e.1 e.2) s
  us.foldl (fun t b => t.accept uartVia b) s

end Sys2Proof.Machine
end

