-- ==== Sys2Proof/Machine/Owners.lean ====
section
/-! DEFINITION. Owners and the control lease (02 R25 to R33, R38, R46, R563; 19 R516 to R518). -/

namespace Sys2Proof.Machine

/-- The 256 bits of the next draw of the device's random source. -/
def State.random (s : State) : BitVec 256 := Config.freeRandom s.freeCtr

/-- One draw further. -/
def State.drawn (s : State) : State := { s with freeCtr := s.freeCtr + 1 }

/-! ### Sessions -/

/-- A session number from a draw; 0xFFFF_FFFF is never issued (17 R467). -/
def sessionOf (x : BitVec 256) : U32 := if x.setWidth 32 = 0xFFFFFFFF#32 then 0xFFFFFFFE#32 else x.setWidth 32

/-- A session opens: h is the starting sequence number, the window h alone (02 R38). -/
def Owner.open_ (i : Fin 16) (v : Via) (x : BitVec 256) (o : Owner) : Owner :=
  { o with
    key := o.smuKey i (sessionOf x) ((x >>> 32).setWidth 32), keyNo := sessionOf x
    state := .attached, session := sessionOf x, high := (x >>> 32).setWidth 32, window := 1
    attachVia := some v, notices := 0 }

/-- A session is closed; its key stays for the answers to its commands. -/
def Owner.close (o : Owner) : Owner :=
  { o with state := .provisioned, session := 0, high := 0, window := 0, attachVia := none, notices := 0 }

/-- The wake record goes to the event ring of an owner (06 R192): its 24 bytes, then zeros (DESIGN CHOICE, log entry 67). -/
def State.wakeEvent (o : Fin 16) (s : State) : State :=
  let b := pad64 s.chg.low.record.bytes
  (s.emit .burpol (.ownerEvent o) b).store 0x20 0 b

/-- OWNER_ATTACH (02 R38); the wake record goes to the owner's event rings (06 R192). -/
def execOwnerAttach (r : Req) (s : State) : Out :=
  .next (s.runOp 0x0E01 anyOwner (len 4) (fun s =>
    let o := s.owner r.owner
    if numAt r.payload 0 4 ≠ o.epoch.toNat then .fail stState dtEpoch (leBytes 4 o.epoch.toNat)
    else
      let x := s.random
      let t := s.drawn.modOwner r.owner (Owner.open_ r.owner r.via x)
      let o := t.owner r.owner
      let t := if t.chg.low.record.left ≠ 0 then t.wakeEvent r.owner else t
      .ok (done (leBytes 4 o.session.toNat ++ leBytes 4 o.high.toNat ++ leBytes 4 o.epoch.toNat)) t) r)

/-- The lease is lost when this owner holds it (02 R33). -/
def State.leaseLeaves (o : Fin 16) (cause : LeaseLoss) (s : State) : State :=
  if s.holdsLease o then s.leaseLost cause else s

/-- The policy claim is freed when this owner holds it (18 R487). -/
def State.claimLeaves (o : Fin 16) (s : State) : State :=
  if s.port.policyOwner == some o then s.modSp (fun p => { p with policyOwner := none, record := none }) else s

/-- OWNER_DETACH (02 R563). -/
def execOwnerDetach (r : Req) (s : State) : Out :=
  .next ((s.runOp 0x0E02 anyOwner (len 0) (fun s =>
    .ok done (((s.leaseLeaves r.owner .detach).claimLeaves r.owner).modOwner r.owner Owner.close)) r).settle s)

/-! ### Owner reset (02 R46, Table 2-9) -/

/-- An upload of this owner is discarded: its section has no valid header (19 R512). -/
def State.dropUpload (o : Fin 16) (s : State) : State :=
  match s.nv.fw.upload with
  | some u => if u.owner == o then s.modFw (fun f => { f with upload := none }) else s
  | none => s

/-- Commands of an owner end as aborted by its reset; every one of them is recorded in O0's audit ring. -/
def State.abortOwner (sel : Req → Bool) (s : State) : State :=
  let cs := s.host.record.filter (fun c => sel c.req && !auditOn c.opcode.toNat stAbReset)
  let s := cs.foldl (fun t c => t.auditReq c.req c.opcode.toNat ⟨stAbReset, 0, 0, []⟩) s
  s.abandon sel stAbReset

/-- The key epoch increments under a new epoch salt (02 R46, 19 R518). -/
def Owner.renew (x : BitVec 256) (o : Owner) : Owner :=
  { o.close with epoch := o.epoch + 1#32, epochSalt := x, staging := none, streamCreations := 0 }

/-- An owner reset at command r: the owner is RESETTING for the 50 µs of Table 2-9, and the effects of its steps come with its start
(DESIGN CHOICE, log entry 9: their instants are typical). -/
def State.ownerReset (o : Fin 16) (r : Req) (s : State) : State :=
  let now := s.clk
  let s := s.modOwner o (fun y => { y with resetEnd := some (now + 50000) })
  let s := ((s.leaseLeaves o .reset).claimLeaves o).dmaOwnerReset o
  let s := (s.abortOwner (fun q => q.owner == o && q != r)).dropUpload o
  let x := s.random
  let s := (s.drawn.modOwner o (Owner.renew x)).ringOwnerReset o
  ((s.storeSecure o.val).storeSecure 16).storeSecure 17

/-- OWNER_RESET (02 R46, R563). -/
def execOwnerReset (r : Req) (s : State) : Out :=
  .next ((s.runOp 0x0E03 anyOwner (len 1) (fun s =>
    let n := numAt r.payload 0 1
    if h : n < 16 then
      let o : Fin 16 := ⟨n, h⟩
      if o != r.owner && !s.hasPriv r.owner 4 then .no stPermit 0
      else if (s.owner o).state == .unprovisioned then .no stState 0
      else .ok done (s.ownerReset o r)
    else .no stValue dtRange) r).settle s)

/-! ### Provisioning (19 R517) -/

/-- The sums of 02 R27 with one owner's queue depth and ring quota replaced. -/
def State.quotaOk (s : State) (o : Fin 16) (depth quota : Nat) : Bool :=
  let ds := (List.finRange 16).map (fun i => if i = o then depth else (s.owner i).qdepth.toNat)
  let qs := (List.finRange 16).map (fun i => if i = o then quota else (s.owner i).ringQuota.toNat)
  decide (ds.sum ≤ 4096) && decide (qs.sum ≤ 1572864)

/-- The shape of a provision: 12 bytes, or 44 with NEW_SECRET. -/
def provisionShape (p : List Byte) : Option Nat :=
  if p.length ≠ 12 + (if bitAt (numAt p 3 1) 0 then 32 else 0) then some dtLength
  else if 2 ≤ numAt p 3 1 || !zeroAt p 6 2 then some dtReserved
  else none

/-- The owner takes the values of a provision. -/
def Owner.provision (p : List Byte) (o : Owner) : Owner :=
  let secret := bitAt (numAt p 3 1) 0
  { o with
    state := if o.state == .unprovisioned then .provisioned else o.state
    priv := BitVec.ofNat 8 (numAt p 1 1), transports := BitVec.ofNat 8 (numAt p 2 1)
    qdepth := BitVec.ofNat 16 (numAt p 4 2), ringQuota := BitVec.ofNat 32 (numAt p 8 4)
    secretSet := o.secretSet || secret, secret := if secret then slice p 12 32 else o.secret }

/-- OWNER_PROVISION (02 R29, 19 R517): a new owner gets its first epoch salt, one already provisioned is reset. -/
def execOwnerProvision (r : Req) (s : State) : Out :=
  .next ((s.runOp 0x0E04 security provisionShape (fun s =>
    let p := r.payload
    let n := numAt p 0 1
    if h : n < 16 then
      let o : Fin 16 := ⟨n, h⟩
      let x := s.owner o
      let first := o == 0 && !x.secretSet
      if bitAt (numAt p 3 1) 0 && r.via.transport != .smuAuth && !first then .no stPermit 0x0008
      else if 0x1F < numAt p 1 1 || 0x0F < numAt p 2 1 || 4096 < numAt p 4 2 || 1572864 < numAt p 8 4 then .no stValue dtRange
      else if o == 0 && numAt p 1 1 ≠ 0x1F then .no stValue dtReadOnly
      else if !s.quotaOk o (numAt p 4 2) (numAt p 8 4) then .no stValue dtQuotaSum
      else
        let t := s.modOwner o (Owner.provision p)
        if x.state == .unprovisioned then
          let salt := t.random
          .ok done ((t.drawn.modOwner o (fun y => { y with epochSalt := salt })).storeSecure o.val)
        else .ok done (t.ownerReset o r)
    else .no stValue dtRange) r).settle s)

/-! ### The control lease (02 R30 to R33) -/

/-- The instant at which the lease lapses; none without a holder or a time-out. -/
def State.leaseEnd (s : State) : Option Nanos :=
  let ms := s.param 0x0018
  if s.host.lease.holder.isNone || ms = 0 then none else some (s.host.lease.since + ms * 1000000)

/-- The lease is assigned. -/
def State.leaseTo (o : Fin 16) (s : State) : State :=
  let now := s.clk
  s.modHost (fun h => { h with lease := { holder := some o, since := now, count := h.lease.count + 1#32 } })

/-- The setpoint commands of an owner that have not reached their point of effect end (02 R31). -/
def State.endSetpoints (o : Fin 16) (s : State) : State :=
  let out := (s.conv.groups.toList.map (fun x => x.setpoints.filter (fun w => w.req.owner == o))).flatten
  let s := s.eachGroup (fun g t => t.modGroup g (fun x => { x with setpoints := x.setpoints.filter (fun w => w.req.owner != o) }))
  let s := s.endScheduled (fun x => x.req.owner == o) stPriority 0
  out.foldl (fun t w => if t.host.record.any (sameCmd w.req) then t.finish w.req 0x0403 ⟨stPriority, 0, 0, []⟩ else t) s

/-- LEASE_ACQUIRE (02 R31, R563). FORCE is no loss of R33: the former holder's setpoint commands end, and the sweeps
(11 Table 11-3). -/
def execLeaseAcquire (r : Req) (s : State) : Out :=
  .next ((s.runOp 0x0E05 control (fun p =>
      if p.length ≠ 1 then some dtLength else if 2 ≤ numAt p 0 1 then some dtReserved else none) (fun s =>
    let force := bitAt (numAt r.payload 0 1) 0
    if force && r.owner != 0 then .no stPermit 0
    else
      match s.host.lease.holder with
      | none => .ok done (s.leaseTo r.owner)
      | some h =>
        if h == r.owner then .ok done (s.leaseTo r.owner)
        else if force then .ok done (((s.endSetpoints h).stippleAbortAll 5).leaseTo r.owner)
        else .no stPriority 0) r).settle s)

/-- LEASE_RENEW (02 R32, R563). -/
def execLeaseRenew (r : Req) (s : State) : Out :=
  .next (s.runOp 0x0E06 control (len 0) (fun s =>
    match s.host.lease.holder with
    | none => .no stState dtLeaseExpired
    | some h =>
      if h != r.owner then .no stPriority 0
      else
        let late : Bool := match s.leaseEnd with
          | some t => decide (t ≤ s.clk)
          | none => false
        if late then .no stState dtLeaseExpired
        else
          let now := s.clk
          .ok done (s.modHost (fun x => { x with lease := { x.lease with since := now } }))) r)

/-- LEASE_RELEASE (02 R563). -/
def execLeaseRelease (r : Req) (s : State) : Out :=
  .next ((s.runOp 0x0E07 anyOwner (len 0) (fun s => .ok done (s.leaseLeaves r.owner .release)) r).settle s)

/-- LEASE_LAPSE (02 R32). -/
def execLeaseLapse (s : State) : Out :=
  match s.leaseEnd with
  | some t => .next (((s.atLeast t).leaseLost .lapse).settle s)
  | none => .next s

end Sys2Proof.Machine
end

