-- ==== Sys2Proof/Machine/ParamRules.lean ====
section
/-! DEFINITION. The range, the field map, the read-only bits and the write condition of every parameter, as the
parameter tables of chapters 02 to 19 give them (02 R50, R51, R565). -/

namespace Sys2Proof.Machine

/-- One field of a fields parameter: bits [hi:lo] and the spans of its values; no span permits every value. -/
structure PField where
  hi : Nat
  lo : Nat
  spans : List (Int × Int)
  signed : Bool
  deriving DecidableEq, Repr

/-- The bounds of a parameter's own value. -/
inductive Bound where
  /-- Every value of the type. -/
  | any
  /-- The spans of its range, ascending. -/
  | spans (l : List (Int × Int))
  /-- A fields word: bits outside its fields are reserved. -/
  | fields (l : List PField)
  /-- An f32 in a range, the ends as binary32 patterns. -/
  | real (lo hi : Nat)
  /-- An f32 above 0 and finite. -/
  | positive
  /-- A range that its chapter states as a condition. -/
  | condition
  deriving DecidableEq, Repr

/-- Bounds, read-only bits (a write of them is ignored, 00 R9), whether a bound refers to another parameter or
field, and COND of 02 R565. -/
structure PRule where
  bound : Bound
  roBits : Nat
  cross : Bool
  cond : Nat
  deriving DecidableEq, Repr

/-- A rule without cross bound or condition. -/
def rule (b : Bound) : PRule := { bound := b, roBits := 0, cross := false, cond := 0 }
/-- Any value. -/
def rAny : PRule := rule .any
/-- One span. -/
def rSpan (lo hi : Int) : PRule := rule (.spans [(lo, hi)])
/-- A fields word. -/
def rFields (l : List PField) : PRule := rule (.fields l)
/-- A read-only parameter. -/
def rNever : PRule := { rule .any with cond := 0xFF }
/-- With a bound that refers to another parameter or field. -/
def PRule.x (r : PRule) : PRule := { r with cross := true }
/-- With a write condition. -/
def PRule.when_ (c : Nat) (r : PRule) : PRule := { r with cond := c }
/-- With read-only bits. -/
def PRule.keep (m : Nat) (r : PRule) : PRule := { r with roBits := m }
/-- A field of any value. -/
def fb (hi lo : Nat) : PField := { hi := hi, lo := lo, spans := [], signed := false }
/-- A field within one span. -/
def fr (hi lo : Nat) (a b : Int) : PField := { hi := hi, lo := lo, spans := [(a, b)], signed := false }
/-- A signed field within one span. -/
def fs (hi lo : Nat) (a b : Int) : PField := { hi := hi, lo := lo, spans := [(a, b)], signed := true }
/-- A table index: 0x0 to 0xF, or 0xFF for none. -/
def fTab (hi lo : Nat) : PField := { hi := hi, lo := lo, spans := [(0, 15), (255, 255)], signed := false }
/-- A table index parameter. -/
def rTab : PRule := rule (.spans [(0, 15), (255, 255)])
/-- n copies of a rule. -/
def rN (n : Nat) (r : PRule) : List PRule := List.replicate n r

/-- Device parameters (20 Table 20-1, 02 R31, R33). -/
def deviceRules : List PRule :=
  rN 8 rNever ++ rN 8 rAny ++ rN 8 rNever ++ [rule (.spans [(0, 0), (100, 600000)]), rSpan 0 1] ++ rN 3 rNever ++
    rN 19 rAny

/-- Owner parameters (02 R26, R27, Table 2-2). -/
def ownerRules (o : Nat) : List PRule :=
  [if o = 0 then rNever else (rSpan 0 0x1F).when_ 3, (rSpan 0 4096).x, (rSpan 0 0x0F).when_ 3, (rSpan 0 1572864).x, rNever, rNever]

/-- Phase parameters (03 Tables 3-7 to 3-12). -/
def phaseRules (p : Nat) : List PRule :=
  [((rSpan 0 2).x).when_ 2, ((rSpan 0 7).x).when_ 2, (rSpan 100 60000).x, (rSpan 100 60000).x,
   rSpan 65536 65536000, rSpan (-5000) 5000, (rSpan 160 16000).x, (rSpan 160 16000).x,
   (rFields [fb 0 0, fb 11 4, fr 23 12 0 1023, fb 31 24]).x,
   ((rFields [fb 15 0, fr 20 16 2 31, fr 27 24 1 15]).x).when_ 2,
   (((rFields ((if p % 8 = 0 then [fr 7 0 25 200] else []) ++ [fb 8 8, fb 9 9, fr 20 12 4 256])).x).when_ 2).keep
     (if p % 8 = 0 then 0 else 0xFF),
   (rFields [fb 0 0, fb 1 1, fb 7 4, fb 15 8]).when_ 2, rSpan 1000 10000000, rNever]

/-- Group parameters (04 Tables 4-3 to 4-6; 05 Tables 5-2, 5-8). -/
def groupRules : List PRule :=
  [(rSpan 0 5).x.when_ 2, (rSpan 20000 2000000).x.when_ 1, (rule (.spans [(0, 3), (255, 255)])).x.when_ 1,
   (rSpan 1 3).when_ 1, (rSpan 0 4000000).x, (rSpan 0 4000000).x, (rSpan 0 500000).x, (rSpan 0 500000).x,
   (rSpan 0 160000).x, (rSpan 0 160000).x, rSpan 0 160000, rSpan 0 160000, rAny,
   (rFields [fb 0 0, fb 1 1, fb 2 2, fr 11 4 0 100, fb 19 12, fb 27 20, fb 31 28]).x,
   rTab, rTab.when_ 1, rFields [fb 0 0, fr 15 8 1 255, fb 31 16], (rSpan 1 128).x.when_ 1,
   (rFields [fr 1 0 0 2, fb 2 2, fb 7 4, fr 15 8 1 100, fr 23 16 1 255]).x.when_ 1,
   rSpan 1 10000000, (rule .condition).x,
   ((rFields [fr 3 2 0 2, fb 6 4]).when_ 2).keep 0x00FF0303,
   rFields [fr 7 0 1 255, { hi := 13, lo := 8, spans := [(0, 0), (8, 32)], signed := false }, fb 14 14,
     fr 19 16 1 15, fr 23 20 1 15, fb 29 24, fr 31 30 0 2],
   rNever]

/-- A temperature window: LO and HI, each s16 (06 Table 6-1). -/
def rWindow : PRule := (rFields [fs 15 0 (-400) 1000, fs 31 16 (-400) 1000]).x

/-- String port parameters (06 Tables 6-1, 6-2). -/
def stringRules : List PRule :=
  [(rFields [fb 3 0, fb 5 4]).when_ 1, rTab, rWindow, rWindow, rSpan 0 200, (rSpan 2000 4500).x,
   (rSpan 1500 3500).x, rSpan 600 172800, (rSpan 100 10000).x, rSpan 1 10000, rSpan 0 10000, rSpan 0 500000,
   rSpan 0 1000, rNever, rNever, rNever]

/-- Feed parameters (07 Tables 7-2 to 7-5). -/
def feedRules (f : Nat) : List PRule :=
  [(((rFields ([fb 0 0, fb 1 1, fb 7 4, fb 11 8] ++ (if f = 0 then [fb 15 12] else []) ++
      [fr 20 16 2 31, fTab 31 24])).x).when_ 2).keep (if f = 0 then 0 else 0xF000),
   (rSpan 0 160000).x, (rSpan 0 160000).x, rSpan 0 600000, rSpan 100 20000, (rSpan 100 1000000).x,
   (rSpan 0 500000).x, (rFields [fr 15 0 1 65535, fr 23 16 1 255, fr 31 24 1 255]).x, rSpan 0 1000,
   rFields [fb 3 0, fr 15 8 1 255, fr 31 16 1 65535], rNever, rNever]

/-- Contactor parameters (07 Tables 7-14 to 7-17). -/
def contactorRules : List PRule :=
  [(rFields [fb 0 0, fb 1 1, fb 2 2, fb 3 3, fb 4 4, fr 15 8 1 255, fr 23 16 1 255, fb 27 24]).when_ 2,
   (rFields [fr 15 0 100 10000, fr 23 16 1 100, fr 31 24 1 255]).when_ 2,
   (rFields [fr 7 0 5 255, fr 15 8 1 255]).when_ 2, rNever]

/-- Measurement parameters 0x0B00 + k (08 Tables 8-1, 8-3, 8-8, 8-10, 8-11). -/
def measureRule (k : Nat) : PRule :=
  if k < 0x60 then (if k % 2 = 0 then rSpan 32768 131072 else rSpan (-4096) 4096)
  else if k < 0x6C then
    (rFields [fb 9 0, fb 10 10, fb 15 12, fb 19 16, fb 20 20, fb 21 21, fb 22 22, fb 23 23]).when_ 2
  else if k < 0x70 then rFields [fb 0 0, fb 1 1, fr 11 4 8 255, fb 31 16]
  else if k < 0x74 then rFields [fb 0 0, fr 15 8 1 255, fr 31 16 1 65535]
  else if k = 0x74 then (rFields [fTab 7 0, fb 15 8]).when_ 2
  else if k < 0x77 then rNever
  else if k = 0x77 then (rFields [fr 7 0 25 200, fr 15 8 25 200]).x.when_ 2
  else if k < 0x7C then rNever
  else rSpan 65536 1966080000

/-- Module position parameters (09 Tables 9-13, 9-14). -/
def moduleRules : List PRule :=
  [(rFields [fb 0 0, fb 1 1, fr 6 2 1 24, fb 15 8, fr 23 16 0 24]).when_ 1, rAny.when_ 1, rNever, rNever]

/-- Chain parameters (09 Tables 9-9, 9-10). -/
def chainRules : List PRule :=
  [rFields [fb 0 0, fb 1 1, fb 2 2, fb 13 8, fr 19 16 0 3, fr 23 20 1 15], (rSpan 1000 10000000).x,
   (rSpan 20 1000).x, (rSpan 20 1000).x, (rSpan 5 1000).x, rule (.spans [(0, 0), (10, 3600)]), rSpan 1 64] ++
    rN 5 rNever ++ [rSpan 0 500, rSpan 500 2000] ++ rN 18 rNever

/-- Estimation parameters of a module (10 Tables 10-6, 10-8). -/
def estModuleRules : List PRule :=
  [rFields [fb 0 0, fb 1 1, fb 7 4, fb 11 8], rSpan 100 65535, rNever, rNever, rNever]

/-- Estimation parameters (10 Tables 10-7, 10-10, 10-11). -/
def estimationRules : List PRule :=
  [rFields [fb 0 0, fb 1 1, fb 2 2], rSpan 0 5000, rSpan 0 5000, rSpan 1 10000, rSpan 600 604800] ++
    rN 7 (rule .positive) ++
  [rSpan 60 65535, rSpan 10 10000, rSpan 1 10000, rSpan 1 5000,
   (rFields [fr 1 0 0 2, fb 15 8, fb 23 16, fb 31 24]).x,
   rFields [fb 0 0, fr 15 8 1 255, fb 31 16], rSpan 5000 10000] ++ rN 5 rNever

/-- Stipple parameters (11 Table 11-7). -/
def stippleRules : List PRule :=
  [rFields [fb 0 0, fb 1 1], rSpan 10 1000, rSpan 10 100, (rSpan 0 4095).x, (rSpan 1 4096).x, rSpan 0 7,
   rSpan 1 3600, rSpan 1 1000, rSpan 10 100, rSpan 10 200, rSpan 1 100, rSpan 2 32] ++ rN 4 rNever

/-- Trim range of a rail, 0.1 % (12 Table 12-2). -/
def trimRange (u : Nat) : Int := if u = 0 then 100 else if u < 3 then 50 else if u = 8 then 10 else 30

/-- Undercoat rail parameters (12 Tables 12-9, 12-10). -/
def railRules (u : Nat) : List PRule :=
  [rFields ([{ hi := 1, lo := 0, spans := [(0, 0), (2, 2)], signed := false }, fr 7 4 1 15] ++
     (if u = 0 then [fr 15 8 10 80] else [])),
   rSpan (-(trimRange u)) (trimRange u), rFields [fr 7 0 10 200, fr 15 8 10 200, fr 23 16 1 255],
   rSpan (((railRating u + 9) / 10 : Nat) : Int) ((railRating u * 12 / 10 : Nat) : Int), rNever, rNever]

/-- EX slot parameters (12 Table 12-11). -/
def exRules : List PRule :=
  [rFields [fb 0 0, fb 1 1, fr 15 8 1 255], (rFields [fr 15 0 100 2400, fr 31 16 100 2400]).x, rSpan 0 1000, rNever]

/-- Timebase parameters (13 Tables 13-3 to 13-5). -/
def timebaseRules : List PRule :=
  [rFields [fr 2 0 0 3, fr 5 3 0 3, fb 6 6, fb 7 7, fb 8 8, fb 9 9], rSpan 1000 1000000000, rSpan 10 5000,
   rSpan 100 65535, rule (.real 0 0x41200000), rule (.real 0 0x3F800000), rSpan 0 604800,
   rFields [fb 0 0, fb 1 1, fr 15 8 1 255], rSpan (-1000000) 1000000, rSpan (-1000000) 1000000,
   rSpan (-10000) 10000, rSpan 10 1000000] ++ rN 12 rNever

/-- Thermal parameters (14 Tables 14-3, 14-4). -/
def thermalRules : List PRule :=
  [(rFields [fb 0 0, fr 15 8 1 30, fr 23 16 0 30]).x, (rSpan 800 1300).x, (rSpan 10 200).x, rSpan 0 600,
   (rSpan 1050 1340).x, (rSpan 1200 1350).x, rSpan 1 3600,
   rFields ((List.range 8).map (fun g => fb (4 * g + 3) (4 * g))), rSpan (-400) 0, rSpan 800 1150,
   rSpan 600 740] ++ rN 9 rNever

/-- Watchdog parameters (15 Tables 15-3, 15-4). -/
def watchdogRules : List PRule :=
  [(rFields [fb 0 0, fb 1 1, fb 2 2]).when_ 1, (rSpan 100 60000).x.when_ 1, (rSpan 0 30000).x, (rSpan 0 30000).x,
   rSpan 0 1, rSpan 0 3600, rSpan 1000 60000, rSpan 1 15, rSpan 10 60000, rNever, rNever, rNever]

/-- Ethernet parameters (17 Tables 17-1 to 17-3). PRP of port 1 is read-only. -/
def etherRules (q : Nat) : List PRule :=
  [(rFields ([fb 0 0, fb 1 1, fb 3 2] ++ (if q = 0 then [fb 4 4] else []) ++ [fb 5 5, fb 12 8, fb 14 14])).keep
     (if q = 0 then 0 else 0x10),
   rule .condition, rAny, rule .condition, rAny, rFields [fr 11 0 1 4094, fb 14 12, fb 15 15],
   rFields [fb 0 0, fb 1 1, fb 2 2, fb 3 3, fr 15 8 0 127, fs 19 16 (-7) 4, fs 23 20 (-3) 4, fr 27 24 2 15,
     fs 31 28 (-7) 5],
   rFields [fb 15 0, fb 31 16], rSpan 1 1000, rSpan 10 1000] ++ rN 6 rNever

/-- Two-wire parameters (17 Tables 17-11, 17-12). -/
def twoWireRules : List PRule :=
  [(rFields [fb 0 0, fb 7 1, fr 9 8 0 2, fb 23 16, fr 31 24 1 255]).x, (rFields [fb 7 0, fb 15 8]).x,
   rFields [fr 1 0 0 2, fr 15 8 1 255, fb 23 16]] ++ rN 5 rNever

/-- Service port parameters (18 Tables 18-3, 18-4). -/
def serviceRules : List PRule :=
  [rFields [fb 0 0, fb 1 1, fb 2 2, fb 3 3, fb 4 4, fb 5 5, fr 15 8 1 255], rSpan 500 2000, rSpan 50 300,
   rSpan 50 300, rule (.spans [(0, 0), (50, 150)]), rSpan 9600 3000000, rFields [fr 7 0 3 20, fr 23 8 100 1000],
   rFields [fr 7 0 1 100, fr 15 8 1 255, fr 23 16 1 15]] ++ rN 16 rNever

/-- NVM and security parameters (19 Table 19-7). -/
def nvmRules : List PRule :=
  [rFields [fb 0 0, fr 15 8 1 255, fr 31 16 1 720]] ++ rN 12 rNever ++
  [rFields [fr 15 0 60 3600, fr 18 16 1 7]] ++ rN 5 rNever ++ [rFields [fb 0 0, fb 1 1]] ++ rN 10 rNever

/-- The rule of ID `k` of a list that repeats every `stride` IDs. -/
def ruleAt (id base stride : Nat) (rs : Nat → List PRule) : PRule :=
  (rs ((id - base) / stride)).getD ((id - base) % stride) rNever

/-- The rule of a parameter of 20 Tables 20-1 and 20-3. -/
def paramRule (id : Nat) : PRule :=
  if id < 0x0100 then ruleAt id 0 0x30 (fun _ => deviceRules)
  else if id < 0x0400 then ruleAt id 0x0100 6 ownerRules
  else if id < 0x0800 then ruleAt id 0x0400 16 phaseRules
  else if id < 0x0900 then ruleAt id 0x0800 32 (fun _ => groupRules)
  else if id < 0x0A00 then ruleAt id 0x0900 16 (fun _ => stringRules)
  else if id < 0x0A18 then ruleAt id 0x0A00 12 feedRules
  else if id < 0x0B00 then ruleAt id 0x0A18 4 (fun _ => contactorRules)
  else if id < 0x0C00 then measureRule (id - 0x0B00)
  else if id < 0x0D00 then ruleAt id 0x0C00 4 (fun _ => moduleRules)
  else if id < 0x1000 then ruleAt id 0x0D00 0x20 (fun _ => chainRules)
  else if id < 0x1200 then ruleAt id 0x1000 8 (fun _ => estModuleRules)
  else if id < 0x1400 then ruleAt id 0x1200 0x18 (fun _ => estimationRules)
  else if id < 0x1410 then ruleAt id 0x1400 16 (fun _ => stippleRules)
  else if id < 0x1500 then ruleAt id 0x1410 4 (fun _ => [rTab, rNever, rNever, rNever])
  else if id < 0x1580 then ruleAt id 0x1500 8 railRules
  else if id < 0x1600 then ruleAt id 0x1580 4 (fun _ => exRules)
  else if id < 0x1700 then ruleAt id 0x1600 0x18 (fun _ => timebaseRules)
  else if id < 0x1780 then ruleAt id 0x1700 0x14 (fun _ => thermalRules)
  else if id < 0x1A00 then ruleAt id 0x1780 12 (fun _ => watchdogRules)
  else if id < 0x1A20 then ruleAt id 0x1A00 16 etherRules
  else if id < 0x1B00 then ruleAt id 0x1A20 8 (fun _ => twoWireRules)
  else if id < 0x1C00 then ruleAt id 0x1B00 0x18 (fun _ => serviceRules)
  else ruleAt id 0x1C00 0x1E (fun _ => nvmRules)

/-- A value lies in one of the spans; no span permits every value. -/
def inSpans (l : List (Int × Int)) (v : Int) : Bool :=
  l.isEmpty || l.any (fun e => decide (e.1 ≤ v) && decide (v ≤ e.2))

/-- The value of a field in a word. -/
def PField.value (f : PField) (w : Nat) : Int :=
  let v := bitsOf w f.hi f.lo
  if f.signed then signedOf (f.hi + 1 - f.lo) v else (v : Int)

/-- The bits of a fields word that no field covers. -/
def reservedBits (r : PRule) (w : Nat) : Nat :=
  match r.bound with
  | .fields l =>
    (List.range 32).foldl (fun acc i =>
      if l.any (fun f => decide (f.lo ≤ i) && decide (i ≤ f.hi)) || bitAt r.roBits i then acc
      else acc + fieldAt i 1 (flag (bitAt w i))) 0
  | _ => 0

/-- A mask of consecutive ones from the top (17 Table 17-1). -/
def contiguous (w : Nat) : Bool := (List.range 33).any (fun n => w == 2 ^ 32 - 2 ^ n)

/-- A unicast address in bits [47:0] (17 Table 17-1). -/
def unicast (w : Nat) : Bool := decide (w < 2 ^ 48) && !bitAt w 40

/-- The value meets the bounds that do not refer to other parameters (02 R51). -/
def inRange (id v : Nat) : Bool :=
  let ty := paramType id
  let x : Int := if typeSigned ty then signedOf (typeWidth ty) v else (v : Int)
  match (paramRule id).bound with
  | .any => true
  | .spans l => inSpans l x
  | .fields l => l.all (fun f => inSpans f.spans (f.value v))
  | .real lo hi =>
    (match f32Val v with
     | some y => decide (f32Rat lo ≤ y) && decide (y ≤ f32Rat hi)
     | none => false)
  | .positive =>
    (match f32Val v with
     | some y => decide (0 < y)
     | none => false)
  | .condition => if id = 0x1A01 ∨ id = 0x1A11 then unicast v else if id = 0x1A03 ∨ id = 0x1A13 then contiguous v else true

/-- The spans that PARAM_DESCRIBE lists (02 R565), in the value container. -/
def describedSpans (id : Nat) : List (Nat × Nat) :=
  let ty := paramType id
  let whole : List (Nat × Nat) :=
    if ty = 4 then [(codeOf 64 (-32768), 32767)]
    else if typeSigned ty then [(codeOf 64 (-2147483648), 2147483647)] else [(0, 2 ^ typeWidth ty - 1)]
  let r := paramRule id
  if r.cond = 0xFF then []
  else match r.bound with
    | .any => whole
    | .spans l => l.map (fun e => (codeOf 64 e.1, codeOf 64 e.2))
    | .real lo hi => [(lo, hi)]
    | .fields _ | .positive | .condition => []

/-- Privilege bits needed to write a parameter (02 R49, R26; 0 for a read-only one). -/
def writePriv (id : Nat) : Nat :=
  if (paramRule id).cond = 0xFF then 0
  else if isOwnerParam id then 16
  else if 0x0800 ≤ id && id < 0x0900 && (id % 32 == 0 || id % 32 == 0x14) then 2
  else 4

/-- The write needs the control lease. -/
def writeLease (id : Nat) : Bool := writePriv id == 2

/-- The parameter is kept by PARAM_SAVE (02 R53). -/
def isSaved (id : Nat) : Bool := (paramRule id).cond ≠ 0xFF && !isOwnerParam id

end Sys2Proof.Machine
end

