-- ==== Sys2Proof/Machine/ParamCheck.lean ====
section
/-! DEFINITION. The checks of PARAM_SET (02 R49 to R51): the state each parameter asks for, the bounds that refer to other
parameters, and the sums of 02 R27. A `Proposed` gives every parameter's value after all items have been applied. -/

namespace Sys2Proof.Machine

/-- One item of a PARAM_SET payload (02 Table 2-11). -/
structure ParamItem where
  id : Nat
  status : Nat
  type : Nat
  value : Nat
  deriving DecidableEq, Repr

/-- The values after all items have been applied together. -/
abbrev Proposed := Nat → Nat

/-- The proposed value of a parameter: that of its last item, else the present one. -/
def State.proposed (s : State) (items : List (Nat × Nat)) : Proposed := fun id =>
  match items.reverse.find? (fun e => e.1 == id) with
  | some e => e.2
  | none => s.param id

/-- The signed reading of a proposed value. -/
def Proposed.int (nv : Proposed) (id : Nat) : Int :=
  if typeSigned (paramType id) then signedOf (typeWidth (paramType id)) (nv id) else (nv id : Int)

/-! ### The state a parameter requires (check 4 of R49) -/

/-- A feed that carries nothing and is not on its way: FEED_CFG may be written (07 R195). -/
def Feed.idle (x : Feed) : Bool := x.run == .open_ || x.run == .held || x.run == .tripped || x.run == .lockedOut

/-- The port of a module position (06 R170). -/
def State.moduleQuiet (s : State) (m : Fin 64) : Bool :=
  (List.finRange 4).all (fun p =>
    !(s.modulesOf p).contains m || (s.groupsOfPort p).all (fun g => (s.group g).mode.isQuiet))

/-- ACTIVE phases of a group under a valuation of the phase parameters (04 R100). -/
def activeUnder (v : Nat → Nat) (g : Nat) : Nat :=
  ((List.finRange 64).filter (fun p => v (phId p 0) == 1 && v (phId p 1) == g)).length

/-- The partner's ACTIVE phases count at a pair's leader (05 R159). -/
def State.partnerActive (s : State) (g : Fin 8) : Nat :=
  let x := (s.group g).pair
  if x.paired && x.leader then numAt x.control 40 1 else 0

/-- The command would leave fewer than G_MIN_PH ACTIVE phases in a group in a power mode (04 R100); a follower's
G_MIN_PH is not applied (05 R159). -/
def State.leavesTooFew (s : State) (nv : Proposed) (g : Fin 8) : Bool :=
  (s.group g).mode.isPower && !s.isFollower g &&
    decide (activeUnder nv g.val + s.partnerActive g < nv (grId g 0x11))

/-- This item takes a phase out of its group's ACTIVE phases. -/
def State.takesActive (s : State) (nv : Proposed) (p : Fin 64) : Bool :=
  s.param (phId p 0) == 1 && !(nv (phId p 0) == 1 && nv (phId p 1) == s.param (phId p 1))

/-- GROUP_STATE. -/
def badGroup : Option (Nat × Nat) := some (stState, dtGroupState)

/-- A phase parameter that Table 3-8 restricts may be written. -/
def State.phaseFree (s : State) (p : Fin 64) : Bool :=
  (s.phase p).role == .off || (s.phase p).role == .retired || (s.group (s.groupOf p)).mode.isQuiet

/-- Phase parameters (03 R72, R83, Table 3-8; 04 R100). A PH_SD_CFG whose SDCLK_DIV is the present one is no write to SDCLK_DIV
(DEDUCED, log entry 118). -/
def State.phaseState (s : State) (nv : Proposed) (p : Fin 64) (k old new : Nat) : Option (Nat × Nat) :=
  let x := s.phase p
  let few := s.takesActive nv p && s.leavesTooFew nv (s.groupOf p)
  match k with
  | 0 =>
    if x.role == .shadow || x.role == .retired then some (stState, dtReadOnly)
    else if (s.group (s.groupOf p)).mode == .fault || few then badGroup else none
  | 1 =>
    if x.role == .off && s.param (phId p 0) == 0 && (s.group (s.groupOf p)).mode.isQuiet &&
        (decide (7 < new) || (s.group (Fin.ofNat 8 new)).mode.isQuiet) && !few then none
    else badGroup
  | 9 => if bitsOf old 20 16 ≠ bitsOf new 20 16 && !s.phaseFree p then badGroup else none
  | 0xA =>
    if p.val % 8 = 0 && bitsOf old 7 0 ≠ bitsOf new 7 0 &&
        (octet (octetOf p)).any (fun q => (s.phase q).role != .off) then some (stState, dtReadOnly)
    else if s.phaseFree p then none else badGroup
  | 0xB => if s.phaseFree p then none else badGroup
  | _ => none

/-- Group parameters (04 R94, R100; 05 R160, R162). -/
def State.groupState (s : State) (nv : Proposed) (g : Fin 8) (k old new : Nat) : Option (Nat × Nat) :=
  let quiet := (s.group g).mode.isQuiet
  match k with
  | 0 =>
    if s.isFollower g then some (stState, 0x0106)
    else if decide (5 < new) || s.modePermitted g (Mode.ofCode new) then none else badGroup
  | 1 | 2 | 3 | 0x0F => if quiet then none else badGroup
  | 0x11 => if (decide (old < new) && !quiet) || s.leavesTooFew nv g then badGroup else none
  | 0x12 => if bitsOf old 1 0 ≠ bitsOf new 1 0 && !quiet then badGroup else none
  | 0x14 => if s.isFollower g then some (stState, 0x0106) else none
  | 0x15 => if (s.group g).pair.paired then badGroup else none
  | _ => none

/-- The entry of an isolated input in a sequence table's body; none in the built-in setup. -/
def vsdEntry (b : Option (List Byte)) (v : Nat) : List Byte :=
  match b with
  | some b => slice b (964 + 16 * v) 16
  | none => zeros 16

/-- A sequence table would change the entry of an isolated input in use (08 R229). -/
def State.changesInUse (s : State) (b : Option (List Byte)) : Bool :=
  (List.range 16).any (fun v => s.vsdInUse v && vsdEntry s.meas.table v != vsdEntry b v)

/-- Measurement parameters 0x0B00 + k (08 R220, R229, R236). -/
def State.measureState (s : State) (k new : Nat) : Option (Nat × Nat) :=
  if k = 0x74 then
    if s.changesInUse (s.namedBody 0x0A (bitsOf new 7 0)) then some (stState, 0x0027) else none
  else if k = 0x77 then
    if s.allQuiet && (List.finRange 2).all (fun f => (s.feed f).idle) then none else some (stState, 0x0105)
  else if 0x60 ≤ k && k < 0x6C then
    if bitAt new 20 && bitAt new 22 && cmpBeyond new (s.cmpInput (Fin.ofNat 12 (k - 0x60))) then some (stState, 0x0101) else none
  else none

/-- The state that a parameter requires (02 R50 and the chapter of each): status and detail of the refusal. -/
def State.stateRefusal (s : State) (nv : Proposed) (id new : Nat) : Option (Nat × Nat) :=
  let old := s.param id
  if 0x0400 ≤ id && id < 0x0800 then s.phaseState nv (Fin.ofNat 64 ((id - 0x400) / 16)) (id % 16) old new
  else if 0x0800 ≤ id && id < 0x0900 then s.groupState nv (Fin.ofNat 8 ((id - 0x800) / 32)) (id % 32) old new
  else if 0x0900 ≤ id && id < 0x0A00 then
    if id % 16 = 0 && !((s.groupsOfPort (Fin.ofNat 4 ((id - 0x900) / 16))).all (fun g => (s.group g).mode.isQuiet)) then
      badGroup else none
  else if id = 0x0A00 ∨ id = 0x0A0C then
    if (s.feed (Fin.ofNat 2 ((id - 0xA00) / 12))).idle then none else some (stState, 0x0101)
  else if 0x0A18 ≤ id && id < 0x0A28 then
    let x := s.cont (Fin.ofNat 4 ((id - 0xA18) / 4))
    if x.run == .open_ || x.run == .fault then none else some (stState, 0x0105)
  else if 0x0B00 ≤ id && id < 0x0C00 then s.measureState (id - 0x0B00) new
  else if 0x0C00 ≤ id && id < 0x0D00 then
    let m := Fin.ofNat 64 ((id - 0xC00) / 4)
    if (id % 4 == 1 || (id % 4 == 0 && (bitsOf old 15 8 ≠ bitsOf new 15 8 || bitsOf old 6 2 ≠ bitsOf new 6 2 ||
        bitAt old 0 != bitAt new 0))) && !s.moduleQuiet m then badGroup else none
  else if id = 0x1780 then
    if s.wdFused && !bitAt new 0 then some (stValue, dtReadOnly)
    else if s.allQuiet then none else badGroup
  else if id = 0x1781 then if s.allQuiet then none else badGroup
  else none

/-! ### Bounds between parameters (check 6 of R49) -/

/-- D of 03 R67 with proposed values; 0 for a phase in role OFF. -/
def State.depthUnder (s : State) (nv : Proposed) (p : Fin 64) : Nat :=
  if nv (phId p 0) = 0 then 0
  else
    let g := Fin.ofNat 8 (nv (phId p 1))
    let f := max 1 (nv (grId g 1))
    let nT := 16000000000 / f
    let whole := decide (1000000 < f) || (s.group g).light == .diode
    depthOf (bitsOf (nv (phId p 0xA)) 20 12) (bitsOf (nv (phId (Fin.ofNat 64 (p.val / 8 * 8)) 0xA)) 7 0)
      (if whole then (nT : Rat) else (nT : Rat) / 2)

/-- The trip delay of 03 R74 is at most 1.2 µs (R75). -/
def tripOk (nv : Proposed) (p : Fin 64) : Bool :=
  let w := nv (phId p 9)
  decide ((2 * bitsOf w 20 16 + 1) * bitsOf (nv (phId (Fin.ofNat 64 (p.val / 8 * 8)) 0xA)) 7 0 + 40 ≤ 1200)

/-- LEVEL of PH_TRIP is above PH_ILIM_PK (03 R75). -/
def levelOk (nv : Proposed) (p : Fin 64) : Bool := decide (nv (phId p 2) < bitsOf (nv (phId p 9)) 15 0)

/-- DT_MAX reaches a dead-time minimum (03 Table 3-9). -/
def deadOk (nv : Proposed) (p : Fin 64) (k : Nat) : Bool := decide (nv (phId p k) ≤ 16 * bitsOf (nv (phId p 8)) 23 12)

/-- Cross bounds of phase parameter k. -/
def State.phaseCross (s : State) (nv : Proposed) (p : Fin 64) (k : Nat) : Bool :=
  match k with
  | 0 | 1 => decide (s.depthUnder nv p ≤ 4)
  | 2 => decide (nv (phId p 3) ≤ nv (phId p 2)) && levelOk nv p
  | 3 => decide (nv (phId p 3) ≤ nv (phId p 2))
  | 6 | 7 => deadOk nv p k
  | 8 => deadOk nv p 6 && deadOk nv p 7
  | 9 => levelOk nv p && tripOk nv p
  | 0xA =>
    if p.val % 8 = 0 then
      (octet (Fin.ofNat 8 (p.val / 8))).all (fun q => decide (s.depthUnder nv q ≤ 4) && tripOk nv q)
    else decide (s.depthUnder nv p ≤ 4)
  | _ => true

/-- The band of a group's port with proposed values, 0.01 V (06 R181). -/
def bandUnder (nv : Proposed) (g : Fin 8) : Int :=
  let p := nv (grId g 2)
  if p < 4 then (nv (0x0908 + 16 * p) : Int) else 2000

/-- G_SETPOINT is at or above its lower bound in the mode of G_MODE, and at or below its upper one (04 R101). -/
def setpointUnder (nv : Proposed) (g : Fin 8) : Bool × Bool :=
  let v := nv.int (grId g 0x14)
  let par (k : Nat) : Int := nv (grId g k)
  match nv (grId g 0) with
  | 3 => (decide (-(par 4) ≤ v), decide (v ≤ par 5))
  | 5 => (decide (-(par 6) ≤ v), decide (v ≤ par 7))
  | 4 => (decide (par 8 + bandUnder nv g ≤ v), decide (v ≤ par 9 - bandUnder nv g))
  | _ => (true, true)

/-- A converter's load under a sequence table (08 R228): sum of COUNT × 500 ns × trigger rate. -/
def seqLoad (b : List Byte) (fsw : Nat → Nat) (sweepUs : Nat) (adc : Nat) : Rat :=
  ((List.range (numAt b 0 1)).map (fun i =>
    let o := 1284 + 40 * i
    let w := numAt b (o + 4) 4
    let t : Rat := (numAt b (o + 2) 1 : Rat) / 2000000
    if numAt b o 1 ≠ adc then 0
    else match numAt b (o + 1) 1 with
      | 1 => t * 1000000 / ((max 1 w : Nat) : Rat)
      | 2 => t * (fsw (bitsOf w 2 0) : Rat) / ((bitsOf w 15 8 + 1 : Nat) : Rat)
      | 3 => t * 1000000 / ((max 1 sweepUs : Nat) : Rat)
      | _ => 0)).sum

/-- No converter's load is above 0.8 with proposed values (08 R230). -/
def State.loadOk (s : State) (nv : Proposed) : Bool :=
  match s.meas.table with
  | none => true
  | some b => (List.range 2).all (fun a => decide (seqLoad b (fun g => nv (0x0801 + 32 * g)) (nv 0x0D01) a ≤ 4 / 5))

/-- Cross bounds of group parameter k (03 R68; 04 R101, Tables 4-4, 4-6; 08 R230). -/
def State.groupCross (s : State) (nv : Proposed) (g : Fin 8) (k : Nat) : Bool :=
  let both := setpointUnder nv g
  match k with
  | 0 | 0x14 => both.1 && both.2
  | 1 => s.loadOk nv && (List.finRange 64).all (fun p => nv (phId p 1) ≠ g.val || decide (s.depthUnder nv p ≤ 4))
  | 2 => nv (grId g 0) ≠ 4 || (both.1 && both.2)
  | 4 => nv (grId g 0) ≠ 3 || both.1
  | 5 => nv (grId g 0) ≠ 3 || both.2
  | 6 => nv (grId g 0) ≠ 5 || both.1
  | 7 => nv (grId g 0) ≠ 5 || both.2
  | 8 => nv (grId g 0) ≠ 4 || both.1
  | 9 => nv (grId g 0) ≠ 4 || both.2
  | 0x0D =>
    let w := nv (grId g 0x0D)
    (!bitAt w 1 || bitAt w 0) && (!bitAt w 2 || bitAt w 1) && decide (bitsOf w 19 12 ≤ bitsOf w 11 4) &&
      decide (bitsOf w 27 20 ≤ bitsOf w 19 12)
  | 0x12 =>
    !bitAt (nv (grId g 0x12)) 2 || (List.finRange 8).all (fun h => h == g || !bitAt (nv (grId h 0x12)) 2)
  | _ => true

/-- The trip delay of 07 R203 is at most 2 µs. -/
def feedDelayOk (nv : Proposed) (f : Fin 2) : Bool :=
  decide ((2 * bitsOf (nv (fdId f 0)) 20 16 + 1) * bitsOf (nv 0x0B77) 7 0 + 100 ≤ 2000)

/-- Cross bounds of feed parameter k (07 R195). -/
def feedCross (nv : Proposed) (f : Fin 2) (k : Nat) : Bool :=
  let uv := nv (fdId f 1)
  let ov := nv (fdId f 2)
  let trip := nv (fdId f 5)
  match k with
  | 0 => feedDelayOk nv f
  | 1 | 2 => decide (uv < ov) || (uv == 0 && ov == 0)
  | 5 => decide (nv (fdId f 6) < trip) && decide (100 * bitsOf (nv (fdId f 7)) 15 0 < trip)
  | 6 => decide (nv (fdId f 6) < trip)
  | 7 => decide (100 * bitsOf (nv (fdId f 7)) 15 0 < trip)
  | _ => true

/-- Cross bounds of a single parameter of the other blocks. -/
def State.otherCross (s : State) (nv : Proposed) (id : Nat) : Bool :=
  let lohi (w : Nat) : Bool := decide (signedOf 16 (bitsOf w 15 0) < signedOf 16 (bitsOf w 31 16))
  if 0x0900 ≤ id && id < 0x0A00 then
    let b := id / 16 * 16
    match id % 16 with
    | 2 | 3 => lohi (nv id)
    | 5 | 6 => decide (nv (b + 6) < nv (b + 5))
    | 8 => (List.finRange 8).all (fun g => nv (grId g 2) ≠ (id - 0x900) / 16 || nv (grId g 0) ≠ 4 ||
        ((setpointUnder nv g).1 && (setpointUnder nv g).2))
    | _ => true
  else if id = 0x0B77 then feedDelayOk nv 0 && feedDelayOk nv 1
  else if 0x0D01 ≤ id && id ≤ 0x0D04 then
    decide (nv 0x0D02 + nv 0x0D03 + nv 0x0D04 + 680 ≤ nv 0x0D01) && (id ≠ 0x0D01 || s.loadOk nv)
  else if id = 0x1210 then decide (bitsOf (nv id) 23 16 < bitsOf (nv id) 15 8)
  else if id = 0x1403 ∨ id = 0x1404 then decide (nv 0x1403 < nv 0x1404)
  else if 0x1580 ≤ id && id < 0x15C0 && id % 4 = 1 then decide (bitsOf (nv id) 15 0 < bitsOf (nv id) 31 16)
  else if id = 0x1700 then decide (bitsOf (nv id) 15 8 < bitsOf (nv id) 23 16)
  else if id = 0x1701 then decide (nv.int 0x1701 < nv.int 0x1704) && decide (nv.int 0x1702 < nv.int 0x1701 - 800)
  else if id = 0x1702 then decide (nv.int 0x1702 < nv.int 0x1701 - 800)
  else if id = 0x1704 then decide (nv.int 0x1701 < nv.int 0x1704) && decide (nv.int 0x1704 < nv.int 0x1705)
  else if id = 0x1705 then decide (nv.int 0x1704 < nv.int 0x1705)
  else if 0x1781 ≤ id && id ≤ 0x1783 then
    (id == 0x1783 || decide (nv 0x1782 < nv 0x1781)) && decide (nv 0x1783 + nv 0x1782 < nv 0x1781)
  else if id = 0x1A20 then
    let w := nv id
    let speed := bitsOf w 9 8
    (!bitAt w 0 || (decide (8 ≤ bitsOf w 7 1) && decide (bitsOf w 7 1 ≤ 0x77))) &&
      decide ((if speed = 0 then 47 else 13) ≤ bitsOf w 23 16) &&
      (speed == 0 || decide (50 ≤ bitsOf (nv 0x1A21) 7 0))
  else if id = 0x1A21 then bitsOf (nv 0x1A20) 9 8 == 0 || decide (50 ≤ bitsOf (nv id) 7 0)
  else true

/-- The bounds of a parameter that refer to other parameters or fields hold with the proposed values. -/
def State.crossOk (s : State) (nv : Proposed) (id : Nat) : Bool :=
  if 0x0400 ≤ id && id < 0x0800 then s.phaseCross nv (Fin.ofNat 64 ((id - 0x400) / 16)) (id % 16)
  else if 0x0800 ≤ id && id < 0x0900 then s.groupCross nv (Fin.ofNat 8 ((id - 0x800) / 32)) (id % 32)
  else if 0x0A00 ≤ id && id < 0x0A18 then feedCross nv (Fin.ofNat 2 ((id - 0xA00) / 12)) ((id - 0xA00) % 12)
  else s.otherCross nv id

/-- The sums of 02 R27: at most 4,096 commands and 1,572,864 bytes. -/
def quotaUnder (nv : Proposed) : Bool :=
  decide (((List.range 16).map (fun o => nv (0x0101 + 6 * o))).sum ≤ 4096) &&
    decide (((List.range 16).map (fun o => nv (0x0103 + 6 * o))).sum ≤ 1572864)

/-- A port 1 parameter that PRP makes read-only (17 R460). -/
def State.prpReadOnly (s : State) (id : Nat) : Bool :=
  decide (0x1A11 ≤ id) && decide (id ≤ 0x1A15) && bitAt (s.param 0x1A00) 4

/-- Check 3: the caller's privilege for a parameter (02 R49). -/
def State.privRefusal (s : State) (o : Fin 16) (id : Nat) : Option (Nat × Nat) :=
  if !permits (s.owner o).priv [writePriv id] then some (stPermit, 0)
  else if writeLease id && !s.holdsLease o then some (stPriority, 0)
  else none

/-- The first failing check of one item, in the order of 02 R49; the sums of check 7 last. -/
def State.itemRefusal (s : State) (o : Fin 16) (nv : Proposed) (e : ParamItem) : Option (Nat × Nat) :=
  match paramEntry? e.id with
  | none => some (stValue, dtParamId)
  | some p =>
    let v := e.value % 2 ^ typeWidth p.ty
    let r := paramRule e.id
    if p.ro || r.cond = 3 || s.prpReadOnly e.id then some (stValue, dtReadOnly)
    else if e.status ≠ 0 then some (stValue, dtReserved)
    else if e.type ≠ p.ty || container p.ty v ≠ e.value then some (stValue, dtType)
    else match s.privRefusal o e.id with
      | some x => some x
      | none =>
        match s.stateRefusal nv e.id v with
        | some x => some x
        | none =>
          if reservedBits r v ≠ 0 then some (stValue, dtReserved)
          else if !inRange e.id v || !s.crossOk nv e.id then some (stValue, dtRange)
          else if isOwnerParam e.id && nv e.id ≠ s.param e.id && !quotaUnder nv then
            some (stValue, dtQuotaSum)
          else none

/-- The first failing item of a command: its index, status and detail. -/
def State.setRefusal (s : State) (o : Fin 16) (items : List ParamItem) : Option (Nat × Nat × Nat) :=
  let nv := s.proposed (items.map (fun e => (e.id, e.value % 2 ^ typeWidth (paramType e.id))))
  items.zipIdx.findSome? (fun (e, i) => (s.itemRefusal o nv e).map (fun x => (i, x.1, x.2)))

end Sys2Proof.Machine
end

