-- ==== Sys2Proof/Machine/Feeds.lean ====
section
/-! DEFINITION. Bus feeds (07 R196 to R209, R215 to R217): the evaluation against the insertion table, the fixed
transitions, and the feed opcodes. -/

namespace Sys2Proof.Machine

/-- Code of a feed state (07 Table 7-8). -/
def FeedRun.code : FeedRun → Nat
  | .open_ => 0 | .window => 1 | .delay => 2 | .match_ => 3 | .gate => 4 | .on => 5 | .blocking => 6
  | .tripped => 7 | .lockedOut => 8 | .held => 9

/-- The state that a table row names. -/
def FeedRun.ofCode : Nat → FeedRun
  | 1 => .window | 2 => .delay | 3 => .match_ | 4 => .gate | 5 => .on | 6 => .blocking | 7 => .tripped
  | 8 => .lockedOut | 9 => .held | _ => .open_

/-- One row of an insertion table (07 Table 7-10). -/
structure FeedRow where
  src : Nat
  dst : Nat
  cond : Nat
  holdMs : Nat
  cause : Nat
  deriving DecidableEq, Repr

/-- The built-in rows (07 Table 7-12). -/
def builtInFeedRows : List FeedRow :=
  [ ⟨1, 2, 0x0001, 0, 0⟩, ⟨2, 1, 0x0002, 0, 0⟩, ⟨2, 3, 0x0001, 0xFFFFFFFF, 0⟩, ⟨3, 1, 0x0002, 0, 0⟩,
    ⟨3, 4, 0x0045, 10, 0⟩, ⟨3, 4, 0x0049, 10, 0⟩, ⟨4, 1, 0x0002, 0, 0⟩, ⟨4, 5, 0x0014, 0, 0⟩,
    ⟨4, 7, 0x0000, 500, 2⟩ ]

/-- The rows of a body (07 Table 7-10). -/
def feedRowsOf (b : List Byte) : List FeedRow :=
  (List.range (numAt b 0 1)).map (fun i =>
    let o := 4 + 12 * i
    ⟨numAt b o 1, numAt b (o + 1) 1, numAt b (o + 2) 2, numAt b (o + 4) 4, numAt b (o + 8) 1⟩)

/-- The rows in force. -/
def Feed.tableRows (x : Feed) : List FeedRow :=
  match x.table with
  | some b => feedRowsOf b
  | none => builtInFeedRows

/-- FEED_CFG.EN. -/
def State.feedEn (s : State) (f : Fin 2) : Bool := bitAt (s.param (fdId f 0)) 0

/-- FEED_STATE (07 Table 7-6). -/
def Feed.stateWord (x : Feed) : Nat :=
  x.run.code + fieldAt 4 4 x.retries + fieldAt 8 8 x.cause.toNat + fieldAt 16 2 x.dir

/-- FEED_STATUS (07 Table 7-7): the window and matching bits are those of the last evaluation. -/
def State.feedStatusWord (s : State) (f : Fin 2) : Nat :=
  let x := s.feed f
  let see := !s.feedBlind f
  flag (x.win && see) + fieldAt 1 1 (flag (x.matched && see)) + fieldAt 2 1 (flag x.below) +
    fieldAt 3 1 (flag x.ok) + fieldAt 4 1 (flag x.pg) + fieldAt 5 1 (flag x.inserted) +
    fieldAt 16 16 ((x.retryEnd - s.clk + 999999999) / 1000000000)

/-- The B33 outputs have their supply: UC2 is within its window (21 Table of banks, 03 R60). -/
def State.b33Up (s : State) : Bool := (s.power.rails[2]).run == .good

/-- The level of a B33 output whose safe level is low (07 R193, 12 R366). -/
def State.b33Pin (s : State) (on : Bool) : PinLevel :=
  if !s.b33Up then .highZ else if on && !s.power.safety.clamp then .high else .low

/-- FEEDx_ON: high only in GATE and ON (07 R196). -/
def State.feedOn (s : State) (f : Fin 2) : PinLevel := s.b33Pin ((s.feed f).run == .gate || (s.feed f).run == .on)

/-- CONTs_ON (07 R193, Table 7-19). -/
def State.contOn (s : State) (p : Fin 4) : PinLevel := s.b33Pin (s.cont p).coil

/-- BUS_PG (07 R193, R207). -/
def State.busPgPin (s : State) : PinLevel := s.b33Pin s.bus.busPg

/-- The groups that name a feed. -/
def State.groupsOfFeed (s : State) (f : Fin 2) : List (Fin 8) :=
  (List.finRange 8).filter (fun g => bitAt (s.param (grId g 3)) f.val)

/-- The other feed. -/
def otherFeed (f : Fin 2) : Fin 2 := if f = 0 then 1 else 0

/-- The conditions that hold, as the bits of 07 Table 7-11. -/
def State.feedConds (s : State) (f : Fin 2) : Nat :=
  let w := s.feedWin f
  let ok := (s.feed f).ok
  let o := (s.feed (otherFeed f)).run
  let quiet := (s.groupsOfFeed f).all (fun g => (s.group g).mode.isQuiet || (s.group g).mode == .precharge)
  flag w + 2 * flag (!w) + 4 * flag (s.feedMatched f) + 8 * flag (s.linkBelow f) + 16 * flag ok + 32 * flag (!ok) +
    64 * flag (o != .gate) + 128 * flag (o == .on) + 256 * flag quiet

/-- The feed takes a committed insertion table while no feed that names it is in GATE (07 R201). -/
def State.takeFeedTable (f : Fin 2) (s : State) : State :=
  let tab (k : Fin 2) : Nat := bitsOf (s.param (fdId k 0)) 31 24
  let free (i : Nat) : Bool := (List.finRange 2).all (fun k => !(tab k == i && (s.feed k).run == .gate))
  let s := if free (tab f) then
      let b := s.nextNamed 7 (tab f)
      if (s.feed f).table == b then s else s.modFeed f (fun x => { x with table := b })
    else s
  (((s.host.arriving.filter (fun e => e.1 / 256 == 7)).map (·.1)).filter (fun k => free (k % 256))).foldl
    (fun t k => t.takeTable k (12 + f.val)) s

/-- Since when each condition bit has held; so a new table finds its rows' held times (07 R201). -/
def Feed.trackConds (conds : Nat) (now : Nanos) (x : Feed) : Feed :=
  { x with conds := (List.range 9).map (fun b => if bitAt conds b then some (((x.conds[b]?).join).getD now) else none) }

/-- Since when all conditions of a COND have held; none while one does not. -/
def Feed.condSince (x : Feed) (cond : Nat) : Option Nanos :=
  ((List.range 9).filter (bitAt cond)).foldl (fun t b =>
    match t, (x.conds[b]?).join with
    | some a, some c => some (max a c)
    | _, _ => none) (some 0)

/-- The first row that meets (07 R199). -/
def State.feedFires (s : State) (f : Fin 2) : Option FeedRow :=
  let x := s.feed f
  x.tableRows.find? (fun r =>
    r.src == x.run.code && (match x.condSince r.cond with
      | none => false
      | some t =>
        let ms := if r.holdMs = 0xFFFFFFFF then s.held (fdId f 3) else r.holdMs
        decide (max t x.since + ms * 1000000 ≤ s.clk)))

/-- An armed feed leaves OPEN, or a wait that ended disarmed (07 R196, R197). -/
def State.feedArmed (f : Fin 2) (s : State) : State :=
  let x := s.feed f
  if !s.feedEn f then s
  else if x.run == .open_ && s.bus.calDone && s.chg.low.run == .running then s.feedTo f .window none
  else if x.run == .tripped && x.retryEnd = 0 && x.openReq.isNone then s.feedTo f .window none
  else s

/-- R202's conditions as the evaluations see them. -/
def State.trackOn (f : Fin 2) (s : State) : State :=
  let ov := decide ((s.held (fdId f 2) : Int) < s.feedV f)
  let now := s.clk
  s.modFeed f (fun x =>
    if x.run == .on then
      { x with ovSince := sinceWhen ov now x.ovSince, okLostSince := sinceWhen (!x.ok) now x.okLostSince }
    else { x with ovSince := none, okLostSince := none })

/-- An instant counted from a time that may not have come has passed. -/
def State.passed (s : State) (t : Option Nanos) (span : Nat) : Bool :=
  match t with
  | some t0 => decide (t0 + span ≤ s.clk)
  | none => false

/-- The fixed transitions that are due at an evaluation come before its rows (07 R199): those of R202 and R206, the end of a
retry wait, and an armed feed's leaving of OPEN. -/
def State.feedFixed (f : Fin 2) (s : State) : State :=
  let x := s.feed f
  let s :=
    if x.run == .on && s.passed x.okLostSince 1000000 then s.feedTrip f 3
    else if x.run == .on && s.passed x.ovSince 1000000 then s.feedTo f .window (some 4)
    else if x.run == .blocking && s.passed (some x.since) (bitsOf (s.held (fdId f 7)) 31 24 * 1000000) then
      s.feedTo f .window (some 6)
    else if x.run == .tripped && x.retryEnd ≠ 0 && decide (x.retryEnd ≤ s.clk) then
      s.modFeed f (fun y => { y with retryEnd := 0 })
    else s
  s.feedArmed f

/-- The parameters of a feed take effect at its evaluation (07 R195). -/
def State.pickFeed (f : Fin 2) (s : State) : State := (List.range 10).foldl (fun t k => t.pickParam (fdId f k)) s

/-- FEED_STATUS [2:0] as the evaluation finds them. -/
def State.feedLooks (f : Fin 2) (s : State) : State :=
  let w := s.feedWin f
  let m := s.feedMatched f
  let b := s.linkBelow f
  s.modFeed f (fun x => { x with win := w, matched := m, below := b })

/-- The first row that meets fires. -/
def State.feedFire (f : Fin 2) (s : State) : State :=
  match s.feedFires f with
  | none => s
  | some r => if r.dst = 7 then s.feedTrip f r.cause else s.feedTo f (FeedRun.ofCode r.dst) none

/-- The evaluation of one feed (07 R199): its parameters and its comparators' thresholds, then the fixed transitions, then at
most one row. -/
def State.evaluateFeed (f : Fin 2) (ok : Bool) (s : State) : State :=
  let t := ((s.pickFeed f).loadComparators f).modFeed f (fun x => { x with ok := ok })
  let t := ((t.takeFeedTable f).trackOn f).feedFixed f
  let t := t.feedLooks f
  let c := t.feedConds f
  let now := t.clk
  (((t.modFeed f (Feed.trackConds c now)).feedFire f).trackOn f)

/-- FEED_EVALUATION (07 R199): Feed A, then Feed B; FEEDx_OK of both, and the windows of the control-filter values new since
the last row that carries any. -/
def execFeedEvaluation (okA okB : Bool) (inputs : List (Fin 20 × List Capture)) (s : State) : Out :=
  if s.sys.hawk != .running || !s.awake then .next s
  else
    let t := (s.takeInputs inputs).trackClosing
    let t := (t.evaluateFeed 0 okA).evaluateFeed 1 okB
    .next ((t.checkInputs).settle s)

/-- FEED_OVERCURRENT_TRIP (07 R203): the captures of the trip filter's window, newest first; the feed trips when the output
lies beyond a threshold. -/
def execFeedOvercurrentTrip (f : Fin 2) (bits : List Capture) (s : State) : Out :=
  if (s.feed f).live && (s.feed f).overcurrent (s.feedRaw f bits) then .next (s.feedTrip f 1) else .next s

/-- FEED_REVERSE_TURN_OFF (07 R205, R206): the reverse comparator on the captures of the trip filter's window. Firing, it turns
a feed in ON or GATE off; an output beyond the trip threshold in the same step is recorded as the trip (07 R203). -/
def execFeedReverseTurnOff (f : Fin 2) (bits : List Capture) (s : State) : Out :=
  let raw := s.feedRaw f bits
  let x := s.feed f
  let fires := s.reverse f raw
  let now := s.clk
  let t := s.modFeed f (Feed.compare now fires)
  if x.live && x.overcurrent raw then .next (t.feedTrip f 1)
  else if fires && (x.run == .on || x.run == .gate) then .next ((t.feedTo f .blocking (some 5)).trackClosing)
  else .next t

/-- FEED_BLOCKING_REARM (07 R206): once the comparator has been silent, and MATCHED or LINK_BELOW has held, for REARM × 10 µs. -/
def execFeedBlockingRearm (f : Fin 2) (s : State) : Out :=
  let t := s.trackClosing
  let x := t.feed f
  match x.closable with
  | none => .next t
  | some c =>
    if x.run != .blocking || x.revFires then .next t
    else
      let u := t.atLeast (max c x.silentSince + bitsOf (s.held (fdId f 7)) 23 16 * 10000)
      .next (((u.feedTo f .gate none).checkInputs).settle s)

/-- FEED_BLOCK_TIMEOUT (07 R206). -/
def execFeedBlockTimeout (f : Fin 2) (s : State) : Out :=
  let x := s.feed f
  if x.run != .blocking then .next s
  else .next ((s.atLeast (x.since + bitsOf (s.held (fdId f 7)) 31 24 * 1000000)).feedTo f .window (some 6))

/-- FEED_RETRY_WAIT_END (07 R197, R204). -/
def execFeedRetryWaitEnd (f : Fin 2) (s : State) : Out :=
  let x := s.feed f
  if x.run != .tripped || x.retryEnd = 0 then .next s
  else
    let t := s.atLeast x.retryEnd
    if s.feedEn f then .next (t.feedTo f .window none)
    else .next (t.modFeed f (fun y => { y with retryEnd := 0 }))

/-- FEED_BUS_OV (07 R202). -/
def execFeedBusOv (f : Fin 2) (s : State) : Out :=
  let x := s.feed f
  match x.ovSince with
  | none => .next s
  | some t0 => if x.run != .on then .next s else .next ((s.atLeast (t0 + 1000000)).feedTo f .window (some 4))

/-- FEED_SWITCH_LOST (07 R202). -/
def execFeedSwitchLost (f : Fin 2) (s : State) : Out :=
  let x := s.feed f
  match x.okLostSince with
  | none => .next s
  | some t0 => if x.run != .on then .next s else .next ((s.atLeast (t0 + 1000000)).feedTrip f 3)

/-- FEED_PG_DELAY_EXPIRY (07 R207). -/
def execFeedPgDelayExpiry (f : Fin 2) (s : State) : Out :=
  let x := s.feed f
  if x.run != .on || x.pg then .next s
  else
    let t := (s.atLeast (x.since + s.held (fdId f 8) * 1000000)).modFeed f (fun y => { y with pg := true })
    .next (if t.bus.busPg then t else (t.modBus (fun b => { b with busPg := true })).raise 79)

/-- FEED_RETRY_CLEAR (07 R204). -/
def execFeedRetryClear (f : Fin 2) (s : State) : Out :=
  let x := s.feed f
  if x.run != .on then .next s
  else
    .next ((s.atLeast (x.since + bitsOf (s.held (fdId f 9)) 31 16 * 1000000000)).modFeed f (fun y =>
      { y with retries := 0 }))

/-! ### The opcodes (07 R215 to R217) -/

/-- FEED_STATUS. -/
def execFeedStatus (r : Req) (s : State) : Out :=
  .next (s.runOp 0x0701 observe (len 1) (fun s =>
    let m := numAt r.payload 0 1
    if 4 ≤ m then .no stValue dtRange
    else
      .ok (done (((List.finRange 2).filter (fun f => bitAt m f.val)).map (fun f =>
        leBytes 1 f.val ++ zeros 3 ++ leBytes 4 (s.feed f).stateWord ++ leBytes 4 (s.feedStatusWord f) ++
          leBytes 4 (fitS 32 (s.feedI f)))).flatten) s) r)

/-- FEED_ARM (07 R216). -/
def execFeedArm (r : Req) (s : State) : Out :=
  .next (s.runOp 0x0702 control (len 1) (fun s =>
    s.needLease r (
      match named 2 (numAt r.payload 0 1) with
      | none => .no stValue dtRange
      | some f =>
        let x := s.feed f
        if !s.feedEn f then .no stState 0x0102
        else if x.run == .window || x.run == .delay || x.run == .match_ || x.run == .gate || x.run == .on ||
            x.run == .blocking then .no stState 0x0101
        else
          let t := (s.feedTo f .window none).modFeed f (fun y => { y with retries := 0 })
          .ok done (if x.run == .lockedOut then t.auditReq r 0x0702 done else t))) r)

/-- LAST_FEED: a group that names the feed runs and names no other feed that is ON (07 R217). -/
def State.lastFeed (s : State) (f : Fin 2) : Bool :=
  (s.groupsOfFeed f).any (fun g => (s.group g).mode.isSwitching &&
    !(bitAt (s.param (grId g 3)) (otherFeed f).val && (s.feed (otherFeed f)).run == .on))

/-- FEED_OPEN (07 R217): the term leaves the arbitration at the next sample of each group, and FEEDx_ON falls at
the sample after; with no group that names the feed, at once. -/
def execFeedOpen (r : Req) (s : State) : Out :=
  .next (s.runOp 0x0703 control (len 1) (fun s =>
    s.needLease r (
      match named 2 (numAt r.payload 0 1) with
      | none => .no stValue dtRange
      | some f =>
        if s.lastFeed f then .no stState 0x0103
        else if (s.feed f).openReq.isSome then .no stBusy 0
        else
          let gs := s.groupsOfFeed f
          if gs.isEmpty then .ok done (s.feedTo f .held (some 8))
          else .wait (s.modFeed f (fun x => { x with
            opening := .removing (BitVec.ofNat 8 (gs.map (fun g => 2 ^ g.val)).sum), openReq := some r, retryEnd := 0 })))) r)

end Sys2Proof.Machine
end

