-- ==== Sys2Proof/Machine/Pair.lean ====
section
/-! DEFINITION. The pair link and paired groups (05 R146 to R167): frames, credits and transactions, pairing,
loss, disable and handover. -/

namespace Sys2Proof.Machine

/-- The paired group of the device, if any. -/
def State.pairedGroup (s : State) : Option (Fin 8) := (List.finRange 8).find? (fun g => (s.group g).pair.paired)

/-- Changes the pairing of a group. -/
def State.modPair (g : Fin 8) (f : PairGroup → PairGroup) (s : State) : State :=
  s.modGroup g (fun x => { x with pair := f x.pair })

/-- Changes the pair link. -/
def State.modPairLink (f : PairLink → PairLink) (s : State) : State :=
  s.modConv (fun c => { c with link := f c.link })

/-- G_PAIR as it reads (05 Table 5-8). -/
def State.pairWord (s : State) (g : Fin 8) : Nat :=
  let x := (s.group g).pair
  flag x.paired + fieldAt 1 1 (flag x.leader) + bitsOf (s.param (grId g 0x15)) 6 2 * 4 +
    fieldAt 8 1 (flag s.conv.link.linkUp) + fieldAt 9 1 (flag x.lost) + fieldAt 16 8 (numAt x.control 40 1)

/-! ### Frames -/

/-- The one-way latency: the mean over the last 64 frames, edge units (05 R151). -/
def PairLink.latency (l : PairLink) : Rat := if l.delays.isEmpty then 0 else l.delays.sum / l.delays.length

/-- ECHO_DLY: edge units from the receipt of the last good frame to this SOF; 0 before any (05 Table 5-6). -/
def State.echoDelay (s : State) : Nat :=
  if s.conv.link.good = 0#32 then 0 else 16 * (s.now - s.conv.link.lastGoodAt)

/-- Control section of a frame of a pair (05 Table 5-6). -/
def State.controlSection (s : State) (g : Fin 8) : List Byte :=
  let x := s.group g
  let led := x.pair.leader
  let c := s.ccap g
  let share := if led then (if c = 0 then 0 else x.iCmd * x.partnerCap / c) else x.iGrp
  let own := (s.limitRows g).filter (fun r => r.1 != 9 && rowActs x.mode true r.1)
  let next := if led then nat0 (((x.periodStart + x.periodLen : Nat) : Int) - 16 * s.now) else 0
  leBytes 1 x.mode.code ++ leBytes 1 x.light.code ++ leBytes 2 x.epoch.toNat ++ centi share ++
    centi (if led then 0 else lowOf own) ++ centi (if led then 0 else highOf own) ++
    leBytes 4 (fitU 32 (roundQ (c * 100))) ++ centi x.vStr ++ centi x.vBus ++ leBytes 4 (s.param (grId g 0x14)) ++
    leBytes 4 x.refWord ++ leBytes 4 next ++ leBytes 1 (s.activeCount g) ++
    leBytes 1 (if led then keepOn (numAt x.pair.control 40 1) x.partnerCap share else x.nOn) ++
    leBytes 1 x.cause.toNat ++ zeros 1 ++ leBytes 4 (if led then f32Code x.integ else 0) ++ leBytes 4 s.echoDelay ++ zeros 12

/-- A frame of 1,232 bytes (05 Table 5-5). -/
def State.pairFrame (s : State) (slot0 slot1 : List Byte) : List Byte :=
  let l := s.conv.link
  let pg := s.pairedGroup
  let led : Bool := match pg with | some g => (s.group g).pair.leader | none => false
  let words := (List.finRange 64).filterMap (fun p => ((s.phase p).linkWord).map (fun w => (p, w)))
  let edges := (words.map (fun e => leBytes 8 e.2.toNat)).flatten
  let body := [s.nv.fw.pairVer] ++ [l.txSeq] ++ leBytes 1 (flag led + 2 * flag l.lostRx + 4 * flag pg.isSome) ++
    leBytes 1 (match pg with | some g => g.val | none => 0xFF) ++ leBytes 8 s.now ++ leBytes 1 l.return0 ++
    leBytes 1 l.return1 ++ [l.lastGood] ++ zeros 1 ++
    (match pg with | some g => s.controlSection g | none => zeros 48 ++ leBytes 4 s.echoDelay ++ zeros 12) ++
    leBytes 8 (words.map (fun e => 2 ^ e.1.val)).sum ++ edges ++ zeros (512 - edges.length) ++
    slot0 ++ zeros (312 - slot0.length) ++ slot1 ++ zeros (312 - slot1.length) ++ zeros 4
  body ++ leBytes 4 (crc32c body).toNat

/-- A symbol of 8b/10b code on a lane: a K-character or a data byte. -/
inductive LinkSymbol where
  | k285
  | k277
  | k297
  | k280
  | data (b : Byte)
  deriving DecidableEq, Repr

/-- Symbol i of lane k for a frame, i below 312 and k below 4 (05 R149, R150, Table 5-4). -/
def laneSymbol (frame : List Byte) (k i : Nat) : LinkSymbol :=
  match i with
  | 0 => .k285
  | 1 => .k277
  | 310 => .k297
  | 311 => .k280
  | i => .data (frame.getD (4 * (i - 2) + k) 0)

/-- The four lanes PAIR_TX0 to PAIR_TX3 while a frame is sent, 312 symbols of 8 ns each (05 R149). -/
def PairLink.lanes (l : PairLink) : List (List LinkSymbol) :=
  match l.lastSent with
  | none => []
  | some f => (List.range 4).map (fun k => (List.range 312).map (laneSymbol f k))

/-- A request slot of the firmware: the spec gives its opcode's effect but not which transaction it sends, so type, address and
content are free values; TAG is the number of the request (05 R152, R153, Table 5-7). -/
def freeRequest (tag : Byte) (b : List Byte) : List Byte :=
  let ty := [1, 2, 4].getD (numAt b 0 1 % 3) 1
  let n := numAt b 1 2 % 297
  let a := 0x10FF0000 + numAt b 3 2 % (65536 - 296)
  let body := if ty = 1 then [] else slice b 16 n
  leBytes 1 ty ++ [tag] ++ leBytes 2 n ++ leBytes 5 (if ty = 4 then 0 else a) ++ zeros 7 ++ body ++ zeros (296 - body.length)

/-- The firmware has a transaction of the pairing handshake for VC0 (05 R152). -/
def State.handshake (s : State) : State :=
  let b := s.freeBytes 312
  let s := s.modPairLink (fun l => { l with
    queue0 := l.queue0 ++ [freeRequest (BitVec.ofNat 8 (l.frame + l.queue0.length)) b] })
  { s with freeCtr := s.freeCtr + 1 }

/-- Start of frame n, at symbol 1 of lane 0, on the clock: frames follow one another without a gap from the release of the D-die
reset (05 R149). -/
def State.sofAt (s : State) (n : Nat) : Nanos := s.power.releaseAt + 2496 * n + 8

/-- The next frame to start, none earlier than now. -/
def State.frameDue (s : State) : Nat := max s.conv.link.frame ((s.clk - s.power.releaseAt - 8 + 2495) / 2496)

/-- The request that leaves in this frame: a credit is held and fewer than 16 are outstanding (05 R152). -/
def PairLink.nextRequest (l : PairLink) : Option (List Byte) :=
  if l.credit0 ≠ 0 ∧ l.outstanding.length < 16 then l.queue0.head? else none

/-- The response that leaves in this frame. -/
def PairLink.nextResponse (l : PairLink) : Option (List Byte) := if l.credit1 ≠ 0 then l.queue1.head? else none

/-- A request is outstanding once sent; an EVENT awaits no response. -/
def PairLink.sendRequest (q : Option (List Byte)) (l : PairLink) : PairLink :=
  match q with
  | none => l
  | some b =>
    let wait : List PairRequest := if numAt b 0 1 = 4 then [] else [⟨BitVec.ofNat 8 (numAt b 1 1), b, 0⟩]
    { l with queue0 := l.queue0.tail, credit0 := l.credit0 - 1, outstanding := l.outstanding ++ wait }

/-- A response has left. -/
def PairLink.sendResponse (q : Option (List Byte)) (l : PairLink) : PairLink :=
  match q with
  | none => l
  | some _ => { l with queue1 := l.queue1.tail, credit1 := l.credit1 - 1 }

/-- PAIR_FRAME_SEND (05 R149, R150, R152): the row falls at the start of the frame. -/
def execPairFrameSend (s : State) : Out :=
  if !s.power.safety.dieRunning then .next s else
  let n := s.frameDue
  let s := s.atLeast (s.sofAt n)
  let l := s.conv.link
  let q0 := l.nextRequest
  let q1 := l.nextResponse
  let b := s.pairFrame (q0.getD []) (q1.getD [])
  let now := s.now
  let t := s.modPairLink (fun l =>
    let l := (l.sendRequest q0).sendResponse q1
    { l with
      frame := n + 1, txSeq := l.txSeq + 1#8, return0 := 0, return1 := 0, lastSent := some b
      sofTimes := ((l.txSeq, now) :: l.sofTimes).take 64
      outstanding := l.outstanding.map (fun r => { r with age := r.age + 1 }) })
  .next (t.eachPhase (fun p u => u.modPhase p (fun x => { x with linkWord := none })))

/-- A device address of the 64 KB pair window holds n bytes (05 R153). -/
def inWindow (a n : Nat) : Bool := decide (0x10FF0000 ≤ a) && decide (a + n ≤ 0x11000000)

/-- A RESPONSE slot (05 Table 5-7). -/
def pairResponse (tag status : Nat) (data : List Byte) : List Byte :=
  [3#8] ++ leBytes 1 tag ++ leBytes 2 data.length ++ zeros 5 ++ leBytes 1 status ++ zeros 6 ++ data

/-- Serves a request slot of VC0 (05 R152, R153). -/
def State.serveRequest (b : List Byte) (s : State) : State :=
  let ty := numAt b 0 1
  let tag := numAt b 1 1
  let n := numAt b 2 2
  let a := numAt b 4 5
  let answer (x : List Byte) (t : State) : State :=
    t.modPairLink (fun l => { l with queue1 := l.queue1 ++ [x], return0 := l.return0 + 1 })
  if ty = 1 then
    if inWindow a n && n ≤ 296 then
      answer (pairResponse tag 0 ((List.range n).map (fun i => s.sys.mem.byte (a + i)))) s
    else answer (pairResponse tag 1 []) s
  else if ty = 2 then
    if inWindow a n && n ≤ 296 then
      answer (pairResponse tag 0 [])
        (s.modSys (fun y => { y with mem := MemState.storeBytes (slice b 16 n) a y.mem }))
    else answer (pairResponse tag 1 []) s
  else if ty = 4 then s.modPairLink (fun l => { l with return0 := l.return0 + 1 })
  else s

/-- Takes a response slot of VC1. -/
def State.takeResponse (b : List Byte) (s : State) : State :=
  if numAt b 0 1 ≠ 3 then s
  else s.modPairLink (fun l => { l with
    return1 := l.return1 + 1
    outstanding := l.outstanding.filter (fun r => r.tag.toNat != numAt b 1 1) })

/-- An epoch is older than the current one (05 R146). -/
def olderEpoch (e cur : Nat) : Bool :=
  let d := (cur + 65536 - e) % 65536
  decide (1 ≤ d) && decide (d ≤ 32767)

/-- The newer of two epochs (05 R146). -/
def newerEpoch (a b : Nat) : Nat := if olderEpoch a b then b else a

/-- The partner's edge words after a frame: the newest of each phase, less those older than the epoch that the frame shows the
sender to have reached (05 R146, R148). -/
def frameEdges (b : List Byte) (old : Bank U64) : Bank U64 :=
  let ps := maskList 64 (numAt b 80 8)
  let new := ps.zipIdx.map (fun (p, i) => (p, BitVec.ofNat 64 (numAt b (88 + 8 * i) 8)))
  let cur := (new.map (fun e => (EdgeWord.ofCode e.2).epoch)).foldl newerEpoch (numAt b 18 2)
  (new.foldl (fun m e => bankPut e.1 e.2 m) old).filter (fun e => !olderEpoch (EdgeWord.ofCode e.2).epoch cur)

/-- A frame's one-way latency enters the mean (05 R151). -/
def PairLink.measure (now : Nat) (b : List Byte) (l : PairLink) : PairLink :=
  match l.sofTimes.find? (fun e => e.1.toNat == numAt b 14 1) with
  | none => l
  | some (_, sof) =>
    let x : Rat := ((16 * now : Nat) - (16 * sof : Nat) - numAt b 64 4 : Int) / 2
    { l with delays := (x :: l.delays).take 64 }

/-- The mode and setpoint of the leader are mirrored in the follower (05 R160). -/
def State.mirror (g : Fin 8) (c : List Byte) (s : State) : State :=
  let m := Mode.ofCode (numAt c 0 1)
  let cur := (s.group g).mode
  let s := s.setParam (grId g 0x14) (numAt c 28 4)
  if m == cur || m == .fault || cur == .fault then s
  else
    let s := s.setParam (grId g 0) m.code
    if cur.isQuiet && m.isSwitching then s.startMode g m else s.enterMode g m

/-- The control sections of two frames show an arbitration step at the leader that cut the pair's command: its epoch has moved in an
unchanged mode, and the follower's share has come nearer to zero (05 R148; DEDUCED, log entry 119). -/
def leaderStepped (old new : List Byte) : Bool :=
  !old.isEmpty && olderEpoch (numAt old 2 2) (numAt new 2 2) && numAt old 0 1 == numAt new 0 1 &&
    decide ((intAt new 4 4).natAbs < (intAt old 4 4).natAbs)

/-- The partner's frame shows that it has received the first frame after PAIR_HANDOVER (05 R161). -/
def PairGroup.echoed (echo : Byte) (x : PairGroup) : PairGroup :=
  { x with handoverHeard := x.handoverHeard || (x.handover.isSome && decide ((echo - x.handoverSeq).toNat < 128)) }

/-- The paired group takes a frame's control section (05 R148, R156, R159). -/
def State.takeControl (b : List Byte) (s : State) : State :=
  match s.pairedGroup with
  | none => s
  | some g =>
    let c := slice b 16 64
    let now := s.now
    let lat := s.conv.link.latency
    let stepped := s.isFollower g && leaderStepped (s.group g).pair.control c
    let s := s.modPair g (fun x => { x.echoed (BitVec.ofNat 8 (numAt b 14 1)) with
      control := c, partnerPaired := bitAt (numAt b 2 1) 2
      nextPs := if x.leader then none else some (nat0 (16 * now - roundQ lat + numAt c 36 4)) })
    let s := if stepped then s.bumpEpoch g .other else s
    if s.isFollower g then s.mirror g c else s

/-- A dropped frame (05 R151). -/
def State.dropFrame (s : State) : State :=
  (s.modPairLink (fun l => { l with goodRun := 0, missRun := l.missRun + 1, missing := satInc l.missing })).raise 280

/-- LINK_UP sets after 8 consecutive good frames; the credits are restored (05 R151, R152). -/
def State.linkComesUp (s : State) : State :=
  let l := s.conv.link
  if l.linkUp || l.goodRun < 8 then s
  else
    (s.modPairLink (fun l => { l with linkUp := true, credit0 := 16, credit1 := 16, return0 := 0, return1 := 0
                                      outstanding := [] })).raise 277

/-- Conditions of 05 R154 at both halves, with the status and detail of the first that fails; a half in FAULT, or halves of
unlike modes, have no detail of R166 and answer GROUP_STATE (DESIGN CHOICE, log entry 120). -/
def State.pairRefusal (s : State) (g : Fin 8) (named : U64) (e : PeerEnable) : Option (Nat × Nat) :=
  let x := s.group g
  if e.identity != named || e.names != Config.devId || e.namesGroup != g then some (stValue, 0x0102)
  else if !s.conv.link.linkUp then some (stState, 0x0101)
  else if e.fsw ≠ s.param (grId g 1) then some (stState, 0x0104)
  else if e.droop ≠ s.param (grId g 0x0C) then some (stState, 0x0105)
  else if x.mode == .fault || e.fault then some (stState, dtGroupState)
  else if x.mode == .standby && e.mode = 1 then none
  else if x.mode.isPower && e.mode = x.mode.code && e.low && decide (absQ x.iGrp < s.ccap g / 50) then none
  else if x.mode.isPower && e.mode = x.mode.code then some (stState, 0x0103)
  else some (stState, dtGroupState)

/-- Payload fields of PAIR_ENABLE: partner group and identity. -/
def enableNames (r : Req) : Nat × U64 := (numAt r.payload 1 1, BitVec.ofNat 64 (numAt r.payload 4 8))

/-- The partner's handshake arrives: a waiting PAIR_ENABLE whose conditions fail completes (05 R154, R166). -/
def State.takePeer (e : PeerEnable) (s : State) : State :=
  let g := e.namesGroup
  let s := s.modPair g (fun x => { x with peer := some e })
  match (s.group g).pair.enable with
  | none => s
  | some (r, _) =>
    match s.pairRefusal g (enableNames r).2 e with
    | none => s
    | some (st, d) => (s.modPair g (fun x => { x with enable := none })).finish r 0x1102 ⟨st, 0, d, []⟩

/-- The partner's handshake announces a handover. -/
def State.askHandover (asked : Bool) (s : State) : State :=
  match s.pairedGroup with
  | some g => if asked && s.isFollower g then s.modPair g (fun x => { x with handoverAsked := true }) else s
  | none => s

/-- PAIR_FRAME_RECEIVE (05 R151): `good` tells that the K-characters and the lane skew are right; `peer` is the
content of the firmware's pairing handshake and `handover` that it announces a handover, when this frame's transactions carry
them. -/
def execPairFrameReceive (bytes : List Byte) (good : Bool) (peer : Option PeerEnable) (handover : Bool) (s : State) : Out :=
  if !good || bytes.length ≠ 1232 || (crc32c (slice bytes 0 1228)).toNat ≠ numAt bytes 1228 4 then .next s.dropFrame
  else
    let now := s.now
    let t := s.modPairLink (fun l =>
      let l := l.measure now bytes
      { l with
        goodRun := min 8 (l.goodRun + 1), missRun := 0, good := satInc l.good, lastGoodAt := now
        lastGood := BitVec.ofNat 8 (numAt bytes 1 1), partnerVer := some (BitVec.ofNat 8 (numAt bytes 0 1))
        credit0 := min 16 (l.credit0 + numAt bytes 12 1), credit1 := min 16 (l.credit1 + numAt bytes 13 1)
        lostSeen := l.lostSeen || bitAt (numAt bytes 2 1) 1, partnerEdges := frameEdges bytes l.partnerEdges })
    let t := t.linkComesUp
    let t := t.takeControl bytes
    let t := (t.serveRequest (slice bytes 600 312)).takeResponse (slice bytes 912 312)
    .next (((match peer with | some e => t.takePeer e | none => t).askHandover handover).settle s)

/-- A request fails locally (05 R153). -/
def State.failRequests (sel : PairRequest → Bool) (s : State) : State :=
  let out := s.conv.link.outstanding.filter sel
  let s := s.modPairLink (fun l => { l with outstanding := l.outstanding.filter (fun r => !sel r) })
  out.foldl (fun t _ => t.raise 281) s

/-- PAIR_TRANSACTION_TIMEOUT (05 R153): 64 frames without an answer. -/
def execPairTransactionTimeout (tag : Byte) (s : State) : Out :=
  .next (s.failRequests (fun r => r.tag == tag && decide (64 ≤ r.age)))

/-- A pairing ends at a half: it runs alone from its next outer-loop sample, and keeps the place of the pair's period start until
then (05 R164). -/
def State.unpair (g : Fin 8) (s : State) : State :=
  s.modPair g (fun x => { x with
    paired := false, split := true, peer := none, partnerPaired := false, handoverAsked := false, handoverHeard := false })

/-- The timing source of a follower is lost (05 R164, 04 R117). -/
def State.loseTiming (g : Fin 8) (s : State) : State :=
  if (s.group g).pair.leader then s
  else s.modGroup g (fun x => { x with
    sync := { x.sync with tracking := false, locked := false, good := 0, bad := 0, gliding := true } })

/-- PAIR_LOST at one group (05 R161, R163). -/
def State.loseGroup (g : Fin 8) (s : State) : State :=
  let x := (s.group g).pair
  if !x.paired then s
  else
    let s := ((s.loseTiming g).unpair g).modPair g (fun y =>
      { y with lost := true, losses := satInc y.losses, handover := none, disable := none })
    let s := (s.bumpEpoch g .other).raise 276
    let s := match x.handover with
      | some r => s.finish r 0x1104 ⟨stAbFault, 0, 0x0101, []⟩
      | none => s
    let s := match x.disable with
      | some r => s.finish r 0x1103 ⟨stAbFault, 0, 0x0101, []⟩
      | none => s
    s.applyEngines g

/-- PAIR_LOST (05 R163): three frames are missing, or a frame with LOST_RX has arrived; the link is no longer
up, and what was outstanding fails. -/
def execPairLost (s : State) : Out :=
  let l := s.conv.link
  let t := if l.lostSeen then s else s.atLeast (nat0 ((l.lastGoodAt + 7488 : Nat) - s.clock.tb.step))
  let any := s.pairedGroup.isSome
  let t := t.eachGroup State.loseGroup
  let t := t.failRequests (fun _ => true)
  let t := (t.modPairLink (fun l => { l with
    linkUp := false, goodRun := 0, lostRx := l.lostRx || any, lostSeen := false })).raiseIf l.linkUp 277
  .next (t.settle s)

/-! ### Commands (05 Table 5-10) -/

/-- PAIR_STATUS (05 R166). -/
def execPairStatus (r : Req) (s : State) : Out :=
  .next (s.runOp 0x1101 observe (len 1) (fun s =>
    match named 8 (numAt r.payload 0 1) with
    | none => .no stValue dtRange
    | some g =>
      let l := s.conv.link
      .ok (done (leBytes 1 g.val ++ zeros 3 ++ leBytes 4 (s.pairWord g) ++ leBytes 4 l.good.toNat ++
        leBytes 4 l.missing.toNat ++ leBytes 4 (s.group g).pair.losses.toNat ++
        leBytes 8 (s.group g).pair.partnerId.toNat ++ leBytes 4 (fitU 32 (roundQ l.latency)))) s) r)

/-- What of 05 R154 fails at this half alone; a group already paired or enabling, or in FAULT, answers GROUP_STATE (DESIGN CHOICE,
log entry 120). -/
def State.ownPairRefusal (s : State) (g : Fin 8) : Option Nat :=
  let x := s.group g
  if s.pairedGroup.isSome || x.pair.enable.isSome then some dtGroupState
  else if !s.conv.link.linkUp then some 0x0101
  else if x.mode == .standby then none
  else if !x.mode.isPower then some dtGroupState
  else if decide (absQ x.iGrp < s.ccap g / 50) then none
  else some 0x0103

/-- PAIR_ENABLE (05 R154): waits for the partner's command, up to 10 s. -/
def execPairEnable (r : Req) (s : State) : Out :=
  .next (s.runOp 0x1102 configure (lenZ 12 [(2, 2)]) (fun s =>
    s.needLease r (
      match named 8 (numAt r.payload 0 1) with
      | none => .no stValue dtRange
      | some g =>
        if 7 < (enableNames r).1 then .no stValue dtRange
        else match s.ownPairRefusal g with
          | some d => .no stState d
          | none =>
            match ((s.group g).pair.peer).bind (s.pairRefusal g (enableNames r).2) with
            | some (st, d) => .no st d
            | none =>
              let now := s.clk
              .wait ((s.modPair g (fun x => { x with enable := some (r, now) })).handshake))) r)

/-- The half that leads (05 R155). -/
def State.leads (s : State) (g : Fin 8) (e : PeerEnable) : Bool :=
  let own := bitsOf (s.param (grId g 0x15)) 3 2
  if own ≠ e.lead then own = 1 || e.lead = 2
  else if s.conv.link.roleStrap != e.strap then s.conv.link.roleStrap
  else decide (Config.devId.toNat < e.identity.toNat)

/-- PAIR_TAKE_EFFECT (05 R154): both commands name each other and every condition holds; the epoch moves, a
sweep of the port ends (11 Table 11-3), IS278. -/
def execPairTakeEffect (g : Fin 8) (s : State) : Out :=
  match (s.group g).pair.enable, (s.group g).pair.peer with
  | some (r, _), some e =>
    if (s.pairRefusal g (enableNames r).2 e).isSome || e.group.val ≠ (enableNames r).1 then .next s
    else
      let lead := s.leads g e
      let t := (s.atDevice (s.sampleAt g)).modPair g (fun x => { x with
        paired := true, leader := lead, lost := false, split := false, enable := none, peer := none
        partnerId := e.identity, partnerGroup := e.group, control := [], partnerPaired := true })
      let t := (t.bumpEpoch g .other).raise 278
      let t := t.modPairLink (fun l => { l with lostRx := false, lostSeen := false })
      let t := match t.portOf g with
        | some p => t.stippleAbort p 9
        | none => t
      .next ((t.complete r 0x1102 done).settle s)
  | _, _ => .next s

/-- PAIR_ENABLE_TIMEOUT (05 R154): 10 s without the partner's command. -/
def execPairEnableTimeout (g : Fin 8) (s : State) : Out :=
  match (s.group g).pair.enable with
  | none => .next s
  | some (r, t0) =>
    .next (((s.atLeast (t0 + 10000000000)).modPair g (fun x => { x with enable := none, peer := none })).finish r 0x1102
      ⟨stState, 0, 0x0107, []⟩)

/-- PAIR_DISABLE (05 Table 5-10). -/
def execPairDisable (r : Req) (s : State) : Out :=
  .next (s.runOp 0x1103 configure (len 1) (fun s =>
    s.needLease r (
      match named 8 (numAt r.payload 0 1) with
      | none => .no stValue dtRange
      | some g =>
        if !(s.group g).pair.paired then .no stState dtGroupState
        else if (s.group g).pair.disable.isSome then .no stBusy 0
        else .wait ((s.modPair g (fun x => { x with disable := some r })).handshake))) r)

/-- Both halves are in STANDBY, or below 2 % of C_cap (05 Table 5-10). -/
def State.pairCalm (s : State) (g : Fin 8) : Bool :=
  let x := s.group g
  let own := x.mode == .standby || decide (absQ x.iGrp < s.ccap g / 50)
  let other := numAt x.pair.control 0 1 == 1 || decide (absQ (x.partnerAmps 4) < x.partnerCap / 50)
  own && other

/-- PAIR_DISABLE_EFFECT (05 Table 5-10): at the half that was told, and at the other when the frames show that
the pairing has ended. -/
def execPairDisableEffect (g : Fin 8) (s : State) : Out :=
  let x := (s.group g).pair
  if !x.paired || !s.pairCalm g || (x.disable.isNone && x.partnerPaired) then .next s
  else
    let t := ((((s.atDevice (s.sampleAt g)).loseTiming g).unpair g).modPair g (fun y => { y with disable := none, handover := none })).applyEngines g
    let t := match x.handover with
      | some r => t.finish r 0x1104 ⟨stAbDisabled, 0, 0, []⟩
      | none => t
    match x.disable with
    | some r => .next ((t.complete r 0x1103 done).settle s)
    | none => .next (t.settle s)

/-- PAIR_HANDOVER (05 R161). -/
def execPairHandover (r : Req) (s : State) : Out :=
  .next (s.runOp 0x1104 control (len 1) (fun s =>
    s.needLease r (
      match named 8 (numAt r.payload 0 1) with
      | none => .no stValue dtRange
      | some g =>
        let x := (s.group g).pair
        if !x.paired then .no stState dtGroupState
        else if !x.leader then .no stState 0x0106
        else if !s.conv.link.linkUp then .no stState 0x0101
        else if x.handover.isSome then .no stBusy 0
        else
          let q := s.conv.link.txSeq
          .wait ((s.modPair g (fun x => { x with handover := some r, handoverSeq := q, handoverHeard := false })).handshake))) r)

/-- A control section with the fields that the partner sends in its new role, until its next frame brings them: its share of the
command, and its capacity as its range; a new follower's share is the current it commands (DESIGN CHOICE, log entry 121). -/
def Group.swapControl (own : Rat) (x : Group) : List Byte :=
  let c := x.pair.control
  let cap := x.partnerCap
  let (share, lo, hi) : Rat × Rat × Rat := if x.pair.leader then (x.iCmd, 0, 0)
    else (if own = 0 then 0 else x.iCmd * cap / own, -cap, cap)
  slice c 0 4 ++ centi share ++ centi lo ++ centi hi ++ slice c 16 25 ++ leBytes 1 x.nOn ++ slice c 42 22

/-- PAIR_HANDOVER_EFFECT (05 R161), at the pair's outer-loop sample: the leader becomes the follower once the partner has its INTEG
and REF; the follower that was told leads from the INTEG and REF it has received. IS279. -/
def execPairHandoverEffect (g : Fin 8) (s : State) : Out :=
  let x := s.group g
  let s := s.atDevice (s.sampleAt g)
  let c := x.swapControl (s.ccap g)
  if !x.pair.paired || x.pair.control.isEmpty then .next s
  else if x.pair.leader then
    match (if x.pair.handoverHeard then x.pair.handover else none) with
    | none => .next s
    | some r =>
      let t := (s.modPair g (fun y => { y with
        leader := false, handover := none, handoverHeard := false, control := c, nextPs := some (x.periodStart + x.periodLen) })).raise 279
      .next ((t.complete r 0x1104 done).settle s)
  else if !x.pair.handoverAsked then .next s
  else
    let ref : Rat := if x.mode == .power then (intAt c 32 4 : Rat) else (intAt c 32 4 : Rat) / 100
    let t := s.modGroup g (fun y => { y with
      ref := ref, integ := f32Rat (numAt c 44 4)
      pair := { y.pair with leader := true, nextPs := none, handoverAsked := false, control := c } })
    .next ((t.raise 279).settle s)

end Sys2Proof.Machine
end

