-- ==== Sys2Proof/Machine/Port.lean ====
section
/-! DEFINITION. The service port (18): attach and detach, PD messages, the VBUS monitor, the alternate mode, moisture,
corrosion, and the service-port opcodes. Numbers of PD messages, object fields and VDM commands are those of the USB PD
specification, which the spec names (PRESUMED, log entry 99). -/

namespace Sys2Proof.Machine

/-- The port is attached. -/
def ServicePort.attached (p : ServicePort) : Bool := p.run == .attachedSnk || p.run == .attachedSrc

/-- The port may source: DRP, SRC_EN, UC1 GOOD, and the device neither asleep nor in LOCKOUT (18 R481). -/
def State.maySource (s : State) : Bool :=
  bitAt (s.held 0x1B00) 1 && bitAt (s.held 0x1B00) 2 && (s.rail 1).run == .good && s.awake

/-- CC_ATTACH (18 R481): a termination has been stable for 150 ms; `source` that the partner presents Rd, `orient` that
it is on CC2. A sink attach ends WET when VBUS is above 4.0 V (R493). -/
def execCcAttach (source orient : Bool) (vbus : U16) (s : State) : Out :=
  let p := s.port
  let wetOk := p.run == .wet && !source && decide (400 < vbus.toNat)
  let ok := s.portOn && (p.run == .unattached || wetOk) && (!source || (s.maySource && decide (vbus.toNat < 80)))
  if !ok then .next s
  else
    let t := s.modSp (fun x => { x with
      run := if source then .attachedSrc else .attachedSnk, orient := orient, vbus := vbus, srcOn := source
      cntAttach := x.cntAttach + 1#32 })
    let t := ((t.raise 260).raiseIf wetOk 266).wakeBy 4
    let t := t.pdBegin
    .next (if t.port.run == .attachedSrc && t.port.inForce.srcI ≠ 0 then t.pdSend (.sourceCapabilities t.port.inForce.srcI) else t)

/-- CC_DETACH (18 R481): a sink's VBUS has fallen below 3.67 V; a source has seen no Rd for 15 ms. -/
def execCcDetach (vbus : U16) (s : State) : Out :=
  if s.port.run == .attachedSrc || (s.port.run == .attachedSnk && decide (vbus.toNat < 367)) then
    .next ((s.portDetach .unattached).modSp (fun p => { p with vbus := vbus }))
  else .next s

/-- DRP_TOGGLE (18 R481): half of the 75 ms period. -/
def execDrpToggle (s : State) : Out :=
  if s.port.run == .disabled then .next s
  else if s.port.run != .unattached || !s.maySource then .next (s.modSp (fun p => { p with rd := true }))
  else
    let t := s.atLeast (s.port.toggledAt + 37500000)
    let now := t.clk
    .next (t.modSp (fun p => { p with rd := !p.rd, toggledAt := now }))

/-! ### PD messages (18 R482 to R488) -/

/-- A fixed supply object: voltage 0.01 V and current 0.01 A. -/
def fixedSupply (w : U32) : Option (Nat × Nat) :=
  if bitsOf w.toNat 31 30 = 0 then some (5 * bitsOf w.toNat 19 10, bitsOf w.toNat 9 0) else none

/-- The object that the engine requests: position, voltage, operating current, mismatch (18 R486). -/
def PolicyRecord.choose (x : PolicyRecord) (objects : List U32) : Nat × Nat × Nat × Bool :=
  let hit := (objects.zipIdx).find? (fun e => match fixedSupply e.1 with
    | some (v, i) => v == x.snkV && decide (x.snkImin ≤ i)
    | none => false)
  match hit with
  | some (w, k) => (k + 1, x.snkV, (match fixedSupply w with | some (_, i) => min x.snkI i | none => 0), false)
  | none => (1, 500, 50, true)

/-- PD_SOURCE_CAPABILITIES (18 R486): the engine requests an object under the record in force. -/
def execPdSourceCapabilities (objects : List U32) (s : State) : Out :=
  if s.port.run != .attachedSnk then .next s
  else
    let t := s.pdBegin
    if t.port.run == .disabled then .next t
    else
    let (k, v, i, m) := t.port.inForce.choose objects
    .next ((t.modSp (fun p => { p with reqVolt := v, reqCurr := i, requested := true, inSequence := true })).pdSend (.request k i m))

/-- VBUS lies within ±WIN % of a voltage (18 R484). -/
def State.vbusInside (s : State) (v vbus : Nat) : Bool :=
  decide ((100 - bitsOf (s.held 0x1B06) 7 0) * v ≤ 100 * vbus) && decide (100 * vbus ≤ (100 + bitsOf (s.held 0x1B06) 7 0) * v)

/-- V_c: of the contract in force, or 5 V. -/
def ServicePort.present (p : ServicePort) : Nat := if p.contract then p.vc else 500

/-- The Accept of a new contract (18 R484, R485). -/
def State.pdAccepted (s : State) : State :=
  if !s.port.requested then s
  else
    let now := s.clk
    s.modSp (fun p => { p with requested := false, accepted := true, snkOn := false, ready := false, oldVc := p.present, transSince := now })

/-- Transition time up to now, ms. -/
def State.transition (s : State) : U16 := BitVec.ofNat 16 (min 65535 ((s.clk - s.port.transSince) / 1000000))

/-- PD_PS_RDY (18 R485): the contract is in force; SP_SNK_EN rises when it is at the record's SNK_V and VBUS is in its
window. -/
def execPdPsRdy (vbus : U16) (s : State) : Out :=
  let p := s.port
  if p.run != .attachedSnk || !p.accepted then .next s
  else
    let ok := s.vbusInside p.reqVolt vbus.toNat
    let on := p.reqVolt == p.inForce.snkV && ok
    let ms := s.transition
    let changed := !p.contract || p.vc ≠ p.reqVolt || p.curr ≠ p.reqCurr
    let t := s.modSp (fun x => { x with
      contract := true, vc := x.reqVolt, curr := x.reqCurr, accepted := false, inSequence := false, snkOn := on, ready := ok, vbus := vbus
      transMs := ms })
    .next ((t.raiseIf changed 262).pdNextSend)

/-- A message of the partner while a send waits its turn takes precedence (18 R488). -/
def State.pdDiscard (s : State) : State :=
  match s.port.sends with
  | [] => s
  | r :: rest =>
    if s.port.inSequence then s
    else (s.modSp (fun p => { p with sends := rest })).finish r 0x1005 ⟨stState, 0, 0x0104, []⟩

/-- A GoodCRC: the next message takes the next MessageID (18 R483), and for the message of a waiting send it is its point of effect. -/
def State.pdGoodCrc (s : State) : State :=
  let s := s.modSp (fun p => { p with txId := (p.txId + 1) % 8 })
  match s.port.sends with
  | [] => s
  | r :: rest =>
    if s.port.inSequence then s
    else ((s.modSp (fun p => { p with sends := rest })).complete r 0x1005 done).pdNextSend

/-- A power role swap (18 R486): accepted when SWAP says so and the new role is possible. -/
def State.pdPrSwap (s : State) : State :=
  let p := s.port
  if !bitAt p.inForce.swap 0 || (p.run == .attachedSnk && !s.maySource) then s.pdSend .reject
  else
    let t := (s.pdSend .accept).pdVoid
    (t.modSp (fun x => { x with
      run := if p.run == .attachedSnk then .attachedSrc else .attachedSnk, srcOn := p.run == .attachedSnk })).raise 260

/-- A Request to the port as source (18 R482): the one object, at no more than SRC_I. -/
def State.pdRequested (w : Nat) (s : State) : State :=
  let p := s.port
  let i := bitsOf w 19 10
  if p.run != .attachedSrc || p.inForce.srcI = 0 then s.pdSend .notSupported
  else if bitsOf w 30 28 ≠ 1 ∨ p.inForce.srcI < i then s.pdSend .reject
  else
    let changed := !p.contract || p.curr ≠ i
    (((s.pdSend .accept).pdSend .psRdy).modSp (fun x => { x with contract := true, vc := 500, curr := i })).raiseIf changed 262

/-- A structured VDM that asks (18 R489); Enter Mode and Exit Mode have their own rows. -/
def State.pdVdm (w : Nat) (s : State) : State :=
  if !bitAt w 15 then s.pdSend .notSupported
  else match bitsOf w 4 0 with
    | 1 => s.pdSend .identity
    | 2 => s.pdSend (.svids Config.svid)
    | 3 => if bitsOf w 31 16 = Config.svid.toNat then s.pdSend (.modes 1) else s.pdSend .notSupported
    | _ => s

/-- What the policy engine answers to a message (18 R482 to R489). -/
def State.pdReact (header : Nat) (objects : List Byte) (s : State) : State :=
  let p := s.port
  let ty := bitsOf header 4 0
  if bitAt header 15 then s.pdSend .notSupported
  else if bitsOf header 14 12 = 0 then
    match ty with
    | 3 => s.pdAccepted
    | 4 | 12 => (s.modSp (fun x => { x with requested := false, inSequence := false })).pdNextSend
    | 6 => s
    | 7 => if p.inForce.srcI ≠ 0 then s.pdSend (.sourceCapabilities p.inForce.srcI) else s.pdSend .notSupported
    | 8 => s.pdSend (.sinkCapabilities p.inForce.snkV p.inForce.snkI)
    | 9 => s.pdSend (if bitAt p.inForce.swap 1 then .accept else .reject)
    | 10 => s.pdPrSwap
    | 11 => s.pdSend .reject
    | 13 => ((s.modSp (fun x => { x with
        requested := false, accepted := false, inSequence := false, txId := 0, rxId := none })).pdSend .accept).pdNextSend
    | _ => s.pdSend .notSupported
  else
    match ty with
    | 1 | 4 => s
    | 2 => s.pdRequested (numAt objects 0 4)
    | 15 => s.pdVdm (numAt objects 0 4)
    | _ => s.pdSend .notSupported

/-- PD_MESSAGE_RECEIVED (18 R483, R488): SOP type, header, data objects. Only SOP is received. The engine's action on
Source_Capabilities, PS_RDY, Enter Mode and Exit Mode is the row of that message. A message with a bad CRC is counted and nothing
else; one that repeats the last MessageID is a retry, acknowledged again and not received again. -/
def execPdMessageReceived (bytes : List Byte) (crcOk : Bool) (s : State) : Out :=
  let header := numAt bytes 1 2
  let id := bitsOf header 11 9
  if !s.port.attached || numAt bytes 0 1 ≠ 0 then .next s
  else if !crcOk then .next (s.modSp (fun p => { p with cntCrcErr := satInc p.cntCrcErr }))
  else if bitsOf header 4 0 = 1 && bitsOf header 14 12 = 0 && !bitAt header 15 then .next s.pdGoodCrc
  else if s.port.rxId == some id then .next s
  else
    let t := (s.modSp (fun p => { p with cntRx := p.cntRx + 1#32, rxId := some id })).pdRx 0 header (bytes.drop 3)
    let t := t.pdDiscard.pdBegin
    .next (if t.port.run == .disabled then t else t.pdReact header (bytes.drop 3))

/-- PD_HARD_RESET_RECEIVED (18 R485, R488). -/
def execPdHardResetReceived (s : State) : Out :=
  if !s.port.attached then .next s else .next (((s.pdRx 3 0 []).pdDiscard).pdHardReset)

/-- PD_RETRIES_EXHAUSTED (18 R483, R488). -/
def execPdRetriesExhausted (s : State) : Out :=
  let t := s.modSp (fun p => { p with cntRetry := satInc p.cntRetry })
  let t := match t.port.sends with
    | r :: rest =>
      if t.port.inSequence then t
      else (t.modSp (fun p => { p with sends := rest })).finish r 0x1005 ⟨stState, 0, 0x0105, []⟩
    | [] => t
  .next (((t.modSp (fun p => { p with
    requested := false, accepted := false, inSequence := false, txId := 0, rxId := none })).pdSend .softReset).pdNextSend)

/-- VBUS_MONITOR_BREACH (18 R484): VBUS as measured, and for how many ns it has been so. Outside a transition the limit is 1 ms; in one
it is T_TRANS_MS, or the overshoot at once. -/
def execVbusMonitorBreach (vbus : U16) (ns : Nat) (s : State) : Out :=
  let p := s.port
  if p.run != .attachedSnk then .next (s.modSp (fun x => { x with vbus := vbus }))
  else
    let v := vbus.toNat
    let new := if p.accepted then p.reqVolt else p.present
    let tooHigh := p.accepted && decide ((100 + bitsOf (s.held 0x1B06) 7 0) * max p.oldVc new < 100 * v)
    if (s.vbusInside new v && !tooHigh) || (!p.accepted && decide (ns ≤ 1000000)) then
      .next (s.modSp (fun x => { x with vbus := vbus, ready := x.ready && s.vbusInside new v, snkOn := x.snkOn && s.vbusInside new v }))
    else
      let s := if p.accepted && !tooHigh then s.atLeast (p.transSince + bitsOf (s.held 0x1B06) 23 8 * 1000000) else s
      let ms := if p.accepted then s.transition else p.transMs
      let t := s.modSp (fun x => { x with vbus := vbus, vbusFault := true, transMs := ms })
      .next (((t.pdSend .hardReset).pdHardReset).raise 264)

/-! ### The alternate mode, moisture and corrosion (18 R489, R490, R493, R494) -/

/-- The SBU pin that the service UART sends on, and the one it receives on (18 R489, R490): SBU1 and SBU2 by the CC pin of the attach;
none while they are high impedance. -/
def ServicePort.uartPins (p : ServicePort) : Option (Fin 2 × Fin 2) :=
  if p.alt then some (if p.orient then (1, 0) else (0, 1)) else none

/-- PD_ENTER_MODE (18 R489): of an object position. -/
def execPdEnterMode (position : Nat) (s : State) : Out :=
  if !s.port.attached then .next s
  else
    let t := s.pdBegin
    if t.port.run == .disabled then .next t
    else
    let ack := position == 1 && bitAt t.port.inForce.alt 0 && !t.port.corroded
    let t := t.pdSend (.enterMode ack)
    if ack && !t.port.alt then .next ((t.modSp (fun p => { p with alt := true })).raise 265) else .next t

/-- PD_EXIT_MODE (18 R489). -/
def execPdExitMode (s : State) : Out :=
  if !s.port.alt then .next s else .next (((s.pdSend .exitMode).modSp (fun p => { p with alt := false })).raise 265)

/-- MOISTURE_CHECK (18 R493): the lowest resistance to ground of the four pins. The check takes the stored parameters up (R495). -/
def execMoistureCheck (ohms : Nat) (s : State) : Out :=
  let s := s.pickService.portEnable
  let p := s.port
  let w := s.held 0x1B07
  let dry := decide (bitsOf w 7 0 * 10000 ≤ ohms)
  if p.run == .unattached && bitAt (s.held 0x1B00) 5 then
    let s := s.atLeast (p.checkAt + 1000000000)
    let now := s.clk
    let s := s.modSp (fun x => { x with checkAt := now })
    if dry then .next s
    else
      .next (((s.modSp (fun x => { x with run := .wet, srcOn := false, rd := true, dryRun := 0, cntMoist := satInc x.cntMoist })).raise 266).raise 260)
  else if p.run == .wet then
    let s := s.atLeast (p.checkAt + bitsOf w 15 8 * 1000000000)
    let now := s.clk
    let n := if dry then p.dryRun + 1 else 0
    let s := s.modSp (fun x => { x with checkAt := now, dryRun := n })
    if n < bitsOf w 23 16 then .next s
    else .next (((s.modSp (fun x => { x with run := .unattached, dryRun := 0 })).raise 266).raise 260)
  else .next s

/-- SBU_CORROSION (18 R494): the higher of the two pins, mV, for 100 ms. -/
def execSbuCorrosion (volts : Reading) (s : State) : Out :=
  let p := s.port
  if !p.attached || p.alt || p.corroded || volts ≤ 1000 then .next s
  else .next ((s.modSp (fun x => { x with corroded := true, cntCorroded := satInc x.cntCorroded })).raise 266)

/-! ### Service-port opcodes (18 R496) -/

/-- SP_STATUS (18 Table 18-6). -/
def ServicePort.status (p : ServicePort) : Nat :=
  (match p.run with | .disabled => 0 | .unattached => 1 | .attachedSnk => 2 | .attachedSrc => 3 | .wet => 4) +
    fieldAt 3 1 (flag p.orient) + fieldAt 4 1 (flag p.contract) + fieldAt 5 1 (flag p.snkOn) + fieldAt 6 1 (flag p.srcOn) +
    fieldAt 7 1 (flag p.alt) + fieldAt 8 1 (flag p.corroded) + fieldAt 9 1 (flag p.builtin) + fieldAt 10 1 (flag p.vbusFault)

/-- SP_CONTRACT. -/
def ServicePort.contractWord (p : ServicePort) : Nat := if p.contract then p.vc % 65536 + fieldAt 16 16 p.curr else 0

/-- SP_POLICY_OWNER. -/
def ServicePort.ownerByte (p : ServicePort) : Nat := match p.policyOwner with | some o => o.val | none => 0xFF

/-- SP_STATUS_READ. -/
def execSpStatusRead (r : Req) (s : State) : Out :=
  .next (s.runOp 0x1001 observe (len 0) (fun s =>
    let p := s.port
    .ok (done (leBytes 4 p.status ++ leBytes 4 p.contractWord ++ leBytes 2 p.vbus.toNat ++ leBytes 1 p.ownerByte ++ zeros 1)) s) r)

/-- A policy record's bytes (18 Table 18-2). -/
def PolicyRecord.bytes (x : PolicyRecord) : List Byte :=
  leBytes 2 x.snkV ++ leBytes 2 x.snkI ++ leBytes 2 x.snkImin ++ leBytes 2 x.srcI ++ leBytes 1 x.swap ++ leBytes 1 x.alt ++ zeros 6

/-- The record of a payload. -/
def recordOf (p : List Byte) : PolicyRecord :=
  { snkV := numAt p 0 2, snkI := numAt p 2 2, snkImin := numAt p 4 2, srcI := numAt p 6 2, swap := numAt p 8 1, alt := numAt p 9 1 }

/-- The ranges of 18 Table 18-2. -/
def PolicyRecord.ok (x : PolicyRecord) : Bool :=
  decide (50 ≤ x.snkI) && decide (x.snkI ≤ 300) && (x.srcI == 0 || (decide (50 ≤ x.srcI) && decide (x.srcI ≤ 150)))

/-- An opcode of a port that the fuse has not disabled. -/
def State.needPort (s : State) (body : Res) : Res := if s.portFused then .no stState 0x0101 else body

/-- The caller holds the claim. -/
def State.needClaim (s : State) (r : Req) (body : Res) : Res :=
  if s.port.policyOwner == some r.owner then body else .no stPermit 0x0102

/-- SP_POLICY_CLAIM (18 R487). -/
def execSpPolicyClaim (r : Req) (s : State) : Out :=
  .next (s.runOp 0x1002 service (len 0) (fun s =>
    s.needPort (
      if s.port.policyOwner.isSome then .no stPriority 0
      else .ok (done s.port.inForce.bytes) (s.modSp (fun p => { p with policyOwner := some r.owner, record := some p.inForce })))) r)

/-- SP_POLICY_RELEASE (18 R487). -/
def execSpPolicyRelease (r : Req) (s : State) : Out :=
  .next (s.runOp 0x1003 service (len 0) (fun s =>
    s.needPort (s.needClaim r (.ok done (s.modSp (fun p => { p with policyOwner := none, record := none }))))) r)

/-- SP_PD_POLICY (18 R487, R496). -/
def execSpPdPolicy (r : Req) (s : State) : Out :=
  .next (s.runOp 0x1004 service (fun p =>
      if p.length ≠ 16 then some dtLength
      else if 4 ≤ numAt p 8 1 || 2 ≤ numAt p 9 1 || !zeroAt p 10 6 then some dtReserved else none) (fun s =>
    s.needPort (s.needClaim r (
      let x := recordOf r.payload
      if !x.ok then .no stValue dtRange else .ok done (s.modSp (fun p => { p with record := some x }))))) r)

/-- SP_PD_SEND (18 R488, R496): a Hard Reset outside a sequence takes effect at once; a message waits for its GoodCRC. -/
def execSpPdSend (r : Req) (s : State) : Out :=
  .next (s.runOp 0x1005 service (fun p =>
      if p.length < 4 ∨ 32 < p.length ∨ p.length % 4 ≠ 0 then some dtLength
      else if numAt p 0 1 = 0 ∧ bitsOf (numAt p 2 2) 14 12 ≠ (p.length - 4) / 4 then some dtLength
      else if !zeroAt p 1 1 then some dtReserved else none) (fun s =>
    s.needPort (s.needClaim r (
      let kind := numAt r.payload 0 1
      if kind ≠ 0 ∧ kind ≠ 3 then .no stValue dtRange
      else if !s.port.contract && !s.port.attached then .no stState 0x0103
      else if kind = 3 && !s.port.inSequence && s.port.sends.isEmpty then
        .ok done ((s.pdSend .hardReset).pdHardReset)
      else if s.port.sends.isEmpty then .wait ((s.modSp (fun p => { p with sends := [r] })).pdNextSend)
      else .wait (s.modSp (fun p => { p with sends := p.sends ++ [r] }))))) r)

end Sys2Proof.Machine
end

