-- ==== Sys2Proof/Machine/Stipple.lean ====
section
/-! DEFINITION. Stipple sweeps (11 R321 to R344): start, points, correlation, discards and aborts, the records, the
learned summaries, and the stipple opcodes. -/

namespace Sys2Proof.Machine

/-- Code of a sweep state (11 Table 11-8). -/
def SweepRun.code : SweepRun → Nat
  | .idle => 0 | .scheduled => 1 | .waiting => 2 | .settling => 3 | .measuring => 4 | .gap => 5

/-- STP_P_STATE (11 Table 11-8). -/
def StippleSweep.stateWord (x : StippleSweep) : Nat :=
  x.run.code + fieldAt 3 1 (flag x.plant) + fieldAt 8 8 x.point + fieldAt 16 4 x.repeats + fieldAt 24 8 x.planId

/-- STP_P_LAST. -/
def StippleSweep.lastWord (x : StippleSweep) : Nat :=
  x.lastNumber.toNat + fieldAt 16 8 x.lastPoints + fieldAt 24 8 x.lastCause.toNat

/-- STP_STATUS. -/
def State.stpStatus (s : State) : Nat :=
  ((List.finRange 4).map (fun p => fieldAt p.val 1 (flag ((s.stp p).run != .idle)))).sum

/-- STP_P_AT. -/
def StippleSweep.atShown (x : StippleSweep) : Nat := if x.run == .idle then 0 else x.at_.toNat

/-- The conditions of 11 R321. -/
def State.sweepFits (s : State) (p : Fin 4) : Bool :=
  let gs := s.groupsOfPort p
  let sw := gs.filter (fun g => (s.group g).mode.isSwitching)
  !sw.isEmpty && sw.all (fun g => (s.group g).mode == .power || (s.group g).mode == .stringCurrent) &&
    gs.all (fun g => !(s.group g).pair.paired) && (s.cont p).run == .closed

/-- The groups serving a port leave their light-load stages (11 R324). -/
def State.toCcm (p : Fin 4) (s : State) : State :=
  (s.groupsOfPort p).foldl (fun t g =>
    if (t.group g).light == .ccm then t
    else (t.modGroup g (fun x => { x with light := .ccm, deSince := none, shedSince := none, burstSince := none })).applyShed g) s

/-- STIPPLE_SWEEP_START (11 R328): at AT, when R321 holds; estimation goes to full rate (R324). -/
def execStippleSweepStart (p : Fin 4) (s : State) : Out :=
  let x := s.stp p
  if !s.engineOn || x.run != .scheduled || x.abort != 0 then .next s
  else
    let t := s.atDevice x.at_.toNat
    if !t.sweepFits p then .next (t.modSweep p (fun y => { y with abort := 2 }))
    else
      .next (((t.modSweep p (fun y => t.placeTimes p { y with
        run := .waiting, point := 0, repeats := 0, base := (y.at_.toNat : Rat), discards := 0, skips := 0, donePoints := 0
        records := [], unwritten := 0, sums := [], discard := false, deferSince := none })).toCcm p).fullRate)

/-- The next point of the plan, from the end that R328 gives this one. -/
def State.nextPoint (p : Fin 4) (s : State) : State :=
  s.modSweep p (fun x =>
    let y := { x with
      base := (x.tm : Rat) + ((x.cycles + 1 : Nat) : Rat) * x.period, point := x.point + 1, repeats := 0, perturbing := false
      discard := false, sums := [], run := .gap, deferSince := none }
    if y.finished then y else s.placeTimes p y)

/-- STIPPLE_POINT_START (11 R323, R329, R334): at T_0, placed, deferred (LOCAL) or skipped (PLANT). -/
def execStipplePointStart (p : Fin 4) (s : State) : Out :=
  let x := s.stp p
  if !s.engineOn || !(x.run == .waiting || x.run == .gap) || x.finished || x.abort != 0 || x.deferSince.isSome then .next s
  else
    let u := s.atDevice (ceilQ x.t0).toNat
    let t := u.modSweep p u.takePars
    if !t.gridOk x.freq x.cycles then .next (t.stippleAbort p 7)
    else
      match t.placeable p with
      | some a => .next (t.modSweep p (fun y => { y with run := .settling, amp := a, perturbing := true, discard := false, sums := [] }))
      | none =>
        if x.plant then
          .next (((t.modSweep p (fun y => { y with skips := y.skips + 1 })).nextPoint p).raise 175)
        else
          let now := t.clk
          .next (t.modSweep p (fun y => { y with run := .waiting, deferSince := some now }))

/-- STIPPLE_DEFER_TIMEOUT (11 R334): a LOCAL point deferred for STP_DEFER_S. -/
def execStippleDeferTimeout (p : Fin 4) (s : State) : Out :=
  let x := s.stp p
  match x.deferSince with
  | some d =>
    if !s.engineOn || x.abort != 0 then .next s
    else .next ((s.atLeast (d + x.par 6 * 1000000000)).stippleAbort p 6)
  | none => .next s

/-! ### Correlation (11 R331, R332) -/

/-- Phasor and residual of a quantity (11 R331): X_re, X_im, sig. -/
def correlate (k gs gc : Rat) (x : CellSum) : Rat × Rat × Rat :=
  let gd := k * (k * k - 1) / 12
  let b := divQ x.sd gd
  let re := divQ 2 k * (x.ss - b * gs)
  let im := divQ 2 k * (x.sc - b * gc)
  let v := divQ (x.sq - divQ (x.sx * x.sx) k - b * x.sd) k - (re * re + im * im) / 2
  (re, im, sqrtQ (max v 0))

/-- gs and gc of a point, and the sums of a list of samples. -/
def StippleSweep.pointSums (x : StippleSweep) (vs : List Rat) : Rat × Rat × CellSum :=
  let n := x.sampleCount
  (List.range n).foldl (fun a k =>
    let u := (x.freq : Rat) * ((x.tm : Rat) + (k * x.step : Nat) - x.t0) / 1000000000000
    let tau : Rat := (k : Nat) - ((n : Rat) - 1) / 2
    let sn := sinTurn u
    let cn := cosTurn u
    (a.1 + tau * sn, a.2.1 + tau * cn, a.2.2.add tau sn cn (vs.getD k 0))) (0, 0, { sx := 0, sd := 0, sq := 0, ss := 0, sc := 0 })

/-- A value as an s16 of 0.1 µΩ, and whether it lies outside (SAT). -/
def ohmField (z : Rat) : Nat × Bool :=
  let v := roundQ (z * 10000000)
  (fitS 16 v, decide (v < -32768) || decide (32767 < v))

/-- A cell's result (11 R332, Table 11-5): Z, flags, its 8 bytes. -/
def cellResult (least n : Nat) (gs gc ire iim : Rat) (missed bled : Bool) (c : CellSum) : Rat × Rat × Nat × List Byte :=
  if missed then (0, 0, 1, zeros 6 ++ [1#8, 0#8])
  else
    let k : Rat := n
    let (vre, vim, sig) := correlate k gs gc c
    let i2 := ire * ire + iim * iim
    let zre := divQ (-(vre * ire + vim * iim)) i2
    let zim := divQ (-(vim * ire - vre * iim)) i2
    let snr := fitU 16 (floorQ (divQ (sqrtQ (vre * vre + vim * vim)) (sig * sqrtQ (divQ 2 k))))
    let (a, sa) := ohmField zre
    let (b, sb) := ohmField zim
    let fl := 2 * flag bled + 4 * flag (decide (snr < least)) + 8 * flag (sa || sb)
    (zre, zim, fl, leBytes 2 a ++ leBytes 2 b ++ leBytes 2 snr ++ leBytes 1 fl ++ [0#8])

/-- Lines of 64 bytes that hold n cell entries. -/
def cellLines (n : Nat) : Nat := (n + 7) / 8

/-- The record of a module (11 R335, R337). `cur` holds gs, gc and the sums of the string current in A. -/
def State.pointRecord (s : State) (p : Fin 4) (cur : Rat × Rat × CellSum) (m : Fin 64) : SweepRecord :=
  let x := s.stp p
  let n := x.sampleCount
  let y := (x.sums.find? (fun e => e.module_ == m.val)).getD (ModuleSum.start m.val)
  let (gs, gc, ic) := cur
  let (ire, iim, _) := correlate n gs gc ic
  let nc := s.nCell m
  let missed := decide (y.count < n)
  let low := decide (sqrtQ (ire * ire + iim * iim) < (x.par 8 : Rat) * x.amp / 100)
  let tMax := y.temps.foldl max (leastQ y.temps)
  let hot := decide ((x.par 9 : Rat) < tMax - leastQ y.temps)
  let fl := flag x.plant + 2 * flag (decide (0 < x.repeats)) + 4 * flag low + 8 * flag hot + 16 * flag y.rerouted
  let res := (List.range nc).map (fun c =>
    cellResult (x.par 7) n gs gc ire iim missed (y.bled.getLsbD c) (y.cells.getD c { sx := 0, sd := 0, sq := 0, ss := 0, sc := 0 }))
  let body := (res.map (fun e => e.2.2.2)).flatten
  let lines := cellLines nc
  let head := [0x53#8, 1#8] ++ leBytes 1 p.val ++ leBytes 1 m.val ++ leBytes 2 x.number.toNat ++ leBytes 1 x.point ++ leBytes 1 fl ++
    leBytes 4 x.freq ++ leBytes 8 x.tm ++ leBytes 4 n ++ leBytes 4 (fitS 32 (roundQ (x.amp * 100))) ++
    leBytes 4 (fitS 32 (roundQ (ire * 1000))) ++ leBytes 4 (fitS 32 (roundQ (iim * 1000))) ++
    leBytes 4 (fitS 32 (roundQ (divQ ic.sx n * 100))) ++ leBytes 2 (fitS 16 (roundQ ((meanQ y.temps).getD 0))) ++ leBytes 1 nc ++
    leBytes 1 lines ++ leBytes 4 (floorQ (x.sigma * 4294967296)).toNat ++ zeros 16
  { point := x.point, module_ := m.val, freq := x.freq, flags := fl, cells := res.map (fun e => (e.1, e.2.1, e.2.2.1))
    bytes := head ++ body ++ zeros (64 * lines - body.length) }

/-- i_k of R330, A: the windows, newest bit first, of the two fast-filter outputs of the port's coulomb channel whose centres bracket
t_k, and how far t_k lies behind the older centre, in halves of 1 ns; a new output comes every N clocks (08 R238, R244). -/
def State.ampsAt (s : State) (p : Fin 4) (e : List Capture × List Capture × Nat) : Rat :=
  let c := (s.ccOf p).val
  let a := s.ccAmps c e.1
  let b := s.ccAmps c e.2.1
  a + (b - a) * min 1 (divQ (e.2.2 : Nat) ((2 * bitsOf (s.held (0x0B6C + c)) 11 4 * bitsOf (s.param 0x0B77) 15 8 : Nat) : Rat))

/-- STIPPLE_POINT_END (11 R331 to R335): the perturbation has stopped. `amps` are what the coulomb channel gives for each i_k of
R330. While the Hawk does not run, the results stay in the engines (R336). -/
def execStipplePointEnd (p : Fin 4) (amps : List (List Capture × List Capture × Nat)) (s : State) : Out :=
  let x := s.stp p
  if !s.engineOn || !x.perturbing || x.abort != 0 || x.finished then .next s
  else
    let t := s.atDevice (match x.stopAt with | some e => (ceilQ e).toNat | none => s.now)
    if x.discard then
      let t := t.modSweep p (fun y => { y with discards := y.discards + 1 })
      if !x.plant && decide (x.repeats < x.par 5) then
        .next ((t.modSweep p (fun y => t.placeTimes p { y with
          repeats := y.repeats + 1, base := y.stopAt.getD y.base, perturbing := false, discard := false, sums := []
          run := .gap })).raise 175)
      else
        .next (((t.modSweep p (fun y => { y with skips := if y.plant then y.skips + 1 else y.skips })).nextPoint p).raise 175)
    else
      let cur := x.pointSums (amps.map (t.ampsAt p))
      let rs := (t.readModules p).map (t.pointRecord p cur)
      let t := t.modSweep p (fun y => { y with
        records := y.records ++ rs, unwritten := y.unwritten + rs.length, donePoints := y.donePoints ||| (1#32 <<< y.point) })
      .next ((t.nextPoint p).writePoints p)

/-! ### The end of a sweep (11 R338 to R340) -/

/-- A cell's usable points: frequency and Z, where its flags and its module's are clear (11 R339). -/
def StippleSweep.usable (m c : Nat) (x : StippleSweep) : List (Nat × Rat × Rat) :=
  x.records.filterMap (fun e =>
    if e.module_ == m && !bitAt e.flags 2 && !bitAt e.flags 3 then
      match e.cells[c]? with
      | some z => if z.2.2 = 0 then some (e.freq, z.1, z.2.1) else none
      | none => none
    else none)

/-- The fit of a cell (11 R339): f_L, R_HF, r_pol and tau, and whether it is accepted. -/
def fitCell (least : Nat) (ps : List (Nat × Rat × Rat)) : Option (Nat × Rat × Rat × Rat × Bool) :=
  match ps with
  | [] => none
  | q :: qs =>
    if ps.length < least then none
    else
      let h := qs.foldl (fun a e => if a.1 < e.1 then e else a) q
      let l := qs.foldl (fun a e => if e.1 < a.1 then e else a) q
      let d := l.2.1 - h.2.1
      if d ≤ 0 ∨ 0 ≤ l.2.2 then none
      else
        let x := -l.2.2 / d
        let tau := x * 1000 / (twoPi * (l.1 : Nat))
        some (l.1, h.2.1, d * (1 + x * x), tau, decide (1 / 10 ≤ tau) && decide (tau ≤ 600))

/-- The summary of a module (11 Table 11-6). -/
def summaryBytes (m number now : Nat) (fits : List (Option (Nat × Rat × Rat × Rat × Bool))) : List Byte :=
  let fl := (fits.filterMap (fun e => e.map (·.1)))
  let fmin := match fl with
    | [] => 0
    | f :: fs => fs.foldl min f
  leBytes 1 m ++ leBytes 1 fits.length ++ leBytes 2 number ++ leBytes 8 now ++ leBytes 4 fmin ++
    (fits.map (fun e =>
      match e with
      | none => zeros 8
      | some (_, r, rp, tau, ok) =>
        leBytes 2 (field16 (r * 1000000)) ++ leBytes 2 (field16 (rp * 1000000)) ++ leBytes 2 (field16 (tau * 10)) ++
          leBytes 1 (1 + 2 * flag ok) ++ [0#8])).flatten

/-- A module's fits take effect at its next update, and its summary is written; answers the cells learned. -/
def State.learnModule (p : Fin 4) (m : Fin 64) (s : State) : State × Nat :=
  let x := s.stp p
  let fits := (List.range (s.nCell m)).map (fun c => fitCell (x.par 11) (x.usable m.val c))
  let w : Rat := (x.par 10 : Rat) / 100
  let t := s.modMest m (fun e => { e with
    cells := Vector.ofFn (fun c =>
      let y := e.cells[c.val]
      match (fits[c.val]?).join with
      | some (_, _, rp, tau, true) => { y with fit := some (y.rPol + w * (rp - y.rPol), y.tau + w * (tau - y.tau)) }
      | _ => y) })
  (t.store 0x32 m.val (summaryBytes m.val x.number.toNat s.now fits),
    (fits.filter (fun e => match e with | some (_, _, _, _, ok) => ok | none => false)).length)

/-- The record of a sweep's end (11 R338). -/
def StippleSweep.endBody (p : Fin 4) (now learned : Nat) (x : StippleSweep) : List Byte :=
  leBytes 1 p.val ++ leBytes 1 x.abort.toNat ++ leBytes 2 x.number.toNat ++ leBytes 1 x.planId ++ leBytes 1 (flag x.plant) ++
    leBytes 8 x.at_.toNat ++ leBytes 8 now ++ leBytes 1 (numAt x.plan 0 1) ++ leBytes 1 (maskList 32 x.donePoints.toNat).length ++
    leBytes 1 x.discards ++ leBytes 1 x.skips ++ leBytes 2 learned ++ zeros 2 ++ leBytes 4 x.donePoints.toNat

/-- STIPPLE_SWEEP_END (11 R338): every point is over, or an abort cause has ended the sweep and its perturbation. -/
def execStippleSweepEnd (p : Fin 4) (s : State) : Out :=
  let x := s.stp p
  if !s.firmwareOn || x.run == .idle || (x.abort == 0 && (x.run == .scheduled || !x.finished)) then .next s
  else
    let t := if x.perturbing then s.atDevice (match x.stopAt with | some e => (ceilQ e).toNat | none => 0) else s
    let t := t.writePoints p
    let learn := x.abort == 0 && bitAt (s.param 0x1400) 1
    let (t, n) := if learn then
        (t.readModules p).foldl (fun a m => let (u, k) := a.1.learnModule p m; (u, a.2 + k)) (t, 0)
      else (t, 0)
    let t := t.event .burpol .everyEvent 0x54 (x.endBody p t.now n)
    let t := t.modSweep p (fun y => { y with
      run := .idle, perturbing := false, discard := false, deferSince := none, sums := [], abort := 0
      lastNumber := y.number, lastPoints := (maskList 32 y.donePoints.toNat).length, lastCause := y.abort })
    let bad := x.abort != 0
    let t := t.modStp (fun y => { y with cntSweeps := y.cntSweeps + 1#32, cntAborts := if bad then satInc y.cntAborts else y.cntAborts })
    .next (t.raiseIf bad 175)

/-! ### The opcodes (11 R342, R343) -/

/-- Every point of a plan keeps the grid rule. -/
def State.planGrid (s : State) (b : List Byte) : Bool :=
  (List.range (numAt b 0 1)).all (fun j => s.gridOk (numAt b (4 + 12 * j) 4) (numAt b (8 + 12 * j) 2))

/-- STIPPLE_START. -/
def execStippleStart (r : Req) (s : State) : Out :=
  .next (s.runOp 0x0B01 control (fun q => (lenZ 12 [(3, 1)] q).or (if numAt q 2 1 < 2 then none else some dtReserved)) (fun s =>
    s.needLease r (
      match named 4 (numAt r.payload 0 1) with
      | none => .no stValue dtRange
      | some p =>
        let x := s.stp p
        let id := if numAt r.payload 1 1 = 0xFF then s.param (0x1410 + 4 * p.val) else numAt r.payload 1 1
        let plant := bitAt (numAt r.payload 2 1) 0
        let at_ := numAt r.payload 4 8
        if !bitAt (s.param 0x1400) 0 then .no stState 0x0108
        else if x.run != .idle then .no stBusy 0x0101
        else
          match s.namedBody 9 id with
          | none => .no stState 0x0102
          | some b =>
            if !s.planGrid b then .no stState 0x0103
            else if (s.groupsOfPort p).any (fun g => (s.group g).pair.paired) then .no stState 0x0104
            else if plant && (at_ % 1000000000 ≠ 0 || decide (at_ < s.now + 1000000000)) then .no stValue 0x0106
            else
              let n := x.number + 1#16
              let now := s.now
              .ok (done (leBytes 2 n.toNat)) (s.modSweep p (fun y => { y with
                run := .scheduled, plant := plant, planId := id, plan := b, number := n, abort := 0, point := 0, repeats := 0
                at_ := BitVec.ofNat 64 (max at_ now) })))) r)

/-- STIPPLE_ABORT. -/
def execStippleAbort (r : Req) (s : State) : Out :=
  .next (s.runOp 0x0B02 control (len 1) (fun s =>
    s.needLease r (
      match named 4 (numAt r.payload 0 1) with
      | none => .no stValue dtRange
      | some p => if (s.stp p).run == .idle then .no stState 0x0107 else .ok done (s.stippleAbort p 1))) r)

/-- STIPPLE_STATUS. -/
def execStippleStatus (r : Req) (s : State) : Out :=
  .next (s.runOp 0x0B03 observe (len 1) (fun s =>
    let m := numAt r.payload 0 1
    if 16 ≤ m then .no stValue dtRange
    else
      .ok (done (((List.finRange 4).filter (fun p => bitAt m p.val)).map (fun p =>
        leBytes 1 p.val ++ zeros 3 ++ leBytes 4 (s.stp p).stateWord ++ leBytes 8 (s.stp p).atShown)).flatten) s) r)

/-- STIPPLE_RESULT: zeros with UNWRITTEN for a point without a record. -/
def execStippleResult (r : Req) (s : State) : Out :=
  .next (s.runOp 0x0B04 observe (len 3) (fun s =>
    match named 4 (numAt r.payload 0 1), named 64 (numAt r.payload 1 1) with
    | some p, some m =>
      match (s.stp p).records.find? (fun e => e.module_ == m.val && e.point == numAt r.payload 2 1) with
      | some e => .ok (done e.bytes) s
      | none => .fail stUnwritten 0 (zeros (64 + 64 * cellLines (s.nCell m)))
    | _, _ => .no stValue dtRange) r)

end Sys2Proof.Machine
end

