-- ==== Sys2Proof/Machine/Thermal.lean ====
section
/-! DEFINITION. Temperature, voltage and process monitors (14). -/

namespace Sys2Proof.Machine

/-- Tj, 0.1 °C (14 R390). -/
def Thermal.tj (x : Thermal) : Int := max x.tjA x.tjD

/-- T_r = TH_WARN − TH_HYST. -/
def State.tRelease (s : State) : Int := s.heldI 0x1701 - s.held 0x1702

/-- TH_GRACE_LEFT, s (14 R391, R392). -/
def State.graceLeft (s : State) : Nat :=
  match s.clock.th.graceSince with
  | some t => s.param 0x1703 - (s.clk - t) / 1000000000
  | none => 0

/-- A change of the thermal state: IS192 and the THERMAL_STATE record (14 R391). -/
def State.thTo (run : ThRun) (s : State) : State :=
  if s.clock.th.run == run then s
  else
    let now := s.clk
    let s := s.modTh (fun x => { x with
      run := run, belowSince := none
      graceSince := if run == .request then some now else none })
    let code := match run with | .normal => 0 | .request => 1 | .enforced => 2 | .tripped => 3
    (s.raise 192).event .plumb .everyEvent 0x68
      (leBytes 1 code ++ zeros 1 ++ leBytes 2 (codeOf 16 s.clock.th.tj) ++ leBytes 2 s.graceLeft)

/-- How long an instant lies back, ns; 0 for none. -/
def State.since (s : State) (t : Option Nanos) : Nat :=
  match t with
  | some x => s.clk - x
  | none => 0

/-- The rows of 14 Table 14-1 that an evaluation can meet, in their order. -/
def State.thermalRows (s : State) : State :=
  let x := s.clock.th
  let tj := x.tj
  let r := s.tRelease
  match x.run with
  | .tripped => s
  | .normal => if s.heldI 0x1701 ≤ tj then s.thTo .request else s
  | .request =>
    if s.heldI 0x1704 ≤ tj || (s.graceLeft == 0 && decide (r ≤ tj)) then s.thTo .enforced
    else if x.belowSince.isSome && decide (10000000000 ≤ s.since x.belowSince) then s.thTo .normal
    else s
  | .enforced =>
    if x.belowSince.isSome && decide (s.held 0x1706 * 1000000000 ≤ s.since x.belowSince) then s.thTo .normal else s

/-- Starts, keeps or ends the run of a condition. -/
def runSince (now : Nanos) (b : Bool) (t : Option Nanos) : Option Nanos :=
  if b then (match t with | some x => some x | none => some now) else none

/-- The parameters of the monitors take effect at an evaluation (14 R401). -/
def State.pickThermal (s : State) : State := ((List.range 11).map (0x1700 + ·)).foldl (fun t id => t.pickParam id) s

/-- Mean of readings; `old` of none. -/
def meanI (old : Int) (xs : List Int) : Int := if xs.isEmpty then old else roundQ ((xs.sum : Rat) / (xs.length : Nat))

/-- THERMAL_EVALUATION (14 R390, R391), every 100 ms: `samples` are the readings of TJ_D since the last one, 0.1 °C. -/
def execThermalEvaluation (samples : List Reading) (s : State) : Out :=
  if !s.islandUp then .next s
  else
    let u := (s.atLeast (s.clock.th.evalAt + 100000000)).pickThermal
    let now := u.clk
    let r := u.tRelease
    let trip := u.heldI 0x1705
    let t := u.modTh (fun x =>
      let a : Int := if x.brokenA then 1500 else meanI x.tjA x.winA
      let d : Int := if x.brokenD then 1500 else meanI x.tjD samples
      let tj := max a d
      let hot := decide (1100 ≤ tj)
      { x with
        tjA := a, tjD := d, tjMax := max x.tjMax tj, evalAt := now
        belowSince := runSince now (decide (tj < r)) x.belowSince
        belowTrip := runSince now (decide (tj < trip - 150)) x.belowTrip
        hotTime := if hot then x.hotTime else x.hotTime + u.since x.hotSince
        hotSince := runSince now hot x.hotSince })
    .next t.thermalRows

/-- THERMAL_GRACE_EXPIRY (14 R391). -/
def execThermalGraceExpiry (s : State) : Out :=
  let x := s.clock.th
  match x.run, x.graceSince with
  | .request, some t =>
    if s.tRelease ≤ x.tj then .next ((s.atLeast (t + s.param 0x1703 * 1000000000)).thTo .enforced) else .next s
  | _, _ => .next s

/-- THERMAL_RELEASE (14 R391): below T_r for 10 s in REQUEST, for TH_RELEASE_S in ENFORCED. -/
def execThermalRelease (s : State) : Out :=
  let x := s.clock.th
  match x.belowSince with
  | none => .next s
  | some t =>
    match x.run with
    | .request => .next ((s.atLeast (t + 10000000000)).thTo .normal)
    | .enforced => .next ((s.atLeast (t + s.held 0x1706 * 1000000000)).thTo .normal)
    | _ => .next s

/-- HARDWARE_THERMAL_TRIP (14 R395): two samples of a sensor in a row, 0.1 °C, lie at or above TH_TRIP; a broken diode reads
150.0 °C. -/
def execHardwareThermalTrip (dDie : Bool) (first second : Reading) (s : State) : Out :=
  let x := s.clock.th
  let v : Int := if (if dDie then x.brokenD else x.brokenA) then 1500 else min first second
  if v < s.heldI 0x1705 || x.run == .tripped then .next s
  else
    let t := (s.modTh (fun x => { x with cntTrips := satInc x.cntTrips, belowTrip := none })).raise 193
    let t := (t.thTo .tripped).modSafety (fun y => { y with clamp := true })
    .next ((t.safeState 8 0).settle s)

/-- THERMAL_TRIP_RELEASE (14 R391, R395): Tj below TH_TRIP − 15.0 °C for 10 s. -/
def execThermalTripRelease (s : State) : Out :=
  let x := s.clock.th
  match x.run, x.belowTrip with
  | .tripped, some t =>
    let u := (s.atLeast (t + 10000000000)).modSafety (fun y => { y with causes := y.causes &&& ~~~(1#12 <<< 8) })
    .next (u.thTo (if s.tRelease ≤ x.tj then .enforced else .normal))
  | _, _ => .next s

/-- SENSOR of TH_STATUS. -/
def Thermal.sensor (x : Thermal) : Bool := x.brokenA || x.brokenD

/-- DIODE_BROKEN (14 R390): the forward voltage of a diode, mV, is out of 0.20 V to 0.90 V or within it; IS194 on a change of
SENSOR. -/
def execDiodeBroken (dDie : Bool) (mv : U16) (s : State) : Out :=
  let broken := decide (mv.toNat < 200) || decide (900 < mv.toNat)
  let t := s.modTh (fun x =>
    let x : Thermal := if dDie then { x with brokenD := broken } else { x with brokenA := broken }
    if broken then (if dDie then { x with tjD := 1500 } else { x with tjA := 1500 }) else x)
  .next (t.raiseIf (t.clock.th.sensor != s.clock.th.sensor) 194)

/-- PVT_MEASUREMENT (14 R398, R399), once per second: corrected speeds in 0.01% and raw counts of PM00 to PM15. -/
def execPvtMeasurement (readings : List Reading) (counts : List Nat) (s : State) : Out :=
  if readings.length ≠ 16 then .next s
  else
    let s := s.atLeast (s.clock.th.pvtAt + 1000000000)
    let now := s.clk
    let cfg := s.held 0x1700
    let worst := readings.foldl min (readings.headD 0)
    let mean := roundQ ((readings.sum : Rat) / 16)
    let age := decide (mean < -((bitsOf cfg 15 8 * 100 : Nat) : Int))
    let t := s.modTh (fun x => { x with
      pvt := Vector.ofFn (fun i => readings.getD i.val 0), pvtRaw := Vector.ofFn (fun i => counts.getD i.val 0)
      pvtWorst := worst, pvtMean := mean, pvtAt := now, ageing := x.ageing || age })
    let t := t.raiseIf (age && !s.clock.th.ageing) 196
    if bitAt cfg 0 && decide (worst < -((bitsOf cfg 23 16 * 100 : Nat) : Int)) && s.sys.hawk == .running then
      .next (((t.moveSet 4 (t.modTh (fun x => { x with avsOfs := clampI (-32768) 32767 (x.avsOfs + 5) }))).raise 197).openEvent .burpol .o0Event)
    else .next t

/-- DROOP_EVENT (14 R400): the core supply at a detector has been at `mv` for `ns`; below TH_DROOP for more than 2 ns it counts, and
raises IS198 at the first event in each second. -/
def execDroopEvent (mv ns : Nat) (s : State) : Out :=
  if s.held 0x170A ≤ mv || ns ≤ 2 then .next s else
  let sec := s.now / 1000000000
  let t := s.modTh (fun x => { x with cntDroop := satInc x.cntDroop, droopSecond := some sec })
  .next (t.raiseIf (s.clock.th.droopSecond != some sec) 198)

/-- HOT_HOUR_COUNT (14 R401): a further whole hour with Tj at or above 110.0 °C. -/
def execHotHourCount (s : State) : Out :=
  let x := s.clock.th
  match x.hotSince with
  | none => .next s
  | some t =>
    let u := s.atLeast (t + (3600000000000 - x.hotTime))
    let now := u.clk
    .next (u.modTh (fun y => { y with hoursHot := satInc y.hoursHot, hotTime := 0, hotSince := some now }))

/-- The THERMAL row gave the group a range at its last sample (14 R393, Table 14-7). -/
def State.thermalBounds (s : State) (g : Fin 8) : Bool :=
  (s.group g).rows.any (fun r => r.code == 3 && (r.lo.isSome || r.hi.isSome))

/-- TH_STATUS (14 Table 14-5). -/
def State.thStatus (s : State) : Nat :=
  let x := s.clock.th
  (match x.run with | .normal => 0 | .request => 1 | .enforced => 2 | .tripped => 3) + fieldAt 3 1 (flag x.sensor) +
    fieldAt 4 1 (flag x.nvmHold) + fieldAt 5 1 (flag x.ageing) + fieldAt 6 1 (flag (s.trim 4 == 30)) +
    maskOf 8 (fun g => s.thermalBounds (Fin.ofNat 8 g)) <<< 16

/-- TH_TJ. -/
def State.thTj (s : State) : Nat := codeOf 16 s.clock.th.tjD + codeOf 16 s.clock.th.tjA <<< 16

/-- TH_PVT_SPEED. -/
def State.thSpeed (s : State) : Nat := codeOf 16 s.clock.th.pvtWorst + codeOf 16 s.clock.th.pvtMean <<< 16

/-- TH_STATUS_READ: TH_STATUS, TH_TJ, TH_GRACE_LEFT (u16) and TH_PVT_SPEED. -/
def execThStatusRead (r : Req) (s : State) : Out :=
  .next (s.runOp 0x0140 observe (len 0) (fun s =>
    .ok (done (leBytes 4 s.thStatus ++ leBytes 4 s.thTj ++ leBytes 2 s.graceLeft ++ leBytes 4 s.thSpeed)) s) r)

/-- TH_PVT_READ. -/
def execThPvtRead (r : Req) (s : State) : Out :=
  .next (s.runOp 0x0141 service (len 0) (fun s =>
    let x := s.clock.th
    .ok (done ((List.finRange 16).map (fun i =>
      leBytes 1 i.val ++ [0#8] ++ leBytes 2 (fitS 16 x.pvt[i.val]) ++ leBytes 4 x.pvtRaw[i.val])).flatten) s) r)

end Sys2Proof.Machine
end

