-- ==== Sys2Proof/Machine/ReadOnly.lean ====
section
/-! DEFINITION. The value that PARAM_GET returns for every ID (02 R48, R52): read-only parameters from the state they
report, and the read-only fields of writable ones. -/

namespace Sys2Proof.Machine

/-- DEV_LEASE_LEFT_MS: whole milliseconds left; all ones with no timeout or no holder (20 Table 20-1). -/
def State.leaseLeft (s : State) : Nat :=
  let t := s.param 0x0018
  if t = 0 || s.host.lease.holder.isNone then 0xFFFFFFFF
  else (s.host.lease.since + t * 1000000 - s.clk) / 1000000

/-- Running Burpol VERSION; 0 while none runs. -/
def State.fwVersion (s : State) : Nat :=
  match s.nv.fw.images[2 * s.nv.fw.run.val]? with
  | some (some i) => i.version.toNat
  | _ => 0

/-- VERSION of an image; 0 for none. -/
def State.imageVersion (s : State) (k : Fin 4) : Nat :=
  match s.nv.fw.images[k.val] with
  | some i => i.version.toNat
  | none => 0

/-- Device parameters 0x0000 + k (20 Table 20-1); labels and free words as stored. -/
def State.deviceValue (s : State) (k : Nat) : Nat :=
  let y := s.power.safety
  match k with
  | 3 => s.fwVersion
  | 4 => s.nv.fw.engineSet.toNat
  | 6 => s.now / 1000000000 % 2 ^ 32
  | 7 => s.chg.low.record.cause
  | 0x10 => y.cause.toNat
  | 0x11 => y.time.toNat
  | 0x12 => y.count.toNat
  | 0x13 => s.host.record.length
  | 0x14 => s.rtc
  | 0x15 => flag s.host.params.dirty
  | 0x16 => s.host.params.cntSave.toNat
  | 0x17 => s.host.params.cntSet.toNat
  | 0x1A => (match s.host.lease.holder with | some o => o.val | none => 0xFF)
  | 0x1B => s.leaseLeft
  | 0x1C => s.host.lease.count.toNat
  | _ => s.param k

/-- ADC_CAL_STATUS (08 Table 8-3). -/
def State.calStatus (s : State) : Nat :=
  let c (k : Fin 2) : Nat := match (s.meas.convs[k.val]).cal with | .never => 0 | .running => 1 | .good => 2 | .failed => 3
  c 0 + fieldAt 2 2 (c 1) + fieldAt 16 16 (fitS 16 s.meas.calTemp)

/-- ADC_STATUS (08 Table 8-3). -/
def State.adcStatus (s : State) : Nat :=
  flag s.meas.vsdClkLost + fieldAt 1 1 (flag s.meas.ccClkLost) + fieldAt 2 1 (flag s.seqPending) +
    maskOf 16 s.vsdInvalid <<< 16

/-- Measurement parameters 0x0B00 + k. -/
def State.measureValue (s : State) (k : Nat) : Nat :=
  if k = 0x75 then s.calStatus
  else if k = 0x76 then s.adcStatus
  else if 0x78 ≤ k && k < 0x7C then s.ccStatus (Fin.ofNat 4 k)
  else s.param (0x0B00 + k)

/-- Chain parameters 0x0D00 + k (09 Table 9-9). -/
def State.chainValue (s : State) (k : Nat) : Nat :=
  let c := s.stack.chain
  match k with
  | 7 => s.lathStatus
  | 8 => c.ringDelay.toNat
  | 9 => c.sweepId.toNat
  | 0x0A => c.sweepTime.toNat
  | 0x0B => c.lastWord
  | 0x0E => c.cntSweeps.toNat
  | 0x0F => c.cntRerouted.toNat
  | _ =>
    if 0x10 ≤ k then (c.ports[(k - 0x10) / 8 % 2]'(Nat.mod_lt _ (by decide))).counters[k % 8]'(Nat.mod_lt _ (by decide)) |>.toNat
    else s.param (0x0D00 + k)

/-- Estimation parameters 0x1200 + k (10 Table 10-7). -/
def State.estValue (s : State) (k : Nat) : Nat :=
  match k with
  | 0x13 => s.estWord
  | 0x14 => perPort s.socShown
  | 0x15 => perPort s.sohShown
  | 0x16 => perPort (fun p => field16 ((s.sest p).avail * 10))
  | 0x17 => s.stack.est.learnCnt.toNat
  | _ => s.param (0x1200 + k)

/-- Stipple parameters 0x1400 + k, and those of a port (11 Table 11-7). -/
def State.stippleValue (s : State) (k : Nat) : Nat :=
  let y := s.stack.stp
  match k with
  | 0x0C => y.cntSweeps.toNat
  | 0x0D => y.cntAborts.toNat
  | 0x0E => y.cntPoints.toNat
  | 0x0F => s.stpStatus
  | _ =>
    if k < 0x10 then s.param (0x1400 + k)
    else
      let x := s.stp (Fin.ofNat 4 ((k - 0x10) / 4))
      match k % 4 with
      | 1 => x.stateWord
      | 2 => x.lastWord
      | 3 => x.atShown
      | _ => s.param (0x1400 + k)

/-- Rail and slot parameters (12 Tables 12-9, 12-11). -/
def State.railValue (s : State) (id : Nat) : Nat :=
  if id < 0x1580 then
    let x := s.power.rails[(id - 0x1500) / 8 % 10]'(Nat.mod_lt _ (by decide))
    match id % 8 with
    | 4 => x.status false
    | 5 => x.mv.toNat + x.amp.toNat <<< 16
    | _ => s.param id
  else if id % 4 = 3 then (s.power.slots[(id - 0x1580) / 4 % 16]'(Nat.mod_lt _ (by decide))).status true
  else s.param id

/-- Timebase parameters 0x1600 + k (13 Table 13-3). -/
def State.timeValue (s : State) (k : Nat) : Nat :=
  let b := s.clock.tb
  match k with
  | 0x0C => s.tbStatus
  | 0x0D => codeOf 32 b.offset
  | 0x0E => fitS 32 (roundQ s.freqNow)
  | 0x0F => s.now % 2 ^ 64
  | 0x10 => b.stepLast.toNat
  | 0x11 => b.stepSize.toNat
  | 0x12 => b.ppsLast.toNat
  | 0x13 => b.cntSteps.toNat
  | 0x14 => b.cntLoss.toNat
  | 0x15 => b.ofsPeak.toNat
  | 0x16 => if b.run == .holdover then (s.clk - b.holdSince) / 1000000000 % 2 ^ 32 else 0
  | 0x17 => b.refCnt.toNat
  | _ => s.param (0x1600 + k)

/-- Thermal parameters 0x1700 + k (14 Table 14-3). -/
def State.thermalValue (s : State) (k : Nat) : Nat :=
  let x := s.clock.th
  match k with
  | 0x0B => s.thStatus
  | 0x0C => s.thTj
  | 0x0D => fitS 16 x.tjMax
  | 0x0E => s.thSpeed
  | 0x0F => fitS 16 x.avsOfs
  | 0x10 => x.cntDroop.toNat
  | 0x11 => x.cntTrips.toNat
  | 0x12 => x.hoursHot.toNat
  | 0x13 => s.graceLeft
  | _ => s.param (0x1700 + k)

/-- Watchdog parameters 0x1780 + k (15 Table 15-3); WD_CFG.EN reads 1 with the fuse blown (R403). -/
def State.watchdogValue (s : State) (k : Nat) : Nat :=
  match k with
  | 0 => if s.wdFused then setBitAt (s.param 0x1780) 0 true else s.param 0x1780
  | 9 => s.wdStatus
  | 0x0A => s.sys.wd.cntResets.toNat
  | 0x0B => s.wdLast
  | _ => s.param (0x1780 + k)

/-- Ethernet parameter k of port q (17 Table 17-1); under PRP port 1 reads port 0's addresses (R460). -/
def State.etherValue (s : State) (q : Fin 2) (k : Nat) : Nat :=
  let x := s.eth q
  let prp := q == 1 && bitAt (s.param 0x1A00) 4
  match k with
  | 0 => if prp then setBitAt (s.param 0x1A10) 4 true else s.param (etId q 0)
  | 0x0A => x.status
  | 0x0B => x.delayWord
  | 0x0C => x.cntRx.toNat
  | 0x0D => x.cntTx.toNat
  | 0x0E => x.cntErr.toNat
  | 0x0F => x.cntDrop.toNat
  | _ => if prp && k ≤ 5 then s.param (0x1A00 + k) else s.param (etId q k)

/-- Two-wire parameters 0x1A20 + k (17 Table 17-11). -/
def State.twoWireValue (s : State) (k : Nat) : Nat :=
  let w := s.link.tw
  match k with
  | 3 => w.status
  | 4 => w.cntTx.toNat
  | 5 => w.cntErr.toNat
  | 6 => w.cntArb.toNat
  | 7 => w.cntCycles.toNat
  | _ => s.param (0x1A20 + k)

/-- Service-port parameters 0x1B00 + k (18 Table 18-3); SP_CFG.EN reads 0 with the fuse blown. -/
def State.serviceValue (s : State) (k : Nat) : Nat :=
  let p := s.port
  match k with
  | 0 => if s.portFused then setBitAt (s.param 0x1B00) 0 false else s.param 0x1B00
  | 0x0A => p.status
  | 0x0B => p.contractWord
  | 0x0C => p.vbus.toNat
  | 0x0D => p.ownerByte
  | 0x0E => p.transMs.toNat
  | 0x0F => p.cntAttach.toNat
  | 0x10 => p.cntRx.toNat
  | 0x11 => p.cntCrcErr.toNat
  | 0x12 => p.cntRetry.toNat
  | 0x13 => p.cntHardReset.toNat
  | 0x14 => p.cntUartFe.toNat
  | 0x15 => p.cntFrameErr.toNat
  | 0x16 => p.cntMoist.toNat
  | 0x17 => p.cntCorroded.toNat
  | _ => s.param (0x1B00 + k)

/-- NVM and security parameters 0x1C00 + k (19 Table 19-7). -/
def State.nvmValue (s : State) (k : Nat) : Nat :=
  let n := s.nv.nvm
  let f := s.nv.fw
  let c := s.nv.sec
  match k with
  | 0x01 => s.nvmStatus
  | 0x02 => n.spares
  | 0x03 => n.retired.length
  | 0x04 => n.migrated.toNat
  | 0x05 => n.cntCorr.toNat
  | 0x06 => n.cntUncorr.toNat
  | 0x07 => n.cntTorn.toNat
  | 0x08 => n.cntEvtLost.toNat
  | 0x09 => n.kbWritten.toNat
  | 0x0A => s.journalFree
  | 0x0B => s.logSectors
  | 0x0C => n.fill
  | 0x0E => s.fwStatus
  | 0x0F => s.imageVersion 0
  | 0x10 => s.imageVersion 2
  | 0x11 => s.fwLevels
  | 0x12 => s.fwPend
  | 0x14 => s.custStatus
  | 0x15 => s.imageVersion 1
  | 0x16 => s.imageVersion 3
  | 0x17 => f.custLevel.toNat
  | 0x18 => s.secFuses
  | 0x1A => (match c.custKey with | some h => numAt h 0 8 | none => 0)
  | 0x1B => c.sealFail.toNat
  | 0x1C => c.authFail.toNat
  | 0x1D => c.storeGen.toNat
  | _ => s.param (0x1C00 + k)

/-- The value of any ID of 20 Tables 20-1 and 20-3. -/
def State.value (s : State) (id : Nat) : Nat :=
  if id < 0x0100 then s.deviceValue id
  else if id < 0x0400 then
    if isOwnerParam id && (id - 0x100) % 6 = 5 && s.resetting (Fin.ofNat 16 ((id - 0x100) / 6)) then 3 else s.param id
  else if id < 0x0800 then
    let p := Fin.ofNat 64 ((id - 0x400) / 16)
    match id % 16 with
    | 0x0A => setBitsOf (s.param id) 7 0 (bitsOf (s.param (phId (Fin.ofNat 64 (p.val / 8 * 8)) 0xA)) 7 0)
    | 0x0D => (s.phase p).statusWord
    | _ => s.param id
  else if id < 0x0900 then
    let g := Fin.ofNat 8 ((id - 0x800) / 32)
    match id % 32 with
    | 0x15 => s.pairWord g
    | 0x17 => (s.group g).statusWord
    | _ => s.param id
  else if id < 0x0A00 then
    let x := s.strPort (Fin.ofNat 4 ((id - 0x900) / 16))
    match id % 16 with
    | 0x0D => x.stateWord
    | 0x0E => x.faultWord
    | 0x0F => x.statusWord
    | _ => s.param id
  else if id < 0x0A18 then
    let f := Fin.ofNat 2 ((id - 0xA00) / 12)
    match (id - 0xA00) % 12 with
    | 0 => if f = 1 then setBitsOf (s.param id) 15 12 s.vlinkIn else s.param id
    | 0x0A => (s.feed f).stateWord
    | 0x0B => s.feedStatusWord f
    | _ => s.param id
  else if id < 0x0B00 then
    if id % 4 = 3 then (s.cont (Fin.ofNat 4 ((id - 0xA18) / 4))).word else s.param id
  else if id < 0x0C00 then s.measureValue (id - 0x0B00)
  else if id < 0x0D00 then
    let x := s.module_ (Fin.ofNat 64 ((id - 0xC00) / 4))
    match id % 4 with
    | 2 => x.delayWord
    | 3 => x.statusWord
    | _ => s.param id
  else if id < 0x1000 then s.chainValue (id - 0x0D00)
  else if id < 0x1200 then
    let m := Fin.ofNat 64 ((id - 0x1000) / 8)
    match id % 8 with
    | 2 => s.mSocWord m
    | 3 => s.mSohWord m
    | 4 => s.mEstWord m
    | _ => s.param id
  else if id < 0x1400 then s.estValue (id - 0x1200)
  else if id < 0x1500 then s.stippleValue (id - 0x1400)
  else if id < 0x1600 then s.railValue id
  else if id < 0x1700 then s.timeValue (id - 0x1600)
  else if id < 0x1780 then s.thermalValue (id - 0x1700)
  else if id < 0x1A00 then s.watchdogValue (id - 0x1780)
  else if id < 0x1A20 then s.etherValue (Fin.ofNat 2 ((id - 0x1A00) / 16)) (id % 16)
  else if id < 0x1B00 then s.twoWireValue (id - 0x1A20)
  else if id < 0x1C00 then s.serviceValue (id - 0x1B00)
  else s.nvmValue (id - 0x1C00)

end Sys2Proof.Machine
end

