-- ==== Sys2Proof/Machine/Params.lean ====
section
/-! DEFINITION. The parameter opcodes (02 R48 to R53, R565), what a changed parameter does at once, and the commit
boundary at which a PARAM_SET with a mode takes effect (04 R95). -/

namespace Sys2Proof.Machine

/-! ### Payloads (02 R48, Table 2-11) -/

/-- Items that fit in one frame: 338 on authenticated SMU, 339 elsewhere. -/
def maxItems (v : Via) : Nat := if v.transport == .smuAuth then 338 else 339

/-- One item with its status. -/
def paramItemBytes (id status ty value : Nat) : List Byte :=
  leBytes 2 id ++ leBytes 1 status ++ leBytes 1 ty ++ leBytes 8 value

/-- The item of an ID in a response: its value, or ILLEGAL_VALUE for an unknown ID (02 R52), whose type code and value read 0
(DESIGN CHOICE, log entry 125: R52 gives its status alone). -/
def State.getItem (s : State) (id : Nat) : List Byte :=
  match paramEntry? id with
  | some e => paramItemBytes id 0 e.ty (container e.ty (s.value id))
  | none => paramItemBytes id stValue 0 0

/-- A response payload: count and items. -/
def State.getItems (s : State) (ids : List Nat) : List Byte :=
  leBytes 2 ids.length ++ zeros 2 ++ (ids.map s.getItem).flatten

/-- The items of a PARAM_SET payload. -/
def setItems (p : List Byte) : List ParamItem :=
  (List.range (numAt p 0 2)).map (fun i =>
    let o := 4 + 12 * i
    { id := numAt p o 2, status := numAt p (o + 2) 1, type := numAt p (o + 3) 1, value := numAt p (o + 4) 8 })

/-- The shape of a list of n elements of `w` bytes after a count and two reserved bytes. -/
def countShape (w max_ : Nat) (p : List Byte) : Option Nat :=
  if p.length < 4 || max_ < numAt p 0 2 || p.length ≠ 4 + w * numAt p 0 2 then some dtLength
  else if zeroAt p 2 2 then none else some dtReserved

/-! ### Storing -/

/-- Bits of a parameter that a write leaves as they are (00 R9). -/
def State.keptBits (s : State) (id : Nat) : Nat :=
  (paramRule id).roBits + (if id = 0x1B00 ∧ s.portFused then 1 else 0)

/-- The value an accepted item stores. -/
def State.storedOf (s : State) (id v : Nat) : Nat :=
  let m := s.keptBits id
  (v &&& (m ^^^ (2 ^ typeWidth (paramType id) - 1))) ||| (s.param id &&& m)

/-- The state of a module that the node map names, by its parameters and the node bound to it (09 R268, R287). -/
def State.checkModule (s : State) (m : Fin 64) : ModuleRun :=
  let x := s.module_ m
  let uid := s.param (moId m 1)
  if !s.moduleEn m then .disabled
  else if !x.aReach && !x.bReach then .absent
  else if uid ≠ 0 ∧ uid ≠ x.uid.toNat then .uidMismatch
  else if x.nCellMax < s.nCell m || (s.tMask m &&& x.tMaskMax.toNat) != s.tMask m then .incompatible
  else .ok

/-- LATH_M_CFG or LATH_M_UID of a module changed. -/
def State.recheckModule (m : Fin 64) (s : State) : State :=
  let r := s.checkModule m
  let cur := (s.module_ m).run
  if !s.stack.chain.map.any (fun e => e.module_ == m.val) then s
  else if r == .ok && (cur == .missed || cur == .chainLost) then s
  else s.moduleTo m r

/-- ADC_CMP_CFG changed (08 R234): a comparator taken out of use releases; another LEVEL, POL, HYST or FILT restarts the
qualification; an assertion is latched while LATCH is set. -/
def State.cmpChanged (s0 : State) (n : Fin 12) (s : State) : State :=
  let old := s0.param (0x0B60 + n.val)
  let new := s.param (0x0B60 + n.val)
  let now := s.clk
  let s := s.modCmp n (fun x => { x with
    latched := x.asserted && bitAt new 23
    since := if bitsOf old 19 0 = bitsOf new 19 0 then x.since else now })
  if bitAt new 20 then s.scrimLevel else s.cmpRelease n

/-- ADC_GAIN or ADC_OFS changed (08 R225): the conversions of a run in progress that have started use the old value. -/
def State.scaleChanged (s0 : State) (id : Nat) (s : State) : State :=
  let now := s.now
  let old := s0.param id
  if (List.finRange 16).any (fun j => (s.meas.seqs[j.val]).run == 2) then
    s.modMeas (fun m => { m with oldScale := m.oldScale ++ [(id, old, now)] })
  else s

/-- LATH_CFG changed: a port enabled again transmits; a port disabled moves its reads, and stops with CHAIN_PORT_STOP (09
R286). -/
def State.chainPortsChanged (s0 s : State) : State :=
  (List.finRange 2).foldl (fun t q =>
    if s0.chainEn q == t.chainEn q then t
    else if t.chainEn q then t.modChainPort q (fun x => { x with transmitting := true })
    else t.moveReads q) s

/-- What a changed parameter does at its point of effect, beyond what its consumers read for themselves. -/
def State.paramHook (s0 : State) (r : Req) (id : Nat) (s : State) : State :=
  if isOwnerParam id then s.storeSecure ((id - 0x100) / 6)
  else if 0x0B00 ≤ id && id < 0x0B60 then s0.scaleChanged id s
  else if 0x0B60 ≤ id && id < 0x0B6C then s0.cmpChanged (Fin.ofNat 12 (id - 0x0B60)) s
  else if (0x0B6C ≤ id && id < 0x0B70) || (0x0B7C ≤ id && id < 0x0B80) then
    s.audit r.owner.val stDone 0x0202 r.tag.toNat r.seq.toNat
      (paramItemBytes id 0 (paramType id) (container (paramType id) (s.param id)))
  else if 0x0C00 ≤ id && id < 0x0D00 then s.recheckModule (Fin.ofNat 64 ((id - 0xC00) / 4))
  else if id = 0x0D00 then s0.chainPortsChanged s
  else if 0x1500 ≤ id && id < 0x1550 && id % 8 == 1 then s0.moveSet ((id - 0x1500) / 8) s
  else if id = 0x1A06 ∨ id = 0x1A16 then s.ptpDecide
  else if id = 0x1B00 then s.portWritten
  else if id = 0x1C13 then s.custStart
  else if id = 0x0A00 ∨ id = 0x0A0C then s.checkInputs
  else s

/-- The hooks of every parameter that has changed, in the order of the items. -/
def State.paramHooks (s0 : State) (r : Req) (ids : List Nat) (s : State) : State :=
  ids.foldl (fun t id => if s0.param id = t.param id then t else s0.paramHook r id t) s

/-- The items of an accepted PARAM_SET are stored together; the counters of 20 Table 20-1 follow. -/
def State.applyItems (r : Req) (items : List (Nat × U64)) (s : State) : State :=
  let t := items.foldl (fun t e => t.storeItem e.1 (s.storedOf e.1 e.2.toNat)) s
  let t := t.modHost (fun h => { h with params := { h.params with
    cntSet := h.params.cntSet + 1#32
    dirty := h.params.dirty || items.any (fun e => !isOwnerParam e.1) } })
  s.paramHooks r (items.map (·.1)).eraseDups t

/-! ### PARAM_SET -/

/-- The values that the items of a payload store, by ID. -/
def setValues (p : List Byte) : List (Nat × U64) :=
  (setItems p).map (fun e => (e.id, BitVec.ofNat 64 (e.value % 2 ^ typeWidth (paramType e.id))))

/-- The failure of a PARAM_SET: the index of the item and two reserved bytes (02 R49). -/
def setFailure (x : Nat × Nat × Nat) : Res := .fail x.2.1 x.2.2 (leBytes 2 x.1 ++ zeros 2)

/-- The groups whose G_MODE a set names, ascending. -/
def modeGroups (items : List (Nat × U64)) : List (Fin 8) :=
  (List.finRange 8).filter (fun g => items.any (fun e => e.1 == grId g 0))

/-- The G_SETPOINT items of a set as the entries of a setpoint command (02 R30). -/
def setEntries (items : List (Nat × U64)) : List SetpointEntry :=
  (List.finRange 8).filterMap (fun g =>
    ((items.filter (fun e => e.1 == grId g 0x14)).getLast?).map (fun e =>
      { group := g, mode := none, setpoint := signedOf 32 e.2.toNat, slew := 0 }))

/-- The answer to a PARAM_SET at its point of effect: PARTIAL where a target that it writes is reduced (01 R22, 04 R120). -/
def State.setReply (s : State) (items : List (Nat × U64)) : Reply :=
  cutReply ((setEntries items).map (fun e => (e.group, s.arbitrated e (s.reqMode e.group)))) []

/-- A PARAM_SET waits for a group's commit boundary. -/
def State.waitInGroup (g : Fin 8) (r : Req) (items : List (Nat × U64)) (s : State) : State :=
  if (s.group g).waiting.any (fun w => w.req.owner == r.owner && w.req.tag == r.tag) then s
  else s.modGroup g (fun x => { x with waiting := x.waiting ++ [{ req := r, items := items }] })

/-- The group in which a command waits that keeps this one from its turn (02 R41). -/
def State.blockedIn (s : State) (r : Req) : Option (Fin 8) :=
  (List.finRange 8).find? (fun g =>
    (s.group g).waiting.any (fun w => w.req != r && (s.objects 0x0202 w.req).any (fun x => (s.objects 0x0202 r).any x.meets)) ||
      (s.group g).setpoints.any (fun w => (s.objects 0x0403 w.req).any (fun x => (s.objects 0x0202 r).any x.meets)))

/-- PARAM_SET (02 R49): at once, or, with a G_MODE item, at the commit boundary of the first group named (04 R95). One whose turn
has not come waits for a commit boundary of the group in which the command before it waits (02 R41; DESIGN CHOICE, log entry 122). The
inputs of comparators are drawn afresh for each command. -/
def execParamSet (r : Req) (s : State) : Out :=
  let t := s.runOp 0x0202 [4, 2, 16] (countShape 12 (maxItems r.via)) (fun s =>
    match s.setRefusal r.owner (setItems r.payload) with
    | some x => setFailure x
    | none =>
      let items := setValues r.payload
      match modeGroups items, s.turn 0x0202 r with
      | [], true =>
        let t := s.applyItems r items
        .ok (t.setReply items) t
      | g :: _, _ => .wait (s.waitInGroup g r items)
      | [], false =>
        match s.blockedIn r with
        | some g => .wait (s.waitInGroup g r items)
        | none => .wait s) r
  .next (({ t with freeCtr := t.freeCtr + 1 } : State).settle s)

/-- A PARAM_SET that waits takes effect, or completes with the reason (04 R94, R95; 02 R49); it stays while its turn has not come
(02 R41). -/
def State.applyWaiting (g : Fin 8) (w : WaitingSet) (s : State) : State :=
  if !s.turn 0x0202 w.req then s else
  let s := s.modGroup g (fun x => { x with waiting := x.waiting.filter (fun v => !(v == w)) })
  match s.setRefusal w.req.owner (setItems w.req.payload) with
  | some (i, st, d) => s.finish w.req 0x0202 ⟨st, 0, d, leBytes 2 i ++ zeros 2⟩
  | none =>
    let t := s.applyItems w.req w.items
    t.complete w.req 0x0202 (t.setReply w.items)

/-- COMMIT_BOUNDARY (01 R15 to R17; 03 R62, R64 to R69, R82, R83; 04 R95 to R99; 05 R134 to R145) at the start of the group's
period or at H. The second half-period has a boundary up to 1 MHz; above, only SYNC_OUT falls at H (03 R64, 04 R117). -/
def execCommitBoundary (g : Fin 8) (half : Bool) (s : State) : Out :=
  if !s.engineOn then .next s else
  let u := s.atDevice (((s.group g).periodStart + (if half then s.nT g / 2 else 0)) / 16)
  if half && decide (1000000 < s.param (grId g 1)) then .next (u.modGroup g (fun x => { x with syncOut := false }))
  else
    let t := u.commitHead g half
    .next (s.commitTail g half ((t.group g).waiting.foldl (fun u w => u.applyWaiting g w) t))

/-! ### The other parameter opcodes -/

/-- PARAM_GET (02 R52). -/
def execParamGet (r : Req) (s : State) : Out :=
  .next (s.runOp 0x0201 observe (countShape 2 (maxItems r.via)) (fun s =>
    let ids := (List.range (numAt r.payload 0 2)).map (fun i => numAt r.payload (4 + 2 * i) 2)
    .ok (if ids.all (fun id => (paramEntry? id).isSome) then done (s.getItems ids)
      else partial_ 0 dtParamId (s.getItems ids)) s) r)

/-- PARAM_GET_BLOCK (02 R48): the IDs that exist in the span; PARTIAL with detail LENGTH when they do not all fit. -/
def execParamGetBlock (r : Req) (s : State) : Out :=
  .next (s.runOp 0x0203 observe (len 4) (fun s =>
    let first := numAt r.payload 0 2
    let n := numAt r.payload 2 2
    if n = 0 || 0x10000 < first + n then .no stValue dtRange
    else
      let ids := ((List.range (min n (0x1C20 - first))).map (first + ·)).filter (fun id => (paramEntry? id).isSome)
      let cut := ids.take (maxItems r.via)
      .ok (if cut.length < ids.length then partial_ 0 dtLength (s.getItems cut) else done (s.getItems cut)) s) r)

/-- PARAM_SAVE (02 R53): the image goes to MRAM as one record; while writes are held back it completes at once. -/
def execParamSave (r : Req) (s : State) : Out :=
  .next (s.runOp 0x0204 configure (len 0) (fun s =>
    if s.nvmHeld then
      .ok (partial_ 3 dtNvmDeferred)
        ((s.modHost (fun h => { h with params := { h.params with dirty := false } })).store 1 0 s.imageBytes)
    else
      .wait ((s.modHost (fun h => { h with params := { h.params with saveWaits := h.params.saveWaits ++ [r] } })).store 1 0
        s.imageBytes)) r)

/-- PARAM_DEFAULTS (02 R53): every writable parameter but the owners' takes its default. -/
def execParamDefaults (r : Req) (s : State) : Out :=
  .next ((s.runOp 0x0205 configure (len 0) (fun s =>
    if !s.allQuiet then .no stState dtGroupState
    else
      let ids := s.host.params.values.map (·.1)
      .ok done (s.paramHooks r ids (ids.foldl (fun t id => t.storeItem id (paramDefault id)) s))) r).settle s)

/-- PARAM_DESCRIBE (02 R565). -/
def execParamDescribe (r : Req) (s : State) : Out :=
  .next (s.runOp 0x0206 observe (lenZ 4 [(2, 2)]) (fun s =>
    let id := numAt r.payload 0 2
    match paramEntry? id with
    | none => .no stValue dtParamId
    | some e =>
      let u := paramRule id
      let isFields := match u.bound with | .fields _ => true | _ => false
      let spans := describedSpans id
      .ok (done (leBytes 2 id ++ leBytes 1 e.ty ++
        leBytes 1 (flag (e.ro || u.cond = 0xFF) + fieldAt 1 1 (flag isFields) + fieldAt 2 1 (flag u.cross) + fieldAt 3 1 (flag (isSaved id))) ++
        leBytes 1 (writePriv id) ++ leBytes 1 (flag (writeLease id)) ++ leBytes 1 u.cond ++ leBytes 1 spans.length ++
        leBytes 8 (container e.ty e.dflt) ++
        (spans.map (fun x => leBytes 8 x.1 ++ leBytes 8 x.2)).flatten)) s) r)

end Sys2Proof.Machine
end

