-- ==== Sys2Proof/Machine/BoardCal.lean ====
section
/-! DEFINITION. Board calibration (08 R233): the correction of one AIN is found and stored. -/

namespace Sys2Proof.Machine

/-- BOARD_CALIBRATION_COMPLETE (08 R233): the sum, the least and the most of 1,024 raw codes. The new
value is stored as by PARAM_SET. -/
def execBoardCalibrationComplete (sum : Nat) (least most : U16) (s : State) : Out :=
  match s.meas.board with
  | none => .next s
  | some c =>
    let t := s.modMeas (fun m => { m with board := none })
    let mean : Rat := (sum : Rat) / 1024
    let v : Rat := (c.volts : Rat) * 65536 / 25000
    let gid := 0x0B00 + 2 * c.channel
    let bad : Bool := decide ((most.toNat : Rat) > mean + 64) || decide ((least.toNat : Rat) < mean - 64) ||
      (c.mode == 2 && decide (mean < 8192))
    let x : Int := if c.mode = 1 then roundQ (v - s.paramQ gid * mean)
      else if mean = 0 then 0 else roundQ ((v - s.paramI (gid + 1)) / mean * 65536)
    let inside := if c.mode = 1 then decide (-4096 ≤ x) && decide (x ≤ 4096)
      else decide (32768 ≤ x) && decide (x ≤ 131072)
    if bad || !inside then .next (t.finish c.req 0x0804 ⟨stValue, 0, 0x0103, []⟩)
    else
      let item : Nat × U64 := if c.mode = 1 then (gid + 1, BitVec.ofNat 64 (codeOf 16 x)) else (gid, BitVec.ofNat 64 (codeOf 32 x))
      .next ((t.applyItems c.req [item]).complete c.req 0x0804 done)

end Sys2Proof.Machine
end

