-- ==== Sys2Proof/Machine/Contactors.lean ====
section
/-! DEFINITION. String contactors (07 R211 to R215, R218): the transitions of Table 7-19 and the contactor
opcodes. -/

namespace Sys2Proof.Machine

/-- CONTACTOR_AUTO_PRECHARGE (07 R213): once after a start or wake, for a contactor in use. -/
def execContactorAutoPrecharge (p : Fin 4) (s : State) : Out :=
  let x := s.cont p
  let w := s.param (ctId p 0)
  if x.run != .open_ || x.autoDone || x.welded || !bitAt w 0 || !bitAt w 1 || !s.serving then .next s
  else match s.prechargingGroup p with
    | none => .next s
    | some g => .next ((s.prechargeBy p g .precharging).settle s)

/-- The lowest group of a port whose precharge has matched. -/
def State.matchedGroup (s : State) (p : Fin 4) : Option (Fin 8) :=
  (s.groupsOfPort p).find? (fun g => s.precharges g && s.prechargeOpen g && (s.group g).matchSince.isSome)

/-- PRECHARGE_COMPLETE (07 R211): a contactor's precharge leads to CLOSING, the group going on regulating; one
set by G_MODE returns to STANDBY. -/
def execPrechargeComplete (p : Fin 4) (s : State) : Out :=
  match s.matchedGroup p with
  | none => .next s
  | some g =>
    let t := s.atLeast (((s.group g).matchSince).getD 0 + 5000000)
    if (s.cont p).run == .precharging && (s.cont p).group == some g then
      .next ((((t.modCont p (fun x => { x with coil := true })).contTo p .closing none).contFeedback p).settle s)
    else .next ((t.endPrecharge g).settle s)

/-- PRECHARGE_TIMEOUT (07 R211). -/
def execPrechargeTimeout (p : Fin 4) (s : State) : Out :=
  match (s.groupsOfPort p).find? s.prechargeOpen with
  | none => .next s
  | some g =>
    let t := s.atLeast (s.prechargeSince g + bitsOf (s.param (ctId p 1)) 31 24 * 10000000)
    .next ((t.prechargeFails g 1).settle s)

/-- CONTACTOR_FEEDBACK_CHANGE (07 Table 7-19): the feedback's level after FB_POL. -/
def execContactorFeedbackChange (p : Fin 4) (closed : Bool) (s : State) : Out :=
  if (s.cont p).fb == closed then .next s
  else
    let now := s.clk
    .next (((s.modCont p (fun x => { x with fb := closed, fbSince := now })).contFeedback p).settle s)

/-- CONTACTOR_CLOSE_TIMEOUT: CLOSE_T × 2 ms without confirmation. -/
def execContactorCloseTimeout (p : Fin 4) (s : State) : Out :=
  let x := s.cont p
  if x.run != .closing then .next s
  else
    let t := s.atLeast (x.since + bitsOf (s.param (ctId p 0)) 15 8 * 2000000)
    .next ((((t.release p).freeGroup p).contTo p .fault (some 2)).settle s)

/-- CONTACTOR_OPEN_TIMEOUT: OPEN_T × 2 ms; a feedback that reads open ends OPENING as its change does. -/
def execContactorOpenTimeout (p : Fin 4) (s : State) : Out :=
  let x := s.cont p
  if x.run != .opening then .next s
  else if !x.fb then .next ((s.opened p).settle s)
  else
    let t := s.atLeast (x.since + bitsOf (s.param (ctId p 0)) 23 16 * 2000000)
    .next ((t.weld p).contTo p .fault (some 4))

/-- CONTACTOR_DROPPED: CLOSED, and the feedback has read open for 10 ms; the serving groups lose READY. -/
def execContactorDropped (p : Fin 4) (s : State) : Out :=
  let x := s.cont p
  if x.run != .closed || x.fb then .next s
  else
    let t := s.atLeast (max x.since x.fbSince + 10000000)
    let t := (t.release p).contTo p .fault (some 3)
    .next (((t.groupsOfPort p).foldl (fun u g => u.evalReady g) t).settle s)

/-- WELD_TEST_TIMEOUT: at the end of WELD_T, V_str has moved by DV / 2, or the contactor is welded (07 Table
7-19). -/
def execWeldTestTimeout (p : Fin 4) (s : State) : Out :=
  let x := s.cont p
  if x.run != .weldTest then .next s
  else
    let t := s.atLeast (x.since + bitsOf (s.param (ctId p 2)) 15 8 * 1000000)
    .next ((t.endTest p (t.testMoved p)).settle s)

/-! ### The opcodes (07 R215, R218) -/

/-- CONTACTOR_STATUS. -/
def execContactorStatus (r : Req) (s : State) : Out :=
  .next (s.runOp 0x0704 observe (len 1) (fun s =>
    let m := numAt r.payload 0 1
    if 16 ≤ m then .no stValue dtRange
    else
      .ok (done (((List.finRange 4).filter (fun p => bitAt m p.val)).map (fun p =>
        leBytes 1 p.val ++ zeros 3 ++ leBytes 4 (s.cont p).word)).flatten) s) r)

/-- CONTACTOR_CLOSE (07 R214, R218). -/
def execContactorClose (r : Req) (s : State) : Out :=
  .next ((s.runOp 0x0705 control (len 1) (fun s =>
    s.needLease r (
      match named 4 (numAt r.payload 0 1) with
      | none => .no stValue dtRange
      | some p =>
        let x := s.cont p
        if x.run == .closed then .ok done s
        else if x.welded then .no stState 0x0104
        else if x.run != .open_ then .no stState 0x0105
        else match s.prechargingGroup p with
          | none => .no stState 0x0106
          | some g => .ok done (s.prechargeBy p g .precharging))) r).settle s)

/-- CONTACTOR_OPEN (07 R218, Table 7-19); an open already under way stands. -/
def execContactorOpen (r : Req) (s : State) : Out :=
  .next ((s.runOp 0x0706 control (len 1) (fun s =>
    s.needLease r (
      match named 4 (numAt r.payload 0 1) with
      | none => .no stValue dtRange
      | some p =>
        if (s.groupsOfPort p).any (fun g => (s.group g).mode.isPower) then .no stState dtGroupState
        else
          let t := s.modCont p (fun x => { x with autoDone := true })
          match (s.cont p).run with
          | .open_ | .opening | .weldTest => .ok done t
          | .precharging => .ok done ((t.freeGroup p).contTo p .open_ none)
          | .closing => .ok done ((t.freeGroup p).startOpening p true)
          | .closed => .ok done (t.startOpening p true)
          | .fault => .ok done (t.contTo p .open_ none))) r).settle s)

/-- CONTACTOR_WELD_TEST (07 R218): no group can run the test while V_batt is unknown. -/
def execContactorWeldTest (r : Req) (s : State) : Out :=
  .next ((s.runOp 0x0707 service (len 1) (fun s =>
    match named 4 (numAt r.payload 0 1) with
    | none => .no stValue dtRange
    | some p =>
      if (s.cont p).run != .open_ then .no stState 0x0105
      else match (if s.battUnknown p then none else s.prechargingGroup p) with
        | none => .no stState 0x0106
        | some g => .wait ((s.modCont p (fun x => { x with waiting := some r })).startWeldTest p g)) r).settle s)

/-- CONTACTOR_WELD_CLEAR (07 R218). -/
def execContactorWeldClear (r : Req) (s : State) : Out :=
  .next (s.runOp 0x0708 service (len 1) (fun s =>
    match named 4 (numAt r.payload 0 1) with
    | none => .no stValue dtRange
    | some p =>
      let x := s.cont p
      if !((x.run == .open_ || x.run == .fault) && !x.fb) then .no stState 0x0105
      else
        .ok done (((s.modCont p (fun y => { y with welded := false })).raiseIf x.welded 78))) r)

end Sys2Proof.Machine
end

