-- ==== Sys2Proof/Machine/LowPower.lean ====
section
/-! DEFINITION. Sleep and dust-sheet mode: entry, the states, wake sources and the wake from sleep (06 R185 to R192). The
wake from dust-sheet mode ends with FIRMWARE_BOOT. -/

namespace Sys2Proof.Machine

/-- WAKE_ASSERTED. -/
def dtWakeAsserted : Nat := 0x0101
/-- NO_KA. -/
def dtNoKa : Nat := 0x0102

/-- The wake threshold of a coulomb channel holds: |i_tick| above LEVEL at every tick for DUR × 10 ms (08 R248). -/
def State.ccWakes (s : State) (c : Fin 4) : Bool :=
  let w := s.param (0x0B70 + c.val)
  bitAt w 0 && decide (10 * bitsOf w 15 8 ≤ (s.meas.cc[c.val]).wakeRun) && (s.meas.cc[c.val]).wakeRun != 0

/-- An enabled level source is asserted (06 R190, Table 6-14). -/
def State.levelSource (s : State) (sleep wakeN : Bool) (mask : Nat) : Bool :=
  wakeN || (bitAt mask 4 && s.port.attached) ||
    (sleep && bitAt mask 5 && (List.finRange 4).any s.ccWakes) || (sleep && bitAt mask 6 && s.faultLow)

/-- Every group is OFF and none is paired (06 R186, R187). -/
def State.mayRest (s : State) : Bool := s.conv.groups.toList.all (fun g => g.mode == .off && !g.pair.paired)

/-- A feed goes to OPEN, FEEDx_ON low; a FEED_OPEN in work has had its effect (07 R209). -/
def State.feedRests (f : Fin 2) (s : State) : State :=
  let q := (s.feed f).openReq
  let s := (s.feedTo f .open_ none).modFeed f (fun y => { y with opening := .none, openReq := none })
  match q with
  | some r => s.complete r 0x0703 done
  | none => s

/-- A contactor is released (06 Table 6-12). -/
def State.contRests (p : Fin 4) (s : State) : State :=
  match (s.cont p).run with
  | .precharging | .closing | .closed | .weldTest => s.startOpening p false
  | _ => s

/-- BALANCE_STOP and SLEEP on each enabled port, which then stops transmitting (09 R291). -/
def State.chainRests (s : State) : State :=
  s.modChain (fun c => { c with
    sweeping := false, toRead := false, outstanding := c.outstanding.filter (fun x => x.req.isSome)
    modules := c.modules.map (fun m => { m with bleed := 0, maskSent := 0 })
    ports := c.ports.mapFinIdx (fun i q _ =>
      { (if bitAt (s.param 0x0D00) i then q.bump 0 2 else q) with transmitting := false }) })

/-- Entry into a low-power state: acceptance closes, the wake record of the last one is gone (06 R186, R187, R192). -/
def State.enterRest (run : PowerRun) (keepCont : Bool) (mask alarm : Nat) (s : State) : State :=
  let now := s.clk
  let s := s.modHost (fun h => { h with closed := true })
  let s := s.modLow (fun l => { l with
    run := run, keepCont := keepCont, mask := BitVec.ofNat 16 mask, alarmS := BitVec.ofNat 32 alarm, enteredAt := now, first := none
    record := { cause := 0, left := 0, seen := 0, duration := 0, runTime := 0, interrupted := false, auxWait := false } })
  let s := (List.finRange 2).foldl (fun t f => t.feedRests f) s
  let s := if keepCont then s else (List.finRange 4).foldl (fun t p => t.contRests p) s
  s.chainRests

/-- SLEEP_ENTER; `wakeN` tells that WAKE_N has been low for 1 ms. -/
def execSleepEnter (r : Req) (wakeN : Bool) (s : State) : Out :=
  .next ((s.runOp 0x0610 control
    (fun p => if p.length ≠ 8 then some dtLength else if 1 < numAt p 2 1 || !zeroAt p 3 1 then some dtReserved else none)
    (fun s => s.needLease r (
      let mask := numAt r.payload 0 2
      if !s.mayRest then .no stState dtGroupState
      else if s.levelSource true wakeN mask then .no stState dtWakeAsserted
      else .ok done (s.enterRest .enteringSleep (numAt r.payload 2 1 == 1) mask (numAt r.payload 4 4)))) r).settle s)

/-- DUST_SHEET_ENTER: commands in flight end as ABORTED_DISABLED. -/
def execDustSheetEnter (r : Req) (wakeN : Bool) (s : State) : Out :=
  .next ((s.runOp 0x0611 service (lenZ 8 [(2, 2)]) (fun s =>
    let mask := numAt r.payload 0 2
    if !s.mayRest then .no stState dtGroupState
    else if !s.power.supply.kaOk then .no stState dtNoKa
    else if s.nvmHeld then .no stTemp 0
    else if s.levelSource false wakeN mask then .no stState dtWakeAsserted
    else
      let t := s.abandon (fun q => !(q.owner == r.owner && q.tag == r.tag)) stAbDisabled
      .ok done (t.enterRest .enteringDustSheet false mask (numAt r.payload 4 4))) r).settle s)

/-- A source has arrived during the entry: the device wakes at once (06 R190), from dust-sheet mode when AUX allows it
(R189). -/
def State.wakeNoted (s : State) : State :=
  let l := s.chg.low
  if l.first.isNone then s
  else
    let s := s.modLow (fun x => { x with record := { x.record with interrupted := true } })
    if l.run == .dustSheet && l.record.cause != 2 && !s.power.supply.auxOk then
      s.modLow (fun x => { x with record := { x.record with auxWait := true } })
    else s.beginWake

/-- The rails in the reverse of the sequencer order, its last stage first and UC0 last; before them those that are in no
stage (06 Table 6-13, 12 R358). -/
def State.downOrder (s : State) : List Nat :=
  let q := { s.power.seq with sleepOnly := false }
  let staged := (((List.range 16).reverse).map (fun k => (q.stageRails k).reverse)).flatten
  ((List.range 26).filter (fun i => !staged.contains i)).reverse ++ staged

/-- The Plumb island and the rails are off (06 Table 6-13, 01 R11). -/
def State.islandOff (s : State) : State :=
  let s := s.downOrder.foldl (fun t i => if (t.rail i).run == .off then t else t.modRail i Rail.downNow) s
  let s := ((s.dieDown).modTh (fun _ => ClockState.initial.th)).modWd (fun _ => Watchdog.initial)
  s.modPower (fun p => { p with
    seq := { p.seq with run := .idle, stage := 0, stageEnded := false, retries := 0, stepAlone := false, stepDriven := false }
    supply := { p.supply with onHold := false }
    safety := { p.safety with causes := 0, driving := false } })

/-- LOW_POWER_STATE_REACHED (06 R186, R187, R190): the watchdog pauses, the rails without SLEEP go down; or the journal is
flushed and everything but wake logic, retention SRAM and real-time counter goes off. -/
def execLowPowerStateReached (s : State) : Out :=
  let l := s.chg.low
  match l.run with
  | .enteringSleep =>
    let t := (s.atLeast (l.enteredAt + 20000000)).modLow (fun x => { x with run := .sleep })
    let now := t.clk
    let t := t.modWd (fun x => { x with
      counted := x.countAt now
      run := if x.run == .off then .off else .paused })
    let t := if t.power.seq.run == .complete then t.startDown true .complete else t
    .next (t.wakeNoted.settle s)
  | .enteringDustSheet =>
    let t := (s.atLeast (l.enteredAt + 60000000)).flush.journalled
    let t := t.islandOff.modLow (fun x => { x with run := .dustSheet })
    .next (t.wakeNoted.settle s)
  | _ => .next s

/-- WAKE_SOURCE (06 R188 to R191): a source of Table 6-14 arrives; AUX rising puts AUX in range. -/
def execWakeSource (code : Fin 9) (s : State) : Out :=
  let l := s.chg.low
  if code.val = 0 || l.run == .running || (code.val = 4 && s.portFused) then .next s
  else
    let t := if code.val = 2 && (l.run == .dustSheet || l.run == .enteringDustSheet) then s.modSupply (fun x => { x with auxOk := true }) else s
    .next ((t.wakeBy code.val).settle s)

/-- REAL_TIME_ALARM (06 Table 6-14): ALARM_S seconds after the entry. -/
def execRealTimeAlarm (s : State) : Out :=
  let l := s.chg.low
  if l.alarmS == 0 || l.run == .running then .next s
  else .next (((s.atLeast (l.enteredAt + l.alarmS.toNat * 1000000000)).wakeBy 3).settle s)

/-- CC_WAKE_THRESHOLD (08 R248). -/
def execCcWakeThreshold (c : Fin 4) (s : State) : Out :=
  if s.chg.low.run == .running || !s.ccWakes c then .next s else .next ((s.wakeBy 5).settle s)

/-- Cause bits for the TW0 host (17 R476). -/
def State.attention (cause : BitVec 8) (s : State) : State :=
  let en := bitAt (s.param 0x1A20) 0
  s.modTw (fun w => { w with attnCause := w.attnCause ||| cause, attn := w.attn || en })

/-- The device is running again: RUN_TIME, acceptance open, contactors with AUTO may close once more (06 R192, 07 R213). -/
def State.runsAgain (s : State) : State :=
  let now := s.now
  let s := s.modHost (fun h => { h with closed := false })
  let s := s.modLow (fun l => { l with run := .running, record := { l.record with runTime := BitVec.ofNat 64 now } })
  (s.modBus (fun b => { b with conts := b.conts.map (fun k => { k with autoDone := k.run == .fault }) })).attention 4#8

/-- An armed feed leaves OPEN (07 R196). -/
def State.feedArms (f : Fin 2) (s : State) : State :=
  if (s.feed f).run == .open_ && s.bus.calDone && bitAt (s.param (fdId f 0)) 0 then s.feedTo f .window none else s

/-- The chain after sleep: the enabled ports transmit; sweeps resume when every node has answered with its recorded UID,
otherwise the device enumerates (09 R291). -/
def State.chainWakes (ok : Bool) (s : State) : State :=
  let s := (List.finRange 2).foldl (fun t q => if t.chainEn q then t.modChainPort q (fun x => { x with transmitting := true }) else t) s
  if ok || s.chainDown then s else s.startEnumeration none

/-- WAKE_COMPLETE (06 R191, R192): the end of a wake from sleep. `chainOk` tells that every bound module has answered
NODE_INFO with its UID. Frames held are served. -/
def execWakeComplete (chainOk : Bool) (s : State) : Out :=
  if s.chg.low.run != .waking || s.chg.low.record.left != 1 || s.sys.hawk == .off then .next s
  else
    let now := s.clk
    let t := s.runsAgain.modChg (fun c => { c with ports := c.ports.map (fun p => { p with lastEval := now }) })
    let t := if t.sys.wd.run == .paused then (t.modWd (fun x => { x with run := .running })).wdRestart else t
    let t := (List.finRange 2).foldl (fun u f => u.feedArms f) t
    .next (((t.chainWakes chainOk).serveHeld).settle s)

/-- WAKE (06 Table 6-15). -/
def execWake (r : Req) (s : State) : Out :=
  .next (s.runOp 0x0612 observe (len 0) (fun s => .ok (done s.chg.low.record.bytes) s) r)

end Sys2Proof.Machine
end

