-- ==== Sys2Proof/Machine/TableContent.lean ====
section
/-! DEFINITION. The content rules of the twelve table types: check 7 of 02 R56. -/

namespace Sys2Proof.Machine

/-- Each element is below the next. -/
def strictly : List Int → Bool
  | x :: y :: r => decide (x < y) && strictly (y :: r)
  | _ => true

/-- No element is below the one before it. -/
def rising : List Int → Bool
  | x :: y :: r => decide (x ≤ y) && rising (y :: r)
  | _ => true

/-- No two elements are equal. -/
def distinct (l : List Nat) : Bool := l.eraseDups.length == l.length

/-- n numbers of `w` bytes from an offset, `step` bytes apart. -/
def column (b : List Byte) (off step w n : Nat) : List Nat := (List.range n).map (fun i => numAt b (off + step * i) w)

/-- The same, signed. -/
def columnI (b : List Byte) (off step w n : Nat) : List Int := (List.range n).map (fun i => intAt b (off + step * i) w)

/-- A number lies between two ends. -/
def between (lo hi x : Nat) : Bool := decide (lo ≤ x) && decide (x ≤ hi)

/-- An f32 is a number and is not negative. -/
def gainOk (w : Nat) : Bool :=
  match f32Val w with
  | some x => decide (0 ≤ x)
  | none => false

/-- The points of a curve: 2 to 32, x rising, percentages up to 10,000 (04 R116, 14 R394). -/
def curveOk (b : List Byte) : Bool :=
  let n := numAt b 1 1
  between 2 32 n && b.length == 4 + 8 * n && strictly (columnI b 4 8 4 n) &&
    (column b 8 8 2 n ++ column b 10 8 2 n).all (fun x => decide (x ≤ 10000))

/-- 04 R116: a fold-back curve. -/
def foldContent (b : List Byte) : Bool :=
  curveOk b && decide (numAt b 0 1 ≤ 2) && (numAt b 0 1 != 2 || decide (numAt b 2 1 ≤ 47))

/-- 04 R105: a loop coefficient set. -/
def loopContent (b : List Byte) : Bool :=
  b.length == 40 && (column b 0 4 4 6).all gainOk &&
    (match f32Val (numAt b 24 4) with
     | some x => decide (0 ≤ x) && decide (x ≤ 1 / 100)
     | none => false) &&
    (match f32Val (numAt b 28 4) with
     | some x => decide (0 < x)
     | none => numAt b 28 4 == 0x7F800000) &&
    between 10 60000 (numAt b 32 4)

/-- 10 R296: an OCV surface. -/
def ocvContent (b : List Byte) : Bool :=
  let nz := numAt b 0 1
  let nt := numAt b 1 1
  let hyst := bitAt (numAt b 2 1) 0
  let br := if hyst then 2 else 1
  let z := column b 4 2 2 nz
  let base := 4 + 2 * nz + 2 * nt
  let row (k j : Nat) : List Nat := column b (base + 2 * (k * nt * nz + j * nz)) 2 2 nz
  between 2 64 nz && between 1 8 nt && b.length == base + 2 * br * nt * nz && decide (numAt b 2 1 ≤ 1) && zeroAt b 3 1 &&
    strictly (z.map Int.ofNat) && z.head? == some 0 && z.getLast? == some 10000 &&
    strictly (columnI b (4 + 2 * nz) 2 2 nt) &&
    (List.range nt).all (fun j =>
      (List.range br).all (fun k => rising ((row k j).map Int.ofNat)) &&
        (!hyst || ((row 0 j).zip (row 1 j)).all (fun e => decide (e.1 ≤ e.2))))

/-- 10 R298: capacity by rate and temperature. -/
def capContent (b : List Byte) : Bool :=
  let nr := numAt b 0 1
  let nt := numAt b 1 1
  let base := 4 + 2 * nr + 2 * nt
  between 1 16 nr && between 1 8 nt && b.length == base + 2 * nr * nt && zeroAt b 2 2 &&
    strictly ((column b 4 2 2 nr).map Int.ofNat) && strictly (columnI b (4 + 2 * nr) 2 2 nt) &&
    (column b base 2 2 (nr * nt)).all (fun x => decide (x ≤ 12000))

/-- One step of a charge profile, at offset o (06 R171). -/
def stepContent (b : List Byte) (o : Nat) : Bool :=
  let iSet := numAt b (o + 4) 4
  let vCell := numAt b (o + 8) 2
  let endV := numAt b (o + 10) 2
  let endI := numAt b (o + 12) 4
  let endT := numAt b (o + 16) 4
  zeroAt b (o + 1) 3 && zeroAt b (o + 20) 4 && between 2000 4500 vCell &&
    match numAt b o 1 with
    | 1 => iSet != 0 && decide (endV ≤ vCell) && (endV != 0 || endT != 0)
    | 2 => iSet != 0 && decide (endI < iSet) && (endI != 0 || endT != 0)
    | 3 => iSet == 0 && endT != 0
    | _ => false

/-- 06 R171: a charge profile. -/
def profileContent (b : List Byte) : Bool :=
  let n := numAt b 0 1
  between 1 16 n && b.length == 4 + 24 * n && zeroAt b 1 3 && (List.range n).all (fun i => stepContent b (4 + 24 * i))

/-- The rail an undercoat rail is fed from (12 Table 12-2). -/
def inputOfRail (rail : Nat) : Option Nat :=
  if 1 ≤ rail ∧ rail ≤ 6 then some 0 else if rail = 7 ∨ rail = 8 then some 2 else if rail = 9 then some 3 else none

/-- One entry of a sequencer table among all of them (12 R353). -/
def entryContent (es : List SeqEntry) (e : SeqEntry) : Bool :=
  let entry (k : Nat) : Option SeqEntry := es.find? (fun x => x.rail == k)
  (between 1 9 e.rail || between 0x10 0x1F e.rail) && between 1 15 e.stage && between 1 1000 e.riseMs && decide (e.delay ≤ 10000) &&
    (List.range 32).all (fun k => !bitAt e.deps k || k == 0 ||
      (match entry k with
       | some x => decide (x.stage < e.stage) && (!e.sleep || x.sleep)
       | none => false)) &&
    (match inputOfRail e.rail with
     | some k => bitAt e.deps k
     | none => true) &&
    (!between 2 9 e.rail || (e.critical && e.sleep))

/-- 12 R352, R353: a sequencer table. -/
def sequencerContent (b : List Byte) : Bool :=
  let n := numAt b 0 1
  let t := seqTableOf b
  let stage (k : Nat) : Nat := ((t.entries.find? (fun x => x.rail == k)).map (·.stage)).getD 0
  between 1 25 n && b.length == 24 + 12 * n && decide (numAt b 1 1 ≤ 1) && zeroAt b 3 1 && zeroAt b 20 4 &&
    (List.range n).all (fun i => decide (numAt b (26 + 12 * i) 1 ≤ 3) && zeroAt b (27 + 12 * i) 1) &&
    decide (t.retry ≤ 7) && decide (t.gapUs ≤ 10000) && between 10 10000 t.stepTmoMs && decide (t.rideMs ≤ 100) &&
    between 160 175 t.auxBo && between 240 580 t.holdChg && between 140 t.holdChg t.holdMin && between 100 60000 t.retryWaitMs &&
    distinct (t.entries.map (·.rail)) && t.entries.all (entryContent t.entries) &&
    (List.range 8).all (fun i => t.entries.any (fun x => x.rail == i + 2)) && decide (stage 3 < stage 5) && decide (stage 5 < stage 6)

/-- One row of an insertion table, at offset o (07 R200). -/
def rowContent (b : List Byte) (o : Nat) : Bool :=
  let src := numAt b o 1
  let dst := numAt b (o + 1) 1
  let cond := numAt b (o + 2) 2
  let hold := numAt b (o + 4) 4
  let cause := numAt b (o + 8) 1
  let c (k : Nat) : Bool := bitAt cond k
  zeroAt b (o + 9) 3 && decide (cond < 512) && between 1 4 src && (between 1 5 dst || dst == 7) && src != dst &&
    !(c 0 && c 1) && !(c 4 && c 5) &&
    (dst != 4 || (c 0 && c 6 && (c 2 || c 3))) &&
    (dst != 5 || (src == 4 && c 4 && c 2)) &&
    (if dst = 7 then cause == 2 || between 0x10 0x1F cause else cause == 0) &&
    (decide (hold ≤ 600000) || hold == 0xFFFFFFFF)

/-- 07 R200: an insertion table. The first row of each of DELAY, MATCH and GATE leads back to WINDOW. -/
def insertionContent (b : List Byte) : Bool :=
  let n := numAt b 0 1
  let rows := (List.range n).map (fun i => 4 + 12 * i)
  between 1 32 n && b.length == 4 + 12 * n && zeroAt b 1 3 && rows.all (rowContent b) &&
    [2, 3, 4].all (fun st =>
      match rows.find? (fun o => numAt b o 1 == st) with
      | some o => numAt b (o + 1) 1 == 1 && numAt b (o + 2) 2 == 2 && numAt b (o + 4) 4 == 0
      | none => false)

/-- 14 R394: a thermal derate table, with the temperature channels of the setup in force. -/
def State.derateContent (s : State) (b : List Byte) : Bool :=
  let n := numAt b 1 1
  let falls (off : Nat) : Bool := rising ((column b off 8 2 n).map (fun (x : Nat) => -(x : Int)))
  curveOk b && decide (numAt b 0 1 ≤ 1) && (numAt b 0 1 != 1 || s.isTemp (numAt b 2 1)) && decide (numAt b 3 1 ≤ 1) &&
    falls 8 && falls 10

/-- 11 R325: a stipple frequency plan. -/
def planContent (b : List Byte) : Bool :=
  let n := numAt b 0 1
  between 1 32 n && b.length == 4 + 12 * n && zeroAt b 1 1 && distinct (column b 4 12 4 n) &&
    (List.range n).all (fun j =>
      between 50 200000 (numAt b (4 + 12 * j) 4) && between 1 1000 (numAt b (8 + 12 * j) 2) &&
        decide (numAt b (12 + 12 * j) 2 ≤ 1000) && zeroAt b (14 + 12 * j) 2)

/-- PARAM of a trigger kind (08 Table 8-6). -/
def triggerOk (trig w : Nat) : Bool :=
  match trig with
  | 1 => between 10 1000000 w
  | 2 => bitsOf w 7 3 == 0
  | 4 => decide (w ≤ 11)
  | 0 | 3 | 5 => w == 0
  | _ => false

/-- An entry of AIN setup (08 R228). -/
def ainContent (b : List Byte) (n : Nat) : Bool :=
  let o := 4 + 20 * n
  let unit := numAt b (o + 1) 1
  decide (numAt b o 1 ≤ 2) && decide (unit ≤ 4) && zeroAt b (o + 6) 2 && (numAt b o 1 != 2 || unit == 3) &&
    (unit != 3 || decide (intAt b (o + 4) 2 ≤ intAt b (o + 2) 2))

/-- An entry of VSD setup; N is asked of an input that is not OFF. -/
def vsdContent (b : List Byte) (v : Nat) : Bool :=
  let o := 964 + 16 * v
  decide (numAt b o 1 ≤ 2) && decide (numAt b (o + 1) 1 ≤ 3) && zeroAt b (o + 12) 4 &&
    (numAt b o 1 == 0 || between 8 256 (numAt b (o + 2) 2))

/-- The channels of sequence i. -/
def seqChannels (b : List Byte) (i : Nat) : List Nat := column b (1292 + 40 * i) 1 1 (numAt b (1286 + 40 * i) 1)

/-- One sequence (08 R228). -/
def seqContent (b : List Byte) (i : Nat) : Bool :=
  let o := 1284 + 40 * i
  let adc := numAt b o 1
  let n := numAt b (o + 2) 1
  decide (adc ≤ 1) && triggerOk (numAt b (o + 1) 1) (numAt b (o + 4) 4) && between 1 32 n && decide (numAt b (o + 3) 1 ≤ 1) &&
    (column b (o + 8 + n) 1 1 (32 - n)).all (· == 0xFF) &&
    (seqChannels b i).all (fun c => decide (c < 64) && (decide (48 ≤ c) || (numAt b (4 + 20 * c) 1 != 0 && c / 24 == adc)))

/-- A thermal input of a phase: none, a comparator, or a temperature channel that a PERIOD sequence converts at least
every 100,000 µs. -/
def thermContent (b : List Byte) (p : Nat) : Bool :=
  let t := numAt b (1220 + p) 1
  t == 0xFF || decide (t < 12) ||
    (between 0x40 0x6F t && numAt b (5 + 20 * (t - 0x40)) 1 == 3 &&
      (List.range (numAt b 0 1)).any (fun i => numAt b (1285 + 40 * i) 1 == 1 && decide (numAt b (1288 + 40 * i) 4 ≤ 100000) &&
        (seqChannels b i).contains (t - 0x40)))

/-- 08 R228: an ADC sequence table, with G_FSW of the groups and the present sweep period. -/
def State.adcContent (s : State) (b : List Byte) : Bool :=
  let n := numAt b 0 1
  decide (n ≤ 16) && b.length == 1284 + 40 * n && zeroAt b 1 3 && (List.range 48).all (ainContent b) &&
    (List.range 16).all (vsdContent b) && (List.range n).all (seqContent b) && (List.range 64).all (thermContent b) &&
    (List.range 2).all (fun a => decide (seqLoad b (fun g => s.param (0x0801 + 32 * g)) (s.param 0x0D01) a ≤ 4 / 5))

/-- 04 R127: a limit set. -/
def limitContent (b : List Byte) : Bool :=
  b.length == 132 && numAt b 0 1 == 1 && zeroAt b 1 1 && between 1 100 (numAt b 2 2) &&
    (List.range 8).all (fun g =>
      let v (k : Nat) : Nat := numAt b (4 + 16 * g + k) 4
      decide (v 0 ≤ 500000) && decide (v 4 ≤ 500000) && decide (v 8 ≤ 160000) && decide (v 12 ≤ 160000) &&
        ((v 0 == 0 && v 4 == 0) || (v 8 != 0 && v 12 != 0)))

/-- 09 R267: a node map. -/
def mapContent (b : List Byte) : Bool :=
  let n := numAt b 0 1
  between 1 64 n && b.length == 4 + 4 * n && zeroAt b 1 3 &&
    (List.range n).all (fun i => decide (numAt b (4 + 4 * i) 1 ≤ 63) && decide (numAt b (5 + 4 * i) 1 ≤ 3) &&
      decide (numAt b (6 + 4 * i) 1 ≤ 63) && zeroAt b (7 + 4 * i) 1) &&
    distinct (column b 4 4 1 n) && distinct (column b 6 4 1 n)

/-- The content rules of a type. -/
def State.contentOk (s : State) (ty : Nat) (b : List Byte) : Bool :=
  match ty with
  | 0x01 => foldContent b
  | 0x02 => loopContent b
  | 0x03 => ocvContent b
  | 0x04 => capContent b
  | 0x05 => profileContent b
  | 0x06 => sequencerContent b
  | 0x07 => insertionContent b
  | 0x08 => s.derateContent b
  | 0x09 => planContent b
  | 0x0A => s.adcContent b
  | 0x0B => limitContent b
  | 0x0C => mapContent b
  | _ => false

end Sys2Proof.Machine
end

