-- ==== Sys2Proof/Machine/Tables.lean ====
section
/-! DEFINITION. The table opcodes (02 R54 to R59, R564). -/

namespace Sys2Proof.Machine

/-- TABLE_CRC. -/
def dtTableCrc : Nat := 0x0020
/-- TABLE_LOCKED. -/
def dtTableLocked : Nat := 0x0021
/-- TABLE_CHANGED. -/
def dtTableChanged : Nat := 0x0022
/-- TABLE_VERSION. -/
def dtTableVersion : Nat := 0x0023
/-- TABLE_SPACE. -/
def dtTableSpace : Nat := 0x0024
/-- TABLE_CONTENT. -/
def dtTableContent : Nat := 0x0025
/-- NOT_OPEN. -/
def dtNotOpen : Nat := 0x0026
/-- TABLE_IN_USE. -/
def dtTableInUse : Nat := 0x0027

/-- Body bytes one TABLE_WRITE may carry (02 R55). -/
def maxBody (v : Via) : Nat := if v.transport == .smuAuth then 4060 else 4076

/-- The key TT:II named by a type and an index within the ranges of 02 Table 2-12. -/
def tableKey (ty ix : Nat) : Option Nat := if 1 ≤ ty ∧ ty ≤ 12 ∧ ix ≤ 15 then some (ty * 256 + ix) else none

/-- The key named by the first two bytes of a payload. -/
def keyAt (p : List Byte) : Option Nat := tableKey (numAt p 0 1) (numAt p 1 1)

/-- The table in force, by key. -/
def State.activeTable (s : State) (key : Nat) : Option Table :=
  (bankGet? key s.host.tables).bind (fun t => if t.sealOk then some t else none)

/-- Stamp of the active table; 0 when it is absent. -/
def State.tableStamp (s : State) (key : Nat) : Nat := ((s.activeTable key).map (·.commits)).getD 0

/-- LOCKED of a header. -/
def TableHeader.locked (h : TableHeader) : Bool := h.flags.getLsbD 0

/-- The caller may commit, replace or delete a LOCKED table (02 R57). -/
def State.mayLocked (s : State) (r : Req) : Bool := r.owner == 0 && (s.owner 0).priv.getLsbD 4

/-! ### Staging (02 R54, R55) -/

/-- A staging buffer for a header. -/
def stagingOf (h : TableHeader) (stamp : Nat) : Staging where
  header := h
  body := zeros h.length.toNat
  written := List.replicate h.length.toNat false
  tooLong := false
  seenCommit := stamp
  held := false

/-- Bytes written at an offset; those beyond the body length are not kept. -/
def Staging.write (off : Nat) (bytes : List Byte) (g : Staging) : Staging :=
  let n := g.body.length
  let fit := bytes.take (n - off)
  { g with
    body := if off < n then g.body.take off ++ fit ++ g.body.drop (off + fit.length) else g.body
    written := if off < n then g.written.take off ++ List.replicate fit.length true ++ g.written.drop (off + fit.length) else g.written
    tooLong := g.tooLong || decide (n < off + bytes.length) }

/-- TABLE_OPEN; a body above 65,536 bytes is RANGE, tested after an open table (DESIGN CHOICE, log entry 124: R54 gives the limit, and
no status). -/
def execTableOpen (r : Req) (s : State) : Out :=
  .next (s.runOp 0x0302 configure
    (fun p => if p.length ≠ 16 then some dtLength else if 1 < numAt p 12 4 then some dtReserved else none)
    (fun s =>
      if (s.owner r.owner).staging.isSome then .no stState 0
      else match keyAt r.payload with
        | none => .no stValue dtRange
        | some key =>
          if 65536 < numAt r.payload 4 4 then .no stValue dtRange
          else .ok done (s.modOwner r.owner (fun o => { o with staging := some (stagingOf (headerOf r.payload) (s.tableStamp key)) })))
    r)

/-- TABLE_WRITE; while the buffer's own commit is in flight it is busy (DESIGN CHOICE, log entry 124). -/
def execTableWrite (r : Req) (s : State) : Out :=
  .next (s.runOp 0x0303 configure (lenIn 4 (4 + maxBody r.via)) (fun s =>
    match (s.owner r.owner).staging with
    | none => .no stState dtNotOpen
    | some g =>
      if g.held then .no stBusy 0
      else .ok done (s.modOwner r.owner (fun o => { o with staging := some (g.write (numAt r.payload 0 4) (r.payload.drop 4)) }))) r)

/-- TABLE_ABORT; without an open table, as R55 has it for the others (DEDUCED, log entry 44). -/
def execTableAbort (r : Req) (s : State) : Out :=
  .next (s.runOp 0x0305 configure (len 0) (fun s =>
    match (s.owner r.owner).staging with
    | none => .no stState dtNotOpen
    | some g =>
      if g.held then .no stBusy 0
      else .ok done (s.modOwner r.owner (fun o => { o with staging := none }))) r)

/-! ### Commit (02 R56 to R58) -/

/-- Lines of 64 bytes that the stored records of the tables region take, those of one table apart. -/
def NvmState.tableLines (n : NvmState) (key : Nat) : Nat :=
  let mine (type : Byte) (k : U16) : Bool := type == 2#8 && k.toNat == key
  let stored := n.records.filter (fun x => regionOf x.type == 0 && n.newest x && !mine x.type x.key &&
    !n.waiting.any (fun w => w.type == x.type && w.key == x.key))
  let waiting := n.waiting.filter (fun w => regionOf w.type == 0 && !mine w.type w.key)
  (stored.map (fun x => nvmBytes x.payload.length / 64)).sum + (waiting.map (fun w => nvmBytes w.payload.length / 64)).sum

/-- A record of n payload bytes fits in the tables region beside the others, one sector being kept for its compaction
(check 6; DESIGN CHOICE, log entry 46: 19 R502 does not give the number). -/
def NvmState.hasRoom (n : NvmState) (key size : Nat) : Bool :=
  decide (nvmBytes size / 64 < sectorLines) &&
    decide (n.tableLines key + nvmBytes size / 64 ≤ ((n.writable 0).length - 1) * (sectorLines - 1))

/-- Another commit of the table is in flight: the active table is about to change (check 3; DESIGN CHOICE, log entry 45). -/
def State.tableMoves (s : State) (key : Nat) : Bool :=
  s.host.committing.any (fun e => e.1 == key) || (bankGet? key s.host.arriving).isSome

/-- The first of checks 1 to 7 of R56, then the type's own conditions, that a commit fails. -/
def State.commitRefusal (s : State) (r : Req) (g : Staging) (key : Nat) : Option (Nat × Nat) :=
  let h := g.header
  let old := s.activeTable key
  let size := 16 + g.body.length + (if h.locked then 16 else 0)
  if g.tooLong || !g.written.all id then some (stValue, dtLength)
  else if crc32c g.body != h.crc then some (stValue, dtTableCrc)
  else if g.seenCommit ≠ s.tableStamp key || s.tableMoves key then some (stState, dtTableChanged)
  else if (match old with
    | some t => h.version == t.header.version || (h.locked && decide (h.version.toNat ≤ t.header.version.toNat))
    | none => false) then some (stValue, dtTableVersion)
  else if (h.locked || (match old with | some t => t.header.locked | none => false)) && !s.mayLocked r then some (stPermit, dtTableLocked)
  else if key / 256 = 0x0B && !h.locked then some (stValue, dtTableLocked)
  else if !s.nv.nvm.hasRoom key size then some (stValue, dtTableSpace)
  else if !s.contentOk (key / 256) g.body then some (stValue, dtTableContent)
  else if key = 0x0C00 && !s.allQuiet then some (stState, dtGroupState)
  else if key = 0x0A00 + bitsOf (s.param 0x0B74) 7 0 && s.changesInUse (some g.body) then some (stState, dtTableInUse)
  else none

/-- TABLE_COMMIT: the record goes to MRAM and the table is active once it is there and every consumer has taken it; while writes are
held it goes to the consumers from SRAM at once. Until then the staging buffer stays. A LOCKED table is stored with the 16 bytes of its seal, which are open (R57). -/
def execTableCommit (r : Req) (s : State) : Out :=
  .next ((s.runOp 0x0304 configure (len 0) (fun s =>
    match (s.owner r.owner).staging with
    | none => .no stState dtNotOpen
    | some g =>
      if g.held then .no stBusy 0 else
      let h := g.header
      let key := h.type.toNat * 256 + h.index.toNat
      match s.commitRefusal r g key with
      | some (st, d) => .no st d
      | none =>
        let bytes := h.bytes ++ g.body ++ (if h.locked then s.freeBytes 16 else [])
        let s : State := if h.locked then { s with freeCtr := s.freeCtr + 1 } else s
        let s := s.modOwner r.owner (fun o => { o with staging := some { g with held := true } })
        let t : Table := { header := h, body := g.body, inMram := false, sealOk := true, left := 0, waiter := some r, commits := 0 }
        if s.nvmHeld then
          let u := s.store 2 key bytes
          if s.consumers (key / 256) (key % 256) = 0 then
            .ok (partial_ 3 dtNvmDeferred)
              ((u.installTable key { t with waiter := none }).modOwner r.owner (fun o => { o with staging := none }))
          else .wait (u.installTable key t)
        else
          .wait ((s.modHost (fun x => { x with committing := x.committing ++ [(key, t)] })).store 2 key bytes)) r).settle s)

/-! ### Reading (02 R59, R564) -/

/-- Header of a stored table and its STATE. -/
def State.tableInfo (s : State) (key : Nat) : List Byte × Nat :=
  match bankGet? key s.host.tables with
  | none => (zeros 16, 0)
  | some t => if !t.sealOk then (zeros 16, 3) else (t.header.bytes, if t.inMram then 1 else 2)

/-- TABLE_INFO. -/
def execTableInfo (r : Req) (s : State) : Out :=
  .next (s.runOp 0x0301 observe (lenZ 4 [(2, 2)]) (fun s =>
    match keyAt r.payload with
    | none => .no stValue dtRange
    | some key =>
      let x := s.tableInfo key
      .ok (done (x.1 ++ leBytes 1 x.2 ++ zeros 3)) s) r)

/-- TABLE_READ. A length of 0 or above 4,048 is RANGE, and a table deleted, or whose seal has failed, answers as one never committed
(DESIGN CHOICE, log entry 124: R564 and R59 give neither status). -/
def execTableRead (r : Req) (s : State) : Out :=
  .next (s.runOp 0x0306 observe (lenZ 12 [(2, 2)]) (fun s =>
    let off := numAt r.payload 4 4
    let n := numAt r.payload 8 4
    match keyAt r.payload with
    | none => .no stValue dtRange
    | some key =>
      if n = 0 || 4048 < n then .no stValue dtRange
      else match s.activeTable key with
        | none => .fail stUnwritten 0 (zeros (16 + n))
        | some t =>
          if t.body.length ≤ off then .no stValue dtRange
          else .ok (done (t.header.bytes ++ slice t.body off n)) s) r)

/-! ### Deletion (02 R57, R59) -/

/-- A group, a string port or the sequencer refers to the table (R59); 0B:00 while a group is in PRECHARGE or a power mode (R57); a
sequence table whose deletion would change an input in use (08 R229; DEDUCED, log entry 47). -/
def State.tableInUse (s : State) (key : Nat) : Bool :=
  match key / 256 with
  | 1 | 2 | 5 | 8 => s.consumers (key / 256) (key % 256) != 0
  | 6 => key == 0x0600
  | 0x0A => key == 0x0A00 + bitsOf (s.param 0x0B74) 7 0 && s.changesInUse none
  | 0x0B => key % 256 == 0 && s.conv.groups.toList.any (fun g => g.mode.isSwitching)
  | _ => false

/-- The table is gone: a record of its key with a header of zeros stands for its absence in MRAM (DESIGN CHOICE, log entry 48). -/
def State.dropTable (key : Nat) (s : State) : State :=
  let s := (s.modHost (fun h => { h with tables := bankDrop key h.tables })).store 2 key (zeros 16)
  if key = 0x0B00 then s.modConv (fun c => { c with limitSet := none })
  else if key = 0x0C00 then s.startEnumeration none
  else s

/-- TABLE_DELETE; one of an absent table is ILLEGAL_STATE (DEDUCED, log entry 44), and one of the node map needs the state of its commit
(09 R267; DEDUCED, log entry 47). -/
def execTableDelete (r : Req) (s : State) : Out :=
  .next ((s.runOp 0x0307 configure (lenZ 4 [(2, 2)]) (fun s =>
    match keyAt r.payload with
    | none => .no stValue dtRange
    | some key =>
      match bankGet? key s.host.tables with
      | none => .no stState 0
      | some t =>
        if t.header.locked && !s.mayLocked r then .no stPermit dtTableLocked
        else if s.tableInUse key then .no stState dtTableInUse
        else if key = 0x0C00 && !s.allQuiet then .no stState dtGroupState
        else .ok done (s.dropTable key)) r).settle s)

end Sys2Proof.Machine
end

