-- ==== Sys2Proof/Machine/Restore.lean ====
section
/-! DEFINITION. What the firmware takes up again at a start: from MRAM the parameter image, tables, security store and
learned values, from the retention SRAM what it holds (02 R53, R57; 06 R177, R182; 10 R300; 12 R354, R371; 16 R453;
19 R501, R502, R516). -/

namespace Sys2Proof.Machine

/-! ### The record store -/

/-- The first bad record of a sector (19 R501, R505). -/
def NvmState.firstBad (n : NvmState) (sec : Nat) : Option Nat :=
  (n.records.find? (fun r => r.sector == sec && r.bad)).map (·.line)

/-- A record that a reader reaches: none before it in its sector is bad, nor is it. -/
def NvmState.reached (n : NvmState) (r : NvmRecord) : Bool :=
  match n.firstBad r.sector with
  | some l => decide (r.line < l)
  | none => true

/-- Records not reached are discarded and counted, and their space is written over (19 R501). -/
def NvmState.discardBad (n : NvmState) : NvmState :=
  let keep := n.records.filter n.reached
  { n with
    cntTorn := satAdd n.cntTorn (n.records.length - keep.length)
    heads := n.heads.map (fun h => match h with
      | some (x, used) => (match n.firstBad x with
        | some l => some (x, min l used)
        | none => some (x, used))
      | none => none)
    records := keep }

/-- The newest record of a type and key in MRAM. -/
def State.recordOf (s : State) (type : Byte) (key : Nat) : Option (List Byte) :=
  (s.nv.nvm.records.reverse.find? (fun w => w.type == type && w.key == BitVec.ofNat 16 key)).map (·.payload)

/-- The keys of a type's newest records. -/
def State.recordKeys (s : State) (type : Byte) : List Nat :=
  ((s.nv.nvm.records.filter (fun r => r.type == type)).map (fun r => r.key.toNat)).eraseDups

/-! ### Parameters and tables -/

/-- One value of the image: a role only the device enters stands as it is; a mode is taken where it is permitted (DESIGN
CHOICE). -/
def State.loadItem (id v : Nat) (s : State) : State :=
  if 0x0400 ≤ id && id < 0x0800 && id % 16 == 0 && 2 < v then
    (s.modPhase (Fin.ofNat 64 ((id - 0x400) / 16)) (fun x => { x with role := Role.ofCode v })).setParam id v
  else if 0x0800 ≤ id && id < 0x0900 && id % 32 == 0 then
    let g := Fin.ofNat 8 ((id - 0x800) / 32)
    if v ≤ 5 && s.modePermitted g (Mode.ofCode v) then s.takeMode g (Mode.ofCode v) else s
  else s.storeItem id v

/-- The last complete image; what it does not hold has its default (02 R53). The engines, which start with the D-die, hold what was
loaded (DEDUCED, log entry 133). -/
def State.loadParams (s : State) : State :=
  ((s.savedImage.getD []).foldl (fun t e => t.loadItem e.1 e.2.toNat) s).modHost (fun h =>
    { h with params := { h.params with engine := h.params.values } })

/-- One table of MRAM; a header of zeros stands for a table deleted. The seal of a LOCKED table is checked (02 R57). -/
def State.loadTable (bad : List Nat) (key : Nat) (s : State) : State :=
  match s.recordOf 2#8 key with
  | none => s
  | some b =>
    let h := headerOf b
    if h.type == 0#8 then s
    else
      let ok := !(h.locked && bad.contains key)
      let n := s.host.tableCount + 1
      let t : Table := { header := h, body := slice b 16 h.length.toNat, inMram := true, sealOk := ok, left := 0, waiter := none, commits := n }
      let s := s.modHost (fun x => { x with tables := bankPut key t x.tables, tableCount := n })
      if ok then s
      else
        let c := s.freeBytes 44
        ({ s with freeCtr := s.freeCtr + 1 } : State).audit 0 0 0 0 0 c

/-- Every table of MRAM. A port whose profile is the one it ran goes on with it (06 R177). -/
def State.loadTables (bad : List Nat) (s : State) : State :=
  let s := (s.recordKeys 2#8).foldl (fun t k => t.loadTable bad k) s
  let lim := s.tableBody 0x0B 0
  let s := s.modConv (fun c => { c with limitSet := lim })
  (List.finRange 4).foldl (fun t p =>
    match (if t.param (stId p 1) = 0xFF then none else t.tableOf 5 (t.param (stId p 1))) with
    | some x => t.modStrPort p (fun y => if y.profile == some (profileSteps x.body) then { y with profileCommit := x.commits } else y)
    | none => t) s

/-! ### The security store (19 R516, 16 R453, 17 R472) -/

/-- A SECURE record whose seal fails is treated as absent. -/
def State.dropSecure (key : Nat) (s : State) : State :=
  if !(s.recordKeys 4#8).contains key then s
  else
    let s :=
      if key < 16 then s.modOwner (Fin.ofNat 16 key) (fun _ => Owner.initial (Fin.ofNat 16 key))
      else if key = 16 then s.modSys (fun y => { y with ring := { y.ring with rings := State.reset.sys.ring.rings } })
      else if key = 17 then s.modLink (fun l => { l with streams := Vector.replicate 32 none })
      else s.modSec (fun c => { c with custKey := none })
    let c := s.freeBytes 44
    let s := ({ s with freeCtr := s.freeCtr + 1 } : State).audit 0 0 0 0 0 c
    (s.modSec (fun c => { c with sealFail := satInc c.sealFail })).raise 274

/-- The descriptor table rebuilt from the definitions (16 R453). -/
def State.rebuildRings (s : State) : State :=
  let now := s.clk
  s.modSys (fun y => { y with ring := { y.ring with
    noticed := []
    rings := y.ring.rings.map (fun e => (e.1, { e.2 with
      wr := 0, rd := 0, drop := 0, epoch := (s.owner e.2.owner).epoch, records := [], notified := false, dropLater := 0, due := now })) } })

/-- Each stream takes a new creation number, with DSEQ at 0 (17 R472). -/
def State.renewStreams (s : State) : State :=
  (List.finRange 32).foldl (fun t i =>
    match t.stream i with
    | none => t
    | some x =>
      let n := (t.owner x.owner).streamCreations
      (t.modOwner x.owner (fun o => { o with streamCreations := o.streamCreations + 1#32 })).modStream i
        (fun y => { y with createNo := n, dseq := 0, paused := false, oldest := none })) s

/-! ### Learned values -/

/-- The coulomb counters of the journal, to which what the channel has counted since the release is added (08 R247). -/
def Coulomb.restore (b : List Byte) (x : Coulomb) : Coulomb :=
  { x with
    charge := x.charge + intAt b 16 8
    thruDis := x.thruDis + BitVec.ofNat 64 (numAt b 24 8)
    thruChg := x.thruChg + BitVec.ofNat 64 (numAt b 32 8)
    winDis := x.winDis + numAt b 40 4
    winChg := x.winChg + numAt b 44 4 }

/-- The counters of a phase (03 R86); a saturated one has its WEAR flag set (R85). -/
def Phase.restoreCounters (b : List Byte) (x : Phase) : Phase :=
  let c : PhaseCounters := {
      thermal := BitVec.ofNat 32 (numAt b 4 4), cycles := BitVec.ofNat 64 (numAt b 8 8), late := BitVec.ofNat 32 (numAt b 16 4)
      trips := BitVec.ofNat 32 (numAt b 20 4), dflt := BitVec.ofNat 32 (numAt b 24 4), clamps := BitVec.ofNat 32 (numAt b 28 4) }
  { x with counters := c, wearCycSat := c.cycles.toNat + 1 == 2 ^ 64, wearThcSat := c.thermal.toNat + 1 == 2 ^ 32 }

/-- Counters and latched charge faults of the journal (03 R86, 06 R182, 08 R247, 14 R401, 15). -/
def State.restoreCounters (s : State) : State :=
  let s := match s.recordOf 0x10#8 0 with
    | some b => s.modMeas (fun m => { m with cc := Vector.ofFn (fun c => (m.cc[c.val]).restore (slice b (48 * c.val) 48)) })
    | none => s
  let s := match s.recordOf 0x11#8 0 with
    | some b => (List.finRange 4).foldl (fun (t : State) p => t.modStrPort p (fun x =>
        { x with faults := BitVec.ofNat 7 (numAt b (4 * p.val) 1), first := bitsOf (numAt b (4 * p.val) 4) 19 16 })) s
    | none => s
  let s := match s.recordOf 0x12#8 0 with
    | some b => s.eachPhase (fun p t => t.modPhase p (Phase.restoreCounters (slice b (32 * p.val) 32)))
    | none => s
  match s.recordOf 0x13#8 0 with
  | some b =>
    (s.modWd (fun x => { x with cntResets := BitVec.ofNat 32 (numAt b 0 4) })).modTh (fun x =>
      { x with cntTrips := BitVec.ofNat 32 (numAt b 4 4), hoursHot := BitVec.ofNat 32 (numAt b 8 4) })
  | none => s

/-- Duration of the outage in s, where the retention SRAM holds the time of the last journal write (10 R300). -/
def State.outage (s : State) : Option Rat :=
  let k := s.power.keep
  if k.lost || k.journalRtc = 0 then none else some (((s.rtc : Nat) - (k.journalRtc : Nat) : Rat) / 1024)

/-- A cell from its record (10 R300, Table 10-3): the covariance and vp are not in it and are free values. -/
def restoredCell (draw place : Nat) (now : Nat) (outage : Option Rat) (b : List Byte) : Cell :=
  let v (k : Nat) : Rat := Config.restored draw (place + k)
  let zz := match outage with
    | some d => v 0 + (25 / 1000000) * (ceilQ (d / 2592000) : Rat)
    | none => max (v 0) (25 / 10000)
  let flags := numAt b 11 1
  let mAh : Rat := (intAt b 16 4 : Rat)
  { Cell.initial with
    started := true
    z := (numAt b 0 2 : Rat) / 10000
    q := (numAt b 2 2 : Rat) / 100
    r := (numAt b 4 2 : Rat) / 1000000
    rPol := (numAt b 6 2 : Rat) / 1000000
    tau := (numAt b 8 2 : Rat) / 10
    h := (intAt b 10 1 : Rat) / 127
    vp := v 6
    cov := { zz := zz, zv := v 1, zr := v 2, vv := v 3, vr := v 4, rr := v 5 }
    counted := mAh * 36 / 10
    anchor := if bitAt flags 0 then
        some { z := (numAt b 12 2 : Rat) / 10000, counted := 0, time := (now : Int) - (numAt b 14 2 : Int) * 3600000000000 }
      else none
    cut := outage.isNone
    learned := bitAt flags 1
    diverged := bitAt flags 2 }

/-- The cells of a module: from its record, the others at their initial values (10 R300). -/
def State.restoreModule (m : Fin 64) (s : State) : State :=
  let s := s.startCells m
  match s.recordOf 0x30#8 m.val with
  | none => s
  | some b =>
    let n := numAt b 1 1
    let now := s.now
    let o := s.outage
    let draw := s.freeCtr
    s.modMest m (fun x => { x with
      cells := Vector.ofFn (fun c =>
        if c.val < n then restoredCell draw (m.val * 256 + c.val * 8) now o (slice b (20 + 20 * c.val) 20) else x.cells[c.val])
      diverged := (List.range (min n 24)).any (fun c => bitAt (numAt b (31 + 20 * c) 1) 2) })

/-- Estimates of modules and strings (10 R300, R311): a displayed value survives without a step, and a known outage counts
as rest (R301). -/
def State.restoreEst (s : State) : State :=
  let s := (List.finRange 64).foldl (fun t m => t.restoreModule m) s
  let s : State := { s with freeCtr := s.freeCtr + 1 }
  let known := s.outage.isSome
  let now := s.clk
  let s := s.modEst (fun e => { e with strings := e.strings.map (fun x =>
    { x with restSince := if known then some now else none, outageRest := known }) })
  match s.recordOf 0x31#8 0 with
  | none => s
  | some b => (List.finRange 4).foldl (fun (t : State) p => t.modSest p (fun x =>
      let o := 12 + 8 * p.val
      { x with
        r := if numAt b o 2 = 0xFFFF then none else some (numAt b o 2 : Rat)
        rejects := BitVec.ofNat 16 (numAt b (o + 4) 2), eol := bitAt (numAt b (o + 6) 2) 0 })) s

/-! ### Retention SRAM and sequencer store -/

/-- A region of the retention SRAM whose CRC fails is lost and reported in O0's event ring (12 R371, Table 12-7). -/
def State.loseRegion (s : State) (j : Nat) : State :=
  let s := match j with
    | 1 => s.modPower (fun p => { p with keep := { p.keep with plumb := [], evtLost := none } })
    | 2 => s.modPower (fun p => { p with keep := { p.keep with rail := [] } })
    | 3 => s.modChg (fun c => { c with ports := c.ports.map (fun (p : Port) => { Port.initial with faults := p.faults, first := p.first }) })
    | 4 => s.modLow (fun l => { l with
        mask := ChargeState.initial.low.mask, alarmS := 0, enteredAt := 0, record := ChargeState.initial.low.record })
    | 5 => s.modPower (fun p => { p with keep := { p.keep with journalRtc := 0 } })
    | 6 => s.modPower (fun p => { p with seq := { p.seq with retries := 0 } })
    | _ => s
  s.openEvent .burpol .o0Event

/-- Regions lost are reported in O0's event ring (12 R371, Table 12-7); the Plumb core's records go to MRAM; the losses of
the last hold-up are recorded (19 R503). -/
def State.restoreRetention (s : State) : State :=
  let k := s.power.keep
  let s := if k.lost then (List.range 8).foldl (fun t _ => t.openEvent .burpol .o0Event) s else s
  let s := k.plumb.reverse.foldl (fun t _ => t.storeOpen 0x22 0 32) s
  let s := match k.evtLost with
    | some (n, a, b) => s.writeLost n a b
    | none => s
  s.modPower (fun p => { p with keep := { p.keep with plumb := [], lost := false, evtLost := none } })

/-- The sequencer store is compared with MRAM and rewritten where it differs (12 R354). -/
def State.compareStore (s : State) : State :=
  match s.tableBody 6 0 with
  | none => s
  | some b =>
    let q := s.power.seq
    let want := match s.savedImage with
      | some v => v.filter (fun e => decide (0x1500 ≤ e.1) && decide (e.1 < 0x15C0))
      | none => q.storeParams
    if q.storeBody == b && q.storeParams == want then s
    else
      ((s.storeSequencer).modPower (fun p => { p with seq := { p.seq with storeParams := want } })).openEvent .burpol .o0Event

/-- Everything a start after the reset of the D-die takes up again. -/
def State.restoreAll (badTables badSecure : List Nat) (badRegions : BitVec 8) (s : State) : State :=
  let s := (maskList 8 badRegions.toNat).foldl (fun t j => t.loseRegion j) s
  let s := s.modNvm NvmState.discardBad
  let s := badSecure.foldl (fun t k => t.dropSecure k) s
  let s := s.loadParams.loadTables badTables
  let s := (s.rebuildRings).renewStreams
  let s := s.restoreCounters.restoreEst
  let seqNo := s.nv.nvm.seqs[2]
  let s := s.modNvm (fun n => { n with starts := (seqNo :: n.starts).take 8 })
  s.restoreRetention.compareStore

end Sys2Proof.Machine
end

