-- ==== Sys2Proof/Machine/Firmware.lean ====
section
/-! DEFINITION. Firmware images: upload, activation, trial, and the boot of Burpol (19 R509 to R515; 01 R19, 02 R40). -/

namespace Sys2Proof.Machine

/-- SIGNATURE. -/
def dtSignature : Nat := 0x0101
/-- ROLLBACK. -/
def dtRollback : Nat := 0x0102
/-- SLOT_BUSY. -/
def dtSlotBusy : Nat := 0x0103
/-- ENGINE_INCOMPATIBLE. -/
def dtEngineIncompatible : Nat := 0x0104
/-- NO_IMAGE_READY. -/
def dtNoImageReady : Nat := 0x0105
/-- NOT_TRIAL. -/
def dtNotTrial : Nat := 0x0106
/-- IMAGE_FORMAT. -/
def dtImageFormat : Nat := 0x0107
/-- CUST_DISABLED. -/
def dtCustDisabled : Nat := 0x0108
/-- UPLOAD_OPEN. -/
def dtUploadOpen : Nat := 0x0109

/-- The slot that uploads go to: the one not running; slot A for the recovery loader (19 R511, R512). -/
def State.loadSlot (s : State) : Fin 2 := if s.sys.hawk == .recovery then 0 else otherSlot s.nv.fw.run

/-- Place of a section among the images. -/
def imageAt (slot section_ : Fin 2) : Fin 4 := ⟨2 * slot.val + section_.val, by omega⟩

/-- Largest image of a section, header included (19 Table 19-5). -/
def sectionSize (section_ : Fin 2) : Nat := if section_ = 0 then 6291456 else 2097152

/-- First line of a section in the read window (19 Table 19-1). -/
def sectionLine (slot section_ : Fin 2) : Nat := slot.val * 131072 + (if section_ = 0 then 0 else 98304)

/-- The bytes of a staged upload from an offset. -/
def Upload.slice (u : Upload) (off n : Nat) : List Byte := (List.range n).map (fun i => bankGet 0#8 (off + i) u.bytes)

/-- The n bytes at an offset have been staged. -/
def Upload.has (u : Upload) (off n : Nat) : Bool := (List.range n).all (fun i => (bankGet? (off + i) u.bytes).isSome)

/-- Line k of an upload. -/
def Upload.line (u : Upload) (k : Nat) : List Byte := u.slice (64 * k) 64

/-- 4 KB units that have become complete. -/
def Upload.newUnits (u : Upload) : List Nat :=
  (List.range (u.total / 4096)).filter (fun k => !u.units.contains k && u.has (4096 * k) 4096)

/-- Lines of an upload go to the slot. -/
def NvmState.writeLines (base : Nat) (u : Upload) (ks : List Nat) (n : NvmState) : NvmState :=
  let kb := (n.kbRest + 64 * ks.length) / 1024
  { n with
    lines := ks.foldl (fun b k => bankPut (base + k) (u.line k) b) n.lines
    kbWritten := satAdd n.kbWritten kb, kbRest := (n.kbRest + 64 * ks.length) % 1024 }

/-- FW_OPEN (19 R506, R511, R512): from here on the section has no valid header. -/
def execFwOpen (r : Req) (s : State) : Out :=
  .next (s.runOp 0x0F02 security (lenZ 8 [(1, 3)]) (fun s =>
    s.needSmu true r (
      let k := numAt r.payload 0 1
      let total := numAt r.payload 4 4
      let sec := Fin.ofNat 2 k
      if 1 < k || (k = 1 && s.sys.hawk == .recovery) then .no stValue dtRange
      else if total < 512 || sectionSize sec < total then .no stValue dtRange
      else if k = 1 && !s.nv.sec.customerCores.latched then .no stState dtCustDisabled
      else if s.nv.fw.trial then .no stState dtSlotBusy
      else if s.nv.fw.upload.isSome then .no stBusy dtUploadOpen
      else if s.nv.nvm.retired.any (fun x => decide (x < 512)) then .no stMedia 0
      else
        let slot := s.loadSlot
        let base := sectionLine slot sec
        let t := s.modFw (fun f => { f with
          upload := some { owner := r.owner, section_ := k, total := total, bytes := [], units := [] }
          images := vmod f.images (imageAt slot sec) (fun _ => none)
          ready := f.ready && k != 0 })
        .ok done (t.modNvm (fun n => { n with lines := (List.range 8).foldl (fun b i => bankDrop (base + i) b) n.lines })))) r)

/-- The caller's upload. -/
def State.uploadOf (s : State) (o : Fin 16) : Option Upload :=
  match s.nv.fw.upload with
  | some u => if u.owner == o then some u else none
  | none => none

/-- FW_WRITE (19 R512): complete units of 4 KB go to the slot, the header apart. -/
def execFwWrite (r : Req) (s : State) : Out :=
  .next (s.runOp 0x0F03 security (lenIn 4 4064) (fun s =>
    s.needSmu true r (
      match s.uploadOf r.owner with
      | none => .no stState 0
      | some u =>
        let off := numAt r.payload 0 4
        let data := r.payload.drop 4
        if u.total < off + data.length then .no stValue dtRange
        else
          let bytes := ((List.range data.length).foldl (fun b i => bankPut (off + i) (data.getD i 0#8) b) u.bytes)
          let v : Upload := { u with bytes := bytes }
          let new := v.newUnits
          let base := sectionLine s.loadSlot (Fin.ofNat 2 u.section_)
          let lines := (new.flatMap (fun k => (List.range 64).map (64 * k + ·))).filter (fun l => decide (8 ≤ l))
          let w : Upload := { v with units := v.units ++ new }
          .ok done ((s.modFw (fun f => { f with upload := some w })).modNvm (NvmState.writeLines base w lines)))) r)

/-- FW_ABORT (19 R512); without an upload of the caller it finds none (DEDUCED, log entry 104). -/
def execFwAbort (r : Req) (s : State) : Out :=
  .next (s.runOp 0x0F07 security (len 0) (fun s =>
    s.needSmu false r (
      match s.uploadOf r.owner with
      | none => .no stState 0
      | some _ => .ok done (s.modFw (fun f => { f with upload := none })))) r)

/-- The header's own fields are as 19 Table 19-5 shows and match the upload. -/
def Upload.formatOk (u : Upload) : Bool :=
  let h := u.slice 0 512
  u.has 0 u.total && numAt h 0 4 == 0x3436465A && numAt h 4 1 == u.section_ && numAt h 5 1 == 1 &&
    (u.section_ != 0 || decide (numAt h 6 2 ≤ 64)) && numAt h 12 4 + 512 == u.total && (u.section_ == 0 || zeroAt h 16 4) &&
    zeroAt h 25 7 && zeroAt h 177 15 && zeroAt h 288 224

/-- The image that a complete upload holds. -/
def Upload.image (u : Upload) (custKey : Option (List Byte)) : Image :=
  let h := u.slice 0 32
  { kind := BitVec.ofNat 8 (numAt h 4 1), level := numAt h 6 2, version := BitVec.ofNat 32 (numAt h 8 4)
    engineSet := BitVec.ofNat 32 (numAt h 16 4), engineMin := BitVec.ofNat 32 (numAt h 20 4), pairVer := BitVec.ofNat 8 (numAt h 24 1)
    key := if u.section_ = 0 then none else custKey }

/-- LEVEL is not below the counter of its kind (19 R509). -/
def State.levelOk (s : State) (i : Image) : Bool :=
  if i.kind == 0#8 then decide (s.nv.sec.rollback ≤ i.level) else decide (s.nv.fw.custLevel.toNat ≤ i.level)

/-- FW_FINISH (19 R509, R512): `sigOk`, `hashOk` and `keyOk` are what the checks of signature, body hash and public key
find. A failed check changes nothing (02 R43); the section has had no valid header since FW_OPEN. -/
def execFwFinish (r : Req) (sigOk hashOk keyOk : Bool) (s : State) : Out :=
  let failed := match s.uploadOf r.owner with
    | none => none
    | some u =>
      let i := u.image s.nv.sec.custKey
      if !u.formatOk then some dtImageFormat
      else if !(sigOk && hashOk && keyOk && (u.section_ == 0 || s.nv.sec.custKey.isSome)) then some dtSignature
      else if !s.levelOk i then some dtRollback else none
  let admitted (t : State) : State := t.runOp 0x0F04 security (len 0) (fun s =>
    s.needSmu true r (
      match s.uploadOf r.owner with
      | none => .no stState 0
      | some u =>
        match failed with
        | some d => .no stValue d
        | none =>
          let slot := s.loadSlot
          let sec := Fin.ofNat 2 u.section_
          let lines := (List.range ((u.total + 63) / 64)).filter (fun l => decide (l < 8) || !u.units.contains (l / 64))
          let t := (s.modNvm (NvmState.writeLines (sectionLine slot sec) u lines)).modFw (fun f => { f with
            upload := none, images := vmod f.images (imageAt slot sec) (fun _ => some (u.image s.nv.sec.custKey))
            ready := f.ready || u.section_ == 0 })
          .ok done (if u.section_ = 1 && bitsOf (t.param 0x1C13) 1 1 = slot.val then t.custStart else t))) r
  .next (admitted s)

/-- The BOOT record of a trial is written and the Hawk island restarts into a slot (19 R513). -/
def State.startTrial (slot : Fin 2) (s : State) : State :=
  let now := s.clk
  let cfg := s.param 0x1C0D
  let s := (s.modFw (fun f => { f with
    bootSlot := slot, trial := true, boots := 0, trialStart := now, trialCfg := cfg, ready := false })).storeOpen 0x03 0 16
  s.raise 272

/-- FW_ACTIVATE (19 R511, R513). Burpol's is answered by the image that boots; the loader's by the loader. -/
def execFwActivate (r : Req) (s : State) : Out :=
  .next ((s.runOp 0x0F05 security (len 0) (fun s =>
    s.needSmu true r (
      if s.sys.hawk == .recovery then
        if !s.nv.fw.ready then .no stState dtNoImageReady
        else .ok done ((s.startTrial 0).hawkReset 3 .booting)
      else if s.nv.fw.trial then .no stState dtSlotBusy
      else if !s.nv.fw.ready then .no stState dtNoImageReady
      else
        let slot := s.loadSlot
        let need := match s.nv.fw.images[2 * slot.val] with
          | some i => i.engineMin.toNat
          | none => 0
        if decide (s.nv.fw.engineSet.toNat < need) && !s.allQuiet then .no stState dtEngineIncompatible
        else
          let t := (s.startTrial slot).modFw (fun f => { f with activate := some r })
          .wait (t.hawkReset 3 .booting))) r).settle s)

/-- FW_COMMIT (19 R513): the trial ends and the ROLLBACK counter takes the image's LEVEL. -/
def execFwCommit (r : Req) (s : State) : Out :=
  .next (s.runOp 0x0F06 security (len 0) (fun s =>
    s.needSmu false r (
      if !s.nv.fw.trial then .no stState dtNotTrial
      else
        let level := match s.nv.fw.images[2 * s.nv.fw.run.val] with
          | some i => i.level
          | none => 0
        let t := (s.modFw (fun f => { f with trial := false, boots := 0, bootSlot := f.run })).storeOpen 0x03 0 16
        .ok done ((t.modSec (fun c => { c with rollback := max c.rollback level })).raise 272))) r)

/-- TRIAL_TIMEOUT (19 R513): TRIAL_S have passed; Burpol restarts into the former slot. -/
def execTrialTimeout (s : State) : Out :=
  if !s.nv.fw.trial || s.sys.hawk != .running then .next s
  else
    let t := s.atLeast (s.nv.fw.trialStart + bitsOf s.nv.fw.trialCfg 15 0 * 1000000000)
    .next ((t.trialFails.hawkReset 3 .booting).settle s)

/-! ### The boot (19 R510, R513 to R515) -/

/-- The Boot ROM finds a valid Burpol image in a slot: `valid` is what signature, key and body hash give. -/
def State.bootable (s : State) (valid : Bool) (slot : Fin 2) : Bool :=
  match s.nv.fw.images[2 * slot.val] with
  | some i => valid && s.levelOk i
  | none => false

/-- A boot in trial raises the boot count; beyond TRIAL_BOOTS the trial has failed. -/
def State.countBoot (s : State) : State :=
  if !s.nv.fw.trial then s
  else
    let s := s.modFw (fun f => { f with boots := f.boots + 1 })
    if bitsOf s.nv.fw.trialCfg 18 16 < s.nv.fw.boots then s.trialFails.modWd (fun x => { x with lastCause := 3#8 }) else s

/-- The slot that is booted, and the one tried first (19 R510). -/
def State.bootChoice (s : State) (validA validB : Bool) : Option (Fin 2) × Fin 2 :=
  let named := s.nv.fw.bootSlot
  let first := if s.sys.cold && s.power.safety.bootSel0 then otherSlot named else named
  let ok (k : Fin 2) : Bool := s.bootable (if k = 0 then validA else validB) k
  (if ok first then some first else if ok (otherSlot first) then some (otherSlot first) else none, first)

/-- The engines' microprograms after a boot of a slot: loaded afresh when the D-die was reset; otherwise a change waits in
each engine that does not run the image's set (19 R513, R514). -/
def State.setEngines (slot : Fin 2) (s : State) : State :=
  let set := match s.nv.fw.images[2 * slot.val] with
    | some i => i.engineSet
    | none => s.nv.fw.engineSet
  let ver := match s.nv.fw.images[2 * slot.val] with
    | some i => i.pairVer
    | none => s.nv.fw.pairVer
  let cold := s.sys.cold
  s.modFw (fun f =>
    let busy := f.pendGroups != 0#8 || f.pendFloat
    if cold then { f with run := slot, engineSet := set, pairVer := ver, pendGroups := 0, pendFloat := false }
    else if f.run = slot then f
    else if set = f.engineSet then
      { f with run := slot, pendGroups := if busy then ~~~f.pendGroups else 0, pendFloat := busy && !f.pendFloat }
    else { f with run := slot, pendGroups := 0xFF#8, pendFloat := true })

/-- Changes whose instant comes before FW_ACTIVATE is answered: every group that may take its engines at a commit
boundary does, and the float engines unless a sweep runs (19 R514, Table 19-10). -/
def State.enginesNow (s : State) : State :=
  (s.eachGroup (fun g t => t.applyEngines g)).applyFloat

/-- FW_ACTIVATE is answered by the new Burpol (19 R515). -/
def State.answerActivate (s : State) : State :=
  match s.nv.fw.activate with
  | none => s
  | some r =>
    let a := if s.fwPend = 0 then done else partial_ 0 dtEngineDeferred (leBytes 4 s.fwPend)
    (s.modFw (fun f => { f with activate := none })).complete r 0x0F05 a

/-- Every command of the record is answered (02 R40, 15 R410): one marked past its point of effect with its real outcome, any other
as aborted. -/
def State.answerRecord (s : State) : State :=
  let status := if s.sys.wd.lastCause == 3#8 then stAbUpdate else stAbFault
  let cs := s.host.record.filter (fun c => s.nv.fw.activate != some c.req)
  cs.foldl (fun t c => t.finish c.req c.opcode.toNat (c.outcome.getD ⟨status, 0, 0, []⟩)) s

/-- What a start after the reset of the D-die sets going: the watchdog, links, port, chain and calibration (15 R403,
17 R459, 18 R480, 09 R266, 08 R231). -/
def State.startParts (s : State) : State :=
  let s := s.wdRestart
  let s := (List.finRange 2).foldl (fun (t : State) q => t.ethRestart q) s
  let s := s.portEnable.calibrate (fun _ => true)
  let s := if bitAt (s.param 0x0D00) 2 then s.startEnumeration none else s
  let now := s.now
  let was := s.chg.low.run
  let s := if was == .waking then s else s.modLow (fun l => { l with
    record := { cause := 0, left := 0, seen := 0, duration := 0, runTime := BitVec.ofNat 64 now, interrupted := false, auxWait := false } })
  s.runsAgain

/-- The image runs. -/
def State.bootSlotNow (slot : Fin 2) (fallback : Bool) (badTables badSecure : List Nat) (badRegions : BitVec 8) (s : State) : State :=
  let cold := s.sys.cold
  let s := (s.setEngines slot).modSys (fun y => { y with hawk := .running, cold := false })
  let s := s.modSafety (fun x => { x with causes := x.causes &&& ~~~(1#12 <<< 9) })
  let s := if cold then (s.restoreAll badTables badSecure badRegions).startParts
    else (s.modLink (fun l => { l with streams := l.streams.map (fun x => x.map (fun y => { y with paused := false })) }))
  let s := if fallback then s.openEvent .burpol .o0Event else s
  let pend := !s.host.record.isEmpty
  let s := s.modHost (fun h => { h with recordPending := pend })
  let s := s.answerRecord
  let s := s.enginesNow.answerActivate
  let s := (List.finRange 4).foldl (fun t p => t.writePoints p) s
  s.custStart.serveHeld

/-- Neither image is valid: the recovery loader runs under the safe state of cause NO_IMAGE (19 R510, R511). The service
port takes its record from the last parameter image, or the defaults. -/
def State.enterRecovery (s : State) : State :=
  let s := s.modSys (fun y => { y with hawk := .recovery })
  let sp := (s.savedImage.getD []).filter (fun e => decide (0x1B00 ≤ e.1) && decide (e.1 < 0x1B10))
  let s := sp.foldl (fun t e => t.setParam e.1 e.2.toNat) s
  let s := (s.safeState 9 0).pickService.portEnable.runsAgain
  s.serveHeld

/-- FIRMWARE_BOOT (19 R510): the Boot ROM has checked the images. `badTables` and `badSecure` are the keys of locked tables
and SECURE records whose seal fails, `badRegions` the regions of the retention SRAM, in the order of 12 Table 12-7, whose CRC
fails. -/
def execFirmwareBoot (validA validB : Bool) (badTables badSecure : List Nat) (badRegions : BitVec 8) (s : State) : Out :=
  if s.sys.hawk != .booting then .next s
  else
    let t := s.countBoot
    let t := if t.sys.wd.raiseAtRelease then (t.raise 201).modWd (fun x => { x with raiseAtRelease := false }) else t
    match t.bootChoice validA validB with
    | (some slot, first) => .next ((t.bootSlotNow slot (slot != first) badTables badSecure badRegions).settle s)
    | (none, _) => .next (t.enterRecovery.settle s)

end Sys2Proof.Machine
end

