-- ==== Sys2Proof/Machine/SafeLine.lean ====
section
/-! DEFINITION. The FAULT_N line and the die-to-die link (01 R13, R20, R21; 12 R366). -/

namespace Sys2Proof.Machine

/-- Cause EXTERNAL is recorded, with no safe state of its own (20 R524). -/
def State.recordExternal (s : State) : State :=
  (s.modSafety (fun x => x.record 11 s.now)).modPower (PowerState.plumb 11 0 s.now)

/-- FAULT_N_EXTERNAL_LOW (01 R21, 12 R366): another device pulls the line low, or releases it. -/
def execFaultNExternalLow (low : Bool) (s : State) : Out :=
  let x := s.power.safety
  if x.external == low then .next s
  else
    let t := s.modSafety (fun y => { y with external := low })
    let t := if low then t.wakeBy 6 else t
    if x.driving || !s.islandUp then .next t
    else if low then .next ((t.recordExternal.faultNFalls (fun _ => 1)).settle s)
    else .next (t.raise 189)

/-- Causes that follow from levels, re-evaluated: comparators, sense inputs; a limit-set breach has no level once the
groups carry nothing. -/
def State.levelCauses (s : State) : State :=
  (s.scrimLevel.inputLevel).modSafety (fun x => { x with causes := x.causes &&& ~~~(1#12 <<< 10) })

/-- FAULT_N_RELEASE (12 R366): no cause is present, none has arisen for 100 ms, and the device is not in LOCKOUT. A line
that another device holds is recorded as EXTERNAL. -/
def execFaultNRelease (s : State) : Out :=
  let t := s.levelCauses
  let x := t.power.safety
  if !x.driving then .next s
  else if x.causes != 0 || t.power.seq.run == .lockout then .next t
  else
    let u := (t.atLeast (x.lastCauseAt + 100000000)).modSafety (fun y => { y with driving := false })
    .next (if x.external then u.recordExternal else u.raise 189)

/-- DIE_LINK_TIMEOUT (01 R13): no handshake for 2 µs with traffic pending. -/
def execDieLinkTimeout (s : State) : Out :=
  if !s.power.safety.dieLinkUp || !s.islandUp then .next s
  else .next (((s.modSafety (fun x => { x with dieLinkUp := false })).safeState 1 0).settle s)

/-- DIE_LINK_RESTORED (04 R125, 12 R366): the cause DIE_LINK ends. -/
def execDieLinkRestored (s : State) : Out :=
  if s.power.safety.dieLinkUp then .next s
  else .next (s.modSafety (fun x => { x with dieLinkUp := true, causes := x.causes &&& ~~~(1#12 <<< 1) }))

end Sys2Proof.Machine
end

