-- ==== Sys2Proof/Machine/Dispatch.lean ====
section
/-! DEFINITION. The effect of a command on everything but the queue: one arm per row of the opcode
table, each a call of that row's own meaning. -/

namespace Sys2Proof.Machine

def exec (i : Instr) (s : State) : Host.Outcome State Fault Refusal :=
  match i with
  | .smuDatagram port addr udp frame => Sys2Proof.Machine.execSmuDatagram port addr udp frame s
  | .smuSegmentReassemblyTimeout port addr udp id => Sys2Proof.Machine.execSmuSegmentReassemblyTimeout port addr udp id s
  | .serviceUartFrame coded fe => Sys2Proof.Machine.execServiceUartFrame coded fe s
  | .uartInterByteTimeout part => Sys2Proof.Machine.execUartInterByteTimeout part s
  | .tw0SubmitRequest buffer => Sys2Proof.Machine.execTw0SubmitRequest buffer s
  | .tw0ReleaseResponse => Sys2Proof.Machine.execTw0ReleaseResponse s
  | .tw0StatusRead => Sys2Proof.Machine.execTw0StatusRead s
  | .tw0AttnCauseRead => Sys2Proof.Machine.execTw0AttnCauseRead s
  | .attentionWrite outcome => Sys2Proof.Machine.execAttentionWrite outcome s
  | .tw0IslandResetRelease addr0 addr1 => Sys2Proof.Machine.execTw0IslandResetRelease addr0 addr1 s
  | .tw0IslandCycle => Sys2Proof.Machine.execTw0IslandCycle s
  | .ownerAttach r => Sys2Proof.Machine.execOwnerAttach r s
  | .ownerDetach r => Sys2Proof.Machine.execOwnerDetach r s
  | .ownerReset r => Sys2Proof.Machine.execOwnerReset r s
  | .ownerProvision r => Sys2Proof.Machine.execOwnerProvision r s
  | .leaseAcquire r => Sys2Proof.Machine.execLeaseAcquire r s
  | .leaseRenew r => Sys2Proof.Machine.execLeaseRenew r s
  | .leaseRelease r => Sys2Proof.Machine.execLeaseRelease r s
  | .leaseLapse => Sys2Proof.Machine.execLeaseLapse s
  | .paramGet r => Sys2Proof.Machine.execParamGet r s
  | .paramSet r => Sys2Proof.Machine.execParamSet r s
  | .paramGetBlock r => Sys2Proof.Machine.execParamGetBlock r s
  | .paramSave r => Sys2Proof.Machine.execParamSave r s
  | .paramDefaults r => Sys2Proof.Machine.execParamDefaults r s
  | .paramDescribe r => Sys2Proof.Machine.execParamDescribe r s
  | .tableInfo r => Sys2Proof.Machine.execTableInfo r s
  | .tableOpen r => Sys2Proof.Machine.execTableOpen r s
  | .tableWrite r => Sys2Proof.Machine.execTableWrite r s
  | .tableCommit r => Sys2Proof.Machine.execTableCommit r s
  | .tableAbort r => Sys2Proof.Machine.execTableAbort r s
  | .tableRead r => Sys2Proof.Machine.execTableRead r s
  | .tableDelete r => Sys2Proof.Machine.execTableDelete r s
  | .phaseStatus r => Sys2Proof.Machine.execPhaseStatus r s
  | .phaseTelemetry r => Sys2Proof.Machine.execPhaseTelemetry r s
  | .phaseCounters r => Sys2Proof.Machine.execPhaseCounters r s
  | .phaseRestore r => Sys2Proof.Machine.execPhaseRestore r s
  | .phaseReplaced r => Sys2Proof.Machine.execPhaseReplaced r s
  | .phaseFaultInject r => Sys2Proof.Machine.execPhaseFaultInject r s
  | .dfltAsserted p held => Sys2Proof.Machine.execDfltAsserted p held s
  | .fastTrip p bits => Sys2Proof.Machine.execFastTrip p bits s
  | .sdStuckDetect p => Sys2Proof.Machine.execSdStuckDetect p s
  | .sdClkLostDetect k => Sys2Proof.Machine.execSdClkLostDetect k s
  | .senseFlagClear p stuck clock => Sys2Proof.Machine.execSenseFlagClear p stuck clock s
  | .trowelUpdate p bits => Sys2Proof.Machine.execTrowelUpdate p bits s
  | .deadtimeLimit p => Sys2Proof.Machine.execDeadtimeLimit p s
  | .commitBoundary g half => Sys2Proof.Machine.execCommitBoundary g half s
  | .periodStart g ripple => Sys2Proof.Machine.execPeriodStart g ripple s
  | .openLegDetect p => Sys2Proof.Machine.execOpenLegDetect p s
  | .senseImplausibleDetect p => Sys2Proof.Machine.execSenseImplausibleDetect p s
  | .zeroCurrentOffsetDetect p => Sys2Proof.Machine.execZeroCurrentOffsetDetect p s
  | .senseSumRecord g => Sys2Proof.Machine.execSenseSumRecord g s
  | .shadowEnd p => Sys2Proof.Machine.execShadowEnd p s
  | .wearLimitReached p => Sys2Proof.Machine.execWearLimitReached p s
  | .phaseThermalInput p => Sys2Proof.Machine.execPhaseThermalInput p s
  | .outerLoopSample g inputs => Sys2Proof.Machine.execOuterLoopSample g inputs s
  | .lightLoadStageEntry g => Sys2Proof.Machine.execLightLoadStageEntry g s
  | .rampDownComplete g => Sys2Proof.Machine.execRampDownComplete g s
  | .scheduledSetpointEffect => Sys2Proof.Machine.execScheduledSetpointEffect s
  | .groupStatus r => Sys2Proof.Machine.execGroupStatus r s
  | .groupTelemetry r => Sys2Proof.Machine.execGroupTelemetry r s
  | .groupSetpoint r => Sys2Proof.Machine.execGroupSetpoint r s
  | .groupCancel r => Sys2Proof.Machine.execGroupCancel r s
  | .groupFaultAck r => Sys2Proof.Machine.execGroupFaultAck r s
  | .groupLimits r => Sys2Proof.Machine.execGroupLimits r s
  | .telemetryWindowEnd g => Sys2Proof.Machine.execTelemetryWindowEnd g s
  | .syncInEdge time => Sys2Proof.Machine.execSyncInEdge time s
  | .syncLossTimeout g => Sys2Proof.Machine.execSyncLossTimeout g s
  | .limitSetCheck means vLink => Sys2Proof.Machine.execLimitSetCheck means vLink s
  | .pairFrameSend => Sys2Proof.Machine.execPairFrameSend s
  | .pairFrameReceive bytes good peer handover => Sys2Proof.Machine.execPairFrameReceive bytes good peer handover s
  | .pairLost => Sys2Proof.Machine.execPairLost s
  | .pairTransactionTimeout tag => Sys2Proof.Machine.execPairTransactionTimeout tag s
  | .pairStatus r => Sys2Proof.Machine.execPairStatus r s
  | .pairEnable r => Sys2Proof.Machine.execPairEnable r s
  | .pairTakeEffect g => Sys2Proof.Machine.execPairTakeEffect g s
  | .pairEnableTimeout g => Sys2Proof.Machine.execPairEnableTimeout g s
  | .pairDisable r => Sys2Proof.Machine.execPairDisable r s
  | .pairDisableEffect g => Sys2Proof.Machine.execPairDisableEffect g s
  | .pairHandover r => Sys2Proof.Machine.execPairHandover r s
  | .pairHandoverEffect g => Sys2Proof.Machine.execPairHandoverEffect g s
  | .stringEvaluation p => Sys2Proof.Machine.execStringEvaluation p s
  | .stringStatus r => Sys2Proof.Machine.execStringStatus r s
  | .chargeFaultRead r => Sys2Proof.Machine.execChargeFaultRead r s
  | .profileRestart r => Sys2Proof.Machine.execProfileRestart r s
  | .sleepEnter r wakeN => Sys2Proof.Machine.execSleepEnter r wakeN s
  | .dustSheetEnter r wakeN => Sys2Proof.Machine.execDustSheetEnter r wakeN s
  | .lowPowerStateReached => Sys2Proof.Machine.execLowPowerStateReached s
  | .wake r => Sys2Proof.Machine.execWake r s
  | .wakeSource code => Sys2Proof.Machine.execWakeSource code s
  | .realTimeAlarm => Sys2Proof.Machine.execRealTimeAlarm s
  | .ccWakeThreshold c => Sys2Proof.Machine.execCcWakeThreshold c s
  | .wakeComplete chainOk => Sys2Proof.Machine.execWakeComplete chainOk s
  | .feedEvaluation okA okB inputs => Sys2Proof.Machine.execFeedEvaluation okA okB inputs s
  | .feedOvercurrentTrip f bits => Sys2Proof.Machine.execFeedOvercurrentTrip f bits s
  | .feedReverseTurnOff f bits => Sys2Proof.Machine.execFeedReverseTurnOff f bits s
  | .feedBlockingRearm f => Sys2Proof.Machine.execFeedBlockingRearm f s
  | .feedBlockTimeout f => Sys2Proof.Machine.execFeedBlockTimeout f s
  | .feedRetryWaitEnd f => Sys2Proof.Machine.execFeedRetryWaitEnd f s
  | .feedBusOv f => Sys2Proof.Machine.execFeedBusOv f s
  | .feedSwitchLost f => Sys2Proof.Machine.execFeedSwitchLost f s
  | .feedPgDelayExpiry f => Sys2Proof.Machine.execFeedPgDelayExpiry f s
  | .feedRetryClear f => Sys2Proof.Machine.execFeedRetryClear f s
  | .feedStatus r => Sys2Proof.Machine.execFeedStatus r s
  | .feedArm r => Sys2Proof.Machine.execFeedArm r s
  | .feedOpen r => Sys2Proof.Machine.execFeedOpen r s
  | .contactorStatus r => Sys2Proof.Machine.execContactorStatus r s
  | .contactorClose r => Sys2Proof.Machine.execContactorClose r s
  | .contactorOpen r => Sys2Proof.Machine.execContactorOpen r s
  | .contactorWeldTest r => Sys2Proof.Machine.execContactorWeldTest r s
  | .contactorWeldClear r => Sys2Proof.Machine.execContactorWeldClear r s
  | .contactorAutoPrecharge p => Sys2Proof.Machine.execContactorAutoPrecharge p s
  | .prechargeComplete p => Sys2Proof.Machine.execPrechargeComplete p s
  | .prechargeTimeout p => Sys2Proof.Machine.execPrechargeTimeout p s
  | .contactorFeedbackChange p closed => Sys2Proof.Machine.execContactorFeedbackChange p closed s
  | .contactorCloseTimeout p => Sys2Proof.Machine.execContactorCloseTimeout p s
  | .contactorOpenTimeout p => Sys2Proof.Machine.execContactorOpenTimeout p s
  | .contactorDropped p => Sys2Proof.Machine.execContactorDropped p s
  | .weldTestTimeout p => Sys2Proof.Machine.execWeldTestTimeout p s
  | .housekeepingRun k readings amps => Sys2Proof.Machine.execHousekeepingRun k readings amps s
  | .selfCalibrationComplete k good => Sys2Proof.Machine.execSelfCalibrationComplete k good s
  | .sequenceTrigger x_ => Sys2Proof.Machine.execSequenceTrigger x_ s
  | .sequenceRunComplete x_ codes => Sys2Proof.Machine.execSequenceRunComplete x_ codes s
  | .sequenceTableActivation => Sys2Proof.Machine.execSequenceTableActivation s
  | .boardCalibrationComplete sum least most => Sys2Proof.Machine.execBoardCalibrationComplete sum least most s
  | .comparatorAssert n uv => Sys2Proof.Machine.execComparatorAssert n uv s
  | .comparatorRelease n uv => Sys2Proof.Machine.execComparatorRelease n uv s
  | .vsdInputInvalid v => Sys2Proof.Machine.execVsdInputInvalid v s
  | .vsdInputValid v => Sys2Proof.Machine.execVsdInputValid v s
  | .modulatorClockLost cc lost => Sys2Proof.Machine.execModulatorClockLost cc lost s
  | .coulombTick counts => Sys2Proof.Machine.execCoulombTick counts s
  | .coulombTelemetryInterval c => Sys2Proof.Machine.execCoulombTelemetryInterval c s
  | .measRead r => Sys2Proof.Machine.execMeasRead r s
  | .measVsdRead r => Sys2Proof.Machine.execMeasVsdRead r s
  | .measTrigger r => Sys2Proof.Machine.execMeasTrigger r s
  | .measCalibrate r => Sys2Proof.Machine.execMeasCalibrate r s
  | .measCmpStatus r => Sys2Proof.Machine.execMeasCmpStatus r s
  | .measCmpClear r => Sys2Proof.Machine.execMeasCmpClear r s
  | .ccRead r => Sys2Proof.Machine.execCcRead r s
  | .ccReset r => Sys2Proof.Machine.execCcReset r s
  | .measSeqStatus r => Sys2Proof.Machine.execMeasSeqStatus r s
  | .chainReceiverLock q symbols => Sys2Proof.Machine.execChainReceiverLock q symbols s
  | .ringStateChange q origin => Sys2Proof.Machine.execRingStateChange q origin s
  | .enumerationEnd found reachA reachB a b => Sys2Proof.Machine.execEnumerationEnd found reachA reachB a b s
  | .delayMeasurement a b deltas => Sys2Proof.Machine.execDelayMeasurement a b deltas s
  | .markSend q => Sys2Proof.Machine.execMarkSend q s
  | .sampleInstant => Sys2Proof.Machine.execSampleInstant s
  | .sweepReadsStart => Sys2Proof.Machine.execSweepReadsStart s
  | .chainReply q frame => Sys2Proof.Machine.execChainReply q frame s
  | .chainReadTimeout q => Sys2Proof.Machine.execChainReadTimeout q s
  | .sweepComplete => Sys2Proof.Machine.execSweepComplete s
  | .sweepDeadline => Sys2Proof.Machine.execSweepDeadline s
  | .moduleChainLost m => Sys2Proof.Machine.execModuleChainLost m s
  | .balanceRequestSend q => Sys2Proof.Machine.execBalanceRequestSend q s
  | .chainPortStop q => Sys2Proof.Machine.execChainPortStop q s
  | .chainStatus r => Sys2Proof.Machine.execChainStatus r s
  | .chainEnumerate r => Sys2Proof.Machine.execChainEnumerate r s
  | .chainModuleRead r => Sys2Proof.Machine.execChainModuleRead r s
  | .chainBalance r => Sys2Proof.Machine.execChainBalance r s
  | .chainNodeCmd r => Sys2Proof.Machine.execChainNodeCmd r s
  | .chainProbe r => Sys2Proof.Machine.execChainProbe r s
  | .moduleAccept r => Sys2Proof.Machine.execModuleAccept r s
  | .floatUpdate m => Sys2Proof.Machine.execFloatUpdate m s
  | .cellDiverged m c => Sys2Proof.Machine.execCellDiverged m c s
  | .tempStale m => Sys2Proof.Machine.execTempStale m s
  | .balancingDecision => Sys2Proof.Machine.execBalancingDecision s
  | .learningInterval => Sys2Proof.Machine.execLearningInterval s
  | .reducedRateEntry => Sys2Proof.Machine.execReducedRateEntry s
  | .fullRateResume => Sys2Proof.Machine.execFullRateResume s
  | .hibernateEntry => Sys2Proof.Machine.execHibernateEntry s
  | .hibernateRecord => Sys2Proof.Machine.execHibernateRecord s
  | .endOfLife p => Sys2Proof.Machine.execEndOfLife p s
  | .estStatusRead r => Sys2Proof.Machine.execEstStatusRead r s
  | .estCellRead r => Sys2Proof.Machine.execEstCellRead r s
  | .estLearnNow r => Sys2Proof.Machine.execEstLearnNow r s
  | .estSetSoc r => Sys2Proof.Machine.execEstSetSoc r s
  | .estRelearn r => Sys2Proof.Machine.execEstRelearn r s
  | .stippleSweepStart p => Sys2Proof.Machine.execStippleSweepStart p s
  | .stipplePointStart p => Sys2Proof.Machine.execStipplePointStart p s
  | .stipplePointEnd p amps => Sys2Proof.Machine.execStipplePointEnd p amps s
  | .stippleDeferTimeout p => Sys2Proof.Machine.execStippleDeferTimeout p s
  | .stippleSweepEnd p => Sys2Proof.Machine.execStippleSweepEnd p s
  | .stippleStart r => Sys2Proof.Machine.execStippleStart r s
  | .stippleAbort r => Sys2Proof.Machine.execStippleAbort r s
  | .stippleStatus r => Sys2Proof.Machine.execStippleStatus r s
  | .stippleResult r => Sys2Proof.Machine.execStippleResult r s
  | .auxRise aux => Sys2Proof.Machine.execAuxRise aux s
  | .sequencerStageStart => Sys2Proof.Machine.execSequencerStageStart s
  | .railPowerGood rail mv => Sys2Proof.Machine.execRailPowerGood rail mv s
  | .railRiseTimeout rail cause mv => Sys2Proof.Machine.execRailRiseTimeout rail cause mv s
  | .dDieResetRelease pairRole bootSel0 banks => Sys2Proof.Machine.execDDieResetRelease pairRole bootSel0 banks s
  | .criticalRailFault rail cause mv => Sys2Proof.Machine.execCriticalRailFault rail cause mv s
  | .noncriticalRailFault rail cause mv => Sys2Proof.Machine.execNoncriticalRailFault rail cause mv s
  | .downSequenceStage => Sys2Proof.Machine.execDownSequenceStage s
  | .sequenceRetryWaitEnd => Sys2Proof.Machine.execSequenceRetryWaitEnd s
  | .lockoutExit => Sys2Proof.Machine.execLockoutExit s
  | .sequenceRetryReset => Sys2Proof.Machine.execSequenceRetryReset s
  | .stepNAdvance => Sys2Proof.Machine.execStepNAdvance s
  | .stepNTimeout => Sys2Proof.Machine.execStepNTimeout s
  | .auxBrownOut aux => Sys2Proof.Machine.execAuxBrownOut aux s
  | .auxReturn aux => Sys2Proof.Machine.execAuxReturn aux s
  | .rideThroughExpiry => Sys2Proof.Machine.execRideThroughExpiry s
  | .holdReadyChange hold => Sys2Proof.Machine.execHoldReadyChange hold s
  | .retentionLoss => Sys2Proof.Machine.execRetentionLoss s
  | .railStatus r => Sys2Proof.Machine.execRailStatus r s
  | .railOn r => Sys2Proof.Machine.execRailOn r s
  | .railOff r => Sys2Proof.Machine.execRailOff r s
  | .railHistory r => Sys2Proof.Machine.execRailHistory r s
  | .faultNExternalLow low => Sys2Proof.Machine.execFaultNExternalLow low s
  | .faultNRelease => Sys2Proof.Machine.execFaultNRelease s
  | .dieLinkTimeout => Sys2Proof.Machine.execDieLinkTimeout s
  | .referenceFailure refclk => Sys2Proof.Machine.execReferenceFailure refclk s
  | .ppsInEdge time falling => Sys2Proof.Machine.execPpsInEdge time falling s
  | .ppsSourceLoss => Sys2Proof.Machine.execPpsSourceLoss s
  | .holdoverTimeout => Sys2Proof.Machine.execHoldoverTimeout s
  | .primarySourceReturn => Sys2Proof.Machine.execPrimarySourceReturn s
  | .ppsOutPulse => Sys2Proof.Machine.execPpsOutPulse s
  | .tbStatusRead r => Sys2Proof.Machine.execTbStatusRead r s
  | .tbAlignNow r => Sys2Proof.Machine.execTbAlignNow r s
  | .tbSetTod r => Sys2Proof.Machine.execTbSetTod r s
  | .thermalEvaluation samples => Sys2Proof.Machine.execThermalEvaluation samples s
  | .thermalGraceExpiry => Sys2Proof.Machine.execThermalGraceExpiry s
  | .thermalRelease => Sys2Proof.Machine.execThermalRelease s
  | .hardwareThermalTrip dDie first second => Sys2Proof.Machine.execHardwareThermalTrip dDie first second s
  | .thermalTripRelease => Sys2Proof.Machine.execThermalTripRelease s
  | .diodeBroken dDie mv => Sys2Proof.Machine.execDiodeBroken dDie mv s
  | .nvmWriteHold => Sys2Proof.Machine.execNvmWriteHold s
  | .nvmWriteResume => Sys2Proof.Machine.execNvmWriteResume s
  | .pvtMeasurement readings counts => Sys2Proof.Machine.execPvtMeasurement readings counts s
  | .droopEvent mv ns => Sys2Proof.Machine.execDroopEvent mv ns s
  | .hotHourCount => Sys2Proof.Machine.execHotHourCount s
  | .thStatusRead r => Sys2Proof.Machine.execThStatusRead r s
  | .thPvtRead r => Sys2Proof.Machine.execThPvtRead r s
  | .watchdogKick hc1 => Sys2Proof.Machine.execWatchdogKick hc1 s
  | .watchdogWarning => Sys2Proof.Machine.execWatchdogWarning s
  | .watchdogExpiry drained => Sys2Proof.Machine.execWatchdogExpiry drained s
  | .hawkResetHoldEnd => Sys2Proof.Machine.execHawkResetHoldEnd s
  | .watchdogHoldTimeout => Sys2Proof.Machine.execWatchdogHoldTimeout s
  | .longOpStart => Sys2Proof.Machine.execLongOpStart s
  | .longOpEnd => Sys2Proof.Machine.execLongOpEnd s
  | .longOpSuspendTimeout => Sys2Proof.Machine.execLongOpSuspendTimeout s
  | .customerHeartbeatMissing => Sys2Proof.Machine.execCustomerHeartbeatMissing s
  | .firmwareBoot validA validB badTables badSecure badRegions => Sys2Proof.Machine.execFirmwareBoot validA validB badTables badSecure badRegions s
  | .wdStatusRead r => Sys2Proof.Machine.execWdStatusRead r s
  | .irqCounts r => Sys2Proof.Machine.execIrqCounts r s
  | .wdTest r => Sys2Proof.Machine.execWdTest r s
  | .interruptRaise n => Sys2Proof.Machine.execInterruptRaise n s
  | .interruptRouting => Sys2Proof.Machine.execInterruptRouting s
  | .irqCountFold => Sys2Proof.Machine.execIrqCountFold s
  | .icClaimRead k => Sys2Proof.Machine.execIcClaimRead k s
  | .icEoiWrite k value => Sys2Proof.Machine.execIcEoiWrite k value s
  | .icSwsetWrite core value => Sys2Proof.Machine.execIcSwsetWrite core value s
  | .icSwclrWrite core value => Sys2Proof.Machine.execIcSwclrWrite core value s
  | .icCfgWrite core n value => Sys2Proof.Machine.execIcCfgWrite core n value s
  | .icStatRead core n => Sys2Proof.Machine.execIcStatRead core n s
  | .icThrWrite core k value => Sys2Proof.Machine.execIcThrWrite core k value s
  | .dmaKick core value => Sys2Proof.Machine.execDmaKick core value s
  | .dmaHaltWrite core value => Sys2Proof.Machine.execDmaHaltWrite core value s
  | .dmaChannelDisable c => Sys2Proof.Machine.execDmaChannelDisable c s
  | .dmaGlobalDisable => Sys2Proof.Machine.execDmaGlobalDisable s
  | .dmaResume c => Sys2Proof.Machine.execDmaResume c s
  | .dmaCringRdWrite c value => Sys2Proof.Machine.execDmaCringRdWrite c value s
  | .dmaBurst failing corrected => Sys2Proof.Machine.execDmaBurst failing corrected s
  | .dmaDescriptorComplete c => Sys2Proof.Machine.execDmaDescriptorComplete c s
  | .memDiscard count => Sys2Proof.Machine.execMemDiscard count s
  | .memFirstErrClear value => Sys2Proof.Machine.execMemFirstErrClear value s
  | .recordAck => Sys2Proof.Machine.execRecordAck s
  | .coreMemoryAccess core address write length bad => Sys2Proof.Machine.execCoreMemoryAccess core address write length bad s
  | .registerWrite core address value => Sys2Proof.Machine.execRegisterWrite core address value s
  | .ringRecordAppend source => Sys2Proof.Machine.execRingRecordAppend source s
  | .streamFlushTimeout slot => Sys2Proof.Machine.execStreamFlushTimeout slot s
  | .ringCreate r => Sys2Proof.Machine.execRingCreate r s
  | .ringDelete r => Sys2Proof.Machine.execRingDelete r s
  | .ringStatus r => Sys2Proof.Machine.execRingStatus r s
  | .ringRead r => Sys2Proof.Machine.execRingRead r s
  | .ringAck r => Sys2Proof.Machine.execRingAck r s
  | .ringList r => Sys2Proof.Machine.execRingList r s
  | .memStatus r => Sys2Proof.Machine.execMemStatus r s
  | .ethLinkChange q up speed duplex => Sys2Proof.Machine.execEthLinkChange q up speed duplex s
  | .ethFrameReceived q frame => Sys2Proof.Machine.execEthFrameReceived q frame s
  | .ethPortRestart q => Sys2Proof.Machine.execEthPortRestart q s
  | .ptpSyncReceived q offset logSync => Sys2Proof.Machine.execPtpSyncReceived q offset logSync s
  | .ptpDelayReqSend q => Sys2Proof.Machine.execPtpDelayReqSend q s
  | .ptpMasterSend q => Sys2Proof.Machine.execPtpMasterSend q s
  | .ptpSourceLoss q => Sys2Proof.Machine.execPtpSourceLoss q s
  | .prpSupervisionSend => Sys2Proof.Machine.execPrpSupervisionSend s
  | .prpLanTimeout q => Sys2Proof.Machine.execPrpLanTimeout q s
  | .linkStatus r => Sys2Proof.Machine.execLinkStatus r s
  | .ethRestart r => Sys2Proof.Machine.execEthRestart r s
  | .twCycle r => Sys2Proof.Machine.execTwCycle r s
  | .tw1Xfer r outcome => Sys2Proof.Machine.execTw1Xfer r outcome s
  | .tw1StretchTimeout lost => Sys2Proof.Machine.execTw1StretchTimeout lost s
  | .streamCreate r => Sys2Proof.Machine.execStreamCreate r s
  | .streamDelete r => Sys2Proof.Machine.execStreamDelete r s
  | .streamStatus r => Sys2Proof.Machine.execStreamStatus r s
  | .ccAttach source orient vbus => Sys2Proof.Machine.execCcAttach source orient vbus s
  | .ccDetach vbus => Sys2Proof.Machine.execCcDetach vbus s
  | .pdSourceCapabilities objects => Sys2Proof.Machine.execPdSourceCapabilities objects s
  | .pdPsRdy vbus => Sys2Proof.Machine.execPdPsRdy vbus s
  | .pdMessageReceived bytes crcOk => Sys2Proof.Machine.execPdMessageReceived bytes crcOk s
  | .pdHardResetReceived => Sys2Proof.Machine.execPdHardResetReceived s
  | .pdRetriesExhausted => Sys2Proof.Machine.execPdRetriesExhausted s
  | .pdEnterMode position => Sys2Proof.Machine.execPdEnterMode position s
  | .pdExitMode => Sys2Proof.Machine.execPdExitMode s
  | .vbusMonitorBreach vbus ns => Sys2Proof.Machine.execVbusMonitorBreach vbus ns s
  | .moistureCheck ohms => Sys2Proof.Machine.execMoistureCheck ohms s
  | .sbuCorrosion volts => Sys2Proof.Machine.execSbuCorrosion volts s
  | .spStatusRead r => Sys2Proof.Machine.execSpStatusRead r s
  | .spPolicyClaim r => Sys2Proof.Machine.execSpPolicyClaim r s
  | .spPolicyRelease r => Sys2Proof.Machine.execSpPolicyRelease r s
  | .spPdPolicy r => Sys2Proof.Machine.execSpPdPolicy r s
  | .spPdSend r => Sys2Proof.Machine.execSpPdSend r s
  | .nvmRecordWrite => Sys2Proof.Machine.execNvmRecordWrite s
  | .nvmScrub sector corrected uncorrectable => Sys2Proof.Machine.execNvmScrub sector corrected uncorrectable s
  | .sectorMigrationComplete => Sys2Proof.Machine.execSectorMigrationComplete s
  | .trialTimeout => Sys2Proof.Machine.execTrialTimeout s
  | .nvmStatusRead r => Sys2Proof.Machine.execNvmStatusRead r s
  | .fwOpen r => Sys2Proof.Machine.execFwOpen r s
  | .fwWrite r => Sys2Proof.Machine.execFwWrite r s
  | .fwFinish r sigOk hashOk keyOk => Sys2Proof.Machine.execFwFinish r sigOk hashOk keyOk s
  | .fwActivate r => Sys2Proof.Machine.execFwActivate r s
  | .fwCommit r => Sys2Proof.Machine.execFwCommit r s
  | .fwAbort r => Sys2Proof.Machine.execFwAbort r s
  | .logRead r => Sys2Proof.Machine.execLogRead r s
  | .fuseRead r => Sys2Proof.Machine.execFuseRead r s
  | .fuseBlow r copyA copyB => Sys2Proof.Machine.execFuseBlow r copyA copyB s
  | .custCommit r => Sys2Proof.Machine.execCustCommit r s
  | .custKeySet r => Sys2Proof.Machine.execCustKeySet r s
  | .dfltBlankingEnd p => Sys2Proof.Machine.execDfltBlankingEnd p s
  | .dfltDeasserted p => Sys2Proof.Machine.execDfltDeasserted p s
  | .phaseBankSupplyWindow k mv ns => Sys2Proof.Machine.execPhaseBankSupplyWindow k mv ns s
  | .dieLinkRestored => Sys2Proof.Machine.execDieLinkRestored s
  | .referenceRestored refclk => Sys2Proof.Machine.execReferenceRestored refclk s
  | .pllLockChange lock => Sys2Proof.Machine.execPllLockChange lock s
  | .drpToggle => Sys2Proof.Machine.execDrpToggle s
  | .holdUpFlushComplete => Sys2Proof.Machine.execHoldUpFlushComplete s

end Sys2Proof.Machine
end

