-- ==== Sys2Proof/Safety.lean ====
section
/-! DEFINITION. What the spec promises of every state and of every step, in the terms the claims use:
gate outputs, canonical stores, fuses, device time; and when a request is executed. -/

namespace Sys2Proof.Machine

/-- The two gate outputs of a channel are not high together, now or at any transition placed for them (03 R61). -/
abbrev Phase.exclusive (x : Phase) : Prop := ¬ (x.pwmH = true ∧ x.pwmL = true) ∧ ∀ e ∈ x.line, ¬ (e.h = true ∧ e.l = true)

/-- No channel drives both gate outputs. -/
abbrev State.gatesExclusive (s : State) : Prop := ∀ p : Fin 64, (s.phase p).exclusive

/-- Memory is in its one canonical form: addresses strictly rising, no byte listed that reads as an unlisted one. -/
abbrev MemState.wf (m : MemState) : Prop := bankWf 0#8 m.bytes = true

/-- Stored parameter values are in canonical form: rising IDs, no value listed that equals its default. -/
abbrev ParamState.wf (p : ParamState) : Prop :=
  bankRising 0 p.values = true ∧ ∀ e ∈ p.values, e.2 ≠ BitVec.ofNat 64 (paramDefault e.1)

/-- A fuse copy that is blown stays blown (19 R507). -/
abbrev Fuse.within (f g : Fuse) : Prop := (f.copyA = true → g.copyA = true) ∧ (f.copyB = true → g.copyB = true)

/-- Fuses blow one way, and the rollback count does not fall (19 R507, R513). -/
structure SecState.within (c d : SecState) : Prop where
  wdtHwstart : c.wdtHwstart.within d.wdtHwstart
  servicePortDisable : c.servicePortDisable.within d.servicePortDisable
  customerCores : c.customerCores.within d.customerCores
  debugLock : c.debugLock.within d.debugLock
  rollback : c.rollback ≤ d.rollback

/-- A fuse is latched as blown only when a copy of it is blown (19 R507). -/
abbrev Fuse.honest (f : Fuse) : Prop := f.latched = true → f.reads = true

/-- So for every option fuse. -/
abbrev SecState.honest (c : SecState) : Prop := ∀ k : Fin 4, (c.fuse k.val).honest

/-- Device time has not run back (13 R378): it counts from the same release and its steps are no fewer, or the D-die
is in reset, or it has been released again since. -/
def State.aged (s t : State) : Prop :=
  (t.power.releaseAt = s.power.releaseAt ∧ s.clock.tb.step ≤ t.clock.tb.step ∧
    (s.power.safety.dieRunning = false → t.power.safety.dieRunning = false)) ∨
  t.power.safety.dieRunning = false ∨ s.clk ≤ t.power.releaseAt

/-- A request of an opcode is executed by what runs: it is served, it is its turn on its objects (02 R41), and it passes the checks
before its payload (02 Table 2-5). The statements on opcodes take it as their premise. -/
abbrev Ready (opcode : Nat) (alts : Alts) (r : Req) (s : State) : Prop :=
  s.serving = true ∧ s.turn opcode r = true ∧ s.precheck opcode alts r = none

/-- A whole frame of an attached owner passes checks 1 to 11 (02 R36); `o` is the owner with the sequence number
consumed. OWNER_ATTACH, which needs no session, is left to its own statement. -/
abbrev State.takesFrame (s : State) (v : Via) (b : List Byte) (o : Owner) : Prop :=
  s.serving = true ∧ s.chg.low.run = .running ∧ frameWhole v b = true ∧ numAt b 4 2 ≠ 0x0E01 ∧
    s.checkSender b (s.frameRequest v b) = none ∧ s.resetting (s.frameRequest v b).owner = false ∧
    (s.owner (s.frameRequest v b).owner).state = .attached ∧
    (s.owner (s.frameRequest v b).owner).checkSequence (numAt b 4 2) (s.frameRequest v b) = (0, o) ∧
    (s.modOwner (s.frameRequest v b).owner (fun _ => o)).checkCommand (numAt b 4 2) (s.frameRequest v b) = none

/-- The state with the command of a frame in the command record, in the order of acceptance, and its owner as given (02 R37, R40,
R41). -/
def State.withRequest (s : State) (v : Via) (b : List Byte) (o : Owner) : State :=
  (s.modOwner (s.frameRequest v b).owner (fun _ => o)).record (s.frameRequest v b) (numAt b 4 2)

end Sys2Proof.Machine
end

