-- ==== Sys2Proof/Certificates/Slice0/Obligations.lean ====
section
/-! DEFINITION. The statements for the provers: the meaning of every command as a whole, its own effect by the rules of the
spec, and the promises that hold of every step. -/

open Sys2Proof Sys2Proof.Machine

/-- A step runs the command at the front of the queue (README (the row's cut: a block with a queue of commands)). A step
with command c at the front of the queue is exec of c on the state with the rest of the queue. (The queue is the
model's own: log entry 2.) -/
def Obligations.StepTakesFront : Prop :=
  ∀ (c : Instr) (rest : List Instr) (s : State),
    step { s with pending := c :: rest } = exec c { s with pending := rest }

/-- An idle block only lets time pass (the model's choice, log entry 3) (The task's rule for an empty queue; log entry 3).
With nothing waiting, a step changes nothing but the clock, which moves one nanosecond. The spec does not speak of an
empty queue: DESIGN CHOICE, log entry 3. -/
def Obligations.IdleStep : Prop :=
  ∀ s : State, s.pending = [] → step s = .next { s with clk := s.clk + 1 }

/-- Every command completes and takes only itself from the queue (02 R36, 02 R43, 20 R525). From every state, exec of
every command answers a next state whose queue is the one before; so a step on a queue never stops the block and
removes exactly the front. (That a row whose condition is unmet changes nothing is the model's reading: log entry 4.) -/
def Obligations.EveryCommandCompletes : Prop :=
  (∀ (c : Instr) (s : State), ∃ t, exec c s = .next t ∧ t.pending = s.pending) ∧
  (∀ (c : Instr) (rest : List Instr) (s : State), s.pending = c :: rest → ∃ t, step s = .next t ∧ t.pending = rest)

/-- No step drives both gate outputs of a channel high (03 R61). From every state in which no channel has both gate
outputs high, a step leads to such a state, whatever the command. -/
def Obligations.GatesNeverBothHigh : Prop :=
  ∀ s t : State, s.gatesExclusive → step s = .next t → t.gatesExclusive

/-- Memory and stored parameters stay in canonical form (16 R428, 16 R432, 02 R52). From every state whose memory lists
rising addresses with no byte that an unlisted one reads as, and whose stored parameters are rising IDs with no value
equal to its default, every step leads to such a state. (The canonical form is the model's own.) -/
def Obligations.StoresStayCanonical : Prop :=
  ∀ s t : State, s.sys.mem.wf → s.host.params.wf → step s = .next t → t.sys.mem.wf ∧ t.host.params.wf

/-- A blown fuse is never cleared and the rollback count never falls (19 R507, 19 R508, 19 R513). No step clears a copy of
an option fuse or lowers the ROLLBACK count, from any state; and from every state in which a fuse is latched only when
a copy of it is blown, every step leads to such a state. -/
def Obligations.FusesBlowOneWay : Prop :=
  (∀ s t : State, step s = .next t → s.nv.sec.within t.nv.sec) ∧
  (∀ s t : State, s.nv.sec.honest → step s = .next t → t.nv.sec.honest)

/-- Time never runs back (13 R378, 13 R382, 13 R384). No step lowers elapsed time, and device time is not set back: it
counts from the same release with steps that do not fall, unless the D-die is in reset or has been released again. -/
def Obligations.TimeNeverRunsBack : Prop :=
  ∀ s t : State, step s = .next t → s.clk ≤ t.clk ∧ s.aged t

/-- The state after reset meets the invariants (03 R61, 12 R357, 19 R507). At reset no channel drives both outputs high,
memory and parameters are canonical, no fuse is latched without being blown, the D-die runs, no command waits and no
byte of memory has been written. -/
def Obligations.ResetMeetsInvariants : Prop :=
  State.reset.gatesExclusive ∧ State.reset.sys.mem.wf ∧ State.reset.host.params.wf ∧ State.reset.nv.sec.honest ∧
  State.reset.power.safety.dieRunning = true ∧ State.reset.pending = [] ∧ State.reset.sys.mem.bytes = []

/-- What answering a command changes (02 R39, 02 R40, 02 R42). Completing a command takes it out of the command record and
marks its point of effect, and changes no phase, group, string, feed, contactor, measurement, module, rail, clock,
port, parameter, table, owner or lease. -/
def Obligations.AnswerFrame : Prop :=
  ∀ (r : Req) (opcode : Nat) (a : Reply) (s : State),
    let t := s.complete r opcode a
    (∀ c ∈ t.host.record, sameCmd r c = false) ∧ (∀ c ∈ s.host.record, sameCmd r c = false → c ∈ t.host.record) ∧
    t.host.poeCnt = s.host.poeCnt + 1#32 ∧ t.host.params = s.host.params ∧ t.host.tables = s.host.tables ∧
    t.host.owners = s.host.owners ∧ t.host.lease = s.host.lease ∧ t.clk = s.clk ∧ t.conv = s.conv ∧ t.chg = s.chg ∧
    t.bus = s.bus ∧ t.meas = s.meas ∧ t.stack = s.stack ∧ t.power = s.power ∧ t.clock = s.clock ∧ t.port = s.port ∧
    t.sys.mem = s.sys.mem ∧ t.nv.nvm.records = s.nv.nvm.records ∧ t.nv.fw = s.nv.fw ∧ t.pending = s.pending

/-- A refused opcode changes nothing (02 R36, 02 R43, 02 R562). Where a request does not pass the checks, or its payload
has the wrong shape, or its opcode's own rule fails it, every phase, group, string, feed, contactor, measurement,
module, rail, clock, port, memory byte, parameter, table, owner and lease is as before. -/
def Obligations.RefusalChangesNothing : Prop :=
  ∀ (opcode : Nat) (alts : Alts) (shape : List Byte → Option Nat) (body : State → Res) (r : Req) (s : State),
    (s.precheck opcode alts r ≠ none ∨ shape r.payload ≠ none ∨ ∃ st d p, body s = .fail st d p) →
    let t := s.runOp opcode alts shape body r
    t.host.params = s.host.params ∧ t.host.tables = s.host.tables ∧ t.host.owners = s.host.owners ∧
    t.host.lease = s.host.lease ∧ t.clk = s.clk ∧ t.conv = s.conv ∧ t.chg = s.chg ∧ t.bus = s.bus ∧ t.meas = s.meas ∧
    t.stack = s.stack ∧ t.power = s.power ∧ t.clock = s.clock ∧ t.port = s.port ∧ t.sys.mem = s.sys.mem ∧
    t.nv.nvm.records = s.nv.nvm.records ∧ t.nv.fw = s.nv.fw ∧ t.pending = s.pending

/-- An accepted frame on SMU, TW0 and the service UART puts one command into the record (02 R36, 02 R37, 02 R40, 17 R465,
17 R474, 18 R491). SMU_DATAGRAM, TW0_SUBMIT_REQUEST and SERVICE_UART_FRAME: where the transport is up and the frame
passes checks 1 to 11, the command stands at the end of the command record, the owner has consumed the sequence
number, and nothing else changes (but what the row itself sets: the sender's address learned on SMU; the pointer, the
request buffer and BUSY on TW0; the baud rate of the UART). -/
def Obligations.MailboxFramesAccepted : Prop :=
  (∀ (q : Fin 2) (addr : U32) (udp : U16) (b : List Byte) (o : Owner) (s : State),
    let t := s.modLink (LinkState.learn q addr)
    (s.eth q).up = true → (s.eth q).set.ip ≠ 0 → b.length ≤ (s.eth q).maxUdp → numAt b 0 1 = 2 →
    t.takesFrame (smuVia q addr udp b) b o →
    exec (.smuDatagram q addr udp b) s = .next (t.withRequest (smuVia q addr udp b) b o)) ∧
  (∀ (buffer : List Byte) (a : BitVec 7) (o : Owner) (s : State),
    let buf := (buffer ++ zeros 4096).take 4096
    let b := buf.take (16 + numAt buf 6 2)
    let v : Via := { transport := .tw0, port := 0, addr := 0, udp := 0 }
    let t := (s.twStart 9).modTw (fun w => { w with request := buf, busyUntil := s.clk + 20000 })
    s.link.tw.address = some a → s.link.tw.busyUntil ≤ s.clk → s.twHeld < 16 → numAt buf 6 2 ≤ 4080 →
    t.takesFrame v b o →
    exec (.tw0SubmitRequest buffer) s = .next (t.withRequest v b o)) ∧
  (∀ (coded b : List Byte) (o : Owner) (s : State),
    s.port.alt = true → coded ≠ [] → coded.length ≤ 4114 → cobs (coded.length + 1) coded = some b →
    (s.pickParam 0x1B05).takesFrame uartVia b o →
    exec (.serviceUartFrame coded 0) s = .next ((s.pickParam 0x1B05).withRequest uartVia b o))

/-- Reassembly and inter-byte time-outs, TW0 window reads, attention and the TW0 island (17 R466, 17 R473, 17 R474, 17
R475, 17 R476, 18 R491). SMU_SEGMENT_REASSEMBLY_TIMEOUT drops the reassembly and counts a frame error;
UART_INTER_BYTE_TIMEOUT counts one; TW0_RELEASE_RESPONSE takes the oldest frame off the queue; TW0_STATUS_READ answers
STATUS and cancels a pending attention; TW0_ATTN_CAUSE_READ answers ATTN_CAUSE and clears it; ATTENTION_WRITE that was
sent puts the device address and the cause on the bus, clears the attention and raises IS253; TW0_ISLAND_RESET_RELEASE
latches the address from straps that are 1 when all eight samples are high; TW0_ISLAND_CYCLE empties the window. -/
def Obligations.MailboxFramingEvents : Prop :=
  (∀ (q : Fin 2) (addr : U32) (udp id : U16) (x : Reassembly) (s : State),
    s.link.reassemblies.find? (fun y => y.isOf q addr udp id) = some x →
    exec (.smuSegmentReassemblyTimeout q addr udp id) s =
      .next (((s.atLeast (x.since + s.param (etId q 9) * 1000000)).dropReassembly q addr udp id).ethError q)) ∧
  (∀ (part : List Byte) (s : State), s.port.alt = true → part ≠ [] →
    exec (.uartInterByteTimeout part) s =
      .next { s with port := { s.port with cntFrameErr := satInc s.port.cntFrameErr } }) ∧
  (∀ (a : BitVec 7) (x : Response) (xs : List Response) (s : State), s.link.tw.address = some a → s.link.tw.queue = x :: xs →
    exec .tw0ReleaseResponse s =
      .next ((s.pickParam 0x1A21).modTw (fun w => { w with pointer := 9, queue := xs, cntTx := w.cntTx + 1#32 }))) ∧
  (∀ (a : BitVec 7) (s : State), s.link.tw.address = some a →
    exec .tw0StatusRead s =
      .next ((s.pickParam 0x1A21).modTw (fun w => { w with pointer := 2, data := BitVec.ofNat 8 s.twStatusByte, attn := false }))) ∧
  (∀ (a : BitVec 7) (s : State), s.link.tw.address = some a →
    exec .tw0AttnCauseRead s =
      .next ((s.pickParam 0x1A21).modTw (fun w => { w with pointer := 3, data := w.attnCause, attnCause := 0 }))) ∧
  (∀ (a : BitVec 7) (s : State), s.link.tw.address = some a → s.link.tw.attn = true → bitAt (s.param 0x1A20) 0 = true →
    exec (.attentionWrite .sent) s =
      .next ((((s.atLeast (max s.link.tw.attnFrom (s.clk + bitsOf (s.param 0x1A20) 23 16 * 100))).pickParam 0x1A21).modTw
        (fun w => { w with
          attn := false
          attnOut := w.attnOut ++ [(BitVec.ofNat 7 (bitsOf (s.param 0x1A20) 7 1), leBytes 1 a.toNat ++ leBytes 1 w.attnCause.toNat)] })).raise 253)) ∧
  (∀ (addr0 addr1 : BitVec 8) (s : State), s.link.tw.address = none → s.power.safety.dieRunning = true →
    ∃ t, exec (.tw0IslandResetRelease addr0 addr1) s = .next t ∧
      t.link.tw.address = some (BitVec.ofNat 7 (0x58 + 2 * flag (decide (addr1 = 255)) + flag (decide (addr0 = 255)))) ∧ t.link.tw.vio = true ∧
      t.conv = s.conv ∧ t.host = s.host ∧ t.power = s.power ∧ t.nv = s.nv) ∧
  (∀ s : State, exec .tw0IslandCycle s = .next ((s.twCycle 1000000).modTw (fun w => { w with vio := true })))

/-- Sessions, owner reset and provisioning (02 R38, 02 R46, 02 R563, 19 R517). OWNER_ATTACH with the owner's epoch opens a
session drawn from the random source and answers session, sequence number and epoch; OWNER_DETACH closes it and gives
up lease and claim; OWNER_RESET resets the owner; OWNER_PROVISION of a new owner stores its values and its first epoch
salt. -/
def Obligations.OwnerCommands : Prop :=
  (∀ (r : Req) (s : State), Ready 0x0E01 anyOwner r s → r.payload.length = 4 →
    numAt r.payload 0 4 = (s.owner r.owner).epoch.toNat → s.chg.low.record.left = 0 →
    let t := s.drawn.modOwner r.owner (Owner.open_ r.owner r.via s.random)
    exec (.ownerAttach r) s = .next (t.complete r 0x0E01 (done (leBytes 4 (t.owner r.owner).session.toNat ++
      leBytes 4 (t.owner r.owner).high.toNat ++ leBytes 4 (t.owner r.owner).epoch.toNat)))) ∧
  (∀ (r : Req) (s : State), Ready 0x0E02 anyOwner r s → r.payload = [] →
    exec (.ownerDetach r) s = .next ((((s.leaseLeaves r.owner .detach).claimLeaves r.owner).modOwner r.owner Owner.close).complete
      r 0x0E02 done |>.settle s)) ∧
  (∀ (r : Req) (o : Fin 16) (s : State), Ready 0x0E03 anyOwner r s → r.payload.length = 1 → numAt r.payload 0 1 = o.val →
    (o = r.owner ∨ s.hasPriv r.owner 4 = true) → (s.owner o).state ≠ .unprovisioned →
    exec (.ownerReset r) s = .next (((s.ownerReset o r).complete r 0x0E03 done).settle s)) ∧
  (∀ (r : Req) (o : Fin 16) (s : State), Ready 0x0E04 security r s → provisionShape r.payload = none →
    numAt r.payload 0 1 = o.val → o ≠ 0 → (s.owner o).state = .unprovisioned → r.via.transport = .smuAuth →
    numAt r.payload 1 1 ≤ 0x1F → numAt r.payload 2 1 ≤ 0x0F → numAt r.payload 4 2 ≤ 4096 → numAt r.payload 8 4 ≤ 1572864 →
    s.quotaOk o (numAt r.payload 4 2) (numAt r.payload 8 4) = true →
    exec (.ownerProvision r) s = .next (((((s.modOwner o (Owner.provision r.payload)).drawn.modOwner o
      (fun y => { y with epochSalt := s.random })).storeSecure o.val).complete r 0x0E04 done).settle s))

/-- The control lease: acquire, renew, release, lapse (02 R30, 02 R31, 02 R32, 02 R33, 02 R563). LEASE_ACQUIRE of a free
lease assigns it to the caller from now on; LEASE_RENEW by the holder in time restarts its term; LEASE_RELEASE by the
holder and LEASE_LAPSE leave no holder. -/
def Obligations.LeaseCommands : Prop :=
  (∀ (r : Req) (s : State), Ready 0x0E05 control r s → r.payload.length = 1 → numAt r.payload 0 1 < 2 →
    (numAt r.payload 0 1 = 1 → r.owner = 0) → s.host.lease.holder = none ∨ s.host.lease.holder = some r.owner →
    exec (.leaseAcquire r) s = .next (((s.modHost (fun h => { h with
      lease := { holder := some r.owner, since := s.clk, count := h.lease.count + 1#32 } })).complete r 0x0E05 done).settle s)) ∧
  (∀ (r : Req) (o : Fin 16) (s : State), Ready 0x0E05 control r s → r.payload = [1#8] → r.owner = 0 →
    s.host.lease.holder = some o → o ≠ 0 →
    exec (.leaseAcquire r) s = .next (((((s.endSetpoints o).stippleAbortAll 5).leaseTo 0).complete r 0x0E05 done).settle s)) ∧
  (∀ (r : Req) (s : State), Ready 0x0E06 control r s → r.payload = [] → s.host.lease.holder = some r.owner →
    (∀ t, s.leaseEnd = some t → s.clk < t) →
    exec (.leaseRenew r) s = .next ((s.modHost (fun h => { h with lease := { h.lease with since := s.clk } })).complete
      r 0x0E06 done)) ∧
  (∀ (r : Req) (s : State), Ready 0x0E07 anyOwner r s → r.payload = [] → s.host.lease.holder = some r.owner →
    exec (.leaseRelease r) s = .next (((s.leaseLost .release).complete r 0x0E07 done).settle s)) ∧
  (∀ (t : Nanos) (s : State), s.leaseEnd = some t →
    exec .leaseLapse s = .next (((s.atLeast t).leaseLost .lapse).settle s))

/-- Reading, setting, saving and describing parameters (02 R48, 02 R49, 02 R52, 02 R53, 02 R565). PARAM_GET and
PARAM_GET_BLOCK answer the items of known IDs; PARAM_SET of items that pass every check and name no mode stores them
together, and its answer tells a setpoint that a limit reduced; PARAM_SAVE hands the image to MRAM and waits for it;
PARAM_DEFAULTS with every group quiet stores the defaults; PARAM_DESCRIBE answers a description whose first bytes are
the ID and the type. -/
def Obligations.ParameterCommands : Prop :=
  (∀ (r : Req) (s : State), Ready 0x0201 observe r s → countShape 2 (maxItems r.via) r.payload = none →
    let ids := (List.range (numAt r.payload 0 2)).map (fun i => numAt r.payload (4 + 2 * i) 2)
    ids.all (fun id => (paramEntry? id).isSome) = true →
    exec (.paramGet r) s = .next (s.complete r 0x0201 (done (s.getItems ids)))) ∧
  (∀ (r : Req) (s : State), Ready 0x0202 [4, 2, 16] r s → countShape 12 (maxItems r.via) r.payload = none →
    s.setRefusal r.owner (setItems r.payload) = none → modeGroups (setValues r.payload) = [] →
    let t := s.applyItems r (setValues r.payload)
    let u := t.complete r 0x0202 (t.setReply (setValues r.payload))
    exec (.paramSet r) s = .next (({ u with freeCtr := u.freeCtr + 1 } : State).settle s)) ∧
  (∀ (r : Req) (s : State), Ready 0x0203 observe r s → r.payload.length = 4 →
    let first := numAt r.payload 0 2
    let n := numAt r.payload 2 2
    let ids := ((List.range (min n (0x1C20 - first))).map (first + ·)).filter (fun id => (paramEntry? id).isSome)
    n ≠ 0 → first + n ≤ 0x10000 → ids.length ≤ maxItems r.via →
    exec (.paramGetBlock r) s = .next (s.complete r 0x0203 (done (s.getItems ids)))) ∧
  (∀ (r : Req) (s : State), Ready 0x0204 configure r s → r.payload = [] → s.nvmHeld = false →
    exec (.paramSave r) s = .next (((s.modHost (fun h => { h with params := { h.params with
      saveWaits := h.params.saveWaits ++ [r] } })).store 1 0 s.imageBytes).park r 0x0204)) ∧
  (∀ (r : Req) (s : State), Ready 0x0205 configure r s → r.payload = [] → s.allQuiet = true →
    let ids := s.host.params.values.map (·.1)
    exec (.paramDefaults r) s = .next (((s.paramHooks r ids (ids.foldl (fun t id => t.storeItem id (paramDefault id)) s)).complete
      r 0x0205 done).settle s)) ∧
  (∀ (r : Req) (e : PEntry) (s : State), Ready 0x0206 observe r s → lenZ 4 [(2, 2)] r.payload = none →
    paramEntry? (numAt r.payload 0 2) = some e →
    let id := numAt r.payload 0 2
    exec (.paramDescribe r) s =
      .next (s.complete r 0x0206 (done (leBytes 2 id ++ leBytes 1 e.ty ++
        leBytes 1 (flag (e.ro || (paramRule id).cond = 0xFF) + fieldAt 1 1 (flag (match (paramRule id).bound with | .fields _ => true | _ => false)) +
          fieldAt 2 1 (flag (paramRule id).cross) + fieldAt 3 1 (flag (isSaved id))) ++
        leBytes 1 (writePriv id) ++ leBytes 1 (flag (writeLease id)) ++ leBytes 1 (paramRule id).cond ++
        leBytes 1 (describedSpans id).length ++ leBytes 8 (container e.ty e.dflt) ++
        ((describedSpans id).map (fun x => leBytes 8 x.1 ++ leBytes 8 x.2)).flatten))))

/-- Opening, writing, committing, reading and deleting tables (02 R54, 02 R55, 02 R56, 02 R57, 02 R58, 02 R59, 02 R564).
TABLE_OPEN makes a staging buffer; TABLE_WRITE fills it; TABLE_COMMIT of a table that passes every check hands its
record to MRAM and waits, its buffer held until its point of effect; TABLE_ABORT drops the buffer; TABLE_INFO and
TABLE_READ answer the table in force; TABLE_DELETE of a table not in use removes it. -/
def Obligations.TableCommands : Prop :=
  (∀ (r : Req) (key : Nat) (s : State), Ready 0x0302 configure r s → r.payload.length = 16 → numAt r.payload 12 4 ≤ 1 →
    (s.owner r.owner).staging = none → keyAt r.payload = some key → numAt r.payload 4 4 ≤ 65536 →
    exec (.tableOpen r) s = .next ((s.modOwner r.owner (fun o => { o with
      staging := some (stagingOf (headerOf r.payload) (s.tableStamp key)) })).complete r 0x0302 done)) ∧
  (∀ (r : Req) (g : Staging) (s : State), Ready 0x0303 configure r s → 4 ≤ r.payload.length →
    r.payload.length ≤ 4 + maxBody r.via → (s.owner r.owner).staging = some g → g.held = false →
    exec (.tableWrite r) s = .next ((s.modOwner r.owner (fun o => { o with
      staging := some (g.write (numAt r.payload 0 4) (r.payload.drop 4)) })).complete r 0x0303 done)) ∧
  (∀ (r : Req) (g : Staging) (s : State), Ready 0x0304 configure r s → r.payload = [] →
    (s.owner r.owner).staging = some g → g.held = false → g.header.locked = false →
    let key := g.header.type.toNat * 256 + g.header.index.toNat
    s.commitRefusal r g key = none → s.nvmHeld = false →
    let t : Table := { header := g.header, body := g.body, inMram := false, sealOk := true, left := 0, waiter := some r, commits := 0 }
    exec (.tableCommit r) s = .next ((((((s.modOwner r.owner (fun o => { o with staging := some { g with held := true } })).modHost
      (fun x => { x with committing := x.committing ++ [(key, t)] })).store 2 key (g.header.bytes ++ g.body)).park r 0x0304)).settle s)) ∧
  (∀ (r : Req) (g : Staging) (s : State), Ready 0x0305 configure r s → r.payload = [] → (s.owner r.owner).staging = some g →
    g.held = false →
    exec (.tableAbort r) s = .next ((s.modOwner r.owner (fun o => { o with staging := none })).complete r 0x0305 done)) ∧
  (∀ (r : Req) (key : Nat) (s : State), Ready 0x0301 observe r s → lenZ 4 [(2, 2)] r.payload = none →
    keyAt r.payload = some key →
    exec (.tableInfo r) s = .next (s.complete r 0x0301
      (done ((s.tableInfo key).1 ++ leBytes 1 (s.tableInfo key).2 ++ zeros 3)))) ∧
  (∀ (r : Req) (key : Nat) (x : Table) (s : State), Ready 0x0306 observe r s → lenZ 12 [(2, 2)] r.payload = none →
    keyAt r.payload = some key → 1 ≤ numAt r.payload 8 4 → numAt r.payload 8 4 ≤ 4048 → s.activeTable key = some x →
    numAt r.payload 4 4 < x.body.length →
    exec (.tableRead r) s = .next (s.complete r 0x0306
      (done (x.header.bytes ++ slice x.body (numAt r.payload 4 4) (numAt r.payload 8 4))))) ∧
  (∀ (r : Req) (key : Nat) (x : Table) (s : State), Ready 0x0307 configure r s → lenZ 4 [(2, 2)] r.payload = none →
    keyAt r.payload = some key → bankGet? key s.host.tables = some x → x.header.locked = false → s.tableInUse key = false →
    (key = 0x0C00 → s.allQuiet = true) →
    exec (.tableDelete r) s = .next (((s.dropTable key).complete r 0x0307 done).settle s))

/-- Ethernet ports: link, frames, restart, PRP (17 R457, 17 R458, 17 R459, 17 R460, 17 R464). ETH_LINK_CHANGE of a port in
use takes the speed; ETH_FRAME_RECEIVED counts a good frame for the port and learns the sender, and answers an ARP
request for its address; ETH_PORT_RESTART takes the stored configuration; PRP_SUPERVISION_SEND sends one frame every 2
s; PRP_LAN_TIMEOUT marks the LAN down. -/
def Obligations.LinkPortEvents : Prop :=
  (∀ (q : Fin 2) (speed : Fin 3) (s : State), (s.eth q).up = false → (s.eth q).set.cfg.getLsbD 0 = true →
    bitsOf (s.eth q).set.cfg.toNat 3 2 = 0 →
    exec (.ethLinkChange q true speed true) s = .next (((s.modEth q (fun y => { y with
      up := true, speed := speed.val + 1, duplex := true })).raise (etSource q 0)).ptpDecide)) ∧
  (∀ (q : Fin 2) (f : EthFrame) (sender target : U32) (s : State), (s.eth q).up = true → f.fcsOk = true → f.sumOk = true →
    f.overflow = false → f.vlan = none → f.length ≤ 1518 → f.dest.getLsbD 40 = true → s.link.prp = false → f.prp = none → (s.eth q).set.ip ≠ 0 →
    f.payload = .arp sender target true → target = (s.eth q).set.ip →
    exec (.ethFrameReceived q f) s = .next (((s.modEth q (fun y => { y with cntRx := y.cntRx + 1#32 })).modLink
      (LinkState.learn q sender)).modLink (fun l => ({ l with out := l.out ++ [.arpReply q sender] } : LinkState).transmit q 1))) ∧
  (∀ (q : Fin 2) (s : State), (s.eth q).restarting = true → (s.eth q).up = false →
    exec (.ethPortRestart q) s = .next ((s.modEth q (fun x => { x with
      set := s.ethSettings q, restarting := false, addrConflict := false
      up := x.up && (s.ethSettings q).cfg.getLsbD 0 })).ptpDecide)) ∧
  (∀ s : State, s.link.prp = true →
    ∃ t, exec .prpSupervisionSend s = .next t ∧ t.clk = max s.clk (s.link.prpSent + 2000000000) ∧ t.link.prpSent = t.clk ∧
      t.link.out = s.link.out ++ [.supervision s.link.prpSeq] ∧ t.conv = s.conv ∧ t.host = s.host ∧ t.nv = s.nv) ∧
  (∀ (q : Fin 2) (s : State), s.link.prp = true → (s.eth q).lanOk = true →
    exec (.prpLanTimeout q) s = .next (((s.atLeast ((s.eth q).lanSeen + 6000000000)).modEth q
      (fun x => { x with lanOk := false })).raise (etSource q 4)))

/-- PTP on a port (17 R461, 17 R462, 17 R463). PTP_SYNC_RECEIVED at a SLAVE port with two path-delay measurements gives
the offset t1 − t2 plus ingress latency, path delay and ETH asymmetry to the timebase; PTP_DELAY_REQ_SEND and
PTP_MASTER_SEND send their messages no sooner than their interval; PTP_SOURCE_LOSS removes the parent. -/
def Obligations.PtpEvents : Prop :=
  (∀ (q : Fin 2) (offset logSync : Reading) (s : State), (s.eth q).ptp = .slave → 2 ≤ (s.eth q).delays.length →
    let u := (s.modEth q (fun y => { y with
      lastSync := some s.clk, parent := y.parent.map (fun p => { p with logSync := logSync }) })).pickTime
    let theta := roundQ ((offset + (u.ptpLatency q).1 : Int) + (s.eth q).delay + (u.heldI 0x1609 : Int))
    let t := u.modTb (fun b => { b with ptpOffset := theta })
    exec (.ptpSyncReceived q offset logSync) s = .next (if t.usesSource 2 then t.measureOffset theta else t)) ∧
  (∀ (q : Fin 2) (p : PtpParent) (x : Nanos) (s : State), (s.eth q).parent = some p → (s.eth q).ptp = .slave →
    (s.eth q).lastSync = some x →
    ∃ t, exec (.ptpDelayReqSend q) s = .next t ∧
      t.clk = max s.clk ((s.eth q).lastDelayReq + logInterval (max (s.ptpLog q 28) p.logDreq)) ∧
      t.link.out = s.link.out ++ [.delayReq q] ∧ (t.eth q).lastDelayReq = t.clk ∧ t.conv = s.conv ∧ t.nv = s.nv) ∧
  (∀ (q : Fin 2) (s : State), (s.eth q).ptp = .master →
    ∃ t cls steps, exec (.ptpMasterSend q) s = .next t ∧
      t.clk = max s.clk ((s.eth q).lastMaster + logInterval (s.ptpLog q 16)) ∧ (t.eth q).lastMaster = t.clk ∧
      t.link.out = s.link.out ++ [.sync q (bitAt (s.param (etId q 6)) 1) t.now, .announce q cls steps] ∧ t.conv = s.conv ∧
      (s.clock.tb.run = .holdover → cls = 187 ∧ steps = 0) ∧ (s.clock.tb.run = .free → cls = 248 ∧ steps = 0) ∧
      (∀ (m : Fin 2) (p : PtpParent), s.clock.tb.run = .locked → s.slavePort = some m → s.parentOf m = some p →
        cls = p.clockClass ∧ steps = p.steps + 1)) ∧
  (∀ (q : Fin 2) (p : PtpParent) (s : State), (s.eth q).parent = some p → (s.eth q).lastSync = none →
    exec (.ptpSourceLoss q) s = .next (((s.atLeast ((s.eth q).lastAnnounce +
      bitsOf (s.param (etId q 6)) 27 24 * logInterval p.logAnn)).modEth q
        (fun y => { y with parent := none, lastSync := none, delays := [] })).ptpDecide))

/-- Links, TW1 and streams (17 R459, 17 R475, 17 R477, 17 R479, 17 R470, 17 R471). LINK_STATUS answers the ports and
TW_STATUS; ETH_RESTART marks the ports named; TW_CYCLE from another transport cycles the island; TW1_XFER puts its
address, its bytes and the count to read on the bus and answers the bytes read; TW1_STRETCH_TIMEOUT ends the transfer
with TW1_BUS. STREAM_CREATE of a ring of the caller on a configured port takes a free slot; STREAM_FLUSH_TIMEOUT sends
what is waiting; STREAM_DELETE empties the slot and STREAM_STATUS answers its counts. -/
def Obligations.LinkAndStreamCommands : Prop :=
  (∀ (r : Req) (s : State), Ready 0x0160 observe r s → r.payload = [] →
    let port (q : Fin 2) := leBytes 4 (s.eth q).status ++ leBytes 4 (s.eth q).delayWord ++ leBytes 4 (s.eth q).cntRx.toNat ++
      leBytes 4 (s.eth q).cntTx.toNat ++ leBytes 4 (s.eth q).cntErr.toNat ++ leBytes 4 (s.eth q).cntDrop.toNat
    exec (.linkStatus r) s = .next (s.complete r 0x0160 (done (port 0 ++ port 1 ++ leBytes 4 s.link.tw.status)))) ∧
  (∀ (r : Req) (s : State), Ready 0x0161 configure r s → r.payload.length = 1 → numAt r.payload 0 1 < 4 →
    exec (.ethRestart r) s = .next (((List.finRange 2).foldl (fun t q => if bitAt (numAt r.payload 0 1) q.val then
      t.modEth q (fun x => { x with restarting := true }) else t) s).complete r 0x0161 done)) ∧
  (∀ (r : Req) (s : State), Ready 0x0162 service r s → r.payload = [] → r.via.transport ≠ .tw0 →
    exec (.twCycle r) s = .next ((s.twCycle 10000000).complete r 0x0162 done)) ∧
  (∀ (r : Req) (bytes : List Byte) (s : State), Ready 0x0163 service r s → s.link.tw.tw1 = none →
    8 ≤ r.payload.length → numAt r.payload 2 2 ≤ 256 → r.payload.length = 8 + numAt r.payload 2 2 →
    zeroAt r.payload 1 1 = true → zeroAt r.payload 6 2 = true → numAt r.payload 0 1 < 128 → numAt r.payload 4 2 ≤ 256 →
    exec (.tw1Xfer r (.done bytes)) s = .next (((s.modTw (fun w => { w with
      tw1Out := some (BitVec.ofNat 7 (numAt r.payload 0 1), slice r.payload 8 (numAt r.payload 2 2), numAt r.payload 4 2) })).raise 256).complete r 0x0163
      (done (bytes.take (numAt r.payload 4 2) ++ zeros (numAt r.payload 4 2 - bytes.length))))) ∧
  (∀ (r : Req) (s : State), s.link.tw.tw1 = some r →
    exec (.tw1StretchTimeout true) s = .next (((s.modTw (fun w => { w with tw1 := none })).complete r 0x0163
      ⟨stState, 0, 0x0103, []⟩).raise 258)) ∧
  (∀ (slot : Fin 32) (x : Stream) (t0 : Nanos) (s : State), s.stream slot = some x → x.oldest = some t0 →
    exec (.streamFlushTimeout slot) s = .next ((s.atLeast (t0 + x.flushMs * 1000000)).streamSend slot)) ∧
  (∀ (slot : Fin 32) (s : State), (s.stream slot).bind (·.oldest) = none →
    exec (.streamFlushTimeout slot) s = .next s) ∧
  (∀ (r : Req) (x : Ring) (i : Fin 32) (s : State), Ready 0x0D10 observe r s → lenZ 16 [(14, 2)] r.payload = none →
    s.ring? (numAt r.payload 0 4) = some x → x.owner = r.owner → numAt r.payload 10 1 < 4 → 1 ≤ numAt r.payload 11 1 →
    1 ≤ numAt r.payload 12 2 → numAt r.payload 12 2 ≤ 10000 → numAt r.payload 11 1 ≤ 140 →
    let ports := (List.finRange 2).filter (fun q => bitAt (numAt r.payload 10 1) q.val)
    ports.any (fun q => decide ((s.eth q).maxUdp < 48 + 64 * numAt r.payload 11 1)) = false →
    ports.all (fun q => (s.eth q).set.ip == 0) = false →
    (List.finRange 32).find? (fun i => (s.stream i).isNone) = some i →
    let no := (s.owner r.owner).streamCreations
    let y : Stream :=
      { owner := r.owner, ring := numAt r.payload 0 4, portMask := numAt r.payload 10 1
        addr := BitVec.ofNat 32 (numAt r.payload 4 4), udp := BitVec.ofNat 16 (numAt r.payload 8 2), records := numAt r.payload 11 1, flushMs := numAt r.payload 12 2
        createNo := no, dseq := 0, deferrals := 0, paused := false, oldest := waitingFrom s.clk x }
    let t := (s.modOwner r.owner (fun o => { o with streamCreations := o.streamCreations + 1#32 })).modLink
      (fun l => { l with streams := vmod l.streams i (fun _ => some y) })
    exec (.streamCreate r) s = .next (((if numAt r.payload 11 1 ≤ x.fill then t.streamSend i else t).storeSecure 17).complete r 0x0D10
        (done (leBytes 1 i.val ++ zeros 3 ++ leBytes 4 no.toNat)))) ∧
  (∀ (r : Req) (i : Fin 32) (x : Stream) (s : State), Ready 0x0D11 [1, 16] r s → r.payload.length = 1 →
    numAt r.payload 0 1 = i.val → s.stream i = some x → x.owner = r.owner → s.hasPriv r.owner 0 = true →
    exec (.streamDelete r) s = .next (((s.modLink (fun l => { l with streams := vmod l.streams i (fun _ => none) })).storeSecure 17).complete
      r 0x0D11 done)) ∧
  (∀ (r : Req) (i : Fin 32) (x : Stream) (s : State), Ready 0x0D12 observe r s → r.payload.length = 1 →
    numAt r.payload 0 1 = i.val → s.stream i = some x →
    exec (.streamStatus r) s = .next (s.complete r 0x0D12
      (done (leBytes 4 x.createNo.toNat ++ leBytes 8 x.dseq.toNat ++ leBytes 4 x.deferrals.toNat))))

/-- Driver faults, trips and sense flags of a phase (03 R74, 03 R76, 03 R77, 03 R78, 03 R79, 03 R81). Each row has its
effect in every state: DFLT_ASSERTED whose input has kept the asserted level as long as GLITCH asks sets the input and
has it looked at, and a shorter one changes nothing; DFLT_BLANKING_END of a fault that waits acts at the end of the
blanking; DFLT_DEASSERTED takes the input off the asserted level; FAST_TRIP whose raw filter output lies beyond a
threshold drives the outputs of an ACTIVE phase low, and otherwise changes nothing; SD_STUCK_DETECT,
SD_CLK_LOST_DETECT and SENSE_FLAG_CLEAR set and clear the live flags, the clock flag for the whole octet. -/
def Obligations.PhaseDetectors : Prop :=
  (∀ (p : Fin 64) (held : Nat) (s : State), 4 * bitsOf (s.held (phId p 0xB)) 7 4 ≤ held →
    exec (.dfltAsserted p held) s = .next (((s.modPhase p (fun x =>
      { x with dfltPin := bitAt (s.held (phId p 0xB)) 0 })).dfltCheck p).settle s)) ∧
  (∀ (p : Fin 64) (held : Nat) (s : State), held < 4 * bitsOf (s.held (phId p 0xB)) 7 4 →
    exec (.dfltAsserted p held) s = .next s) ∧
  (∀ (p : Fin 64) (s : State), (s.phase p).dfltLevel = false → s.dfltAsserted p = true →
    (s.phase p).blanked (s.blankTime p) s.edgeNow = false →
    s.dfltCheck p = ((s.modPhase p (fun x => { x with dfltLevel := true })).raise p.val).dfltActs p) ∧
  (∀ (p : Fin 64) (e : Nat) (s : State), (s.phase p).dfltWait = true → (s.phase p).blankEnd (s.blankTime p) s.edgeNow = some e →
    exec (.dfltBlankingEnd p) s = .next (((s.atDevice ((e + 15) / 16)).dfltActs p).settle s)) ∧
  (∀ (p : Fin 64) (s : State),
    exec (.dfltDeasserted p) s = .next ((s.modPhase p (fun x =>
      { x with dfltPin := !bitAt (s.held (phId p 0xB)) 0 })).dfltCheck p)) ∧
  (∀ (p : Fin 64) (bits : List Bool) (s : State),
    let raw : Int := s.filterSum p (sinc2 (s.tripLen p)) bits
    (s.phase p).tripHi < raw ∨ raw < (s.phase p).tripLo → (s.phase p).role = .active → (s.phase p).heldLow = false →
    let t := ((s.modPhase p (fun x => { x.low s.edgeNow with
      heldLow := true, tripAges := 0 :: x.tripAges
      counters := { x.counters with trips := satInc x.counters.trips } })).setCause p 2).bumpEpoch (s.groupOf p) .tripOrFaultN
    exec (.fastTrip p bits) s = .next ((if bitsOf (t.held (phId p 9)) 27 24 ≤ (t.phase p).trips64 then t.retireNext p 2
      else t).settle s)) ∧
  (∀ (p : Fin 64) (bits : List Bool) (s : State),
    let raw : Int := s.filterSum p (sinc2 (s.tripLen p)) bits
    (s.phase p).tripLo ≤ raw → raw ≤ (s.phase p).tripHi → exec (.fastTrip p bits) s = .next s) ∧
  (∀ (p : Fin 64) (s : State),
    exec (.sdStuckDetect p) s = .next ((s.modPhase p (fun x => { x with sdStuck := true })).senseFlag p 4)) ∧
  (∀ (k : Fin 8) (s : State),
    exec (.sdClkLostDetect k) s =
      .next ((octet k).foldl (fun t p => (t.modPhase p (fun x => { x with sdClkLost := true })).senseFlag p 5) s)) ∧
  (∀ (p : Fin 64) (stuck clock : Bool) (s : State),
    let t := s.modPhase p (fun x => { x with sdStuck := x.sdStuck && !stuck })
    exec (.senseFlagClear p stuck clock) s = .next (if clock then
      (octet (octetOf p)).foldl (fun u q => u.modPhase q (fun x => { x with sdClkLost := false })) t else t))

/-- Dead-time limit, open leg, implausible sense, offset, thermal, wear, shadow end and bank supply (03 R60, 03 R70, 05
R128, 05 R130, 05 R131, 05 R132, 05 R133, 05 R137, 21 R536, 22 R546). Where its criterion holds, each row has the
response that its rule gives: DEADTIME_LIMIT a fallback with its cause, OPEN_LEG_DETECT and ZERO_CURRENT_OFFSET_DETECT
a retirement at the next commit boundary, SENSE_IMPLAUSIBLE_DETECT a sense failure that waits for that boundary,
SENSE_SUM_RECORD one record, SHADOW_END the end of the last shadow period, WEAR_LIMIT_REACHED the wear action due at
the period starts, PHASE_THERMAL_INPUT the level of its source, PHASE_BANK_SUPPLY_WINDOW the outputs of an octet in
high impedance and its phases as on a driver fault after 1 µs outside the window, and none before. -/
def Obligations.PhaseDiagnostics : Prop :=
  (∀ (p : Fin 64) (s : State), 16 ≤ (s.phase p).clampRun → (s.phase p).dtFallback = false →
    exec (.deadtimeLimit p) s = .next ((s.modPhase p (fun x => { x with dtFallback := true })).setCause p 7)) ∧
  (∀ (p : Fin 64) (s : State), 3 ≤ (s.phase p).openFails → (s.phase p).role = .active →
    exec (.openLegDetect p) s = .next ((s.modPhase p (fun x => { x with openFails := 0 })).retireNext p 3)) ∧
  (∀ (p : Fin 64) (s : State), 16 ≤ (s.phase p).attrRun → (s.phase p).role = .active →
    exec (.senseImplausibleDetect p) s = .next ((s.modPhase p (fun x => { x with attrRun := 0 })).senseNext p 6)) ∧
  (∀ (p : Fin 64) (s : State), 16 ≤ (s.phase p).zeroRun → (s.phase p).role = .active →
    exec (.zeroCurrentOffsetDetect p) s = .next ((s.modPhase p (fun x => { x with zeroRun := 0 })).retireNext p 6)) ∧
  (∀ (g : Fin 8) (s : State), 16 ≤ (s.group g).sumRun → (s.group g).sumWritten = false →
    exec (.senseSumRecord g) s = .next ((s.modGroup g (fun x => { x with sumWritten := true })).event (.screed g) .everyEvent 0x66
      (leBytes 1 g.val ++ leBytes 1 (s.param (grId g 2)) ++ leBytes 4 (fitS 32 (roundQ ((s.group g).sumAcc / 16 * 100))) ++
        leBytes 8 s.now ++ leBytes 1 (bitsOf (s.held (grId g 0x16)) 7 0)))) ∧
  (∀ (p : Fin 64) (sh : Shadow) (s : State), (s.phase p).shadow = some sh →
    bitsOf (s.held (grId (s.groupOf p) 0x16)) 13 8 ≤ sh.k →
    exec (.shadowEnd p) s = .next (s.modPhase p (fun x => { x with shadow := some { sh with ended := true } }))) ∧
  (∀ (p : Fin 64) (s : State), s.wearLimit (s.groupOf p) ≠ 0 →
    s.wearLimit (s.groupOf p) ≤ (s.phase p).counters.thermal.toNat →
    exec (.wearLimitReached p) s = .next (s.modPhase p (fun x => { x with wearDue := true }))) ∧
  (∀ (p : Fin 64) (s : State),
    let t := s.modPhase p (fun x => { x with overTemp := s.thermLevel p })
    exec (.phaseThermalInput p) s = .next (if (s.phase p).overTemp = s.thermLevel p then s
      else if s.thermLevel p = true ∧ (s.phase p).role ≠ .off ∧ (s.phase p).role ≠ .retired then t.retireNext p 8 else t)) ∧
  (∀ (k : Fin 8) (mv ns : Nat) (s : State), s.power.safety.dieRunning = true →
    let w := (s.conv.banks[k.val]).inside mv
    let t := s.modConv (fun c => { c with banks := vmod c.banks k (fun b => { b with inWindow := w }) })
    (w = false → 1000 ≤ ns) →
    exec (.phaseBankSupplyWindow k mv ns) s = .next (if w = true ∨ (s.conv.banks[k.val]).inWindow = false then t
      else ((octet k).foldl (fun u p => (u.modPhase p (Phase.hold u.edgeNow)).driverFault p) t).settle s)) ∧
  (∀ (k : Fin 8) (mv ns : Nat) (s : State), (s.conv.banks[k.val]).inside mv = false → ns < 1000 →
    exec (.phaseBankSupplyWindow k mv ns) s = .next s)

/-- The phase opcodes (03 R79, 03 R81, 03 R87, 03 R88, 03 R89, 03 R90). PHASE_STATUS, PHASE_TELEMETRY and PHASE_COUNTERS
answer one item for each phase of the mask, the telemetry clearing the held peaks; PHASE_RESTORE of a phase that may
be restored waits for the commit boundary; PHASE_REPLACED zeroes the counters and records them; PHASE_FAULT_INJECT
acts as the driver fault, the fast trip, the stuck stream or the open leg of its kind, and its driver fault has no
effect with EN clear or inside a blanking interval (the model's reading, log entry 112). -/
def Obligations.PhaseCommands : Prop :=
  (∀ (r : Req) (s : State), Ready 0x0501 observe r s → r.payload.length = 8 →
    exec (.phaseStatus r) s = .next (s.complete r 0x0501
      (done ((phaseMask (numAt r.payload 0 8)).map (fun p => leBytes 4 (s.phase p).statusWord)).flatten))) ∧
  (∀ (r : Req) (s : State), Ready 0x0502 observe r s → r.payload.length = 8 →
    let ps := phaseMask (numAt r.payload 0 8)
    exec (.phaseTelemetry r) s = .next ((ps.foldl (fun t p => t.modPhase p (fun x => { x with peakCur := 0 })) s).complete r 0x0502
      (done (ps.map (fun p => (s.phase p).telemetry p)).flatten))) ∧
  (∀ (r : Req) (s : State), Ready 0x0503 observe r s → r.payload.length = 8 →
    exec (.phaseCounters r) s = .next (s.complete r 0x0503
      (done ((phaseMask (numAt r.payload 0 8)).map (fun p => (s.phase p).counterItem p)).flatten))) ∧
  (∀ (r : Req) (p : Fin 64) (s : State), Ready 0x0504 configure r s → r.payload = [BitVec.ofNat 8 p.val] →
    s.restoreRefusal p = none →
    exec (.phaseRestore r) s = .next ((s.modPhase p (fun x => { x with restore := x.restore ++ [r] })).park r 0x0504)) ∧
  (∀ (r : Req) (p : Fin 64) (s : State), Ready 0x0505 service r s → r.payload = [BitVec.ofNat 8 p.val] →
    (s.phase p).role = .off → (s.group (s.groupOf p)).mode.isQuiet = true →
    exec (.phaseReplaced r) s = .next (((s.audit r.owner.val stDone 0x0505 r.tag.toNat r.seq.toNat
      ((s.phase p).counterItem p)).modPhase p (fun x => { x with
        counters := { cycles := 0, thermal := 0, late := 0, trips := 0, dflt := 0, clamps := 0 }
        wearCycSat := false, wearThcSat := false, wearWarn := false, replaced := true })).complete r 0x0505 done)) ∧
  (∀ (r : Req) (p : Fin 64) (s : State), Ready 0x0506 service r s → r.payload.length = 2 →
    numAt r.payload 0 1 = p.val → 1 ≤ numAt r.payload 1 1 → numAt r.payload 1 1 ≤ 4 →
    (s.phase p).role = .active → s.holdsLease r.owner = true →
    exec (.phaseFaultInject r) s = .next (((match numAt r.payload 1 1 with
      | 1 => if (s.phase p).dfltLevel || !s.dfltEnabled p || (s.phase p).blanked (s.blankTime p) s.edgeNow then s
          else s.dfltActs p
      | 2 => s.trip p
      | 3 => (s.modPhase p (fun x => { x with injStuck := 32 })).senseFlag p 4
      | _ => s.modPhase p (fun x => { x with injOpen := 3 })).complete r 0x0506 done).settle s))

/-- Group events, synchronisation and the locked limit set (03 R64, 03 R73, 04 R95, 04 R96, 04 R102, 04 R107, 04 R111, 04
R116, 04 R126, 04 R117, 04 R121, 04 R127). While the engines run, each row completes with its own effect:
COMMIT_BOUNDARY takes parameters, roles, faults and acknowledgement, the waiting PARAM_SETs, and commits the edges,
but above 1 MHz the second half-period has no boundary and only SYNC_OUT falls; PERIOD_START takes the next number,
start and length of the period; TROWEL_UPDATE samples the current, evaluates the open leg, and publishes its words or
stops at a zero crossing; OUTER_LOOP_SAMPLE measures, controls, shares and takes the waiting setpoints;
LIGHT_LOAD_STAGE_ENTRY enters the stage whose time has passed; RAMP_DOWN_COMPLETE at zero changes the mode;
SCHEDULED_SETPOINT_EFFECT takes effect at its time; TELEMETRY_WINDOW_END closes the means. SYNC_IN_EDGE feeds the lock
rule of every group that follows SYNC_IN; SYNC_LOSS_TIMEOUT of a tracking group ends the lock and glides;
LIMIT_SET_CHECK enters the safe state with cause LIMIT_SET when a switching group has breached a limit for the hold
time. -/
def Obligations.GroupAndSyncEvents : Prop :=
  (∀ (g : Fin 8) (half : Bool) (s : State), s.engineOn = true → (half = true → s.param (grId g 1) ≤ 1000000) →
    let t := (s.atDevice (((s.group g).periodStart + (if half then s.nT g / 2 else 0)) / 16)).commitHead g half
    exec (.commitBoundary g half) s = .next (s.commitTail g half ((t.group g).waiting.foldl (fun u w => u.applyWaiting g w) t))) ∧
  (∀ (g : Fin 8) (s : State), s.engineOn = true → 1000000 < s.param (grId g 1) →
    exec (.commitBoundary g true) s = .next ((s.atDevice (((s.group g).periodStart + s.nT g / 2) / 16)).modGroup g
      (fun x => { x with syncOut := false }))) ∧
  (∀ (g : Fin 8) (ripple : List (Fin 64 × List Bool × List Bool)) (s : State), s.engineOn = true →
    ∃ t, exec (.periodStart g ripple) s = .next t ∧ (t.group g).period = (s.nextPeriod g).1 ∧
      (t.group g).periodStart = (s.nextPeriod g).2.1 ∧ (t.group g).periodLen = (s.nextPeriod g).2.2 ∧
      (t.group g).regrout = min ((s.group g).regrout + 1) 8 ∧ (t.group g).kCount = (s.group g).kCount + 1 ∧
      s.clk ≤ t.clk ∧ t.chg = s.chg ∧ t.bus = s.bus) ∧
  (∀ (p : Fin 64) (bits : List Bool) (s : State), s.engineOn = true →
    let g := s.groupOf p
    let x := s.group g
    let i := s.reading p (s.filterSum p (sinc3 (s.sinc p)) bits)
    let t := s.modPhase p (Phase.take s.clk (s.updateAt g p) (s.avgLimit p) i (s.residualAt p (s.updateAt g p)) (!x.half))
    let t := t.raiseIf ((t.phase p).wearThcSat && !(s.phase p).wearThcSat) p.val
    let u := if (s.phase p).role == .active && (s.phase p).switching && x.light == .ccm && !x.half &&
        decide ((s.phase p).started ≥ 1) then
        t.modPhase p (Phase.openLeg (x.vStr / s.lNom p) ((x.vStr - x.vBus) / s.lNom p) (s.avgLimit p)
          (bitsOf (s.held (grId g 0x16)) 19 16) (i - (s.phase p).sampleAtStart)) else t
    exec (.trowelUpdate p bits) s = .next (if s.stopsNow g p i then u.stopPhase p else u.publish g p)) ∧
  (∀ (g : Fin 8) (inputs : List (Fin 20 × List Capture)) (s : State), s.engineOn = true →
    let a := ((s.atDevice (s.sampleAt g)).modGroup g (fun x => { x with kCount := 0 })).pickGroup g
    let a := (((a.takeInputs inputs).trackClosing).advanceOpenings g).takeTables g
    let b := a.modGroup g (Group.measure (filterGain (a.group g).tau (a.tO g)) (a.readVstr g) a.readVbus (a.readIstr g) (a.phaseSum g))
    let c := (((b.modGroup g (fun x => { x with
      pertF := x.pertF + filterGain (a.group g).tau (a.tO g) * (b.pertShare g - x.pertF) })).evalReady g).splitPair g).predictPair g
    let d := ((c.control g (a.tO g)).lightSample g).setDirs g
    let e := ((((d.modGroup g (Group.tally (d.power_ g))).trackMatch g).precharge g).applyShares g).stippleRetry g
    exec (.outerLoopSample g inputs) s = .next (((e.takeSetpoints g).checkInputs).settle s)) ∧
  (∀ (g : Fin 8) (m : Light) (t0 : Nanos) (s : State), (s.group g).light.down = some m →
    (m = .diode ∧ bitAt (s.held (grId g 0x0D)) 0 = true ∧ (s.group g).deSince = some t0 ∨
      m = .shed ∧ bitAt (s.held (grId g 0x0D)) 1 = true ∧ (s.group g).shedSince = some t0 ∨
      m = .burst ∧ bitAt (s.held (grId g 0x0D)) 2 = true ∧ (s.group g).burstSince = some t0) →
    (s.group g).mode.isPower = true → s.isFollower g = false →
    let u := s.atLeast (t0 + bitsOf (s.held (grId g 0x0D)) 31 28 * 5000000)
    let sgn : Int := if (s.group g).iCmd < 0 then -1 else if 0 < (s.group g).iCmd then 1 else 0
    exec (.lightLoadStageEntry g) s = .next ((((u.modGroup g (fun y => { y with
      light := m, nOn := u.nOnOf g, burstPos := 0, burstGap := 0
      entrySign := if m = .diode then sgn else y.entrySign })).dropShadows g).applyShed g).settle s)) ∧
  (∀ (g : Fin 8) (m : Mode) (s : State), (s.group g).rampDown = some m → (s.group g).ref = 0 → s.switchingOf g = [] →
    exec (.rampDownComplete g) s = .next ((s.enterMode g m).settle s)) ∧
  (∀ (q : Scheduled) (s : State), s.conv.schedule = [q] →
    exec .scheduledSetpointEffect s = .next (((((s.atLeast (nat0 ((q.at_ : Int) - s.clock.tb.step))).modConv
      (fun c => { c with schedule := [] })).effectSetpoints q)).settle s)) ∧
  (∀ (g : Fin 8) (s : State),
    let t := (s.atLeast ((s.group g).winStart + (s.group g).telemMs * 1000000)).modGroup g (fun y => { y with
      means := y.winSums.avg y.winCount, window := y.window + 1#32, winCount := 0
      winSums := { vStr := 0, vBus := 0, iGrp := 0, p := 0 }, winStart := y.winStart + y.telemMs * 1000000 })
    exec (.telemetryWindowEnd g) s =
      .next (((t.phasesOf g).foldl (fun u p => u.modPhase p Phase.endWindow) t).telemetryOut g)) ∧
  (∀ (time : Nat) (s : State),
    exec (.syncInEdge time) s = .next ((s.eachGroup (fun g t =>
      if bitsOf (t.param (grId g 0x12)) 1 0 = 1 then
        t.modGroup g (fun x => { x with sync := (x.sync.edge time (t.syncIn g)
          (bitsOf (t.held (grId g 0x12)) 15 8 : Nat) (nearestStart x.periodStart x.periodLen time) x.periodLen) })
      else t)).settle s)) ∧
  (∀ (g : Fin 8) (last : Nat) (s : State), (s.group g).sync.lastEdge = some last → (s.group g).sync.tracking = true →
    exec (.syncLossTimeout g) s = .next (((s.atLeast (nat0 (ceilQ (((last : Rat) + s.syncIn g * 3 / 2) / 16) - s.clock.tb.step))).modGroup g
      (fun y => { y with sync := { y.sync with
        lastEdge := none, good := 0, bad := 0, tracking := false, locked := false, gliding := true } })).settle s)) ∧
  (∀ (means : List (Fin 8 × Reading × Reading)) (vLink : Reading) (b : List Byte) (g : Fin 8) (s : State),
    s.conv.limitSet = some b →
    let t := means.foldl (fun t e => t.modGroup e.1 (Group.check b e.1.val e.2.1 e.2.2 vLink)) s
    (t.group g).mode.isSwitching = true →
    (numAt b 2 2 ≤ (t.group g).breachI ∨ numAt b 2 2 ≤ (t.group g).breachV ∨ numAt b 2 2 ≤ (t.group g).breachB) →
    exec (.limitSetCheck means vLink) s = .next ((t.safeState 10 0).settle s)) ∧
  (∀ (means : List (Fin 8 × Reading × Reading)) (vLink : Reading) (b : List Byte) (s : State),
    s.conv.limitSet = some b →
    let t := means.foldl (fun t e => t.modGroup e.1 (Group.check b e.1.val e.2.1 e.2.2 vLink)) s
    (∀ g : Fin 8, (t.group g).mode.isSwitching = true → (t.group g).breachI < numAt b 2 2 ∧
      (t.group g).breachV < numAt b 2 2 ∧ (t.group g).breachB < numAt b 2 2) →
    exec (.limitSetCheck means vLink) s = .next t)

/-- The group opcodes (04 R122, 04 R123, 04 R124, 04 R125, 04 R126, 04 R568). GROUP_STATUS, GROUP_TELEMETRY and
GROUP_LIMITS answer their items, the telemetry clearing the caller's peaks; GROUP_SETPOINT of entries that may be
taken waits in the schedule or for the group's sample; GROUP_CANCEL ends the scheduled commands of the groups;
GROUP_FAULT_ACK waits for the commit boundary. -/
def Obligations.GroupCommands : Prop :=
  (∀ (r : Req) (s : State), Ready 0x0401 observe r s → r.payload.length = 1 →
    exec (.groupStatus r) s = .next (s.complete r 0x0401 (done ((groupMask (numAt r.payload 0 1)).map (fun g =>
      leBytes 1 g.val ++ leBytes 1 (s.group g).cause.toNat ++ zeros 2 ++ leBytes 4 (s.group g).statusWord)).flatten))) ∧
  (∀ (r : Req) (s : State), Ready 0x0402 observe r s → r.payload.length = 1 →
    let gs := groupMask (numAt r.payload 0 1)
    exec (.groupTelemetry r) s = .next ((gs.foldl (fun t g => t.modGroup g (fun x =>
      { x with peakI := vmod x.peakI r.owner (fun _ => 0), peakP := vmod x.peakP r.owner (fun _ => 0) })) s).complete r 0x0402
        (done (gs.map (fun g => s.groupItem g ((s.group g).peakI[r.owner.val]) ((s.group g).peakP[r.owner.val]))).flatten))) ∧
  (∀ (r : Req) (e : SetpointEntry) (es : List SetpointEntry) (s : State), Ready 0x0403 control r s → setpointShape r.payload = none →
    s.holdsLease r.owner = true → 1 ≤ numAt r.payload 0 1 → numAt r.payload 0 1 ≤ 8 →
    setpointEntries r.payload = some (e :: es) → s.setpointRefusal (e :: es) = none →
    (numAt r.payload 4 8 = 0 ∨ numAt r.payload 4 8 < s.now) →
    exec (.groupSetpoint r) s = .next ((s.modGroup e.group (fun x => { x with
      setpoints := x.setpoints ++ [{ req := r, at_ := numAt r.payload 4 8, entries := e :: es }] })).park r 0x0403)) ∧
  (∀ (r : Req) (e : SetpointEntry) (es : List SetpointEntry) (s : State), Ready 0x0403 control r s → setpointShape r.payload = none →
    s.holdsLease r.owner = true → 1 ≤ numAt r.payload 0 1 → numAt r.payload 0 1 ≤ 8 →
    setpointEntries r.payload = some (e :: es) → s.setpointRefusal (e :: es) = none → numAt r.payload 4 8 ≠ 0 →
    s.now ≤ numAt r.payload 4 8 → s.scheduleFull (e :: es) = false →
    exec (.groupSetpoint r) s = .next ((s.modConv (fun c => { c with
      schedule := c.schedule ++ [{ req := r, at_ := numAt r.payload 4 8, entries := e :: es }] })).park r 0x0403)) ∧
  (∀ (r : Req) (s : State), Ready 0x0404 control r s → r.payload.length = 1 → s.holdsLease r.owner = true →
    exec (.groupCancel r) s = .next ((s.endScheduled
      (fun x => (groupMask (numAt r.payload 0 1)).any (fun g => Scheduled.names g x)) stAbDisabled 0x0104).complete r 0x0404 done)) ∧
  (∀ (r : Req) (g : Fin 8) (s : State), Ready 0x0405 control r s → r.payload = [BitVec.ofNat 8 g.val] →
    s.holdsLease r.owner = true → s.ackRefusal g = none → (s.group g).faultAck = none →
    exec (.groupFaultAck r) s = .next ((s.modGroup g (fun x => { x with faultAck := some r })).park r 0x0405)) ∧
  (∀ (r : Req) (g : Fin 8) (s : State), Ready 0x0406 observe r s → r.payload = [BitVec.ofNat 8 g.val] →
    exec (.groupLimits r) s = .next (s.complete r 0x0406 (done (((s.lastRows g).map (fun x =>
      leBytes 1 x.code ++ leBytes 1 x.level ++ leBytes 1 (flag x.applies + 2 * flag x.binding) ++ zeros 1 ++
        edgeWord 0x80000000 x.lo ++ edgeWord 0x7FFFFFFF x.hi)).flatten))))

/-- The pair link and the pairing commands (05 R149, 05 R150, 05 R151, 05 R152, 05 R153, 05 R163, 05 R154, 05 R161, 05
R164, 05 R166). PAIR_FRAME_SEND falls at the start of the next frame, 2,496 ns after the one before, advances the
transmit sequence and keeps the frame; PAIR_FRAME_RECEIVE of a bad frame drops it and counts it, of a good one while
the link is down counts it in the good run; PAIR_TRANSACTION_TIMEOUT fails the request after 64 frames; PAIR_LOST of
an unpaired device takes the link down. PAIR_STATUS answers 36 bytes that begin with the group; PAIR_ENABLE of a group
that may pair waits for the partner, and PAIR_TAKE_EFFECT pairs the group once both commands agree,
PAIR_ENABLE_TIMEOUT ends the wait after 10 s; PAIR_DISABLE and PAIR_HANDOVER tell the partner and wait for their
points of effect; PAIR_DISABLE_EFFECT ends the pairing, PAIR_HANDOVER_EFFECT changes the roles at the leader once the
partner has its state, at the follower once it was asked. -/
def Obligations.PairRows : Prop :=
  (∀ s : State, s.power.safety.dieRunning = true → ∃ t, exec .pairFrameSend s = .next t ∧
    t.clk = max s.clk (s.sofAt s.frameDue) ∧ t.conv.link.frame = s.frameDue + 1 ∧
    t.conv.link.txSeq = s.conv.link.txSeq + 1#8 ∧ t.conv.link.return0 = 0 ∧ t.conv.link.return1 = 0 ∧
    t.conv.link.lastSent = some ((s.atLeast (s.sofAt s.frameDue)).pairFrame (s.conv.link.nextRequest.getD []) (s.conv.link.nextResponse.getD [])) ∧
    t.host = s.host ∧ t.nv = s.nv ∧ t.bus = s.bus ∧ t.power = s.power ∧ t.sys = s.sys) ∧
  (∀ (b : List Byte) (peer : Option PeerEnable) (h : Bool) (s : State),
    exec (.pairFrameReceive b false peer h) s = .next s.dropFrame) ∧
  (∀ (b : List Byte) (good : Bool) (peer : Option PeerEnable) (h : Bool) (s : State), b.length ≠ 1232 →
    exec (.pairFrameReceive b good peer h) s = .next s.dropFrame) ∧
  (∀ (b : List Byte) (peer : Option PeerEnable) (h : Bool) (s : State), b.length = 1232 →
    (crc32c (slice b 0 1228)).toNat = numAt b 1228 4 →
    let t := (((((s.modPairLink (fun l => let l := l.measure s.now b; { l with
      goodRun := min 8 (l.goodRun + 1), missRun := 0, good := satInc l.good, lastGoodAt := s.now
      lastGood := BitVec.ofNat 8 (numAt b 1 1), partnerVer := some (BitVec.ofNat 8 (numAt b 0 1))
      credit0 := min 16 (l.credit0 + numAt b 12 1), credit1 := min 16 (l.credit1 + numAt b 13 1)
      lostSeen := l.lostSeen || bitAt (numAt b 2 1) 1, partnerEdges := frameEdges b l.partnerEdges })).linkComesUp).takeControl b).serveRequest
        (slice b 600 312)).takeResponse (slice b 912 312))
    exec (.pairFrameReceive b true peer h) s =
      .next (((match peer with | some e => t.takePeer e | none => t).askHandover h).settle s)) ∧
  (∀ (q : PairRequest) (s : State), s.conv.link.outstanding = [q] → 64 ≤ q.age →
    exec (.pairTransactionTimeout q.tag) s =
      .next ((s.modPairLink (fun l => { l with outstanding := [] })).raise 281)) ∧
  (∀ s : State, s.conv.link.lostSeen = true → (∀ g : Fin 8, (s.group g).pair.paired = false) → s.conv.link.linkUp = true →
    s.conv.link.outstanding = [] →
    exec .pairLost s = .next (((s.modPairLink (fun l => { l with
      linkUp := false, goodRun := 0, lostRx := l.lostRx || s.pairedGroup.isSome, lostSeen := false
      outstanding := [] })).raise 277).settle s)) ∧
  (∀ (r : Req) (g : Fin 8) (s : State), Ready 0x1101 observe r s → r.payload = [BitVec.ofNat 8 g.val] →
    exec (.pairStatus r) s = .next (s.complete r 0x1101
      (done (leBytes 1 g.val ++ zeros 3 ++ leBytes 4 (s.pairWord g) ++ leBytes 4 s.conv.link.good.toNat ++
        leBytes 4 s.conv.link.missing.toNat ++ leBytes 4 (s.group g).pair.losses.toNat ++
        leBytes 8 (s.group g).pair.partnerId.toNat ++ leBytes 4 (fitU 32 (roundQ s.conv.link.latency)))))) ∧
  (∀ (r : Req) (g : Fin 8) (s : State), Ready 0x1102 configure r s → lenZ 12 [(2, 2)] r.payload = none →
    s.holdsLease r.owner = true → numAt r.payload 0 1 = g.val → numAt r.payload 1 1 ≤ 7 → s.ownPairRefusal g = none →
    ((s.group g).pair.peer).bind (s.pairRefusal g (enableNames r).2) = none →
    exec (.pairEnable r) s = .next ((s.modPair g (fun x => { x with enable := some (r, s.clk) })).handshake.park r 0x1102)) ∧
  (∀ (g : Fin 8) (r : Req) (t0 : Nanos) (e : PeerEnable) (s : State), (s.group g).pair.enable = some (r, t0) →
    (s.group g).pair.peer = some e → s.pairRefusal g (enableNames r).2 e = none → e.group.val = (enableNames r).1 →
    let t := ((((s.atDevice (s.sampleAt g)).modPair g (fun x => { x with
      paired := true, leader := s.leads g e, lost := false, split := false, enable := none, peer := none
      partnerId := e.identity, partnerGroup := e.group, control := [], partnerPaired := true })).bumpEpoch g .other).raise 278).modPairLink
        (fun l => { l with lostRx := false, lostSeen := false })
    let u := match t.portOf g with | some p => t.stippleAbort p 9 | none => t
    exec (.pairTakeEffect g) s = .next ((u.complete r 0x1102 done).settle s)) ∧
  (∀ (g : Fin 8) (r : Req) (t0 : Nanos) (s : State), (s.group g).pair.enable = some (r, t0) →
    exec (.pairEnableTimeout g) s = .next (((s.atLeast (t0 + 10000000000)).modPair g
      (fun x => { x with enable := none, peer := none })).finish r 0x1102 ⟨stState, 0, 0x0107, []⟩)) ∧
  (∀ (r : Req) (g : Fin 8) (s : State), Ready 0x1103 configure r s → r.payload = [BitVec.ofNat 8 g.val] →
    s.holdsLease r.owner = true → (s.group g).pair.paired = true → (s.group g).pair.disable = none →
    exec (.pairDisable r) s = .next ((s.modPair g (fun x => { x with disable := some r })).handshake.park r 0x1103)) ∧
  (∀ (g : Fin 8) (r : Req) (s : State), (s.group g).pair.paired = true → s.pairCalm g = true →
    (s.group g).pair.disable = some r → (s.group g).pair.handover = none →
    exec (.pairDisableEffect g) s = .next (((((((s.atDevice (s.sampleAt g)).loseTiming g).unpair g).modPair g
      (fun y => { y with disable := none, handover := none })).applyEngines g).complete r 0x1103 done).settle s)) ∧
  (∀ (r : Req) (g : Fin 8) (s : State), Ready 0x1104 control r s → r.payload = [BitVec.ofNat 8 g.val] →
    s.holdsLease r.owner = true → (s.group g).pair.paired = true → (s.group g).pair.leader = true →
    s.conv.link.linkUp = true → (s.group g).pair.handover = none →
    exec (.pairHandover r) s = .next ((s.modPair g (fun x => { x with
      handover := some r, handoverSeq := s.conv.link.txSeq, handoverHeard := false })).handshake.park r 0x1104)) ∧
  (∀ (g : Fin 8) (r : Req) (s : State), (s.group g).pair.paired = true → (s.group g).pair.control ≠ [] →
    (s.group g).pair.leader = true → (s.group g).pair.handover = some r → (s.group g).pair.handoverHeard = true →
    let u := s.atDevice (s.sampleAt g)
    exec (.pairHandoverEffect g) s = .next ((((u.modPair g (fun y => { y with
      leader := false, handover := none, handoverHeard := false, control := (s.group g).swapControl (u.ccap g)
      nextPs := some ((s.group g).periodStart + (s.group g).periodLen) })).raise 279).complete r 0x1104 done).settle u)) ∧
  (∀ (g : Fin 8) (s : State), (s.group g).pair.paired = true → (s.group g).pair.control ≠ [] → (s.group g).pair.leader = false →
    (s.group g).pair.handoverAsked = true →
    let u := s.atDevice (s.sampleAt g)
    let c := (s.group g).swapControl (u.ccap g)
    let ref : Rat := if (s.group g).mode == .power then (intAt c 32 4 : Rat) else (intAt c 32 4 : Rat) / 100
    exec (.pairHandoverEffect g) s = .next (((u.modGroup g (fun y => { y with
      ref := ref, integ := f32Rat (numAt c 44 4)
      pair := { y.pair with leader := true, nextPs := none, handoverAsked := false, control := c } })).raise 279).settle u))

/-- String evaluation and the string opcodes (06 R170, 06 R174, 06 R183). STRING_EVALUATION takes the port's parameters
and the profile tables, runs the state rule and sets and clears the faults; STRING_STATUS answers 16 bytes for each
port of the mask; CHARGE_FAULT_READ answers the fault word and clears the latched faults that do not persist;
PROFILE_RESTART of a port without faults waits for the next evaluation. -/
def Obligations.StringCommands : Prop :=
  (∀ (p : Fin 4) (s : State), s.sys.hawk = .running → s.awake = true →
    let q := s.pickPort p
    let t := (((q.takeProfile p).restartProfile p).chargeMoved p).modStrPort p (fun x =>
      { x.evaluate (q.iStr p) (((q.clk - (q.strPort p).lastEval : Nat) : Rat) / 1000000000) (q.held (stId p 5))
        (q.held (stId p 9)) (q.held (stId p 0xA)) (((q.takeProfile p).restartProfile p).soc p) with lastEval := q.clk })
    let u := match (t.strPort p).seen with
      | none => t
      | some e => t.modStrPort p (fun x => { x with
          fc := q.tempFrac p (q.held (stId p 2)) e, fd := q.tempFrac p (q.held (stId p 3)) e })
    exec (.stringEvaluation p) s = .next ((u.latchFaults p (u.evalFaults p)).portChanged s p)) ∧
  (∀ (r : Req) (s : State), Ready 0x0601 observe r s → r.payload.length = 1 → numAt r.payload 0 1 < 16 →
    exec (.stringStatus r) s = .next (s.complete r 0x0601
      (done (((List.finRange 4).filter (fun p => bitAt (numAt r.payload 0 1) p.val)).map (fun p =>
        leBytes 1 p.val ++ zeros 3 ++ leBytes 4 (s.strPort p).stateWord ++ leBytes 4 (s.strPort p).faultWord ++
          leBytes 4 (s.strPort p).statusWord)).flatten))) ∧
  (∀ (r : Req) (p : Fin 4) (s : State), Ready 0x0602 control r s → r.payload = [BitVec.ofNat 8 p.val] →
    s.holdsLease r.owner = true →
    let a := done (leBytes 4 (s.strPort p).faultWord)
    exec (.chargeFaultRead r) s = .next (if (s.strPort p).faults &&& ~~~(s.persisting p) = 0 then s.complete r 0x0602 a
      else ((((s.modStrPort p (Port.clearFaults (s.persisting p))).portChanged s p).journalFaults).auditReq r 0x0602 a).complete
        r 0x0602 a)) ∧
  (∀ (r : Req) (p : Fin 4) (s : State), Ready 0x0603 control r s → r.payload = [BitVec.ofNat 8 p.val] →
    s.holdsLease r.owner = true → (s.strPort p).faults = 0 →
    exec (.profileRestart r) s = .next ((s.modStrPort p (fun x => { x with restart := x.restart ++ [r] })).park r 0x0603))

/-- Sleep, dust-sheet mode and wake (06 R185, 06 R186, 06 R187, 06 R190, 06 R188, 06 R189, 06 R191, 06 R192, 08 R248).
SLEEP_ENTER and DUST_SHEET_ENTER with every group OFF and no wake source asserted close the acceptance, open the feeds
and the contactors and stop the chain; LOW_POWER_STATE_REACHED, 20 ms later, is asleep. WAKE_SOURCE, REAL_TIME_ALARM
and CC_WAKE_THRESHOLD note their source and start the wake; WAKE_COMPLETE opens the acceptance and runs again; WAKE
answers the wake record. -/
def Obligations.LowPowerCommands : Prop :=
  (∀ (r : Req) (wakeN : Bool) (s : State), Ready 0x0610 control r s → r.payload.length = 8 → numAt r.payload 2 1 ≤ 1 →
    zeroAt r.payload 3 1 = true → s.holdsLease r.owner = true → s.mayRest = true →
    s.levelSource true wakeN (numAt r.payload 0 2) = false →
    exec (.sleepEnter r wakeN) s = .next (((s.enterRest .enteringSleep (numAt r.payload 2 1 == 1) (numAt r.payload 0 2)
      (numAt r.payload 4 4)).complete r 0x0610 done).settle s)) ∧
  (∀ (r : Req) (wakeN : Bool) (s : State), Ready 0x0611 service r s → lenZ 8 [(2, 2)] r.payload = none → s.mayRest = true →
    s.power.supply.kaOk = true → s.nvmHeld = false → s.levelSource false wakeN (numAt r.payload 0 2) = false →
    exec (.dustSheetEnter r wakeN) s = .next (((((s.abandon (fun q => !(q.owner == r.owner && q.tag == r.tag)) stAbDisabled).enterRest
      .enteringDustSheet false (numAt r.payload 0 2) (numAt r.payload 4 4)).complete r 0x0611 done)).settle s)) ∧
  (∀ s : State, s.chg.low.run = .enteringSleep →
    let t := (s.atLeast (s.chg.low.enteredAt + 20000000)).modLow (fun x => { x with run := .sleep })
    let u := t.modWd (fun x => { x with
      counted := x.countAt t.clk
      run := if x.run == .off then .off else .paused })
    exec .lowPowerStateReached s =
      .next (((if u.power.seq.run == .complete then u.startDown true .complete else u).wakeNoted).settle s)) ∧
  (∀ s : State, s.chg.low.run = .enteringDustSheet →
    exec .lowPowerStateReached s = .next ((((s.atLeast (s.chg.low.enteredAt + 60000000)).flush.journalled.islandOff.modLow
      (fun x => { x with run := .dustSheet })).wakeNoted).settle s)) ∧
  (∀ (code : Fin 9) (s : State), code ≠ 0 → s.chg.low.run ≠ .running → (code.val = 4 → s.portFused = false) →
    let t := if code.val = 2 ∧ (s.chg.low.run = .dustSheet ∨ s.chg.low.run = .enteringDustSheet) then
      s.modSupply (fun x => { x with auxOk := true }) else s
    exec (.wakeSource code) s = .next ((t.wakeBy code.val).settle s)) ∧
  (∀ s : State, s.chg.low.run ≠ .running → s.chg.low.alarmS ≠ 0 →
    exec .realTimeAlarm s = .next (((s.atLeast (s.chg.low.enteredAt + s.chg.low.alarmS.toNat * 1000000000)).wakeBy 3).settle s)) ∧
  (∀ (c : Fin 4) (s : State), s.chg.low.run ≠ .running → s.ccWakes c = true →
    exec (.ccWakeThreshold c) s = .next ((s.wakeBy 5).settle s)) ∧
  (∀ (chainOk : Bool) (s : State), s.chg.low.run = .waking → s.chg.low.record.left = 1 → s.sys.hawk ≠ .off →
    let a := s.runsAgain.modChg (fun c => { c with ports := c.ports.map (fun p => { p with lastEval := s.clk }) })
    let b := if a.sys.wd.run == .paused then (a.modWd (fun x => { x with run := .running })).wdRestart else a
    let t := (List.finRange 2).foldl (fun u f => u.feedArms f) b
    exec (.wakeComplete chainOk) s = .next (((t.chainWakes chainOk).serveHeld).settle s)) ∧
  (∀ (r : Req) (s : State), Ready 0x0612 observe r s → r.payload = [] →
    exec (.wake r) s = .next (s.complete r 0x0612 (done s.chg.low.record.bytes)))

/-- Feed evaluation, over-current, reverse turn-off, blocking, over-voltage, switch loss, power good and retries (07 R199,
07 R202, 07 R203, 07 R204, 07 R205, 07 R206, 07 R207). FEED_EVALUATION takes the inputs and evaluates Feed A, then
Feed B: the parameters, the fixed transitions, then the first row that fires. FEED_OVERCURRENT_TRIP trips a conducting
feed whose filter output lies beyond a threshold and changes nothing else; FEED_REVERSE_TURN_OFF whose comparator
fires blocks a feed in ON or GATE, the trip going first; FEED_BLOCKING_REARM of a silent comparator returns to GATE,
FEED_BLOCK_TIMEOUT goes to WINDOW, FEED_RETRY_WAIT_END of an enabled feed leaves TRIPPED; FEED_BUS_OV and
FEED_SWITCH_LOST act 1 ms after their condition; FEED_PG_DELAY_EXPIRY and FEED_RETRY_CLEAR follow their times. -/
def Obligations.FeedEvents : Prop :=
  (∀ (okA okB : Bool) (inputs : List (Fin 20 × List Capture)) (s : State), s.sys.hawk = .running → s.awake = true →
    exec (.feedEvaluation okA okB inputs) s = .next ((((((s.takeInputs inputs).trackClosing).evaluateFeed 0 okA).evaluateFeed 1
      okB).checkInputs).settle s)) ∧
  (∀ (f : Fin 2) (ok : Bool) (s : State),
    let t := (((((s.pickFeed f).loadComparators f).modFeed f (fun x => { x with ok := ok })).takeFeedTable f).trackOn f).feedFixed f
    let u := (t.feedLooks f).modFeed f (Feed.trackConds ((t.feedLooks f).feedConds f) (t.feedLooks f).clk)
    s.evaluateFeed f ok = (match u.feedFires f with
      | none => u
      | some r => if r.dst = 7 then u.feedTrip f r.cause else u.feedTo f (FeedRun.ofCode r.dst) none).trackOn f) ∧
  (∀ (f : Fin 2) (bits : List Capture) (s : State), (s.feed f).live = true → (s.feed f).overcurrent (s.feedRaw f bits) = true →
    exec (.feedOvercurrentTrip f bits) s = .next (s.feedTrip f 1)) ∧
  (∀ (f : Fin 2) (bits : List Capture) (s : State), (s.feed f).live = false ∨ (s.feed f).overcurrent (s.feedRaw f bits) = false →
    exec (.feedOvercurrentTrip f bits) s = .next s) ∧
  (∀ (f : Fin 2) (bits : List Capture) (s : State), ((s.feed f).run = .on ∨ (s.feed f).run = .gate) →
    s.reverse f (s.feedRaw f bits) = true →
    let t := s.modFeed f (Feed.compare s.clk true)
    exec (.feedReverseTurnOff f bits) s = .next (if (s.feed f).live && (s.feed f).overcurrent (s.feedRaw f bits) then t.feedTrip f 1
      else (t.feedTo f .blocking (some 5)).trackClosing)) ∧
  (∀ (f : Fin 2) (bits : List Capture) (s : State), s.reverse f (s.feedRaw f bits) = false →
    (s.feed f).overcurrent (s.feedRaw f bits) = false →
    exec (.feedReverseTurnOff f bits) s = .next (s.modFeed f (Feed.compare s.clk false))) ∧
  (∀ (f : Fin 2) (c : Nanos) (s : State), let t := s.trackClosing
    (t.feed f).run = .blocking → (t.feed f).closable = some c → (t.feed f).revFires = false →
    exec (.feedBlockingRearm f) s = .next ((((t.atLeast (max c (t.feed f).silentSince +
      bitsOf (s.held (fdId f 7)) 23 16 * 10000)).feedTo f .gate none).checkInputs).settle s)) ∧
  (∀ (f : Fin 2) (s : State), (s.feed f).run = .blocking →
    exec (.feedBlockTimeout f) s = .next ((s.atLeast ((s.feed f).since +
      bitsOf (s.held (fdId f 7)) 31 24 * 1000000)).feedTo f .window (some 6))) ∧
  (∀ (f : Fin 2) (s : State), (s.feed f).run = .tripped → (s.feed f).retryEnd ≠ 0 → s.feedEn f = true →
    exec (.feedRetryWaitEnd f) s = .next ((s.atLeast (s.feed f).retryEnd).feedTo f .window none)) ∧
  (∀ (f : Fin 2) (t0 : Nanos) (s : State), (s.feed f).ovSince = some t0 → (s.feed f).run = .on →
    exec (.feedBusOv f) s = .next ((s.atLeast (t0 + 1000000)).feedTo f .window (some 4))) ∧
  (∀ (f : Fin 2) (t0 : Nanos) (s : State), (s.feed f).okLostSince = some t0 → (s.feed f).run = .on →
    exec (.feedSwitchLost f) s = .next ((s.atLeast (t0 + 1000000)).feedTrip f 3)) ∧
  (∀ (f : Fin 2) (s : State), (s.feed f).run = .on → (s.feed f).pg = false →
    let t := (s.atLeast ((s.feed f).since + s.held (fdId f 8) * 1000000)).modFeed f (fun y => { y with pg := true })
    exec (.feedPgDelayExpiry f) s =
      .next (if s.bus.busPg then t else (t.modBus (fun b => { b with busPg := true })).raise 79)) ∧
  (∀ (f : Fin 2) (s : State), (s.feed f).run = .on →
    exec (.feedRetryClear f) s = .next ((s.atLeast ((s.feed f).since +
      bitsOf (s.held (fdId f 9)) 31 16 * 1000000000)).modFeed f (fun y => { y with retries := 0 })))

/-- The feed and contactor opcodes (07 R216, 07 R217, 07 R214, 07 R218). FEED_STATUS answers 16 bytes for each feed of the
mask; FEED_ARM of an enabled feed that is OPEN, HELD, TRIPPED or LOCKED_OUT goes to WINDOW with no retries; FEED_OPEN
of a feed that no group names goes to HELD at once, of one that a group names waits for the groups. CONTACTOR_STATUS
answers 8 bytes for each contactor of the mask; CONTACTOR_CLOSE of an open contactor starts its precharge;
CONTACTOR_OPEN opens it from its state and keeps AUTO off; CONTACTOR_WELD_TEST of an open one starts the test and
waits for it; CONTACTOR_WELD_CLEAR of an open contactor clears WELDED. -/
def Obligations.FeedAndContactorCommands : Prop :=
  (∀ (r : Req) (s : State), Ready 0x0701 observe r s → r.payload.length = 1 → numAt r.payload 0 1 < 4 →
    exec (.feedStatus r) s = .next (s.complete r 0x0701
      (done (((List.finRange 2).filter (fun f => bitAt (numAt r.payload 0 1) f.val)).map (fun f =>
        leBytes 1 f.val ++ zeros 3 ++ leBytes 4 (s.feed f).stateWord ++ leBytes 4 (s.feedStatusWord f) ++
          leBytes 4 (fitS 32 (s.feedI f)))).flatten))) ∧
  (∀ (r : Req) (f : Fin 2) (s : State), Ready 0x0702 control r s → r.payload = [BitVec.ofNat 8 f.val] →
    s.holdsLease r.owner = true → s.feedEn f = true →
    ((s.feed f).run = .open_ ∨ (s.feed f).run = .held ∨ (s.feed f).run = .tripped ∨ (s.feed f).run = .lockedOut) →
    let t := (s.feedTo f .window none).modFeed f (fun y => { y with retries := 0 })
    exec (.feedArm r) s =
      .next ((if (s.feed f).run = .lockedOut then t.auditReq r 0x0702 done else t).complete r 0x0702 done)) ∧
  (∀ (r : Req) (f : Fin 2) (s : State), Ready 0x0703 control r s → r.payload = [BitVec.ofNat 8 f.val] →
    s.holdsLease r.owner = true → s.lastFeed f = false → (s.feed f).openReq = none →
    exec (.feedOpen r) s = .next (if (s.groupsOfFeed f).isEmpty then (s.feedTo f .held (some 8)).complete r 0x0703 done
      else (s.modFeed f (fun x => { x with
        opening := .removing (BitVec.ofNat 8 ((s.groupsOfFeed f).map (fun g => 2 ^ g.val)).sum), openReq := some r
        retryEnd := 0 })).park r 0x0703)) ∧
  (∀ (r : Req) (s : State), Ready 0x0704 observe r s → r.payload.length = 1 → numAt r.payload 0 1 < 16 →
    exec (.contactorStatus r) s = .next (s.complete r 0x0704
      (done (((List.finRange 4).filter (fun p => bitAt (numAt r.payload 0 1) p.val)).map (fun p =>
        leBytes 1 p.val ++ zeros 3 ++ leBytes 4 (s.cont p).word)).flatten))) ∧
  (∀ (r : Req) (p : Fin 4) (g : Fin 8) (s : State), Ready 0x0705 control r s → r.payload = [BitVec.ofNat 8 p.val] →
    s.holdsLease r.owner = true → (s.cont p).welded = false → (s.cont p).run = .open_ → s.prechargingGroup p = some g →
    exec (.contactorClose r) s = .next (((s.prechargeBy p g .precharging).complete r 0x0705 done).settle s)) ∧
  (∀ (r : Req) (p : Fin 4) (s : State), Ready 0x0706 control r s → r.payload = [BitVec.ofNat 8 p.val] →
    s.holdsLease r.owner = true → (s.groupsOfPort p).any (fun g => (s.group g).mode.isPower) = false →
    let t := s.modCont p (fun x => { x with autoDone := true })
    exec (.contactorOpen r) s = .next (((match (s.cont p).run with
      | .open_ | .opening | .weldTest => t
      | .precharging => (t.freeGroup p).contTo p .open_ none
      | .closing => (t.freeGroup p).startOpening p true
      | .closed => t.startOpening p true
      | .fault => t.contTo p .open_ none).complete r 0x0706 done).settle s)) ∧
  (∀ (r : Req) (p : Fin 4) (g : Fin 8) (s : State), Ready 0x0707 service r s → r.payload = [BitVec.ofNat 8 p.val] →
    (s.cont p).run = .open_ → s.battUnknown p = false → s.prechargingGroup p = some g →
    exec (.contactorWeldTest r) s =
      .next ((((s.modCont p (fun x => { x with waiting := some r })).startWeldTest p g).park r 0x0707).settle s)) ∧
  (∀ (r : Req) (p : Fin 4) (s : State), Ready 0x0708 service r s → r.payload = [BitVec.ofNat 8 p.val] →
    ((s.cont p).run = .open_ ∨ (s.cont p).run = .fault) → (s.cont p).fb = false →
    exec (.contactorWeldClear r) s = .next (((s.modCont p (fun y => { y with welded := false })).raiseIf
      (s.cont p).welded 78).complete r 0x0708 done))

/-- Precharge, contactor feedback and time-outs (07 R211, 07 R213, 07 R212, 07 R214, 07 R218). CONTACTOR_AUTO_PRECHARGE
starts the precharge of an open contactor with EN and AUTO; PRECHARGE_COMPLETE energises the coil and goes to CLOSING;
PRECHARGE_TIMEOUT fails the precharge after its time. CONTACTOR_FEEDBACK_CHANGE: a change of the feedback is taken;
CONTACTOR_CLOSE_TIMEOUT: CLOSING that is not confirmed in CLOSE_T × 2 ms releases the coil and goes to FAULT;
CONTACTOR_OPEN_TIMEOUT: OPENING that is not confirmed in OPEN_T × 2 ms is welded; CONTACTOR_DROPPED: CLOSED that has
dropped goes to FAULT; WELD_TEST_TIMEOUT: a weld test whose voltage has not moved marks the contactor welded. -/
def Obligations.ContactorAndPrechargeEvents : Prop :=
  (∀ (p : Fin 4) (g : Fin 8) (s : State), (s.cont p).run = .open_ → (s.cont p).autoDone = false → (s.cont p).welded = false →
    bitAt (s.param (ctId p 0)) 0 = true → bitAt (s.param (ctId p 0)) 1 = true → s.serving = true →
    s.prechargingGroup p = some g →
    exec (.contactorAutoPrecharge p) s = .next ((s.prechargeBy p g .precharging).settle s)) ∧
  (∀ (p : Fin 4) (g : Fin 8) (s : State), s.matchedGroup p = some g → (s.cont p).run = .precharging →
    (s.cont p).group = some g →
    exec (.prechargeComplete p) s = .next ((((((s.atLeast (((s.group g).matchSince).getD 0 + 5000000)).modCont p
      (fun x => { x with coil := true })).contTo p .closing none).contFeedback p)).settle s)) ∧
  (∀ (p : Fin 4) (g : Fin 8) (s : State), s.matchedGroup p = some g →
    ¬ ((s.cont p).run = .precharging ∧ (s.cont p).group = some g) →
    exec (.prechargeComplete p) s =
      .next (((s.atLeast (((s.group g).matchSince).getD 0 + 5000000)).endPrecharge g).settle s)) ∧
  (∀ (p : Fin 4) (g : Fin 8) (s : State), (s.groupsOfPort p).find? s.prechargeOpen = some g →
    exec (.prechargeTimeout p) s = .next (((s.atLeast (s.prechargeSince g +
      bitsOf (s.param (ctId p 1)) 31 24 * 10000000)).prechargeFails g 1).settle s)) ∧
  (∀ (p : Fin 4) (closed : Bool) (s : State), (s.cont p).fb ≠ closed →
    exec (.contactorFeedbackChange p closed) s =
      .next (((s.modCont p (fun x => { x with fb := closed, fbSince := s.clk })).contFeedback p).settle s)) ∧
  (∀ (p : Fin 4) (s : State), (s.cont p).run = .closing →
    exec (.contactorCloseTimeout p) s = .next (((((s.atLeast ((s.cont p).since +
      bitsOf (s.param (ctId p 0)) 15 8 * 2000000)).release p).freeGroup p).contTo p .fault (some 2)).settle s)) ∧
  (∀ (p : Fin 4) (s : State), (s.cont p).run = .opening → (s.cont p).fb = true →
    exec (.contactorOpenTimeout p) s = .next (((s.atLeast ((s.cont p).since +
      bitsOf (s.param (ctId p 0)) 23 16 * 2000000)).weld p).contTo p .fault (some 4))) ∧
  (∀ (p : Fin 4) (s : State), (s.cont p).run = .closed → (s.cont p).fb = false →
    let t := ((s.atLeast (max (s.cont p).since (s.cont p).fbSince + 10000000)).release p).contTo p .fault (some 3)
    exec (.contactorDropped p) s = .next (((t.groupsOfPort p).foldl (fun u g => u.evalReady g) t).settle s)) ∧
  (∀ (p : Fin 4) (s : State), (s.cont p).run = .weldTest →
    let q := s.atLeast ((s.cont p).since + bitsOf (s.param (ctId p 2)) 15 8 * 1000000)
    let moved := q.testMoved p
    let t := q.freeGroup p
    let u := (if moved then (t.modCont p (fun y => { y with weldUntested := false })).contTo p .open_ none
      else (t.weld p).contTo p .fault (some 5)).modCont p (fun y => { y with waiting := none })
    exec (.weldTestTimeout p) s = .next ((match (s.cont p).waiting with
      | some r => u.complete r 0x0707 (done (leBytes 1 (flag (!moved))))
      | none => u).settle s))

/-- Housekeeping, self-calibration, sequences and board calibration (08 R221, 08 R223, 08 R227, 08 R229, 08 R232, 08
R233). HOUSEKEEPING_RUN of a converter that does not calibrate converts its sixteen internal channels in the slots of
its due time and checks the band gap; SELF_CALIBRATION_COMPLETE keeps the status, and with the other converter done
ends a waiting MEAS_CALIBRATE; SEQUENCE_TRIGGER starts or queues a run at its instant, SEQUENCE_RUN_COMPLETE stores
its results, SEQUENCE_TABLE_ACTIVATION with no run in progress takes a new table; BOARD_CALIBRATION_COMPLETE stores
the value found, or ends ILLEGAL_VALUE when the readings spread too far. -/
def Obligations.ConverterEvents : Prop :=
  (∀ (k : Fin 2) (readings : List (U16 × Reading)) (amps : List Reading) (s : State), (s.adc k).cal ≠ .running →
    let d := housekeepingDue k s.now
    let start := match (s.adc k).housekeeping with | some h => if d ≤ h then h + 1000000 else d | none => d
    let times := slotTimes (s.runSpans k) 16 start
    let t := (s.atDevice ((times.getLast?).getD start + 500)).modMeas (fun m => { m with
      convs := vmod m.convs k (fun x => { x with housekeeping := some start }) })
    let u := (((readings.take 16).zip times).zipIdx.foldl (fun t e => t.convert (48 + e.2) e.1.1 e.1.2) t).spread amps
    exec (.housekeepingRun k readings amps) s = .next ((match readings[2]? with
      | some r => u.checkBandgap k r.2
      | none => u).recal)) ∧
  (∀ (k : Fin 2) (good : Bool) (s : State), (s.adc k).cal = .running → (s.adc (1 - k)).cal = .running →
    let t := s.modMeas (fun m => { m with convs := vmod m.convs k (fun x =>
      if good then { x with cal := .good, attempt := 0, failed := false, bandgap := none, calEnd := s.now }
      else if x.attempt = 0 then { x with cal := .running, attempt := 1 }
      else { x with cal := .failed, attempt := 0, failed := true, calEnd := s.now }) })
    exec (.selfCalibrationComplete k good) s =
      .next (if !good && decide ((s.adc k).attempt = 0) then t else t.startPending k).refreshThermal) ∧
  (∀ (k : Fin 2) (r : Req) (s : State), (s.adc k).cal = .running → (s.adc (1 - k)).cal = .good → s.meas.selfCal = some r →
    let t := ((s.modMeas (fun m => { m with convs := vmod m.convs k (fun x =>
      { x with cal := .good, attempt := 0, failed := false, bandgap := none, calEnd := s.now }) })).startPending k).refreshThermal
    exec (.selfCalibrationComplete k true) s = .next (((t.modMeas (fun m =>
      { m with calTemp := (s.chan 48).result, selfCal := none })).calEnded).complete r 0x0804 done)) ∧
  (∀ (i : Fin 16) (s : State), i.val < s.nSeq → s.seqByte i.val 1 = 1 →
    let p := 1000 * max 1 (s.seqNum (1288 + 40 * i.val) 4)
    exec (.sequenceTrigger i) s = .next ((s.atLeast (s.clk + (p - s.now % p) % p)).trigger i)) ∧
  (∀ (i : Fin 16) (s : State), i.val < s.nSeq → s.seqByte i.val 1 = 2 →
    let w := s.seqNum (1288 + 40 * i.val) 4
    let x := s.group (Fin.ofNat 8 (bitsOf w 2 0))
    x.period % (bitsOf w 15 8 + 1) = 0 →
    exec (.sequenceTrigger i) s =
      .next ((s.atDevice ((x.periodStart + bitsOf w 31 16 * x.periodLen / 65536) / 16)).trigger i)) ∧
  (∀ (i : Fin 16) (codes : List (U16 × Reading)) (s : State), (s.meas.seqs[i.val]).run = 2 →
    let x := s.meas.seqs[i.val]
    let cs := s.seqChannels i.val
    let k := s.seqAdc i.val
    let u := ((cs.zip codes).zipIdx.filter (fun e => !(s.adc k).holds (x.start + 500 * e.2))).foldl
      (fun t e => t.convert e.1.1 e.1.2 (x.start + 500 * e.2)) (s.atDevice (x.start + 500 * cs.length))
    let v := if bitAt (s.seqByte i.val 3) 0 then u.emit .adc (.capture (1 + 256 * i.val)) (u.captureRec i) else u
    let w := v.modSeq i (fun y => { y with run := 0, runs := y.runs + 1#32 })
    let w := if (List.finRange 16).any (fun j => (w.meas.seqs[j.val]).run == 2) then w
      else w.modMeas (fun m => { m with oldScale := [] })
    exec (.sequenceRunComplete i codes) s = .next ((w.startPending k).refreshThermal)) ∧
  (∀ s : State, s.seqPending = true → s.meas.seqs.toList.any (fun x => x.run != 0) = false →
    s.meas.convs.toList.any (fun c => c.cal == .running) = false →
    let b := s.nextNamed 0x0A (bitsOf (s.param 0x0B74) 7 0)
    let u := s.modMeas (fun m => { m with
      table := b, seqs := Vector.replicate 16 { run := 0, overruns := 0, runs := 0, trigger := 0, start := 0 } })
    let t := if s.meas.table = b then s else (((u.loadComparators 0).loadComparators 1).vsdRecords u.vsdInvalid).refreshThermal
    exec .sequenceTableActivation s = .next (((t.takeType 0x0A 15).checkInputs).settle s)) ∧
  (∀ (c : BoardCal) (sum : Nat) (least most : U16) (s : State), s.meas.board = some c →
    let mean : Rat := (sum : Rat) / 1024
    let v : Rat := (c.volts : Rat) * 65536 / 25000
    let gid := 0x0B00 + 2 * c.channel
    let x : Int := if c.mode = 1 then roundQ (v - s.paramQ gid * mean) else roundQ ((v - s.paramI (gid + 1)) / mean * 65536)
    (most.toNat : Rat) ≤ mean + 64 → mean - 64 ≤ (least.toNat : Rat) →
    (c.mode = 1 ∧ -4096 ≤ x ∧ x ≤ 4096 ∨ c.mode = 2 ∧ 8192 ≤ mean ∧ 32768 ≤ x ∧ x ≤ 131072) →
    exec (.boardCalibrationComplete sum least most) s = .next (((s.modMeas (fun m => { m with board := none })).applyItems c.req
      [if c.mode = 1 then (gid + 1, BitVec.ofNat 64 (codeOf 16 x)) else (gid, BitVec.ofNat 64 (codeOf 32 x))]).complete
        c.req 0x0804 done)) ∧
  (∀ (c : BoardCal) (sum : Nat) (least most : U16) (s : State), s.meas.board = some c →
    ((sum : Rat) / 1024 + 64 < (most.toNat : Rat) ∨ (least.toNat : Rat) < (sum : Rat) / 1024 - 64 ∨
      c.mode = 2 ∧ (sum : Rat) / 1024 < 8192) →
    exec (.boardCalibrationComplete sum least most) s =
      .next ((s.modMeas (fun m => { m with board := none })).finish c.req 0x0804 ⟨stValue, 0, 0x0103, []⟩))

/-- Comparators, input validity, modulator clocks and coulomb counters (08 R234, 08 R235, 08 R238, 08 R243, 08 R247).
COMPARATOR_ASSERT takes the pin's voltage, and with EN and a voltage beyond LEVEL for FILT asserts, latches as LATCH
says and raises its source; COMPARATOR_RELEASE without LATCH releases once the voltage has been back for FILT;
VSD_INPUT_INVALID, VSD_INPUT_VALID and MODULATOR_CLOCK_LOST: a stuck or unclocked input is invalid until it changes
again; COULOMB_TICK comes at the next whole millisecond and COULOMB_TELEMETRY_INTERVAL when a record is due. -/
def Obligations.StreamEvents : Prop :=
  (∀ (n : Fin 12) (uv : Nat) (s : State),
    bitAt (s.param (0x0B60 + n.val)) 20 = false ∨ cmpBeyond (s.param (0x0B60 + n.val)) uv = false →
    exec (.comparatorAssert n uv) s = .next (s.cmpSees n uv)) ∧
  (∀ (n : Fin 12) (uv : Nat) (s : State),
    let w := s.param (0x0B60 + n.val)
    bitAt w 20 = true → (s.meas.cmps[n.val]).asserted = false → cmpBeyond w uv = true → s.chg.low.run ≠ .dustSheet →
    let t := (((s.cmpSees n uv).cmpQualified n).modCmp n (fun y => { y with asserted := true, latched := bitAt w 23 })).raise (80 + n.val)
    let t := (if bitAt w 21 then t.triggerKind 4 (fun par => bitsOf par 3 0 == n.val) else t).refreshThermal
    exec (.comparatorAssert n uv) s = .next ((if bitAt w 22 then t.safeState 2 0 else t).settle s)) ∧
  (∀ (n : Fin 12) (uv : Nat) (s : State),
    let w := s.param (0x0B60 + n.val)
    (s.meas.cmps[n.val]).asserted = true → bitAt w 23 = false → cmpBack w uv = true → s.chg.low.run ≠ .dustSheet →
    exec (.comparatorRelease n uv) s = .next (((s.cmpSees n uv).cmpQualified n).cmpRelease n)) ∧
  (∀ (n : Fin 12) (uv : Nat) (s : State),
    bitAt (s.param (0x0B60 + n.val)) 23 = true ∨ cmpBack (s.param (0x0B60 + n.val)) uv = false →
    exec (.comparatorRelease n uv) s = .next (s.cmpSees n uv)) ∧
  (∀ (v : Fin 16) (s : State),
    let t := s.modMeas (fun m => { m with vsd := vmod m.vsd v (fun x => { x with stuck := true }) })
    exec (.vsdInputInvalid ⟨v.val, by omega⟩) s =
      .next (((if s.vsdInvalid v.val then t else t.vsdRecord v.val).checkInputs).settle s)) ∧
  (∀ (v : Fin 16) (s : State),
    exec (.vsdInputValid ⟨v.val, by omega⟩) s = .next ((s.modMeas (fun m => { m with
      vsd := vmod m.vsd v (fun x => { x with stuck := false }) })).inputLevel)) ∧
  (∀ (v : Fin 4) (s : State),
    exec (.vsdInputInvalid ⟨16 + v.val, by omega⟩) s = .next ((((s.modMeas (fun m => { m with
      cc := vmod m.cc v (fun x => { x with stuck := true }) }))).checkInputs).settle s)) ∧
  (∀ (v : Fin 4) (s : State),
    exec (.vsdInputValid ⟨16 + v.val, by omega⟩) s = .next ((s.modMeas (fun m => { m with
      cc := vmod m.cc v (fun x => { x with stuck := false }) })).inputLevel)) ∧
  (∀ (cc : Bool) (s : State),
    let t := s.modMeas (fun m => if cc then { m with ccClkLost := true } else { m with vsdClkLost := true })
    exec (.modulatorClockLost cc true) s =
      .next (((if cc then t else t.vsdRecords (fun v => !s.vsdInvalid v)).checkInputs).settle s)) ∧
  (∀ (cc : Bool) (s : State),
    exec (.modulatorClockLost cc false) s = .next ((s.modMeas (fun m =>
      if cc then { m with ccClkLost := false } else { m with vsdClkLost := false })).inputLevel)) ∧
  (∀ (counts : List Reading) (s : State), s.chg.low.run ≠ .dustSheet →
    let last := (s.meas.cc[0]).time.toNat
    let t := (List.finRange 4).foldl (fun t c => (t.ccTick c (counts.getD c.val 0)).ccWakeCount c)
      (s.atDevice (multipleFrom 1000000 (if last ≤ s.now then max s.now (last + 1) else s.now))).pickCoulomb
    let u := ((List.finRange 4).foldl (fun t p => (t.sessionTick p).estTick p)
      (t.modMeas (fun m => { m with cc := m.cc.map Coulomb.remember }))).rateTick
    exec (.coulombTick counts) s =
      .next (u.meas.tickWaits.foldl (fun v r => v.ccResetNow r) (u.modMeas (fun m => { m with tickWaits := [] })))) ∧
  (∀ (c : Fin 4) (e : Nat × Ring) (s : State),
    s.sys.ring.rings.filter (fun e => e.2.kind == 0 && e.2.source.toNat % 65536 == 3 + 256 * c.val) = [e] →
    e.2.due ≤ s.clk →
    exec (.coulombTelemetryInterval c) s = .next ((s.emit .adc (.ring e.1) (s.ccItem c ++ zeros 16)).modSys (fun y => { y with
      ring := { y.ring with rings := y.ring.rings.map (fun z => if z.1 == e.1 then
        (z.1, { z.2 with due := z.2.due + bitsOf z.2.source.toNat 31 16 * 1000000 }) else z) } })))

/-- The measurement opcodes (08 R231, 08 R233, 08 R234, 08 R249, 08 R251, 08 R252). MEAS_READ, MEAS_VSD_READ,
MEAS_CMP_STATUS, MEAS_SEQ_STATUS and CC_READ answer their items; MEAS_TRIGGER triggers the software sequences;
MEAS_CALIBRATE of mode 0 starts both self-calibrations and waits; MEAS_CMP_CLEAR releases the latched comparators
whose input is back past the release point; CC_RESET waits for the next tick. -/
def Obligations.MeasurementCommands : Prop :=
  (∀ (r : Req) (s : State), Ready 0x0801 observe r s → r.payload.length = 8 →
    exec (.measRead r) s = .next (s.complete r 0x0801 (done ((maskList 64 (numAt r.payload 0 8)).map (fun n =>
      leBytes 1 n ++ leBytes 1 (s.adcFlags n) ++ leBytes 2 (s.chan n).raw.toNat ++ leBytes 4 (fitS 32 (s.adcResult n)) ++
        leBytes 8 (s.chan n).time.toNat)).flatten))) ∧
  (∀ (r : Req) (s : State), Ready 0x0802 observe r s → r.payload.length = 2 →
    exec (.measVsdRead r) s = .next (s.complete r 0x0802 (done ((maskList 16 (numAt r.payload 0 2)).map (fun v =>
      leBytes 1 v ++ leBytes 1 (flag (s.vsdInvalid v)) ++ zeros 2 ++ leBytes 4 (fitS 32 (s.vsdRaw v)) ++
        leBytes 8 (s.meas.vsd[v % 16]).time.toNat)).flatten))) ∧
  (∀ (r : Req) (s : State), Ready 0x0803 configure r s → r.payload.length = 2 →
    (maskList 16 (numAt r.payload 0 2)).any (fun i => s.nSeq ≤ i || s.seqByte i 1 != 0) = false →
    exec (.measTrigger r) s = .next ((((List.finRange 16).filter (fun i => bitAt (numAt r.payload 0 2) i.val)).foldl
      (fun t i => t.trigger i) s).complete r 0x0803 done)) ∧
  (∀ (r : Req) (s : State), Ready 0x0804 service r s → lenZ 8 [(2, 2)] r.payload = none → numAt r.payload 0 1 = 0 →
    s.calRunning = false →
    exec (.measCalibrate r) s =
      .next (((s.calibrate (fun _ => true)).modMeas (fun x => { x with selfCal := some r })).park r 0x0804)) ∧
  (∀ (r : Req) (s : State), Ready 0x0804 service r s → lenZ 8 [(2, 2)] r.payload = none →
    (numAt r.payload 0 1 = 1 ∨ numAt r.payload 0 1 = 2) → numAt r.payload 1 1 < 48 → s.calRunning = false →
    exec (.measCalibrate r) s = .next ((s.modMeas (fun x => { x with
      board := some { mode := numAt r.payload 0 1, channel := numAt r.payload 1 1, req := r
                      volts := intAt r.payload 4 4 } })).park r 0x0804)) ∧
  (∀ (r : Req) (s : State), Ready 0x0805 observe r s → r.payload = [] →
    exec (.measCmpStatus r) s =
      .next (s.complete r 0x0805 (done (leBytes 2 (s.cmpMask (·.asserted)) ++ leBytes 2 (s.cmpMask (·.latched)))))) ∧
  (∀ (r : Req) (s : State), Ready 0x0806 control r s → r.payload.length = 2 → s.holdsLease r.owner = true →
    numAt r.payload 0 2 < 4096 →
    let named_ := (List.finRange 12).filter (fun n => bitAt (numAt r.payload 0 2) n.val && (s.meas.cmps[n.val]).latched)
    let back (n : Fin 12) : Bool := cmpBack (s.param (0x0B60 + n.val)) (s.cmpInput n)
    let free := named_.filter back
    let held := named_.filter (fun n => !back n)
    exec (.measCmpClear r) s = .next ((free.foldl (fun t n => t.cmpRelease n) s).complete r 0x0806
      (done (leBytes 2 (free.map (fun n => 2 ^ n.val)).sum ++ leBytes 2 (held.map (fun n => 2 ^ n.val)).sum)))) ∧
  (∀ (r : Req) (s : State), Ready 0x0807 observe r s → r.payload.length = 1 → numAt r.payload 0 1 < 16 →
    exec (.ccRead r) s = .next (s.complete r 0x0807
      (done (((List.finRange 4).filter (fun c => bitAt (numAt r.payload 0 1) c.val)).map s.ccItem).flatten))) ∧
  (∀ (r : Req) (s : State), Ready 0x0808 service r s → r.payload.length = 2 → numAt r.payload 1 1 < 8 →
    (bitAt (numAt r.payload 1 1) 2 = true → r.owner = 0) → numAt r.payload 0 1 < 16 →
    exec (.ccReset r) s = .next ((s.modMeas (fun x => { x with tickWaits := x.tickWaits ++ [r] })).park r 0x0808)) ∧
  (∀ (r : Req) (s : State), Ready 0x0809 observe r s → r.payload = [] →
    exec (.measSeqStatus r) s = .next (s.complete r 0x0809
      (done (((List.finRange 16).filter (fun i => i.val < s.nSeq)).map (fun i =>
        leBytes 1 i.val ++ leBytes 1 (s.meas.seqs[i]).run ++ leBytes 2 (s.meas.seqs[i]).overruns.toNat ++
          leBytes 4 (s.meas.seqs[i]).runs.toNat)).flatten)))

/-- Receiver lock, ring state, enumeration, delays, marks and the sample instant (09 R256, 09 R264, 09 R266, 09 R270, 09
R271, 09 R277, 09 R286). CHAIN_RECEIVER_LOCK runs the symbols through the lock and counts code errors and losses;
RING_STATE_CHANGE of a working ring takes what a port sees of the other port; ENUMERATION_END stores the map and what
was found; DELAY_MEASUREMENT of a probe, or of the interval that CHAIN_PROBE_S sets, stores the ring delays and
completes the CHAIN_PROBEs waiting; MARK_SEND sends the mark after the frame in progress, in its window, and
SAMPLE_INSTANT comes at T_mark, advancing the sweep ID; in a rest state or without a working ring neither does
anything; CHAIN_PORT_STOP of a disabled port stops it once its frame has ended. -/
def Obligations.ChainEvents : Prop :=
  (∀ (q : Fin 2) (symbols : List ChainRx) (s : State),
    let e := symbols.foldl (fun e y => RxLock.step y e) ((s.chainPort q).lock, (s.chainPort q).rx)
    exec (.chainReceiverLock q symbols) s = .next
      (let t := (s.modChainPort q (fun x => { (x.bump 3 (symbols.filter (· == .error)).length).bump 4
         (flag ((s.chainPort q).lock && !e.1)) with lock := e.1, rx := e.2 })).raiseIf ((s.chainPort q).lock != e.1) (160 + q.val)
       let u := if t.chainDown then t.stippleAbortAll 7 else t
       if u.chainDown && u.stack.chain.run != .enumerating then u.modChain (fun c => { c with run := .down }) else u)) ∧
  (∀ (q origin : Fin 2) (s : State), s.stack.chain.run ≠ .enumerating → s.chainDown = false → s.stack.chain.found ≠ 0 →
    exec (.ringStateChange q origin) s = .next (s.ringSees q origin)) ∧
  (∀ (q origin : Fin 2) (s : State),
    (s.stack.chain.run = .enumerating ∨ s.chainDown = true ∨ s.stack.chain.found = 0) →
    exec (.ringStateChange q origin) s = .next s) ∧
  (∀ (found : List NodeInfo) (ra rb a b : Nat) (s : State), s.stack.chain.enumerate = some none →
    ∃ t, exec (.enumerationEnd found ra rb a b) s = .next t ∧ s.clk ≤ t.clk ∧ t.stack.chain.enumerate = none ∧
      t.stack.chain.reachA = ra ∧ t.stack.chain.reachB = rb ∧ t.stack.chain.found = found.length) ∧
  (∀ (found : List NodeInfo) (ra rb a b : Nat) (s : State), s.stack.chain.enumerate = none →
    exec (.enumerationEnd found ra rb a b) s = .next s) ∧
  (∀ (a b : Nat) (deltas : List (Fin 64 × Reading)) (s : State), s.stack.chain.run.up = true →
    (s.stack.chain.probing = true ∨ s.held 0x0D05 ≠ 0) →
    let u := if s.stack.chain.probing then s else s.atLeast (s.stack.chain.probedAt + s.held 0x0D05 * 1000000000)
    let closed := s.stack.chain.run == .closed
    let t := deltas.foldl (fun t e => t.delayOf closed a b e.1 e.2) (u.takeRingDelay closed a b)
    exec (.delayMeasurement a b deltas) s = .next (t.stack.chain.probeWaits.foldl (fun t r => t.complete r 0x0906 done)
      (t.modChain (fun c => { c with probing := false, probeWaits := [], probedAt := t.clk })))) ∧
  (∀ (q : Fin 2) (s : State), s.engineOn = true → s.stack.chain.run.up = true → s.chainEn q = true →
    (s.chainPort q).markFor ≠ some (s.stack.chain.sweepId + 1#8) →
    let at_ := max (max s.now (s.markBy - 30000)) (s.chainPort q).busyUntil
    at_ ≤ s.markBy →
    exec (.markSend q) s = .next ((s.atDevice at_).modChainPort q
      (fun x => { x with markFor := some (s.stack.chain.sweepId + 1#8)
                         mark := markBytes (s.stack.chain.sweepId + 1#8) (s.nextMark - at_) q }))) ∧
  (∀ s : State, s.engineOn = true → s.stack.chain.run.up = true → (∀ i : Fin 16, s.seqByte i.val 1 ≠ 3) →
    ∃ t, exec .sampleInstant s = .next t ∧ t.stack.chain.sweepId = s.stack.chain.sweepId + 1#8 ∧
      t.stack.chain.toRead = true ∧ t.stack.chain.sweepTime = BitVec.ofNat 64 s.nextMark ∧
      t.stack.chain.period = s.wantedPeriod) ∧
  (∀ s : State, (s.engineOn = false ∨ s.stack.chain.run.up = false) →
    exec .sampleInstant s = .next s ∧ exec .sweepReadsStart s = .next s ∧ ∀ q, exec (.markSend q) s = .next s) ∧
  (∀ (q : Fin 2) (s : State), s.chainEn q = false →
    exec (.chainPortStop q) s = .next ((s.atDevice (s.chainPort q).busyUntil).modChainPort q
      (fun x => { x with transmitting := false }))) ∧
  (∀ (q : Fin 2) (s : State), s.chainEn q = true → exec (.chainPortStop q) s = .next s)

/-- The reads of a sweep, replies, time-outs, completion and lost modules (09 R258, 09 R277, 09 R278, 09 R280, 09 R282, 09
R283). SWEEP_READS_START begins the reads of the sweep LATH_CONV after its mark; a CHAIN_REPLY frame that is not a
response only counts, a response that no request awaits counts as stray, one that a request awaits is taken; at
CHAIN_READ_TIMEOUT the oldest read of the port fails; SWEEP_COMPLETE closes the sweep when every read has ended,
SWEEP_DEADLINE at its deadline; at MODULE_CHAIN_LOST a module that has missed LOST_SWEEPS sweeps is CHAIN_LOST and one
that has answered as many is OK; BALANCE_REQUEST_SEND sends the masks and CHAIN_BALANCE that fit, after the reads. -/
def Obligations.SweepEvents : Prop :=
  (∀ s : State, s.engineOn = true → s.stack.chain.run.up = true → s.stack.chain.toRead = true →
    let t0 := s.atDevice (s.stack.chain.sweepTime.toNat + s.held 0x0D03 * 1000)
    let t := (if s.stack.chain.sweeping then t0.closeSweep true else t0).modChain
      (fun c => { c with toRead := false, sweeping := true, reissuedNow := 0, crossA := false, crossB := false, returned := false
                         modules := c.modules.map (fun m => { m with answer := none, reroutedNow := false }) })
    let onPort (q : Fin 2) : List (Fin 64) := (t.sweepModules.filter (fun m => t.primary m == q && t.chainEn q)).foldl
      (fun l m => insertBy (fun k => if q = 0 then (t.module_ k).posA else (t.module_ k).posB) m l) []
    exec .sweepReadsStart s = .next ((List.finRange 2).foldl (fun u q => (onPort q).foldl (fun v m =>
      v.sendRequest q .sweep m.val 0x10#8 (BitVec.ofNat 8 m.val) [s.stack.chain.sweepId] 0 false none) u) t)) ∧
  (∀ (q : Fin 2) (frame : List Byte) (s : State), frame.length = 10 + numAt frame 4 2 → numAt frame 4 2 ≤ 256 →
    BitVec.ofNat 32 (numAt frame (6 + numAt frame 4 2) 4) = crc32c (frame.take (6 + numAt frame 4 2)) →
    let org : Fin 2 := if bitAt (numAt frame 0 1) 2 then 1 else 0
    bitsOf (numAt frame 0 1) 1 0 ≠ 1 →
    exec (.chainReply q frame) s = .next ((s.chainCount q 1).ringSees q org)) ∧
  (∀ (q : Fin 2) (frame : List Byte) (s : State), frame.length = 10 + numAt frame 4 2 → numAt frame 4 2 ≤ 256 →
    BitVec.ofNat 32 (numAt frame (6 + numAt frame 4 2) 4) = crc32c (frame.take (6 + numAt frame 4 2)) →
    let org : Fin 2 := if bitAt (numAt frame 0 1) 2 then 1 else 0
    let hit := s.stack.chain.outstanding.find? (fun x =>
      x.port == org && x.seq == BitVec.ofNat 8 (numAt frame 1 1) && x.addr == BitVec.ofNat 8 (numAt frame 2 1) &&
        x.cmd == BitVec.ofNat 8 (numAt frame 3 1))
    bitsOf (numAt frame 0 1) 1 0 = 1 →
    exec (.chainReply q frame) s = .next (match hit with
      | some x => ((s.chainCount q 1).ringSees q org).takeReply x (slice frame 6 (numAt frame 4 2))
      | none => ((s.chainCount q 1).ringSees q org).chainCount q 7)) ∧
  (∀ (q : Fin 2) (frame : List Byte) (s : State), 256 < numAt frame 4 2 → s.stack.chain.outstanding = [] →
    exec (.chainReply q frame) s = .next (s.chainCount q 2)) ∧
  (∀ (q : Fin 2) (x : ChainRequest) (xs : List ChainRequest) (s : State), s.stack.chain.outstanding = x :: xs → x.port = q →
    exec (.chainReadTimeout q) s = .next (((s.atDevice (x.slotEnd + s.effTimeout)).chainCount q 5).failRead x)) ∧
  (∀ s : State, s.engineOn = true → s.stack.chain.sweeping = true → s.readsPending = false →
    exec .sweepComplete s = .next (s.closeSweep false) ∧ exec .sweepDeadline s = .next s) ∧
  (∀ s : State, s.engineOn = true → s.stack.chain.sweeping = true → s.readsPending = true →
    exec .sweepDeadline s = .next ((s.atDevice (s.stack.chain.sweepTime.toNat + s.stack.chain.period +
      s.held 0x0D03 * 1000)).closeSweep true) ∧ exec .sweepComplete s = .next s) ∧
  (∀ (m : Fin 64) (s : State), (s.module_ m).run.bound = true → bitsOf (s.held 0x0D00) 23 20 ≤ (s.module_ m).missRun →
    exec (.moduleChainLost m) s = .next ((List.finRange 4).foldl (fun t p =>
      if (t.readModules p).contains m then (t.latchFaults p 32#7).portChanged s p else t) (s.moduleTo m .chainLost))) ∧
  (∀ (m : Fin 64) (s : State), (s.module_ m).run = .chainLost → bitsOf (s.held 0x0D00) 23 20 ≤ (s.module_ m).goodRun →
    exec (.moduleChainLost m) s = .next ((List.finRange 4).foldl (fun t p =>
      if (t.readModules p).contains m then t.portChanged s p else t) (s.moduleTo m .ok))) ∧
  (∀ (q : Fin 2) (s : State), s.stack.chain.run.up = true → s.chainEn q = true → s.stack.chain.toRead = false →
    let due := s.sweepModules.filter (fun m => (s.module_ m).run.bound && s.primary m == q && bitAt (s.held (moId m 0)) 1 &&
      (s.module_ m).balanceDue s.clk)
    ∃ t, exec (.balanceRequestSend q) s = .next t ∧ t.clk = s.clk ∧
      (∀ m : Fin 64, m ∉ due → t.module_ m = s.module_ m) ∧
      (∀ m : Fin 64, t.module_ m = s.module_ m ∨
        ((t.module_ m).maskSent = (s.module_ m).mask ∧ (t.module_ m).sentAt = s.clk ∧ (t.module_ m).override_ = none))) ∧
  (∀ (q : Fin 2) (m : Fin 64) (s : State), s.stack.chain.run.up = true → s.chainEn q = true → s.stack.chain.toRead = false →
    s.sweepModules.filter (fun m => (s.module_ m).run.bound && s.primary m == q && bitAt (s.held (moId m 0)) 1 &&
      (s.module_ m).balanceDue s.clk) = [m] →
    s.stack.chain.balance = [] → s.stack.chain.node = [] → s.fits q 0x20#8 (BitVec.ofNat 8 m.val) 6 = true →
    exec (.balanceRequestSend q) s = .next ((s.sendRequest q .balance m.val 0x20#8 (BitVec.ofNat 8 m.val)
      (leBytes 4 (s.module_ m).mask.toNat ++ leBytes 2 3000) 0 false none).modModule m (fun x =>
        { x with maskSent := x.mask, sentAt := s.clk, override_ := none }))) ∧
  (∀ (q : Fin 2) (r : Req) (s : State), s.stack.chain.run.up = true → s.chainEn q = true → s.stack.chain.toRead = false →
    s.sweepModules = [] →
    s.stack.chain.balance = [r] → s.primary (Fin.ofNat 64 (numAt r.payload 0 1)) = q → s.stack.chain.node = [] →
    s.fits q 0x20#8 (BitVec.ofNat 8 (numAt r.payload 0 1)) 6 = true →
    exec (.balanceRequestSend q) s = .next ((s.sendRequest q .balance (numAt r.payload 0 1) 0x20#8
      (BitVec.ofNat 8 (numAt r.payload 0 1)) (slice r.payload 4 4 ++ slice r.payload 2 2) 0 false (some r)).modChain (fun c =>
        { c with balance := c.balance.erase r }))) ∧
  (∀ (q : Fin 2) (s : State), (s.stack.chain.run.up = false ∨ s.chainEn q = false ∨ s.stack.chain.toRead = true) →
    exec (.balanceRequestSend q) s = .next s)

/-- The chain and estimation opcodes (09 R266, 09 R268, 09 R270, 09 R283, 09 R292, 09 R289, 10 R312, 10 R313).
CHAIN_STATUS answers 16 bytes and 64 module words; CHAIN_ENUMERATE starts an enumeration and waits; CHAIN_MODULE_READ
answers the sweep kept; CHAIN_BALANCE and CHAIN_NODE_CMD wait for the reads of a sweep; CHAIN_PROBE waits for the
delay measurement. EST_STATUS_READ and EST_CELL_READ answer the status word and the engine's cells; EST_LEARN_NOW
journals and waits for the writes; EST_SET_SOC of one module waits for its next update; EST_RELEARN starts a module
anew; MODULE_ACCEPT of a module with another UID takes the UID of its node. -/
def Obligations.StackCommands : Prop :=
  (∀ (r : Req) (s : State), Ready 0x0901 observe r s → r.payload = [] →
    exec (.chainStatus r) s = .next (s.complete r 0x0901 (done (leBytes 4 s.lathStatus ++ leBytes 4 s.stack.chain.ringDelay.toNat ++
      leBytes 4 s.stack.chain.lastWord ++ zeros 4 ++
        (s.stack.chain.modules.toList.map (fun m => leBytes 4 m.statusWord)).flatten)))) ∧
  (∀ (r : Req) (s : State), Ready 0x0902 configure r s → r.payload = [] → s.stack.chain.enumerate = none →
    s.allQuiet = true → s.chainDown = false →
    exec (.chainEnumerate r) s = .next ((s.startEnumeration (some r)).park r 0x0902)) ∧
  (∀ (r : Req) (m : Fin 64) (s : State), Ready 0x0903 observe r s → r.payload.length = 2 →
    numAt r.payload 0 1 = m.val → numAt r.payload 1 1 ≤ 3 →
    exec (.chainModuleRead r) s = .next (s.complete r 0x0903 (done (match (s.module_ m).sweeps[numAt r.payload 1 1]? with
      | none => zeros 80
      | some e => leBytes 8 e.time.toNat ++ [e.flags] ++ (if e.raw.length = 72 then e.raw else zeros 72).drop 1)))) ∧
  (∀ (r : Req) (m : Fin 64) (s : State), Ready 0x0904 service r s → lenZ 8 [(1, 1)] r.payload = none →
    numAt r.payload 0 1 = m.val → s.chainDown = false → (s.module_ m).run.bound = true →
    bitAt (s.held (moId m 0)) 1 = true → numAt r.payload 4 4 < 2 ^ s.nCell m →
    (maskList 24 (numAt r.payload 4 4)).length ≤ bitsOf (s.held (moId m 0)) 23 16 → 1 ≤ numAt r.payload 2 2 →
    numAt r.payload 2 2 ≤ 10000 →
    exec (.chainBalance r) s = .next ((s.modChain (fun c => { c with balance := c.balance ++ [r] })).park r 0x0904)) ∧
  (∀ (r : Req) (q : Fin 2) (s : State), Ready 0x0905 service r s → 4 ≤ r.payload.length → r.payload.length ≤ 260 →
    zeroAt r.payload 3 1 = true → numAt r.payload 0 1 = q.val → numAt r.payload 2 1 ≠ 2 → numAt r.payload 2 1 ≠ 3 →
    numAt r.payload 2 1 ≠ 6 → s.chainDown = false →
    s.chainEn q = true →
    exec (.chainNodeCmd r) s = .next ((s.modChain (fun c => { c with node := c.node ++ [r] })).park r 0x0905)) ∧
  (∀ (r : Req) (s : State), Ready 0x0906 configure r s → r.payload = [] → s.chainDown = false →
    exec (.chainProbe r) s =
      .next ((s.modChain (fun c => { c with probing := true, probeWaits := c.probeWaits ++ [r] })).park r 0x0906)) ∧
  (∀ (r : Req) (s : State), Ready 0x0A01 observe r s → r.payload = [] →
    exec (.estStatusRead r) s = .next (s.complete r 0x0A01 (done (leBytes 4 s.estWord ++ ((List.finRange 4).map (fun p =>
      leBytes 2 (s.socShown p) ++ leBytes 2 (match (s.sest p).x with | some x => field16 x | none => 0xFFFF) ++
        leBytes 2 (s.sohShown p) ++ zeros 2 ++ leBytes 4 (ahField (s.sest p).qDis) ++
        leBytes 4 (ahField (s.sest p).qChg))).flatten)))) ∧
  (∀ (r : Req) (m : Fin 64) (s : State), Ready 0x0A02 observe r s → r.payload = [BitVec.ofNat 8 m.val] →
    exec (.estCellRead r) s = .next (s.complete r 0x0A02 (done (leBytes 4 (s.mEstWord m) ++ leBytes 8 (s.mest m).updatedAt ++
      zeros 4 ++ (((s.mest m).used (s.nCell m)).map Cell.item).flatten)))) ∧
  (∀ (r : Req) (s : State), Ready 0x0A03 configure r s → r.payload = [] → s.nvmHeld = false →
    exec (.estLearnNow r) s = .next (((s.journalEst (fun m => (s.mest m).changed)).modEst
      (fun e => { e with learnWaits := e.learnWaits ++ [r] })).park r 0x0A03)) ∧
  (∀ (r : Req) (m : Fin 64) (s : State), Ready 0x0A04 service r s → r.payload.length = 4 → numAt r.payload 0 1 = 0 →
    numAt r.payload 1 1 = m.val → numAt r.payload 2 2 ≤ 10000 →
    (∀ p, s.portOfModule m = some p → (s.groupsOfPort p).any (fun g => !(s.group g).mode.isQuiet) = false) →
    s.estBarred m = none →
    exec (.estSetSoc r) s =
      .next ((s.modEst (fun e => { e with sets := e.sets ++ [{ req := r, left := [m.val] }] })).park r 0x0A04)) ∧
  (∀ (r : Req) (p : Fin 4) (s : State), Ready 0x0A04 service r s → r.payload.length = 4 → numAt r.payload 0 1 = 1 →
    numAt r.payload 1 1 = p.val → numAt r.payload 2 2 ≤ 10000 →
    (s.groupsOfPort p).any (fun g => !(s.group g).mode.isQuiet) = false →
    (s.readModules p).findSome? s.estBarred = none → s.readModules p ≠ [] →
    exec (.estSetSoc r) s = .next ((s.modEst (fun e => { e with
      sets := e.sets ++ [{ req := r, left := (s.readModules p).map (·.val) }] })).park r 0x0A04)) ∧
  (∀ (r : Req) (m : Fin 64) (s : State), Ready 0x0A05 service r s → r.payload = [BitVec.ofNat 8 m.val] → s.estBarred m = none →
    exec (.estRelearn r) s = .next (((s.relearn m).auditReplaced r 0x0A05).complete r 0x0A05 done)) ∧
  (∀ (r : Req) (m : Fin 64) (s : State), Ready 0x0907 service r s → r.payload = [BitVec.ofNat 8 m.val] →
    (s.module_ m).run = .uidMismatch →
    let t := s.setParam (moId m 1) (s.module_ m).uid.toNat
    t.nCell m ≤ (s.module_ m).nCellMax → t.tMask m &&& (s.module_ m).tMaskMax.toNat = t.tMask m →
    exec (.moduleAccept r) s = .next ((((t.moduleTo m .ok).modModule m
      (fun y => { y with missRun := 0, goodRun := 0 })).relearn m).complete r 0x0907 done))

/-- Update instants, divergence, stale temperature, balancing, learning, rates and end of life (10 R293, 10 R294, 10 R302,
10 R312, 10 R314, 10 R315, 10 R316). Each estimation event comes at its time and has its effect: FLOAT_UPDATE takes
the parameters, tables and sets, updates the module and, after the last module of the string, the string;
CELL_DIVERGED of 50 bad updates sets DIVERGED and IS172, and 600 good ones of every cell end it; TEMP_STALE after 60 s
without a temperature; BALANCING_DECISION once a second; LEARNING_INTERVAL journals the records, four times as seldom
with a retired bank; REDUCED_RATE_ENTRY, FULL_RATE_RESUME, HIBERNATE_ENTRY and HIBERNATE_RECORD change and keep the
rate; END_OF_LIFE after 24 h below EST_SOH_EOL. -/
def Obligations.EstimationEvents : Prop :=
  (∀ (m : Fin 64) (s : State), s.engineOn = true →
    let t := multipleFrom s.updateStep ((s.mest m).updatedAt + 1)
    let u := (((s.atDevice t).pickEst m).applyFloat.takeType 3 16).takeType 4 16
    let v := u.floatModule m (u.mest m).x
    exec (.floatUpdate m) s = .next ((v.modMest m (fun x => { x with
      updatedAt := max t x.updatedAt, window := x.window.filter (fun e => decide (v.now < e.time.toNat))
      dq := 0, gaps := 0 })).floatString m t)) ∧
  (∀ (m : Fin 64) (c : Fin 24) (s : State), s.engineOn = false →
    exec (.floatUpdate m) s = .next s ∧ exec (.cellDiverged m c) s = .next s ∧ exec (.tempStale m) s = .next s) ∧
  (∀ (m : Fin 64) (c : Fin 24) (s : State), s.engineOn = true → ((s.mest m).cells[c.val]).badRun < 50 →
    (s.mest m).diverged = true → ((s.mest m).used (s.nCell m)).all (fun z => decide (600 ≤ z.goodRun)) = true →
    exec (.cellDiverged m c) s = .next (s.modMest m (fun x =>
      { x with diverged := false, cells := x.cells.map (fun z => { z with diverged := false }) }))) ∧
  (∀ (m : Fin 64) (c : Fin 24) (s : State), s.engineOn = true → 50 ≤ ((s.mest m).cells[c.val]).badRun →
    let f := s.floatIn m ((s.portOfModule m).getD 0) false (s.mest m).temp
    let y := (s.mest m).cells[c.val]
    exec (.cellDiverged m c) s = .next ((s.modMest m (fun x => { x with
      diverged := true, cells := vmod x.cells c (fun z => { z with
        badRun := 0, diverged := true, cov := f.cov0 (ocvLookup f.ocv y.z f.temp y.h).2 }) })).raise 172)) ∧
  (∀ (m : Fin 64) (s : State), s.engineOn = true → s.estRuns m = true → (s.mest m).predictOnly = true → (s.mest m).tempStale = false →
    exec (.tempStale m) s = .next ((s.atLeast ((s.mest m).tempAt + 60000000000)).modMest m
      (fun y => { y with tempStale := true }))) ∧
  (∀ s : State, s.firmwareOn = true →
    let t := s.atLeast (s.stack.est.lastBalance + 1000000000)
    exec .balancingDecision s = .next (((List.finRange 64).foldl (fun u m => match t.portOfModule m with
      | some p => u.modModule m (fun x => { x with mask := t.chooseMask m p })
      | none => u) t).modEst (fun e => { e with lastBalance := t.clk }))) ∧
  (∀ s : State, s.firmwareOn = true →
    let t := s.atLeast (s.stack.est.lastLearn + (if s.nv.nvm.retired.isEmpty then 1 else 4) * s.held 0x1204 * 1000000000)
    let u := (t.journalEst (fun m => (t.mest m).changed)).journalCounters
    exec .learningInterval s = .next (u.modEst (fun e => { e with lastLearn := u.clk }))) ∧
  (∀ (q : Nanos) (s : State), s.firmwareOn = true → s.stack.est.quietSince = some q → s.stack.est.rate = .full →
    bitAt (s.held 0x1211) 0 = true → s.quiet = true →
    let t := s.atLeast (q + bitsOf (s.held 0x1211) 15 8 * 1000000000)
    exec .reducedRateEntry s =
      .next ((t.modEst (fun e => { e with rate := .reduced, reducedSince := t.clk, leave := false })).raise 168)) ∧
  (∀ s : State, s.firmwareOn = true → s.stack.est.leave = true → exec .fullRateResume s = .next s.fullRate) ∧
  (∀ s : State, s.firmwareOn = true → s.stack.est.leave = false → exec .fullRateResume s = .next s) ∧
  (∀ s : State, s.firmwareOn = true → s.stack.est.rate = .reduced → bitAt (s.held 0x1200) 2 = true → s.allQuiet = true →
    let t := s.atLeast (s.stack.est.reducedSince + 900000000000)
    exec .hibernateEntry s = .next ((((t.modEst (fun e => { e with rate := .hibernate, lastRecord := t.clk })).modChain
      (fun c => { c with modules := c.modules.map (fun m => { m with mask := 0 }) })).hibernateRecords 0).raise 168)) ∧
  (∀ s : State, s.firmwareOn = true → s.stack.est.rate = .hibernate →
    let t := s.atLeast (s.stack.est.lastRecord + 60000000000)
    exec .hibernateRecord s = .next ((t.modEst (fun e => { e with lastRecord := t.clk })).hibernateRecords 2)) ∧
  (∀ (p : Fin 4) (t0 : Nanos) (s : State), s.firmwareOn = true → (s.sest p).eolSince = some t0 → (s.sest p).eol = false →
    let t := (s.atLeast (t0 + 86400000000000)).modSest p (fun e => { e with eol := true })
    exec (.endOfLife p) s = .next ((t.store 0x31 0 t.stringRecord).raise 171))

/-- A sweep: start, points, deferral and end (11 R328, 11 R329, 11 R331, 11 R334, 11 R335, 11 R338). STIPPLE_SWEEP_START:
a scheduled sweep that still fits starts at AT, one that does not aborts; STIPPLE_POINT_START: a point starts at T_0
when its perturbation can be placed, else a LOCAL sweep defers and a PLANT one skips the point, and a frequency off
the grid aborts; STIPPLE_DEFER_TIMEOUT ends a deferred LOCAL sweep after STP_DEFER_S; STIPPLE_POINT_END: a point that
was discarded is repeated or left, a good one gives its records, which are written; STIPPLE_SWEEP_END learns from a
finished sweep, writes the event of the sweep and makes the port idle. -/
def Obligations.StippleEvents : Prop :=
  (∀ (p : Fin 4) (s : State), s.engineOn = true → (s.stp p).run = .scheduled → (s.stp p).abort = 0 →
    let t := s.atDevice (s.stp p).at_.toNat
    t.sweepFits p = true →
    exec (.stippleSweepStart p) s = .next (((t.modSweep p (fun y => t.placeTimes p { y with
      run := .waiting, point := 0, repeats := 0, base := (y.at_.toNat : Rat), discards := 0, skips := 0, donePoints := 0
      records := [], unwritten := 0, sums := [], discard := false, deferSince := none })).toCcm p).fullRate)) ∧
  (∀ (p : Fin 4) (s : State), s.engineOn = true → (s.stp p).run = .scheduled → (s.stp p).abort = 0 →
    let t := s.atDevice (s.stp p).at_.toNat
    t.sweepFits p = false →
    exec (.stippleSweepStart p) s = .next (t.modSweep p (fun y => { y with abort := 2 }))) ∧
  (∀ (p : Fin 4) (a : Rat) (s : State), s.engineOn = true → ((s.stp p).run = .waiting ∨ (s.stp p).run = .gap) → (s.stp p).finished = false → (s.stp p).abort = 0 →
    (s.stp p).deferSince = none →
    let u := s.atDevice (ceilQ (s.stp p).t0).toNat
    let t := u.modSweep p u.takePars
    (t.gridOk (s.stp p).freq (s.stp p).cycles = true → t.placeable p = some a →
      exec (.stipplePointStart p) s = .next (t.modSweep p (fun y => { y with
        run := .settling, amp := a, perturbing := true, discard := false, sums := [] }))) ∧
    (t.gridOk (s.stp p).freq (s.stp p).cycles = true → t.placeable p = none → (s.stp p).plant = false →
      exec (.stipplePointStart p) s = .next (t.modSweep p (fun y => { y with run := .waiting, deferSince := some t.clk }))) ∧
    (t.gridOk (s.stp p).freq (s.stp p).cycles = true → t.placeable p = none → (s.stp p).plant = true →
      exec (.stipplePointStart p) s =
        .next (((t.modSweep p (fun y => { y with skips := y.skips + 1 })).nextPoint p).raise 175)) ∧
    (t.gridOk (s.stp p).freq (s.stp p).cycles = false →
      exec (.stipplePointStart p) s = .next (t.stippleAbort p 7))) ∧
  (∀ (p : Fin 4) (d : Nanos) (s : State), s.engineOn = true → (s.stp p).deferSince = some d → (s.stp p).abort = 0 →
    exec (.stippleDeferTimeout p) s =
      .next ((s.atLeast (d + (s.stp p).par 6 * 1000000000)).stippleAbort p 6)) ∧
  (∀ (p : Fin 4) (e : Rat) (amps : List (List Capture × List Capture × Nat)) (s : State), s.engineOn = true →
    (s.stp p).perturbing = true → (s.stp p).abort = 0 →
    (s.stp p).finished = false → (s.stp p).stopAt = some e → (s.stp p).discard = true → (s.stp p).plant = true →
    exec (.stipplePointEnd p amps) s = .next (((((s.atDevice (ceilQ e).toNat).modSweep p (fun y => { y with
      discards := y.discards + 1 })).modSweep p (fun y => { y with
        skips := if y.plant then y.skips + 1 else y.skips })).nextPoint p).raise 175)) ∧
  (∀ (p : Fin 4) (e : Rat) (amps : List (List Capture × List Capture × Nat)) (s : State), s.engineOn = true →
    (s.stp p).perturbing = true → (s.stp p).abort = 0 →
    (s.stp p).finished = false → (s.stp p).stopAt = some e → (s.stp p).discard = false →
    let t := s.atDevice (ceilQ e).toNat
    let rs := (t.readModules p).map (t.pointRecord p ((s.stp p).pointSums (amps.map (t.ampsAt p))))
    exec (.stipplePointEnd p amps) s = .next (((t.modSweep p (fun y => { y with
      records := y.records ++ rs, unwritten := y.unwritten + rs.length
      donePoints := y.donePoints ||| (1#32 <<< y.point) })).nextPoint p).writePoints p)) ∧
  (∀ (p : Fin 4) (e : Rat) (amps : List (List Capture × List Capture × Nat)) (s : State), s.engineOn = true →
    (s.stp p).perturbing = true → (s.stp p).abort = 0 →
    (s.stp p).finished = false → (s.stp p).stopAt = some e → (s.stp p).discard = true → (s.stp p).plant = false →
    (s.stp p).repeats < (s.stp p).par 5 →
    let t := (s.atDevice (ceilQ e).toNat).modSweep p (fun y => { y with discards := y.discards + 1 })
    exec (.stipplePointEnd p amps) s = .next ((t.modSweep p (fun y => t.placeTimes p { y with
      repeats := y.repeats + 1, base := y.stopAt.getD y.base, perturbing := false, discard := false, sums := []
      run := .gap })).raise 175)) ∧
  (∀ (p : Fin 4) (s : State), s.firmwareOn = true → (s.stp p).run ≠ .idle → (s.stp p).perturbing = false →
    (s.stp p).abort ≠ 0 →
    let t := s.writePoints p
    exec (.stippleSweepEnd p) s = .next ((((t.event .burpol .everyEvent 0x54 ((s.stp p).endBody p t.now 0)).modSweep p
      (fun y => { y with
        run := .idle, perturbing := false, discard := false, deferSince := none, sums := [], abort := 0
        lastNumber := y.number, lastPoints := (maskList 32 y.donePoints.toNat).length, lastCause := y.abort })).modStp
      (fun y => { y with cntSweeps := y.cntSweeps + 1#32, cntAborts := satInc y.cntAborts })).raise 175)) ∧
  (∀ (p : Fin 4) (s : State), s.firmwareOn = true → (s.stp p).run ≠ .idle → (s.stp p).run ≠ .scheduled →
    (s.stp p).perturbing = false → (s.stp p).abort = 0 → (s.stp p).finished = true →
    let e := if bitAt (s.param 0x1400) 1 then ((s.writePoints p).readModules p).foldl (fun a m =>
        ((a.1.learnModule p m).1, a.2 + (a.1.learnModule p m).2)) (s.writePoints p, 0) else (s.writePoints p, 0)
    exec (.stippleSweepEnd p) s = .next (((e.1.event .burpol .everyEvent 0x54 ((s.stp p).endBody p e.1.now e.2)).modSweep p
      (fun y => { y with
        run := .idle, perturbing := false, discard := false, deferSince := none, sums := [], abort := 0
        lastNumber := y.number, lastPoints := (maskList 32 y.donePoints.toNat).length, lastCause := y.abort })).modStp
      (fun y => { y with cntSweeps := y.cntSweeps + 1#32 })))

/-- The Stipple opcodes (11 R321, 11 R322, 11 R338, 11 R339). STIPPLE_START of an idle port with a plan on the grid
schedules the sweep and answers its number; STIPPLE_ABORT ends the sweep under way; STIPPLE_STATUS answers 16 bytes
for each port of the mask; STIPPLE_RESULT answers a point's record. -/
def Obligations.StippleCommands : Prop :=
  (∀ (r : Req) (p : Fin 4) (b : List Byte) (s : State), Ready 0x0B01 control r s → lenZ 12 [(3, 1)] r.payload = none →
    numAt r.payload 2 1 < 2 → numAt r.payload 0 1 = p.val → s.holdsLease r.owner = true →
    let id := if numAt r.payload 1 1 = 0xFF then s.param (0x1410 + 4 * p.val) else numAt r.payload 1 1
    bitAt (s.param 0x1400) 0 = true → (s.stp p).run = .idle → s.namedBody 9 id = some b →
    s.planGrid b = true → (s.groupsOfPort p).any (fun g => (s.group g).pair.paired) = false →
    (bitAt (numAt r.payload 2 1) 0 = true → numAt r.payload 4 8 % 1000000000 = 0 ∧
      s.now + 1000000000 ≤ numAt r.payload 4 8) →
    exec (.stippleStart r) s = .next ((s.modSweep p (fun y => { y with
      run := .scheduled, plant := bitAt (numAt r.payload 2 1) 0, planId := id, plan := b, number := (s.stp p).number + 1#16, abort := 0
      point := 0, repeats := 0, at_ := BitVec.ofNat 64 (max (numAt r.payload 4 8) s.now) })).complete r 0x0B01
        (done (leBytes 2 ((s.stp p).number + 1#16).toNat)))) ∧
  (∀ (r : Req) (p : Fin 4) (s : State), Ready 0x0B02 control r s → r.payload = [BitVec.ofNat 8 p.val] →
    s.holdsLease r.owner = true → (s.stp p).run ≠ .idle →
    exec (.stippleAbort r) s = .next ((s.stippleAbort p 1).complete r 0x0B02 done)) ∧
  (∀ (r : Req) (s : State), Ready 0x0B03 observe r s → r.payload.length = 1 → numAt r.payload 0 1 < 16 →
    exec (.stippleStatus r) s = .next (s.complete r 0x0B03
      (done (((List.finRange 4).filter (fun p => bitAt (numAt r.payload 0 1) p.val)).map (fun p =>
        leBytes 1 p.val ++ zeros 3 ++ leBytes 4 (s.stp p).stateWord ++ leBytes 8 (s.stp p).atShown)).flatten))) ∧
  (∀ (r : Req) (p : Fin 4) (m : Fin 64) (e : SweepRecord) (s : State), Ready 0x0B04 observe r s → r.payload.length = 3 →
    numAt r.payload 0 1 = p.val → numAt r.payload 1 1 = m.val →
    (s.stp p).records.find? (fun e => e.module_ == m.val && e.point == numAt r.payload 2 1) = some e →
    exec (.stippleResult r) s = .next (s.complete r 0x0B04 (done e.bytes)))

/-- Rails: rise, faults, stages, retries and STEP_N (12 R348, 12 R349, 12 R351, 12 R356, 12 R358, 12 R359, 12 R361, 12
R362, 12 R364, 12 R365). RAIL_POWER_GOOD: a rising rail that has been in its window for its time is GOOD;
RAIL_RISE_TIMEOUT: a critical one that fails to rise ends the sequence; CRITICAL_RAIL_FAULT drives the safe state with
cause 4, and going down it is only recorded; NONCRITICAL_RAIL_FAULT drops what rests on the rail; what the supervisor
does not report changes nothing; SEQUENCER_STAGE_START and DOWN_SEQUENCE_STAGE come GAP_US after the stage before;
SEQUENCE_RETRY_WAIT_END, LOCKOUT_EXIT and SEQUENCE_RETRY_RESET act on the retry count; STEP_N_ADVANCE releases the
line 5 µs after the end of a stage, which goes on by it, and STEP_N_TIMEOUT gives it up. -/
def Obligations.RailEvents : Prop :=
  (∀ (k : Fin 32) (mv : U16) (s : State), k.val < 26 → (s.rail k.val).run = .rising → s.inRailWindow k.val mv.toNat = true →
    exec (.railPowerGood k mv) s = .next ((s.atLeast ((s.rail k.val).enabledAt + s.pgTime k.val)).modRail k.val
      (fun x => { x with run := .good, pg := true })).stageCheck) ∧
  (∀ (k : Fin 32) (mv : U16) (s : State), s.inRailWindow k.val mv.toNat = false → exec (.railPowerGood k mv) s = .next s) ∧
  (∀ (k : Fin 32) (c : Fin 9) (mv : U16) (s : State), k.val < 26 → (s.rail k.val).run = .rising →
    (c.val = 1 ∨ (c.val ≠ 2 ∧ s.supervises k.val c.val mv.toNat = true)) →
    let rise := match s.entryOf k.val with | some e => e.riseMs * 1000000 | none => 0
    let u := if c.val = 1 then s.atLeast ((s.rail k.val).enabledAt + rise) else s
    let v := if c.val ≠ 1 ∧ mandatory k.val = true then u.modSafety (fun x => { x with clamp := true }) else u
    let t := (v.recordRail k.val c.val mv).modRail k.val (Rail.fail .failed c.val)
    exec (.railRiseTimeout k c mv) s = .next (if t.railCritical k.val = false then t.stageCheck
      else if t.power.seq.run = .down ∨ t.power.seq.run = .holdUp then t else t.sequenceFails.settle s)) ∧
  (∀ (k : Fin 32) (c : Fin 9) (mv : U16) (s : State), k.val < 26 → s.supervises k.val c.val mv.toNat = true →
    s.railCritical k.val = true → s.power.seq.run ≠ .down → s.power.seq.run ≠ .holdUp → (s.rail k.val).run = .good →
    let t := if mandatory k.val then s.modSafety (fun x => { x with clamp := true }) else s
    exec (.criticalRailFault k c mv) s = .next (((((t.recordRail k.val c.val mv).modRail k.val
      (Rail.fail .fault c.val)).safeState 4 0).sequenceFails).settle s)) ∧
  (∀ (k : Fin 32) (c : Fin 9) (mv : U16) (s : State), k.val < 26 → s.supervises k.val c.val mv.toNat = true →
    s.railCritical k.val = true → (s.power.seq.run = .down ∨ s.power.seq.run = .holdUp) →
    ((s.rail k.val).run = .good ∨ (s.rail k.val).run = .lowering) →
    exec (.criticalRailFault k c mv) s = .next (s.recordRail k.val c.val mv)) ∧
  (∀ (k : Fin 32) (c : Fin 9) (mv : U16) (s : State), s.supervises k.val c.val mv.toNat = false →
    exec (.criticalRailFault k c mv) s = .next s ∧ exec (.noncriticalRailFault k c mv) s = .next s) ∧
  (∀ (k : Fin 32) (c : Fin 9) (mv : U16) (s : State), k.val < 26 → s.supervises k.val c.val mv.toNat = true →
    s.railCritical k.val = false →
    (s.rail k.val).run = .good →
    exec (.noncriticalRailFault k c mv) s = .next ((((s.recordRail k.val c.val mv).dropDependents k.val).modRail k.val
      (Rail.fail .fault c.val)).stageCheck)) ∧
  (∀ (k : Nat) (ks : List Nat) (s : State), s.power.seq.run = .up → s.power.seq.stageEnded = true →
    (s.power.seq.stepTaken = false ∨ s.power.seq.advanced = true) → s.power.seq.stagesAfter s.power.seq.stage = k :: ks →
    exec .sequencerStageStart s =
      .next ((s.atLeast (s.power.seq.since + s.power.seq.table.gapUs * 1000)).beginStage k)) ∧
  (∀ s : State, s.power.seq.run = .up → s.power.seq.stageEnded = true → s.power.seq.stepTaken = true →
    s.power.seq.advanced = false → exec .sequencerStageStart s = .next s) ∧
  (∀ s : State, s.power.seq.run = .up → s.power.seq.stageEnded = true → s.power.seq.stepTaken = true →
    s.power.seq.stepDriven = false →
    exec .stepNAdvance s = .next ((s.atLeast (s.power.seq.since + 5000)).modSqr
      (fun x => { x with stepLine := false, stepDriven := true, advanced := true }))) ∧
  (∀ s : State, s.power.seq.run = .up → s.power.seq.stageEnded = true → s.power.seq.stepTaken = true →
    s.power.seq.advanced = false →
    exec .stepNTimeout s = .next (((s.atLeast (s.power.seq.since + s.power.seq.table.stepTmoMs * 1000000)).modSqr
      (fun x => { x with stepAlone := true, stepLine := false })).raise 188)) ∧
  (∀ (k : Nat) (ks : List Nat) (s : State), s.power.seq.run = .down →
    let t := (List.range 26).foldl (fun t i => if (t.rail i).run == .lowering then t.modRail i Rail.downNow else t) s
    t.stagesBelow s.power.seq.stage = k :: ks →
    exec .downSequenceStage s =
      .next (((t.atLeast (s.power.seq.since + s.offWait + s.power.seq.table.gapUs * 1000)).lowerStage k).settle s)) ∧
  (∀ s : State, s.power.seq.run = .retryWait →
    exec .sequenceRetryWaitEnd s =
      .next ((s.atLeast (s.power.seq.since + s.power.seq.table.retryWaitMs * 1000000)).startUp false)) ∧
  (∀ s : State, s.power.seq.run = .lockout →
    exec .lockoutExit s = .next ((s.modSqr (fun x => { x with retries := 0 })).startUp false)) ∧
  (∀ s : State, s.power.seq.run = .complete →
    exec .sequenceRetryReset s = .next ((s.atLeast (s.power.seq.since + 600000000000)).modSqr
      (fun x => { x with retries := 0 })))

/-- AUX, hold-up, retention, D-die release, FAULT_N and the die link (12 R346, 12 R367, 12 R368, 12 R370, 12 R371, 12
R372, 12 R357, 01 R12, 01 R13, 01 R21, 12 R366). AUX_RISE into 18.0 V to 60.0 V begins the up-sequence, the island
that was without supply latching the fuses first, and wakes a dust-sheet mode that waits for it; AUX_BROWN_OUT below
AUX_BO moves to HOLD, and stops an up-sequence; AUX_RETURN, 1 ms above it, moves back; at RIDE_THROUGH_EXPIRY the safe
state comes with cause 5 and the journal is flushed, and at HOLD_UP_FLUSH_COMPLETE the rails go down;
HOLD_READY_CHANGE compares HOLD with HOLD_MIN; RETENTION_LOSS empties what the retention supply kept;
D_DIE_RESET_RELEASE starts the D-die with every mandatory rail GOOD, taking the straps and the bank supplies.
FAULT_N_EXTERNAL_LOW: another device that pulls FAULT_N low while the device does not drive it is recorded and is a
fall of the line, and one that only adds to the line, or finds the island without supply, is noted; FAULT_N_RELEASE:
the device releases the line 100 ms after the last cause, when none is present; DIE_LINK_TIMEOUT drives the safe state
with cause 1, which ends at DIE_LINK_RESTORED. -/
def Obligations.PowerEvents : Prop :=
  (∀ (aux : U16) (s : State), 180 ≤ aux.toNat → aux.toNat ≤ 600 → s.chg.low.run ≠ .dustSheet →
    let t := s.modSupply (fun x => { x with auxOk := true, aux := aux })
    let u := (if s.islandUp then t else (t.modSec SecState.latchFuses).portEnable).modSafety
      (fun x => { x with causes := x.causes &&& ~~~(1#12 <<< 5) })
    exec (.auxRise aux) s = .next (if u.power.seq.run = .idle then u.startUp false else u)) ∧
  (∀ (aux : U16) (s : State), 180 ≤ aux.toNat → aux.toNat ≤ 600 → s.chg.low.run = .dustSheet →
    let t := s.modSupply (fun x => { x with auxOk := true, aux := aux })
    exec (.auxRise aux) s = .next (if s.chg.low.record.auxWait then t.beginWake else t)) ∧
  (∀ (aux : U16) (s : State), (aux.toNat < 180 ∨ 600 < aux.toNat) → exec (.auxRise aux) s = .next s) ∧
  (∀ (aux : U16) (s : State), s.power.supply.auxOk = true → aux.toNat < s.power.seq.table.auxBo →
    let t := (s.modSupply (fun x => { x with auxOk := false, aux := aux, onHold := true, rideSince := s.clk })).raise 190
    exec (.auxBrownOut aux) s = .next (if s.power.seq.run = .up then (t.startDown false .idle).settle s else t)) ∧
  (∀ (aux : U16) (s : State), s.power.supply.onHold = true → s.power.seq.table.auxBo + 5 < aux.toNat →
    let t := (((s.atLeast (s.power.supply.rideSince + 1000000)).modSupply (fun x =>
      { x with auxOk := true, aux := aux, onHold := false })).raise 190)
    exec (.auxReturn aux) s = .next (if s.power.seq.run = .complete then t.openEvent .plumb .o0Event else t)) ∧
  (∀ s : State, s.power.supply.auxOk = false → s.power.supply.onHold = true → s.power.seq.run = .complete → s.nvmHeld = false →
    let t := s.atLeast (s.power.supply.rideSince + s.power.seq.table.rideMs * 1000000)
    exec .rideThroughExpiry s = .next ((((t.safeState 5 (flag t.nvmHeld)).flush).modSqr
      (fun y => { y with run := .holdUp })).settle s)) ∧
  (∀ s : State, s.power.seq.run = .holdUp → s.nvmHeld = false →
    exec .holdUpFlushComplete s = .next ((s.journalled.startDown false .idle).settle s)) ∧
  (∀ (hold : U16) (s : State),
    let ok := decide (s.power.seq.table.holdMin ≤ hold.toNat)
    exec (.holdReadyChange hold) s = .next (((s.modSupply (fun x => { x with hold := hold })).modSupply
      (fun x => { x with holdReady := ok })).raiseIf (ok != s.power.supply.holdReady) 191)) ∧
  (∀ s : State, ∃ t, exec .retentionLoss s = .next t ∧ t.clk = s.clk ∧ t.nv.nvm.records = s.nv.nvm.records ∧
    t.power.safety.dieRunning = false ∧ t.power.keep.lost = true ∧ t.power.supply.auxOk = false ∧ t.power.supply.kaOk = false ∧
    t.power.seq.run = .idle ∧ t.power.safety.causes = 0 ∧ t.chg.low = ChargeState.initial.low ∧
    (∀ k : Fin 4, (t.nv.sec.fuse k.val).latched = false)) ∧
  (∀ (role bs : BitVec 8) (banks : List Nat) (s : State), s.power.safety.dieRunning = false → s.allMandatory = true →
    ∃ t, exec (.dDieResetRelease role bs banks) s = .next t ∧ t.power.safety.dieRunning = true ∧ t.sys.hawk = .booting ∧
      t.conv.link.roleStrap = strapHigh role ∧ t.power.safety.bootSel0 = strapHigh bs ∧ t.now = 0 ∧
      ∀ k : Fin 8, (t.conv.banks[k]).high = decide (2500 < banks.getD k.val 0)) ∧
  (∀ (role bs : BitVec 8) (banks : List Nat) (s : State), (s.power.safety.dieRunning = true ∨ s.allMandatory = false) →
    exec (.dDieResetRelease role bs banks) s = .next s) ∧
  (∀ s : State, s.power.safety.external = false → s.power.safety.driving = false → s.islandUp = true →
    exec (.faultNExternalLow true) s = .next ((((((s.modSafety (fun y => { y with external := true })).wakeBy 6)).recordExternal).faultNFalls
      (fun _ => 1)).settle s)) ∧
  (∀ s : State, s.power.safety.external = true → s.power.safety.driving = false → s.islandUp = true →
    exec (.faultNExternalLow false) s = .next ((s.modSafety (fun y => { y with external := false })).raise 189)) ∧
  (∀ s : State, s.power.safety.external = false → (s.power.safety.driving = true ∨ s.islandUp = false) →
    exec (.faultNExternalLow true) s = .next ((s.modSafety (fun y => { y with external := true })).wakeBy 6)) ∧
  (∀ s : State, s.levelCauses.power.safety.driving = true → s.levelCauses.power.safety.causes = 0 →
    s.levelCauses.power.seq.run ≠ .lockout →
    let u := (s.levelCauses.atLeast (s.levelCauses.power.safety.lastCauseAt + 100000000)).modSafety
      (fun y => { y with driving := false })
    exec .faultNRelease s = .next (if s.levelCauses.power.safety.external then u.recordExternal else u.raise 189)) ∧
  (∀ s : State, s.power.safety.dieLinkUp = true → s.islandUp = true →
    exec .dieLinkTimeout s =
      .next (((s.modSafety (fun x => { x with dieLinkUp := false })).safeState 1 0).settle s)) ∧
  (∀ s : State, s.power.safety.dieLinkUp = false →
    exec .dieLinkRestored s =
      .next (s.modSafety (fun x => { x with dieLinkUp := true, causes := x.causes &&& ~~~(1#12 <<< 1) })))

/-- The rail opcodes (12 R362, 12 R375). RAIL_STATUS answers the sequencer and the rails in use and, with CLEAR, sets the
extremes to the present values; RAIL_ON of a rail OFF whose dependencies are GOOD enables it; RAIL_OFF of a GOOD
non-critical rail drops what rests on it and disables it; RAIL_HISTORY answers 32 records and the start records. -/
def Obligations.RailCommands : Prop :=
  (∀ (r : Req) (s : State), Ready 0x0C01 observe r s → r.payload.length = 1 → numAt r.payload 0 1 < 2 →
    let clear (x : Rail) : Rail := { x with minMv := x.mv, maxMv := x.mv }
    let t := if numAt r.payload 0 1 = 1 then s.modPower (fun p => { p with
      rails := p.rails.map clear, slots := p.slots.map clear }) else s
    exec (.railStatus r) s = .next (t.complete r 0x0C01 (done (leBytes 4 s.seqStatus ++
      leBytes 2 s.power.supply.hold.toNat ++ leBytes 2 s.power.supply.aux.toNat ++ (s.railsInUse.map (fun i =>
        leBytes 1 (railCode i) ++ [0#8] ++ leBytes 2 (s.rail i).minMv.toNat ++ leBytes 2 (s.rail i).maxMv.toNat ++ zeros 2 ++
          leBytes 4 ((s.rail i).status (10 ≤ i)))).flatten)))) ∧
  (∀ (r : Req) (i : Nat) (e : SeqEntry) (s : State), Ready 0x0C02 service r s → r.payload.length = 1 →
    railOfCode (numAt r.payload 0 1) = some i → s.power.seq.store.entry (railCode i) = some e → s.railBusy i = false →
    (s.rail i).run ≠ .good →
    (List.range 26).all (fun k => !bitAt e.deps (railCode k) || (s.rail k).run == .good) = true →
    exec (.railOn r) s = .next ((((s.modSqr (fun q => { q with table := { q.table with
      entries := q.table.entries.filter (fun x => x.rail != e.rail) ++ [e] } })).enableRail i s.clk)).complete
        r 0x0C02 done)) ∧
  (∀ (r : Req) (i : Nat) (s : State), Ready 0x0C03 service r s → r.payload.length = 1 →
    railOfCode (numAt r.payload 0 1) = some i → s.railCritical i = false → s.railBusy i = false →
    exec (.railOff r) s = .next ((if (s.rail i).run = .good then (s.dropDependents i).modRail i Rail.disable
      else s.modRail i (fun x => { x with run := .off })).complete r 0x0C03 done)) ∧
  (∀ (r : Req) (s : State), Ready 0x0C04 observe r s → r.payload = [] →
    let b := (s.power.keep.rail.map RailFault.bytes).flatten
    exec (.railHistory r) s = .next (s.complete r 0x0C04 (done (b ++ zeros (512 - b.length) ++ s.startRecords))))

/-- PPS edges and loss, holdover, source return, PPS_OUT, references and PLL lock (13 R377, 13 R380, 13 R384, 13 R385, 13
R389). PPS_IN_EDGE of the selected direction is noted with its time, and from the second one on gives the presence and
the offset; PPS_SOURCE_LOSS after 1.5 s without an edge; HOLDOVER_TIMEOUT after HOLD_S; PRIMARY_SOURCE_RETURN: SRC1
present for 60 s is taken again; PPS_OUT_PULSE rises at a whole second and falls after its width; REFERENCE_FAILURE of
the last reference drives the safe state with cause 6, which ends at REFERENCE_RESTORED; PLL_LOCK_CHANGE takes the
lock. -/
def Obligations.TimebaseEvents : Prop :=
  (∀ (time p : Nat) (falling : Bool) (s : State), s.clock.tb.ppsAt = some p → falling = bitAt (s.held 0x1607) 0 →
    let t := ((s.atDevice time).pickTime).triggerKind 5 (fun _ => true)
    let at_ : Int := (time : Int) - t.heldI 0x1608
    let d : Int := (t.clk - p : Nat)
    let off := decide (100000 < (d - nearestSecond d).natAbs)
    let run := if off then s.clock.tb.ppsOffRun + 1 else 0
    let ok := decide (d ≤ 1500000000) && decide (run ≤ 2)
    let u := (((t.modTb (fun x => { x with ppsLast := BitVec.ofNat 64 at_.toNat })).raise 318).modTb
      (fun x => { x with ppsAt := some t.clk, ppsOffRun := run, ppsPresent := ok })).followSources
    exec (.ppsInEdge time falling) s = .next (if (ok && !off && (u.usesSource 1 || u.usesSource 3)) = true then
      u.measureOffset (u.ppsOffset at_) else u)) ∧
  (∀ (time : Nat) (falling : Bool) (s : State), s.clock.tb.ppsAt = none → falling = bitAt (s.held 0x1607) 0 →
    let t := ((s.atDevice time).pickTime).triggerKind 5 (fun _ => true)
    exec (.ppsInEdge time falling) s = .next (((t.modTb (fun x => { x with
      ppsLast := BitVec.ofNat 64 ((time : Int) - t.heldI 0x1608).toNat })).raise 318).modTb
        (fun x => { x with ppsAt := some t.clk }))) ∧
  (∀ (time : Nat) (falling : Bool) (s : State), falling ≠ bitAt (s.held 0x1607) 0 →
    exec (.ppsInEdge time falling) s = .next s) ∧
  (∀ (p : Nanos) (s : State), s.clock.tb.ppsPresent = true → s.clock.tb.ppsAt = some p →
    exec .ppsSourceLoss s =
      .next ((s.atLeast (p + 1500000001)).modTb (fun x => { x with ppsPresent := false })).followSources) ∧
  (∀ s : State, s.clock.tb.run = .holdover →
    let t := s.atLeast (s.clock.tb.holdSince + s.held 0x1606 * 1000000000)
    exec .holdoverTimeout s = .next ((t.tbTo .free 0).modTb (fun x => { x with holdSince := t.clk }))) ∧
  (∀ (t0 : Nanos) (s : State), s.clock.tb.src1Since = some t0 →
    (s.clock.tb.run = .locked ∨ s.clock.tb.run = .acquiring) → s.clock.tb.src = 2 →
    s.srcPresent 1 = true →
    exec .primarySourceReturn s = .next ((s.atLeast (t0 + 60000000000)).tbTo .acquiring 1)) ∧
  (∀ s : State, s.clock.tb.ppsOut = true →
    exec .ppsOutPulse s = .next ((s.atLeast (s.clock.tb.ppsOutAt + bitsOf (s.held 0x1607) 15 8 * 1000000)).modTb
      (fun x => { x with ppsOut := false }))) ∧
  (∀ s : State, s.clock.tb.ppsOut = false → bitAt (s.held 0x1607) 1 = true →
    let t := s.atDevice (multipleFrom 1000000000 s.now)
    exec .ppsOutPulse s = .next (t.modTb (fun x => { x with ppsOut := true, ppsOutAt := t.clk }))) ∧
  (∀ (refclk : Bool) (s : State), s.clock.tb.refOk refclk = true →
    let t := (s.modTb (fun x => if refclk then { x with refclkOk := false } else { x with xtalOk := false })).raise 319
    exec (.referenceFailure refclk) s = .next (if s.clock.tb.refOk (!refclk) = false then (t.safeState 6 0).settle s
      else if s.clock.tb.refclk = refclk ∧ s.clock.tb.refAuto = true then t.switchRef (!refclk) else t)) ∧
  (∀ (refclk : Bool) (s : State), s.clock.tb.refOk refclk = false →
    let t := (s.modTb (fun x => if refclk then { x with refclkOk := true } else { x with xtalOk := true })).modSafety
      (fun x => { x with causes := x.causes &&& ~~~(1#12 <<< 6) })
    exec (.referenceRestored refclk) s = .next (if s.clock.tb.refOk (!refclk) = false ∧ s.clock.tb.refclk ≠ refclk then
      t.switchRef refclk else t)) ∧
  (∀ (lock : Bool) (s : State), s.clock.tb.pllLock ≠ lock →
    exec (.pllLockChange lock) s = .next ((s.modTb (fun x => { x with pllLock := lock })).raise 319)) ∧
  (∀ (lock : Bool) (s : State), s.clock.tb.pllLock = lock → exec (.pllLockChange lock) s = .next s)

/-- The timebase, thermal, watchdog and interrupt opcodes (13 R382, 13 R389, 14 R390, 14 R398, 15 R411, 15 R425).
TB_STATUS_READ answers status, offset, frequency and device time; TB_ALIGN_NOW of a pending, permitted alignment steps
device time by the offset; TB_SET_TOD without PPS or PTP lock steps device time forward to the time given.
TH_STATUS_READ, TH_PVT_READ and WD_STATUS_READ answer their words; IRQ_COUNTS folds and answers the totals asked for;
WD_TEST with the lease and every group quiet withholds the kicks. -/
def Obligations.ClockAndSupervisionCommands : Prop :=
  (∀ (r : Req) (s : State), Ready 0x0130 observe r s → r.payload = [] →
    exec (.tbStatusRead r) s = .next (s.complete r 0x0130 (done (leBytes 4 s.tbStatus ++ leBytes 4 (codeOf 32 s.clock.tb.offset) ++
      leBytes 4 (fitS 32 (roundQ s.freqNow)) ++ leBytes 8 s.now)))) ∧
  (∀ (r : Req) (s : State), Ready 0x0131 configure r s → r.payload = [] → s.clock.tb.alignPending = true →
    s.stepPermitted s.clock.tb.offset = true →
    exec (.tbAlignNow r) s = .next ((s.timeStep s.clock.tb.offset.toNat).complete r 0x0131 done)) ∧
  (∀ (r : Req) (s : State), Ready 0x0132 service r s → r.payload.length = 8 → s.now < numAt r.payload 0 8 →
    (s.clock.tb.run = .free ∨ s.clock.tb.run = .holdover ∨
      (s.srcCode s.clock.tb.src ≠ 2 ∧ s.srcCode s.clock.tb.src ≠ 3)) →
    s.stepPermitted ((numAt r.payload 0 8 : Int) - s.now) = true →
    exec (.tbSetTod r) s = .next ((s.timeStep (numAt r.payload 0 8 - s.now)).complete r 0x0132 done)) ∧
  (∀ (r : Req) (s : State), Ready 0x0140 observe r s → r.payload = [] →
    exec (.thStatusRead r) s = .next (s.complete r 0x0140 (done (leBytes 4 s.thStatus ++ leBytes 4 s.thTj ++
      leBytes 2 s.graceLeft ++ leBytes 4 s.thSpeed)))) ∧
  (∀ (r : Req) (s : State), Ready 0x0141 service r s → r.payload = [] →
    exec (.thPvtRead r) s = .next (s.complete r 0x0141 (done ((List.finRange 16).map (fun i =>
      leBytes 1 i.val ++ [0#8] ++ leBytes 2 (fitS 16 s.clock.th.pvt[i.val]) ++ leBytes 4 s.clock.th.pvtRaw[i.val])).flatten))) ∧
  (∀ (r : Req) (s : State), Ready 0x0150 observe r s → r.payload = [] →
    exec (.wdStatusRead r) s = .next (s.complete r 0x0150 (done (leBytes 4 s.wdStatus ++ leBytes 4 s.sys.wd.cntResets.toNat ++
      leBytes 4 s.wdLast ++ leBytes 4 ((s.clk - s.sys.wd.restart) / 1000000))))) ∧
  (∀ (r : Req) (a n : Nat) (s : State), Ready 0x0151 observe r s → r.payload = leBytes 2 a ++ leBytes 2 n → 1 ≤ n → a + n ≤ 384 →
    let ns := (List.range n).map (· + a)
    let t := s.modIrq (fun q => ns.foldl (fun q m => q.fold m) q)
    exec (.irqCounts r) s = .next (t.complete r 0x0151
      (done ((ns.map (fun m => leBytes 4 (bankGet 0#32 m t.sys.irq.totals).toNat)).flatten)))) ∧
  (∀ (r : Req) (s : State), Ready 0x0152 service r s → r.payload = [] → s.holdsLease r.owner = true → s.allQuiet = true →
    exec (.wdTest r) s = .next ((s.modWd (fun x => { x with withhold := true })).complete r 0x0152 done))

/-- Thermal evaluation, request and enforcement, trip, diodes, PVT, droop, hot hours and write hold (14 R390, 14 R391, 14
R395, 14 R397, 14 R398, 14 R399, 14 R400, 14 R401). Each thermal event has the response its rule gives:
THERMAL_EVALUATION takes the means every 100 ms; THERMAL_GRACE_EXPIRY makes the request enforcement, THERMAL_RELEASE
ends both after their times below T_r; HARDWARE_THERMAL_TRIP of two readings at the trip drives the safe state with
cause 8, which THERMAL_TRIP_RELEASE ends 10 s below the trip less 15 °C; DIODE_BROKEN outside 200 mV to 900 mV reads
150.0 °C; PVT_MEASUREMENT gives worst and mean; DROOP_EVENT below the limit for more than 2 ns and HOT_HOUR_COUNT
count; NVM_WRITE_HOLD begins outside its window and NVM_WRITE_RESUME ends it 3 °C inside. -/
def Obligations.ThermalEvents : Prop :=
  (∀ (samples : List Reading) (s : State), s.islandUp = true →
    let u := (s.atLeast (s.clock.th.evalAt + 100000000)).pickThermal
    let a (x : Thermal) : Int := if x.brokenA then 1500 else meanI x.tjA x.winA
    let d (x : Thermal) : Int := if x.brokenD then 1500 else meanI x.tjD samples
    let tj (x : Thermal) := max (a x) (d x)
    exec (.thermalEvaluation samples) s = .next ((u.modTh (fun x => { x with
      tjA := a x, tjD := d x, tjMax := max x.tjMax (tj x), evalAt := u.clk
      belowSince := runSince u.clk (decide (tj x < u.tRelease)) x.belowSince
      belowTrip := runSince u.clk (decide (tj x < u.heldI 0x1705 - 150)) x.belowTrip
      hotTime := if 1100 ≤ tj x then x.hotTime else x.hotTime + u.since x.hotSince
      hotSince := runSince u.clk (decide (1100 ≤ tj x)) x.hotSince })).thermalRows)) ∧
  (∀ (t0 : Nanos) (s : State), s.clock.th.run = .request → s.clock.th.graceSince = some t0 → s.tRelease ≤ s.clock.th.tj →
    exec .thermalGraceExpiry s = .next ((s.atLeast (t0 + s.param 0x1703 * 1000000000)).thTo .enforced)) ∧
  (∀ (t0 : Nanos) (s : State), s.clock.th.belowSince = some t0 → s.clock.th.run = .enforced →
    exec .thermalRelease s = .next ((s.atLeast (t0 + s.held 0x1706 * 1000000000)).thTo .normal)) ∧
  (∀ (t0 : Nanos) (s : State), s.clock.th.belowSince = some t0 → s.clock.th.run = .request →
    exec .thermalRelease s = .next ((s.atLeast (t0 + 10000000000)).thTo .normal)) ∧
  (∀ (dDie : Bool) (v w : Reading) (s : State),
    s.heldI 0x1705 ≤ (if (if dDie then s.clock.th.brokenD else s.clock.th.brokenA) then 1500 else min v w) →
    s.clock.th.run ≠ .tripped →
    exec (.hardwareThermalTrip dDie v w) s = .next (((((((s.modTh (fun x => { x with
      cntTrips := satInc x.cntTrips, belowTrip := none })).raise 193).thTo .tripped).modSafety
        (fun y => { y with clamp := true })).safeState 8 0)).settle s)) ∧
  (∀ (t0 : Nanos) (s : State), s.clock.th.run = .tripped → s.clock.th.belowTrip = some t0 →
    exec .thermalTripRelease s = .next (((s.atLeast (t0 + 10000000000)).modSafety
      (fun y => { y with causes := y.causes &&& ~~~(1#12 <<< 8) })).thTo
        (if s.tRelease ≤ s.clock.th.tj then .enforced else .normal))) ∧
  (∀ (dDie : Bool) (mv : U16) (s : State),
    let broken := decide (mv.toNat < 200 ∨ 900 < mv.toNat)
    let t := s.modTh (fun x => if dDie then { x with brokenD := broken, tjD := if broken then 1500 else x.tjD }
      else { x with brokenA := broken, tjA := if broken then 1500 else x.tjA })
    exec (.diodeBroken dDie mv) s = .next (t.raiseIf (t.clock.th.sensor != s.clock.th.sensor) 194)) ∧
  (∀ (readings : List Reading) (counts : List Nat) (s : State), readings.length = 16 →
    let u := s.atLeast (s.clock.th.pvtAt + 1000000000)
    let worst := readings.foldl min (readings.headD 0)
    let mean := roundQ ((readings.sum : Rat) / 16)
    let age := decide (mean < -((bitsOf (u.held 0x1700) 15 8 * 100 : Nat) : Int))
    let t := (u.modTh (fun x => { x with
      pvt := Vector.ofFn (fun i => readings.getD i.val 0), pvtRaw := Vector.ofFn (fun i => counts.getD i.val 0)
      pvtWorst := worst, pvtMean := mean, pvtAt := u.clk, ageing := x.ageing || age })).raiseIf (age && !s.clock.th.ageing) 196
    exec (.pvtMeasurement readings counts) s = .next (if (bitAt (s.held 0x1700) 0 &&
        decide (worst < -((bitsOf (s.held 0x1700) 23 16 * 100 : Nat) : Int)) && s.sys.hawk == .running) = true then
      ((t.moveSet 4 (t.modTh (fun x => { x with avsOfs := clampI (-32768) 32767 (x.avsOfs + 5) }))).raise 197).openEvent
        .burpol .o0Event
      else t)) ∧
  (∀ (mv ns : Nat) (s : State), mv < s.held 0x170A → 2 < ns →
    let t := s.modTh (fun x => { x with cntDroop := satInc x.cntDroop, droopSecond := some (s.now / 1000000000) })
    exec (.droopEvent mv ns) s =
      .next (t.raiseIf (s.clock.th.droopSecond != some (s.now / 1000000000)) 198)) ∧
  (∀ (mv ns : Nat) (s : State), (s.held 0x170A ≤ mv ∨ ns ≤ 2) → exec (.droopEvent mv ns) s = .next s) ∧
  (∀ (t0 : Nanos) (s : State), s.clock.th.hotSince = some t0 →
    let u := s.atLeast (t0 + (3600000000000 - s.clock.th.hotTime))
    exec .hotHourCount s = .next (u.modTh (fun y => { y with
      hoursHot := satInc y.hoursHot, hotTime := 0, hotSince := some u.clk }))) ∧
  (∀ s : State, s.clock.th.nvmHold = false → (s.clock.th.tjD < s.heldI 0x1708 ∨ s.heldI 0x1709 < s.clock.th.tjD) →
    let t := (((s.modTh (fun x => { x with nvmHold := true })).raise 195).completeSaves
      (partial_ 3 dtNvmDeferred)).completeLearns (partial_ 3 dtNvmDeferred)
    exec .nvmWriteHold s = .next ((t.host.committing.foldl (fun u e => u.installTable e.1 e.2)
      (t.modHost (fun h => { h with committing := [] }))).settle s)) ∧
  (∀ s : State, s.clock.th.nvmHold = true → s.heldI 0x1708 + 30 ≤ s.clock.th.tjD → s.clock.th.tjD + 30 ≤ s.heldI 0x1709 →
    exec .nvmWriteResume s = .next ((s.modTh (fun x => { x with nvmHold := false })).raise 195))

/-- Kicks, warning, expiry, hold, long operations and the customer heartbeat (15 R404, 15 R405, 15 R406, 15 R407, 15 R408,
15 R411). WATCHDOG_KICK: a kick that completes the set restarts the count, one in the closed window expires it;
WATCHDOG_WARNING raises IS200; WATCHDOG_EXPIRY acts as R406 gives; HAWK_RESET_HOLD_END ends the reset after 1 s with
CONSEC 0; WATCHDOG_HOLD_TIMEOUT ramps the setpoints; LONG_OP_START suspends the count, LONG_OP_END begins a full
period and LONG_OP_SUSPEND_TIMEOUT lets it go on after WD_NVM_MAX_MS; CUSTOMER_HEARTBEAT_MISSING resets the customer
cores and raises IS203. -/
def Obligations.WatchdogEvents : Prop :=
  (∀ (hc1 : Bool) (s : State), (s.sys.wd.run = .running ∨ s.sys.wd.run = .suspended ∨
      (s.sys.wd.run = .off ∧ bitAt (s.param 0x1780) 0 = true)) → s.sys.wd.withhold = false →
    (s.sys.hawk = .running ∨ s.sys.hawk = .recovery) →
    let t := s.modWd (fun y => if hc1 then { y with kick1 := true } else { y with kick0 := true })
    let y := t.sys.wd
    exec (.watchdogKick hc1) s = .next (if (y.kick0 && (y.kick1 || !bitAt (y.set 0) 1)) = false then t
      else if y.set 3 ≠ 0 ∧ t.clk < y.restart + y.set 3 * 1000000 then (t.wdExpire 2).settle s
      else t.wdRestart.modWd (fun z => { z with consec := 0, policy := false }))) ∧
  (∀ (hc1 : Bool) (s : State), (s.sys.wd.run = .paused ∨ s.sys.wd.withhold = true) →
    exec (.watchdogKick hc1) s = .next s) ∧
  (∀ s : State, s.sys.wd.run = .running → s.sys.wd.set 2 ≠ 0 → s.sys.wd.warned = false →
    s.clk < s.sys.wd.reaches (s.sys.wd.set 1) →
    exec .watchdogWarning s = .next (((s.atLeast (s.sys.wd.reaches (s.sys.wd.set 1 - s.sys.wd.set 2))).modWd
      (fun y => { y with warned := true })).raise 200)) ∧
  (∀ (drained : Bool) (s : State), s.sys.wd.run = .running → s.sys.hawk ≠ .held → s.sys.hawk ≠ .off →
    exec (.watchdogExpiry drained) s = .next ((((s.atLeast (s.sys.wd.reaches (s.sys.wd.set 1))).modWd (fun y =>
      { y with drainLost := y.drainLost + flag (!drained) })).wdExpire 1).settle s)) ∧
  (∀ s : State, s.sys.hawk = .held →
    exec .hawkResetHoldEnd s = .next (((((s.atLeast (s.sys.heldSince + 1000000000)).modSys
      (fun y => { y with hawk := .booting })).modSafety (fun x => { x with causes := x.causes &&& ~~~(1#12 <<< 7) })).wdRestart).modWd
        (fun x => { x with consec := 0 }))) ∧
  (∀ s : State, s.sys.wd.policy = true → s.sys.wd.ramped = false → s.sys.wd.set 5 ≠ 0 →
    exec .watchdogHoldTimeout s = .next ((((s.atLeast (s.sys.wd.policySince + s.sys.wd.set 5 * 1000000000)).modWd
      (fun y => { y with ramped := true })).rampSetpoints).settle s)) ∧
  (∀ s : State, s.sys.wd.longOp = false → s.sys.wd.run = .running → s.clk < s.sys.wd.reaches (s.sys.wd.set 1) →
    exec .longOpStart s = .next (s.modWd (fun y => { y with
      longOp := true, longOpSince := s.clk, longOpOver := false, counted := y.countAt s.clk, run := .suspended }))) ∧
  (∀ s : State, s.sys.wd.longOp = true → exec .longOpStart s = .next s) ∧
  (∀ s : State, s.sys.wd.longOp = true → s.sys.wd.run = .suspended →
    exec .longOpEnd s = .next ((s.modWd (fun y => { y with longOp := false, run := .running })).wdRestart)) ∧
  (∀ s : State, s.sys.wd.longOp = false → exec .longOpEnd s = .next s) ∧
  (∀ s : State, s.sys.wd.run = .suspended →
    let t := s.atLeast (s.sys.wd.longOpSince + s.sys.wd.set 6 * 1000000)
    exec .longOpSuspendTimeout s = .next (t.modWd (fun y => { y with run := .running, resume := t.clk, longOpOver := true }))) ∧
  (∀ s : State, s.firmwareOn = true → bitAt (s.sys.wd.set 0) 2 = true → s.nv.fw.cust = .running →
    let t := s.atLeast (s.sys.wd.custBeat + s.sys.wd.set 8 * 1000000)
    exec .customerHeartbeatMissing s = .next (((t.resetCust.modWd (fun x => { x with custBeat := t.clk })).raise 203).modNv
      (fun k => { k with fw := { k.fw with custResets := satInc k.fw.custResets } })))

/-- The interrupt controller and its registers (15 R414, 15 R415, 15 R416, 15 R417, 15 R418, 15 R419, 15 R422, 15 R424).
INTERRUPT_RAISE sets the source pending; INTERRUPT_ROUTING with EN clear only withdraws, and else offers by priority;
IRQ_COUNT_FOLD folds the counts; IC_CLAIM_READ takes the offer, IC_EOI_WRITE of the innermost source ends it and any
other sets EOI_ERR; IC_SWSET_WRITE and IC_SWCLR_WRITE set and clear pending; IC_CFG_WRITE within the FAST limit is
stored; IC_STAT_READ clears the count; IC_THR_WRITE below 16, or 255, is stored. -/
def Obligations.ControllerEvents : Prop :=
  (∀ (n : Fin 384) (s : State), exec (.interruptRaise n) s = .next (s.raise n.val)) ∧
  (∀ s : State,
    let q := s.withdrawStale.sys.irq
    let ns := (q.sources.filter (fun e => e.2.pending && e.2.en && !e.2.offered && !e.2.active)).map (·.1)
    exec .interruptRouting s = .next (if q.en then
      (ns.foldl (fun l n => insertPrio q n l) []).foldl (fun t n => t.offer n) s.withdrawStale else s.withdrawStale)) ∧
  (∀ s : State, s.firmwareOn = true →
    exec .irqCountFold s = .next (s.modIrq (fun q => (q.sources.map (·.1)).foldl (fun q n => q.fold n) q))) ∧
  (∀ (k : Fin 4) (s : State), (s.sys.irq.cores[k.val]).offer = none →
    exec (.icClaimRead k) s = .next (s.irqRead 0x1FF)) ∧
  (∀ (k : Fin 4) (n : Nat) (s : State), (s.sys.irq.cores[k.val]).offer = some n →
    exec (.icClaimRead k) s = .next ((s.modIrq (fun q =>
      let p := q.modSrc n (fun y => { y with pending := false, active := true, offered := false, core := k })
      { p with cores := vmod p.cores k (fun c => { c with
          offer := none, stack := (n, c.run) :: c.stack
          run := if (s.sys.irq.src n).fast then 0x10 else (s.sys.irq.src n).prio.setWidth 8 }) })).irqRead
      (n + fieldAt 12 4 (s.sys.irq.src n).prio.toNat + fieldAt 16 1 (flag (s.sys.irq.src n).fast)))) ∧
  (∀ (k : Fin 4) (n : Nat) (run : Byte) (rest : List (Nat × Byte)) (v : U32) (s : State),
    (s.sys.irq.cores[k.val]).stack = (n, run) :: rest → n = bitsOf v.toNat 8 0 →
    exec (.icEoiWrite k v) s = .next (s.modIrq (fun q =>
      let p := q.modSrc n (fun y => { y with active := false })
      { p with cores := vmod p.cores k (fun c => { c with stack := rest, run := run }) }))) ∧
  (∀ (k : Fin 4) (v : U32) (s : State), (s.sys.irq.cores[k.val]).stack = [] →
    exec (.icEoiWrite k v) s = .next (s.modIrq (fun q => { q with eoiErr := true }))) ∧
  (∀ (core : Fin 4) (v : U32) (s : State), s.isCust core = false → 320 ≤ bitsOf v.toNat 8 0 → bitsOf v.toNat 8 0 < 384 →
    exec (.icSwsetWrite core v) s = .next ((s.raise (bitsOf v.toNat 8 0)).modIrq (fun q => q.modSrc (bitsOf v.toNat 8 0)
      (fun x => { x with pending := true })))) ∧
  (∀ (core : Fin 4) (v : U32) (s : State), s.isCust core = false → bitsOf v.toNat 8 0 < 320 →
    exec (.icSwsetWrite core v) s = .next (s.modIrq (fun q => q.modSrc (bitsOf v.toNat 8 0)
      (fun x => { x with pending := true })))) ∧
  (∀ (core : Fin 4) (v : U32) (s : State), s.isCust core = false → bitsOf v.toNat 8 0 < 384 →
    exec (.icSwclrWrite core v) s = .next (s.modIrq (fun q => (q.withdraw (bitsOf v.toNat 8 0)).modSrc (bitsOf v.toNat 8 0)
      (fun x => { x with pending := false })))) ∧
  (∀ (core : Fin 4) (n : Fin 384) (v : U32) (s : State), s.isCust core = false → v.getLsbD 4 = false →
    exec (.icCfgWrite core n v) s =
      .next (s.modIrq (fun _ => (s.sys.irq.withdraw n.val).modSrc n.val (IrqSource.configure n.val v.toNat)))) ∧
  (∀ (core : Fin 4) (n : Fin 384) (s : State), s.isCust core = false →
    exec (.icStatRead core n) s = .next ((s.irqRead (s.sys.irq.src n.val).statWord).modIrq (fun q => q.modSrc n.val
      (fun x => { x with count := 0, ovf := false })))) ∧
  (∀ (core k : Fin 4) (v : U32) (s : State), s.isCust core = false →
    (bitsOf v.toNat 7 0 < 16 ∨ bitsOf v.toNat 7 0 = 255) →
    exec (.icThrWrite core k v) s = .next ((s.modIrq (fun q => { q with
      cores := vmod q.cores k (fun c => { c with thr := BitVec.ofNat 8 (bitsOf v.toNat 7 0) }) })).withdrawStale))

/-- Rings: append, create, delete, read, acknowledge and list (02 R29, 16 R446, 16 R455, 16 R456). RING_RECORD_APPEND puts
the oldest record of a source into the rings that take it; RING_CREATE of an aggregation ring with quota and room
enters it under a free ID; RING_DELETE frees it; RING_STATUS, RING_LIST and MEM_STATUS answer; RING_READ of an empty
ring answers no record; RING_ACK moves the read index. -/
def Obligations.RingCommands : Prop :=
  (∀ (x : RingRecord) (q : List RingRecord) (s : State), s.sys.ring.queue = x :: q →
    let ids := (s.sys.ring.rings.filter (fun e => s.ringTakes x.dest e.1 e.2)).map (·.1)
    exec (.ringRecordAppend x.source) s = .next (ids.foldl (fun t id => t.appendTo id x.bytes)
      (s.modSys (fun y => { y with ring := { y.ring with queue := q } })))) ∧
  (∀ (source : RingSource) (s : State), s.sys.ring.queue.find? (fun x => x.source == source) = none →
    exec (.ringRecordAppend source) s = .next s) ∧
  (∀ (r : Req) (base : Nat) (s : State), Ready 0x0D01 [1, 16] r s → lenZ 12 [(3, 1)] r.payload = none →
    numAt r.payload 0 1 ≤ 4 → 12 ≤ numAt r.payload 1 1 → numAt r.payload 1 1 ≤ 30 → numAt r.payload 2 1 ≤ 1 →
    (if numAt r.payload 0 1 = 4 then r.owner = 0 ∧ s.hasPriv r.owner 4 = true else s.hasPriv r.owner 0 = true) →
    (numAt r.payload 0 1 = 3 → s.sys.ring.rings.any (fun e => e.2.kind == 3 && e.2.owner == r.owner) = false) → sourceOk (numAt r.payload 0 1) (numAt r.payload 8 4) = true →
    s.ringGranules r.owner + 2 ^ (numAt r.payload 1 1 - 12) ≤ (s.owner r.owner).ringQuota.toNat →
    freeBlock s.sys.ring.rings (2 ^ (numAt r.payload 1 1 - 12)) (s.sys.ring.rings.length + 1) 0x40000 = some base →
    let id := freeRingId s.sys.ring.rings s.sys.ring.rings.length 2
    let x : Ring :=
      { base := base, sizeLog2 := numAt r.payload 1 1, owner := r.owner, kind := numAt r.payload 0 1
        stop := numAt r.payload 2 1 == 1, fixed := false, wr := 0, rd := 0, drop := 0
        notify := BitVec.ofNat 32 (numAt r.payload 4 4), source := BitVec.ofNat 32 (numAt r.payload 8 4)
        epoch := (s.owner r.owner).epoch, records := [], notified := false, dropLater := 0
        due := s.clk + bitsOf (numAt r.payload 8 4) 31 16 * 1000000 }
    exec (.ringCreate r) s = .next (((s.modSys (fun y => { y with ring := { y.ring with
      rings := insertRing id x y.ring.rings } })).storeSecure 16).complete r 0x0D01 (done (leBytes 4 id ++ leBytes 4 base)))) ∧
  (∀ (r : Req) (x : Ring) (s : State), Ready 0x0D02 [1, 16] r s → r.payload.length = 4 → s.ring? (numAt r.payload 0 4) = some x →
    s.hasPriv r.owner (if x.owner = r.owner then 0 else 4) = true → x.fixed = false →
    exec (.ringDelete r) s = .next (((((s.modSys (fun y => { y with ring := { y.ring with
      rings := bankDrop (numAt r.payload 0 4) y.ring.rings } })).modMem (fun m => m.discard x.base x.granules)).modLink
        (fun l => { l with streams := l.streams.map (fun z => match z with
          | some w => if w.ring == numAt r.payload 0 4 then none else some w
          | none => none) })).storeSecure 16).complete r 0x0D02 done)) ∧
  (∀ (r : Req) (x : Ring) (s : State), Ready 0x0D03 [1, 16] r s → r.payload.length = 4 → s.ring? (numAt r.payload 0 4) = some x →
    s.hasPriv r.owner (if x.owner = r.owner then 0 else 4) = true →
    exec (.ringStatus r) s = .next (s.complete r 0x0D03 (done x.bytes))) ∧
  (∀ (r : Req) (x : Ring) (s : State), Ready 0x0D04 observe r s → r.payload.length = 12 → numAt r.payload 5 1 < 4 →
    zeroAt r.payload 6 2 = true → s.ring? (numAt r.payload 0 4) = some x → x.owner = r.owner → 1 ≤ numAt r.payload 4 1 →
    numAt r.payload 4 1 ≤ 63 → s.sys.mem.failing = [] →
    let start : U32 := if bitAt (numAt r.payload 5 1) 1 then BitVec.ofNat 32 (numAt r.payload 8 4) else x.rd
    (bitAt (numAt r.payload 5 1) 1 = true → (start - x.rd).toNat < x.fill) →
    let is := indices start (min (numAt r.payload 4 1) (x.wr - start).toNat)
    let t := if bitAt (numAt r.payload 5 1) 0 then s
      else s.modRing (numAt r.payload 0 4) (Ring.advance (start + BitVec.ofNat 32 is.length))
    exec (.ringRead r) s = .next ((t.rdMoved (numAt r.payload 0 4)).complete r 0x0D04
      (done (leBytes 4 x.wr.toNat ++ leBytes 4 start.toNat ++ leBytes 4 x.drop.toNat ++ leBytes 2 is.length ++ zeros 2 ++
        (is.map (fun i => x.slot i)).flatten)))) ∧
  (∀ (r : Req) (x : Ring) (s : State), Ready 0x0D05 observe r s → r.payload.length = 8 → s.ring? (numAt r.payload 0 4) = some x →
    x.owner = r.owner → ((BitVec.ofNat 32 (numAt r.payload 4 4) : U32) - x.rd).toNat ≤ x.fill →
    exec (.ringAck r) s = .next (((s.modRing (numAt r.payload 0 4)
      (Ring.advance (BitVec.ofNat 32 (numAt r.payload 4 4)))).rdMoved (numAt r.payload 0 4)).complete r 0x0D05 done)) ∧
  (∀ (r : Req) (s : State), Ready 0x0D06 observe r s → r.payload.length = 4 →
    let ids := ((s.sys.ring.rings.filter (fun e => e.2.owner == r.owner && decide (numAt r.payload 0 4 ≤ e.1))).map (·.1)).take
      (if r.via.transport == .smuAuth then 1015 else 1019)
    exec (.ringList r) s = .next (s.complete r 0x0D06
      (done (leBytes 2 ids.length ++ zeros 2 ++ (ids.map (leBytes 4)).flatten)))) ∧
  (∀ (r : Req) (s : State), Ready 0x0D07 observe r s → r.payload = [] →
    exec (.memStatus r) s = .next (s.complete r 0x0D07 (done (leBytes 4 s.sys.mem.cntCorr.toNat ++
      leBytes 4 s.sys.mem.cntUncorr.toNat ++ leBytes 4 s.sys.mem.cntTagfail.toNat ++ leBytes 4 s.sys.mem.cntUnwritten.toNat ++
        leBytes 4 s.sys.mem.firstErr.toNat))))

/-- Memory, registers and the DMA engine (00 R10, 16 R428, 16 R430, 16 R433, 20 R526, 20 R527, 16 R434, 16 R437, 16 R438,
16 R439, 16 R440, 16 R443). CORE_MEMORY_ACCESS: a store of a core that the regions permit writes its bytes and a load
reads them, and one that they deny is a bus fault; REGISTER_WRITE goes to the register map; MEM_DISCARD of 1 to
262,144 lines discards them; MEM_FIRST_ERR_CLEAR with 1 in bit 0 clears MEM_FIRST_ERR; RECORD_ACK clears the pending
record. DMA_BURST: with no descriptor to run a burst only fetches; DMA_DESCRIPTOR_COMPLETE writes the entry at the
write index of the completion ring, and a full ring waits; DMA_KICK starts the idle channels that it names,
DMA_HALT_WRITE, DMA_CHANNEL_DISABLE and DMA_GLOBAL_DISABLE stop channels; DMA_RESUME of a halted channel goes on
behind the descriptor; DMA_CRING_RD_WRITE makes room, and a channel that waits for it runs again. -/
def Obligations.MemoryAndDmaEvents : Prop :=
  (∀ (core : Fin 4) (a : Nat) (bs : List Byte) (n : Nat) (bad : Option Bool) (s : State),
    exec (.coreMemoryAccess core a (some bs) n bad) s = .next (s.storeMem core a bs)) ∧
  (∀ (core : Fin 4) (a n : Nat) (bad : Option Bool) (s : State),
    exec (.coreMemoryAccess core a none n bad) s = .next (s.load core a n bad)) ∧
  (∀ (core : Fin 4) (a : Nat) (bs : List Byte) (n : Nat) (bad : Option Bool) (s : State),
    s.firstDenied (.core core) true (addresses a bs.length) = none →
    (addresses a bs.length).any (fun x => regionAt x == .registers) = false →
    exec (.coreMemoryAccess core a (some bs) n bad) s = .next ((s.modMem (MemState.putBytes bs a)).coreDone core [])) ∧
  (∀ (core : Fin 4) (a n : Nat) (s : State),
    s.firstDenied (.core core) false (addresses a n) = none →
    (addresses a n).any (fun x => regionAt x == .registers) = false → s.failingRead (addresses a n) = none →
    (addresses a n).find? s.unwrittenAt = none →
    exec (.coreMemoryAccess core a none n none) s = .next (s.coreDone core ((addresses a n).map s.memByte))) ∧
  (∀ (core : Fin 4) (a : Nat) (bs : List Byte) (n b : Nat) (bad : Option Bool) (s : State),
    s.firstDenied (.core core) true (addresses a bs.length) = some b →
    exec (.coreMemoryAccess core a (some bs) n bad) s = .next (s.coreFault core .bus b)) ∧
  (∀ (core : Fin 4) (a : Nat) (v : U32) (s : State), exec (.registerWrite core a v) s = .next (s.writeReg core a v)) ∧
  (∀ (count : U32) (s : State), (bitsOf count.toNat 18 0 = 0 ∨ 262144 < bitsOf count.toNat 18 0) →
    exec (.memDiscard count) s = .next s) ∧
  (∀ (count : U32) (s : State), 1 ≤ bitsOf count.toNat 18 0 → bitsOf count.toNat 18 0 ≤ 262144 →
    exec (.memDiscard count) s = .next (s.modMem (fun m => m.discard m.discardAddr.toNat (bitsOf count.toNat 18 0)))) ∧
  (∀ (v : U32) (s : State), v.getLsbD 0 = true →
    exec (.memFirstErrClear v) s = .next (s.modMem (fun m => { m with firstErr := 0 }))) ∧
  (∀ s : State, exec .recordAck s = .next (s.modHost (fun h => { h with recordPending := false }))) ∧
  (∀ (failing corrected : Option Nat) (s : State),
    (List.finRange 32).all (fun c => ((s.eachDma (State.fetchDesc failing)).dma c).next.isNone) = true →
    exec (.dmaBurst failing corrected) s = .next (s.eachDma (State.fetchDesc failing))) ∧
  (∀ (failing corrected : Option Nat) (c : Fin 32) (d : DmaDesc) (u s : State),
    (List.finRange 32).all (fun c => ((s.eachDma (State.fetchDesc failing)).dma c).next.isNone) = false →
    (s.eachDma (State.fetchDesc failing)).chooseDma 1024 = some (c, d, u) →
    exec (.dmaBurst failing corrected) s = .next (u.burst failing corrected c d)) ∧
  (∀ (c : Fin 32) (e : DmaEntry) (s : State), (s.dma c).entry = some e → (s.dma c).full = true →
    exec (.dmaDescriptorComplete c) s = .next ((s.modDma c (fun y => { y with run := .waitCring })).raiseIf
      ((s.dma c).run != .waitCring) (204 + c.val))) ∧
  (∀ (c : Fin 32) (e : DmaEntry) (s : State), (s.dma c).entry = some e → (s.dma c).full = false →
    let a := (s.dma c).cring + 16 * ((s.dma c).wr.toNat % (s.dma c).entries)
    let irq := (e.irq && (s.dma c).irqEn) || (e.status != 0 && e.status != 0x40) || (s.dma c).haltAfter
    s.firstDenied (.dma c) true (addresses a 16) = none →
    exec (.dmaDescriptorComplete c) s = .next (((((if e.status = 0x40 then s.countUnwritten else s).modMem
      (MemState.putBytes (e.bytesAt s.now) a)).modDma c (fun y => { (y.after e) with wr := y.wr + 1#16 }))).raiseIf irq
        (204 + c.val))) ∧
  (∀ (c : Fin 32) (e : DmaEntry) (b : Nat) (s : State), (s.dma c).entry = some e → (s.dma c).full = false →
    s.firstDenied (.dma c) true (addresses ((s.dma c).cring + 16 * ((s.dma c).wr.toNat % (s.dma c).entries)) 16) = some b →
    exec (.dmaDescriptorComplete c) s = .next ((s.modDma c (fun y => { y with
      run := .halted, entry := none, haltAfter := false, stopAfter := false, cause := 0x80, errAddr := b })).raise (204 + c.val))) ∧
  (∀ (core : Fin 4) (v : U32) (s : State), s.custDenied core none = false →
    exec (.dmaKick core v) s = .next (s.eachDma (fun c t =>
      if v.getLsbD c.val && (t.dma c).run == .idle && (t.dma c).en && t.sys.dmaEn then
        t.modDma c (fun y => { y with
          run := .running, at_ := (t.dma c).start, desc := none, done := 0, entry := none, kicked := true, halted := false })
      else t))) ∧
  (∀ (core : Fin 4) (v : U32) (s : State), s.custDenied core none = false →
    exec (.dmaHaltWrite core v) s = .next (s.eachDma (fun c t => if v.getLsbD c.val then
      (t.modDma c (fun y => { y with halted := true })).stopDma c 0x80 0 else t))) ∧
  (∀ (c : Fin 32) (s : State),
    exec (.dmaChannelDisable c) s = .next ((s.stopDma c 0x31 0).modDma c (fun x => { x with en := false }))) ∧
  (∀ s : State, exec .dmaGlobalDisable s =
    .next ((s.eachDma (fun c t => t.stopDma c 0x31 0)).modSys (fun y => { y with dmaEn := false }))) ∧
  (∀ (c : Fin 32) (s : State), (s.dma c).run = .halted → (∀ d, (s.dma c).desc = some d → d.last = false) →
    (s.dma c).en = true → s.sys.dmaEn = true →
    exec (.dmaResume c) s = .next (s.modDma c (fun x => { x with
      run := .running, desc := none, done := 0, halted := false
      at_ := if (s.dma c).desc.isSome then (s.dma c).at_ + 32 else (s.dma c).at_ }))) ∧
  (∀ (c : Fin 32) (s : State), (s.dma c).run = .halted → ((s.dma c).en = false ∨ s.sys.dmaEn = false) →
    exec (.dmaResume c) s = .next (s.modDma c (fun x => { x with run := .idle, desc := none }))) ∧
  (∀ (c : Fin 32) (v : U32) (s : State), (s.dma c).run ≠ .waitCring →
    exec (.dmaCringRdWrite c v) s = .next (s.modDma c (fun x => { x with rd := BitVec.ofNat 16 v.toNat }))) ∧
  (∀ (c : Fin 32) (v : U32) (s : State), (s.dma c).run = .waitCring →
    ({ s.dma c with rd := BitVec.ofNat 16 v.toNat } : DmaChannel).full = false →
    exec (.dmaCringRdWrite c v) s =
      .next (s.modDma c (fun x => { x with rd := BitVec.ofNat 16 v.toNat, run := .running })))

/-- Attach, detach, toggle, PD, VBUS, alternate mode, moisture and corrosion of the service port (18 R481, 18 R483, 18
R484, 18 R485, 18 R486, 18 R488, 18 R489, 18 R493, 18 R494). Each event of the port: CC_ATTACH and CC_DETACH,
DRP_TOGGLE of Rp and Rd, the request that answers PD_SOURCE_CAPABILITIES, PD_PS_RDY, PD_MESSAGE_RECEIVED (GoodCRC, a
bad CRC, a message heard before, a new one), PD_HARD_RESET_RECEIVED, PD_RETRIES_EXHAUSTED, VBUS_MONITOR_BREACH of more
than 1 ms, PD_ENTER_MODE and PD_EXIT_MODE, MOISTURE_CHECK of dry and wet pins, and SBU_CORROSION. -/
def Obligations.ServicePortEvents : Prop :=
  (∀ (source orient : Bool) (vbus : U16) (s : State), s.portOn = true → s.port.run = .unattached →
    (source = true → s.maySource = true ∧ vbus.toNat < 80) →
    let t := (((s.modSp (fun x => { x with
      run := if source then .attachedSrc else .attachedSnk, orient := orient, vbus := vbus, srcOn := source
      cntAttach := x.cntAttach + 1#32 })).raise 260).wakeBy 4).pdBegin
    exec (.ccAttach source orient vbus) s =
      .next (if t.port.run = .attachedSrc ∧ t.port.inForce.srcI ≠ 0 then
        t.pdSend (.sourceCapabilities t.port.inForce.srcI) else t)) ∧
  (∀ (source orient : Bool) (vbus : U16) (s : State), s.portOn = false → exec (.ccAttach source orient vbus) s = .next s) ∧
  (∀ (vbus : U16) (s : State), (s.port.run = .attachedSrc ∨ (s.port.run = .attachedSnk ∧ vbus.toNat < 367)) →
    exec (.ccDetach vbus) s = .next ((s.portDetach .unattached).modSp (fun p => { p with vbus := vbus }))) ∧
  (∀ (vbus : U16) (s : State), s.port.run = .attachedSnk → 367 ≤ vbus.toNat → exec (.ccDetach vbus) s = .next s) ∧
  (∀ s : State, s.port.run = .unattached → s.maySource = true →
    let t := s.atLeast (s.port.toggledAt + 37500000)
    exec .drpToggle s = .next (t.modSp (fun p => { p with rd := !p.rd, toggledAt := t.clk }))) ∧
  (∀ (objects : List U32) (k v i : Nat) (m : Bool) (s : State), s.port.run = .attachedSnk → s.pdBegin.port.run ≠ .disabled →
    s.pdBegin.port.inForce.choose objects = (k, v, i, m) →
    exec (.pdSourceCapabilities objects) s = .next ((s.pdBegin.modSp (fun p => { p with
      reqVolt := v, reqCurr := i, requested := true, inSequence := true })).pdSend (.request k i m))) ∧
  (∀ (vbus : U16) (s : State), s.port.run = .attachedSnk → s.port.accepted = true →
    let changed := !s.port.contract || decide (s.port.vc ≠ s.port.reqVolt) || decide (s.port.curr ≠ s.port.reqCurr)
    exec (.pdPsRdy vbus) s = .next (((s.modSp (fun x => { x with
      contract := true, vc := x.reqVolt, curr := x.reqCurr, accepted := false, inSequence := false
      snkOn := s.port.reqVolt == s.port.inForce.snkV && s.vbusInside s.port.reqVolt vbus.toNat
      ready := s.vbusInside s.port.reqVolt vbus.toNat, vbus := vbus
      transMs := s.transition })).raiseIf changed 262).pdNextSend)) ∧
  (∀ (bytes : List Byte) (s : State), s.port.attached = true → numAt bytes 0 1 = 0 → bitsOf (numAt bytes 1 2) 4 0 = 1 →
    bitsOf (numAt bytes 1 2) 14 12 = 0 → bitAt (numAt bytes 1 2) 15 = false →
    exec (.pdMessageReceived bytes true) s = .next s.pdGoodCrc) ∧
  (∀ (bytes : List Byte) (s : State), s.port.attached = true → numAt bytes 0 1 = 0 →
    exec (.pdMessageReceived bytes false) s = .next (s.modSp (fun p => { p with cntCrcErr := satInc p.cntCrcErr }))) ∧
  (∀ (bytes : List Byte) (s : State), s.port.attached = true → numAt bytes 0 1 = 0 →
    (bitsOf (numAt bytes 1 2) 4 0 ≠ 1 ∨ bitsOf (numAt bytes 1 2) 14 12 ≠ 0 ∨ bitAt (numAt bytes 1 2) 15 = true) →
    s.port.rxId = some (bitsOf (numAt bytes 1 2) 11 9) →
    exec (.pdMessageReceived bytes true) s = .next s) ∧
  (∀ (bytes : List Byte) (s : State), s.port.attached = true → numAt bytes 0 1 = 0 →
    (bitsOf (numAt bytes 1 2) 4 0 ≠ 1 ∨ bitsOf (numAt bytes 1 2) 14 12 ≠ 0 ∨ bitAt (numAt bytes 1 2) 15 = true) →
    s.port.rxId ≠ some (bitsOf (numAt bytes 1 2) 11 9) →
    let t := (s.modSp (fun p => { p with
      cntRx := p.cntRx + 1#32, rxId := some (bitsOf (numAt bytes 1 2) 11 9) })).pdRx 0 (numAt bytes 1 2) (bytes.drop 3)
    let u := t.pdDiscard.pdBegin
    exec (.pdMessageReceived bytes true) s =
      .next (if u.port.run = .disabled then u else u.pdReact (numAt bytes 1 2) (bytes.drop 3))) ∧
  (∀ s : State, s.port.attached = true →
    exec .pdHardResetReceived s = .next (((s.pdRx 3 0 []).pdDiscard).pdHardReset)) ∧
  (∀ s : State,
    let t := s.modSp (fun p => { p with cntRetry := satInc p.cntRetry })
    let u := match s.port.sends with
      | r :: rest => if s.port.inSequence then t
          else (t.modSp (fun p => { p with sends := rest })).finish r 0x1005 ⟨stState, 0, 0x0105, []⟩
      | [] => t
    exec .pdRetriesExhausted s = .next (((u.modSp (fun p => { p with
      requested := false, accepted := false, inSequence := false, txId := 0, rxId := none })).pdSend .softReset).pdNextSend)) ∧
  (∀ (vbus : U16) (ns : Nat) (s : State), s.port.run = .attachedSnk → s.port.accepted = false →
    (s.vbusInside s.port.present vbus.toNat = true ∨ ns ≤ 1000000) →
    exec (.vbusMonitorBreach vbus ns) s = .next (s.modSp (fun x => { x with
      vbus := vbus, ready := x.ready && s.vbusInside s.port.present vbus.toNat
      snkOn := x.snkOn && s.vbusInside s.port.present vbus.toNat }))) ∧
  (∀ (vbus : U16) (ns : Nat) (s : State), s.port.run = .attachedSnk → s.port.accepted = false → 1000000 < ns →
    s.vbusInside s.port.present vbus.toNat = false →
    exec (.vbusMonitorBreach vbus ns) s = .next ((((s.modSp (fun x => { x with
      vbus := vbus, vbusFault := true, transMs := s.port.transMs })).pdSend .hardReset).pdHardReset).raise 264)) ∧
  (∀ (position : Nat) (s : State), s.port.attached = true → s.pdBegin.port.run ≠ .disabled →
    let ack := position == 1 && bitAt s.pdBegin.port.inForce.alt 0 && !s.pdBegin.port.corroded
    let t := s.pdBegin.pdSend (.enterMode ack)
    exec (.pdEnterMode position) s = .next (if ack = true ∧ t.port.alt = false then
      (t.modSp (fun p => { p with alt := true })).raise 265 else t)) ∧
  (∀ s : State, s.port.alt = true →
    exec .pdExitMode s = .next (((s.pdSend .exitMode).modSp (fun p => { p with alt := false })).raise 265)) ∧
  (∀ (ohms : Nat) (s : State), let v := s.pickService.portEnable
    v.port.run = .unattached → bitAt (v.held 0x1B00) 5 = true →
    let t := v.atLeast (v.port.checkAt + 1000000000)
    let u := t.modSp (fun x => { x with checkAt := t.clk })
    exec (.moistureCheck ohms) s = .next (if bitsOf (v.held 0x1B07) 7 0 * 10000 ≤ ohms then u
      else ((u.modSp (fun x => { x with
        run := .wet, srcOn := false, rd := true, dryRun := 0, cntMoist := satInc x.cntMoist })).raise 266).raise 260)) ∧
  (∀ (ohms : Nat) (s : State), let v := s.pickService.portEnable
    v.port.run = .wet →
    let t := v.atLeast (v.port.checkAt + bitsOf (v.held 0x1B07) 15 8 * 1000000000)
    let n := if bitsOf (v.held 0x1B07) 7 0 * 10000 ≤ ohms then v.port.dryRun + 1 else 0
    let u := t.modSp (fun x => { x with checkAt := t.clk, dryRun := n })
    exec (.moistureCheck ohms) s = .next (if n < bitsOf (v.held 0x1B07) 23 16 then u
      else ((u.modSp (fun x => { x with run := .unattached, dryRun := 0 })).raise 266).raise 260)) ∧
  (∀ (v : Reading) (s : State), s.port.attached = true → s.port.alt = false → s.port.corroded = false → 1000 < v →
    exec (.sbuCorrosion v) s = .next ((s.modSp (fun x => { x with corroded := true, cntCorroded := satInc x.cntCorroded })).raise 266))

/-- The service-port opcodes (18 R487, 18 R488, 18 R496). SP_STATUS_READ answers 12 bytes; SP_POLICY_CLAIM of a free
policy takes it and answers the record in force; SP_POLICY_RELEASE and SP_PD_POLICY by its owner give it up and
replace its record; SP_PD_SEND by its owner sends at once when nothing waits, and else waits behind the messages under
way. -/
def Obligations.ServicePortCommands : Prop :=
  (∀ (r : Req) (s : State), Ready 0x1001 observe r s → r.payload = [] →
    exec (.spStatusRead r) s = .next (s.complete r 0x1001 (done (leBytes 4 s.port.status ++ leBytes 4 s.port.contractWord ++
      leBytes 2 s.port.vbus.toNat ++ leBytes 1 s.port.ownerByte ++ zeros 1)))) ∧
  (∀ (r : Req) (s : State), Ready 0x1002 service r s → r.payload = [] → s.portFused = false → s.port.policyOwner = none →
    exec (.spPolicyClaim r) s = .next ((s.modSp (fun p => { p with
      policyOwner := some r.owner, record := some p.inForce })).complete r 0x1002 (done s.port.inForce.bytes))) ∧
  (∀ (r : Req) (s : State), Ready 0x1003 service r s → r.payload = [] → s.portFused = false → s.port.policyOwner = some r.owner →
    exec (.spPolicyRelease r) s =
      .next ((s.modSp (fun p => { p with policyOwner := none, record := none })).complete r 0x1003 done)) ∧
  (∀ (r : Req) (s : State), Ready 0x1004 service r s → r.payload.length = 16 → numAt r.payload 8 1 < 4 → numAt r.payload 9 1 < 2 →
    zeroAt r.payload 10 6 = true → s.portFused = false → s.port.policyOwner = some r.owner → (recordOf r.payload).ok = true →
    exec (.spPdPolicy r) s =
      .next ((s.modSp (fun p => { p with record := some (recordOf r.payload) })).complete r 0x1004 done)) ∧
  (∀ (r : Req) (s : State), Ready 0x1005 service r s → 4 ≤ r.payload.length → r.payload.length ≤ 32 →
    r.payload.length % 4 = 0 → zeroAt r.payload 1 1 = true →
    (numAt r.payload 0 1 = 3 ∨ numAt r.payload 0 1 = 0 ∧ bitsOf (numAt r.payload 2 2) 14 12 = (r.payload.length - 4) / 4) →
    s.portFused = false → s.port.policyOwner = some r.owner → s.port.attached = true →
    exec (.spPdSend r) s = .next (if numAt r.payload 0 1 = 3 ∧ s.port.inSequence = false ∧ s.port.sends = [] then
        (s.pdSend .hardReset).pdHardReset.complete r 0x1005 done
      else if s.port.sends = [] then ((s.modSp (fun p => { p with sends := [r] })).pdNextSend).park r 0x1005
      else (s.modSp (fun p => { p with sends := p.sends ++ [r] })).park r 0x1005))

/-- MRAM records, scrub, migration, log, fuses and customer keys (19 R499, 19 R501, 19 R503, 19 R505, 19 R506, 19 R507, 19
R508, 19 R519, 19 R521). NVM_RECORD_WRITE: a record that waits is written before the queued ones; NVM_SCRUB of a
written sector adds what it found to the counts; SECTOR_MIGRATION_COMPLETE takes a spare sector. NVM_STATUS_READ,
FUSE_READ and LOG_READ answer; FUSE_BLOW by O0 on authenticated SMU blows the two copies as they read back;
CUST_COMMIT raises the level of a running customer image; CUST_KEY_SET stores the key. -/
def Obligations.MramAndSecurityCommands : Prop :=
  (∀ (w : NvmWrite) (ws : List NvmWrite) (s : State), s.nvmHeld = false → s.power.safety.dieRunning = true →
    s.nv.nvm.waiting = w :: ws → s.nv.nvm.blocked w.type = false →
    exec .nvmRecordWrite s =
      .next ((((s.modNvm (fun x => { x with waiting := ws })).writeRecord w).recordWritten w).settle s)) ∧
  (∀ (w : NvmWrite) (ws : List NvmWrite) (s : State), s.nvmHeld = false → s.power.safety.dieRunning = true →
    s.nv.nvm.waiting = [] → s.nv.nvm.lost = none → s.nv.nvm.blocked 0x20#8 = false → s.nv.nvm.queue = w :: ws →
    exec .nvmRecordWrite s = .next ((s.modNvm (fun x => { x with queue := ws })).writeRecord w)) ∧
  (∀ (sector corrected : Nat) (s : State), sector < 512 → bitAt (s.param 0x1C00) 0 = true → s.power.safety.dieRunning = true →
    corrected ≤ bitsOf (s.param 0x1C00) 15 8 →
    let t := s.atLeast (bankGet 0 sector s.nv.nvm.lastScrub + bitsOf (s.param 0x1C00) 31 16 * 3600000000000)
    ∃ u, exec (.nvmScrub sector corrected []) s = .next u ∧ u.clk = t.clk ∧
      u.nv.nvm.cntCorr = satAdd s.nv.nvm.cntCorr corrected ∧ u.nv.nvm.cntUncorr = satAdd s.nv.nvm.cntUncorr 0 ∧
      u.nv.nvm.lastScrub = bankSet 0 sector t.clk s.nv.nvm.lastScrub ∧ u.host = s.host ∧ u.conv = s.conv) ∧
  (∀ (x : Nat) (s : State), s.nv.nvm.migrating = [x] →
    exec .sectorMigrationComplete s = .next ((((s.modNvm (fun n => { n with
      migrating := [], spares := n.spares - 1, migrated := satInc n.migrated
      remap := (x, 64 - n.spares) :: n.remap.filter (fun e => e.1 != x) })).longOpEnd).raise 268).nvmChanged s)) ∧
  (∀ (r : Req) (s : State), Ready 0x0F01 observe r s → r.payload = [] →
    exec (.nvmStatusRead r) s = .next (s.complete r 0x0F01
      (done (leBytes 4 s.nvmStatus ++ leBytes 4 s.fwStatus ++ leBytes 4 s.fwLevels ++ leBytes 4 s.fwPend)))) ∧
  (∀ (r : Req) (s : State), Ready 0x0F08 security r s → r.payload.length = 4 →
    s.nv.nvm.logRecords.drop (numAt r.payload 0 4) ≠ [] →
    exec (.logRead r) s = .next (s.complete r 0x0F08
      (done (((s.nv.nvm.logRecords.drop (numAt r.payload 0 4)).take 63).map (fun x => pad64 x.payload)).flatten))) ∧
  (∀ (r : Req) (s : State), Ready 0x0F09 observe r s → r.payload = [] →
    exec (.fuseRead r) s = .next (s.complete r 0x0F09 (done (leBytes 256 s.fuseArray)))) ∧
  (∀ (r : Req) (k : Fin 4) (a b : Bool) (s : State), Ready 0x0F0A security r s → r.payload = [BitVec.ofNat 8 k.val] → r.owner = 0 →
    r.via.transport = .smuAuth → s.fuseWindow = true →
    let t := s.modSec (SecState.modFuse k.val (Fuse.blow a b))
    exec (.fuseBlow r a b) s = .next ((t.raise 273).complete r 0x0F0A
      (if (t.nv.sec.fuse k.val).reads then done else partial_ 0 0x010A))) ∧
  (∀ (r : Req) (s : State), Ready 0x0F0B security r s → r.payload = [] → r.via.transport = .smuAuth →
    s.nv.sec.customerCores.latched = true →
    let t := match s.custImage s.nv.fw.custSlot with
      | some i => if s.nv.fw.cust == CustRun.running then
          s.modFw (fun f => { f with custLevel := BitVec.ofNat 16 (max f.custLevel.toNat i.level) }) else s
      | none => s
    exec (.custCommit r) s = .next (t.complete r 0x0F0B done)) ∧
  (∀ (r : Req) (s : State), Ready 0x0E08 security r s → r.payload.length = 48 → r.owner = 0 → r.via.transport = .smuAuth →
    s.nv.sec.customerCores.latched = true →
    exec (.custKeySet r) s = .next (((s.modSec (fun c => { c with custKey := some r.payload })).storeSecure 18).complete r 0x0E08 done))

/-- Firmware: upload, trial, boot (19 R509, 19 R510, 19 R511, 19 R512, 19 R513). FW_OPEN opens an upload to the slot that
does not run; FW_WRITE stores its bytes; FW_ABORT closes it; FW_FINISH of an image that passes every check stores it,
and one whose signature, hash or key check fails answers SIGNATURE; FW_ACTIVATE of a ready image that the engine set
suffices for, or with every group quiet, starts the trial and waits for its boot, or in the recovery loader completes
at once; FW_COMMIT ends the trial and raises the rollback level; TRIAL_TIMEOUT returns to the former slot;
FIRMWARE_BOOT boots the slot chosen, or without a valid image enters the recovery loader. -/
def Obligations.FirmwareCommands : Prop :=
  (∀ (r : Req) (k : Fin 2) (s : State), Ready 0x0F02 security r s → lenZ 8 [(1, 3)] r.payload = none →
    s.secureVia true r = true → numAt r.payload 0 1 = k.val → (k = 1 → s.sys.hawk ≠ .recovery ∧ s.nv.sec.customerCores.latched = true) →
    512 ≤ numAt r.payload 4 4 → numAt r.payload 4 4 ≤ sectionSize k →
    s.nv.fw.trial = false → s.nv.fw.upload = none → s.nv.nvm.retired.any (fun x => decide (x < 512)) = false →
    ∃ t : State, exec (.fwOpen r) s = .next (t.complete r 0x0F02 done) ∧
      t.nv.fw.upload = some { owner := r.owner, section_ := k.val, total := numAt r.payload 4 4, bytes := [], units := [] } ∧
      t.nv.fw.images = vmod s.nv.fw.images (imageAt s.loadSlot k) (fun _ => none) ∧
      t.nv.fw.ready = (s.nv.fw.ready && k != 0) ∧ t.nv.sec = s.nv.sec ∧ t.conv = s.conv ∧ t.host = s.host) ∧
  (∀ (r : Req) (u : Upload) (s : State), Ready 0x0F03 security r s → 4 ≤ r.payload.length → r.payload.length ≤ 4064 →
    s.secureVia true r = true → s.uploadOf r.owner = some u →
    numAt r.payload 0 4 + (r.payload.drop 4).length ≤ u.total →
    ∃ (t : State) (w : Upload), exec (.fwWrite r) s = .next (t.complete r 0x0F03 done) ∧ t.nv.fw.upload = some w ∧
      w.total = u.total ∧ w.bytes = (List.range (r.payload.drop 4).length).foldl
        (fun b i => bankPut (numAt r.payload 0 4 + i) ((r.payload.drop 4).getD i 0#8) b) u.bytes ∧
      t.nv.sec = s.nv.sec ∧ t.conv = s.conv ∧ t.host = s.host) ∧
  (∀ (r : Req) (u : Upload) (s : State), Ready 0x0F07 security r s → r.payload = [] → s.secureVia false r = true →
    s.uploadOf r.owner = some u →
    exec (.fwAbort r) s = .next ((s.modFw (fun f => { f with upload := none })).complete r 0x0F07 done)) ∧
  (∀ (r : Req) (u : Upload) (s : State), Ready 0x0F04 security r s → r.payload = [] →
    s.secureVia true r = true → s.uploadOf r.owner = some u → u.formatOk = true →
    (u.section_ = 0 ∨ s.nv.sec.custKey.isSome = true) → s.levelOk (u.image s.nv.sec.custKey) = true →
    let sec := Fin.ofNat 2 u.section_
    let lines := (List.range ((u.total + 63) / 64)).filter (fun l => decide (l < 8) || !u.units.contains (l / 64))
    let t := (s.modNvm (NvmState.writeLines (sectionLine s.loadSlot sec) u lines)).modFw (fun f => { f with
      upload := none, images := vmod f.images (imageAt s.loadSlot sec) (fun _ => some (u.image s.nv.sec.custKey))
      ready := f.ready || u.section_ == 0 })
    exec (.fwFinish r true true true) s = .next
      ((if u.section_ = 1 && bitsOf (t.param 0x1C13) 1 1 = s.loadSlot.val then t.custStart else t).complete r 0x0F04 done)) ∧
  (∀ (r : Req) (u : Upload) (sigOk hashOk keyOk : Bool) (s : State), Ready 0x0F04 security r s → r.payload = [] →
    s.secureVia true r = true → s.uploadOf r.owner = some u → u.formatOk = true → (sigOk && hashOk && keyOk) = false →
    exec (.fwFinish r sigOk hashOk keyOk) s = .next (s.finish r 0x0F04 ⟨stValue, 0, dtSignature, []⟩)) ∧
  (∀ (r : Req) (s : State), Ready 0x0F05 security r s → r.payload = [] → s.secureVia true r = true → s.sys.hawk ≠ .recovery →
    s.nv.fw.trial = false → s.nv.fw.ready = true →
    (s.allQuiet = true ∨ ((s.nv.fw.images[2 * s.loadSlot.val]).map (fun i => i.engineMin.toNat)).getD 0 ≤
      s.nv.fw.engineSet.toNat) →
    exec (.fwActivate r) s = .next ((((((s.startTrial s.loadSlot).modFw (fun f => { f with activate := some r })).hawkReset 3
      .booting).park r 0x0F05)).settle s)) ∧
  (∀ (r : Req) (s : State), Ready 0x0F05 security r s → r.payload = [] → s.secureVia true r = true → s.sys.hawk = .recovery →
    s.nv.fw.ready = true →
    exec (.fwActivate r) s = .next ((((s.startTrial 0).hawkReset 3 .booting).complete r 0x0F05 done).settle s)) ∧
  (∀ (r : Req) (s : State), Ready 0x0F06 security r s → r.payload = [] → s.secureVia false r = true → s.nv.fw.trial = true →
    let level := match s.nv.fw.images[2 * s.nv.fw.run.val] with | some i => i.level | none => 0
    exec (.fwCommit r) s = .next (((((s.modFw (fun f => { f with trial := false, boots := 0, bootSlot := f.run })).storeOpen 0x03 0
      16).modSec (fun c => { c with rollback := max c.rollback level })).raise 272).complete r 0x0F06 done)) ∧
  (∀ s : State, s.nv.fw.trial = true → s.sys.hawk = .running →
    exec .trialTimeout s = .next ((((s.atLeast (s.nv.fw.trialStart + bitsOf s.nv.fw.trialCfg 15 0 * 1000000000)).trialFails).hawkReset 3
      .booting).settle s)) ∧
  (∀ (validA validB : Bool) (bt bs : List Nat) (br : BitVec 8) (s : State), s.sys.hawk = .booting →
    let u := s.countBoot
    let t := if u.sys.wd.raiseAtRelease then (u.raise 201).modWd (fun x => { x with raiseAtRelease := false }) else u
    exec (.firmwareBoot validA validB bt bs br) s = .next (match t.bootChoice validA validB with
      | (some slot, first) => (t.bootSlotNow slot (slot != first) bt bs br).settle s
      | (none, _) => t.enterRecovery.settle s))

/-- A tick of an invalid stream (08 R245). At a tick of an enabled coulomb channel whose stream is STUCK or CLK_LOST no
counter of the channel changes; GAP_TICKS counts one, and IS092 + c is raised at the first such tick and at no later
one. -/
def Obligations.InvalidTickAddsNothing : Prop :=
  ∀ (c : Fin 4) (d : Int) (s : State), bitAt (s.held (0x0B6C + c.val)) 0 = true →
    ((s.meas.cc[c.val]).stuck = true ∨ s.meas.ccClkLost = true) →
    let x := s.meas.cc[c.val]
    let t := s.ccTick c d
    let y := t.meas.cc[c.val]
    y.charge = x.charge ∧ y.thruDis = x.thruDis ∧ y.thruChg = x.thruChg ∧ y.winDis = x.winDis ∧ y.winChg = x.winChg ∧
    y.rem = x.rem ∧ y.remDis = x.remDis ∧ y.remChg = x.remChg ∧ y.gapTicks = satInc x.gapTicks ∧ y.inGap = true ∧
    t.sys.irq = (if x.inGap then s.sys.irq else s.sys.irq.modSrc (92 + c.val) IrqSource.raise) ∧
    (∀ k : Fin 4, k ≠ c → t.meas.cc[k.val] = s.meas.cc[k.val]) ∧ t.conv = s.conv ∧ t.bus = s.bus ∧ t.host = s.host

/-- The ride-through (12 R367). When UC0 moves to HOLD, IS190 is raised and the ride-through starts, and everything keeps
running: nothing but the supply and the interrupt source changes. When AUX has been above AUX_BO and 0.5 V for 1 ms
within RIDE_MS the supply is back, IS190 is raised for the move, the event goes to O0's event ring, and nothing else
changes. Past RIDE_MS, AUX_RETURN is not within the ride-through; RIDE_THROUGH_EXPIRY has come by then. -/
def Obligations.RideThrough : Prop :=
  (∀ (aux : U16) (s : State), s.power.supply.auxOk = true → aux.toNat < s.power.seq.table.auxBo → s.power.seq.run = .complete →
    ∃ t, exec (.auxBrownOut aux) s = .next t ∧ t.power.supply.onHold = true ∧ t.power.supply.auxOk = false ∧
      t.power.supply.rideSince = s.clk ∧ t.sys.irq = s.sys.irq.modSrc 190 IrqSource.raise ∧
      t.power.seq = s.power.seq ∧ t.power.rails = s.power.rails ∧ t.power.slots = s.power.slots ∧
      t.power.safety = s.power.safety ∧ t.clk = s.clk ∧ t.conv = s.conv ∧ t.chg = s.chg ∧ t.bus = s.bus ∧ t.meas = s.meas ∧
      t.stack = s.stack ∧ t.clock = s.clock ∧ t.host = s.host ∧ t.link = s.link ∧ t.port = s.port ∧ t.nv = s.nv) ∧
  (∀ (aux : U16) (s : State), s.power.supply.onHold = true → s.power.seq.table.auxBo + 5 < aux.toNat →
    s.power.seq.run = .complete →
    (s.sys.ring.queue.filter (fun x => x.source == .plumb)).length < 16 →
    max s.clk (s.power.supply.rideSince + 1000000) ≤ s.power.supply.rideSince + s.power.seq.table.rideMs * 1000000 →
    ∃ t bytes, exec (.auxReturn aux) s = .next t ∧ t.power.supply.onHold = false ∧ t.power.supply.auxOk = true ∧
      t.sys.ring.queue = s.sys.ring.queue ++ [⟨.plumb, .o0Event, bytes⟩] ∧
      t.sys.irq = s.sys.irq.modSrc 190 IrqSource.raise ∧ t.power.seq = s.power.seq ∧ t.power.rails = s.power.rails ∧
      t.power.slots = s.power.slots ∧ t.power.safety = s.power.safety ∧
      t.clk = max s.clk (s.power.supply.rideSince + 1000000) ∧ t.conv = s.conv ∧ t.chg = s.chg ∧
      t.bus = s.bus ∧ t.meas = s.meas ∧ t.stack = s.stack ∧ t.clock = s.clock ∧ t.link = s.link ∧ t.port = s.port)

/-- Droop events (14 R400). Below TH_DROOP for more than 2 ns a droop event adds one to TH_CNT_DROOP, which saturates;
IS198 is raised at the first event in each second of device time and not at a later one; nothing else happens. At
TH_DROOP or above, or for 2 ns or less, there is no event. -/
def Obligations.DroopEvents : Prop :=
  (∀ (mv ns : Nat) (s : State), mv < s.held 0x170A → 2 < ns → s.clock.th.droopSecond ≠ some (s.now / 1000000000) →
    exec (.droopEvent mv ns) s = .next ((s.modTh (fun x => { x with
      cntDroop := satInc x.cntDroop, droopSecond := some (s.now / 1000000000) })).raise 198)) ∧
  (∀ (mv ns : Nat) (s : State), mv < s.held 0x170A → 2 < ns → s.clock.th.droopSecond = some (s.now / 1000000000) →
    exec (.droopEvent mv ns) s = .next (s.modTh (fun x => { x with
      cntDroop := satInc x.cntDroop, droopSecond := some (s.now / 1000000000) }))) ∧
  (∀ (mv ns mv2 ns2 : Nat) (s t u : State), mv < s.held 0x170A → 2 < ns → exec (.droopEvent mv ns) s = .next t →
    t.now / 1000000000 = s.now / 1000000000 → exec (.droopEvent mv2 ns2) t = .next u → u.sys.irq = t.sys.irq) ∧
  (∀ (mv ns : Nat) (s : State), (s.held 0x170A ≤ mv ∨ ns ≤ 2) → exec (.droopEvent mv ns) s = .next s)

/-- The opcodes of Table 20-4 are the only ones (20 R525). The opcodes of Table 20-4 are known to check 9; a request of a
free tag whose opcode is any other, or is 0x0D00, fails check 9 of 02 R36 with UNKNOWN_OPCODE. (While the recovery
loader runs, fewer are known: 19 R511.) -/
def Obligations.OnlyTheseOpcodes : Prop :=
  let listed (op : Nat) : Bool :=
    [(0x0130, 0x0132), (0x0140, 0x0141), (0x0150, 0x0152), (0x0160, 0x0163), (0x0201, 0x0206), (0x0301, 0x0307),
     (0x0401, 0x0406), (0x0501, 0x0506), (0x0601, 0x0603), (0x0610, 0x0612), (0x0701, 0x0708), (0x0801, 0x0809),
     (0x0901, 0x0907), (0x0A01, 0x0A05), (0x0B01, 0x0B04), (0x0C01, 0x0C04), (0x0D01, 0x0D07), (0x0D10, 0x0D12),
     (0x0E01, 0x0E08), (0x0F01, 0x0F0B), (0x1001, 0x1005), (0x1101, 0x1104)].any (fun e => decide (e.1 ≤ op ∧ op ≤ e.2))
  (∀ op : Nat, (opcodeAlts op).isSome = listed op) ∧ listed 0x0D00 = false ∧
  (∀ (op : Nat) (r : Req) (s : State), listed op = false → s.host.record.any (sameCmd r) = false →
    s.checkCommand op r = some (stOpcode, 0))

/-- A sequence number is accepted once (02 R37). After check 7 has accepted a sequence number, the same number is refused,
and the highest number accepted has not fallen behind it. -/
def Obligations.SequenceNumbersAreSpent : Prop :=
  ∀ (q : U32) (o : Owner), (o.consume q).1 = 0 →
    ((o.consume q).2.consume q).1 ≠ 0 ∧ (o.consume q).2.session = o.session ∧ (o.consume q).2.epoch = o.epoch ∧
    ((o.consume q).2.high = q ∨ (o.consume q).2.high = o.high)

/-- What a store leaves in memory (16 R428, 16 R432). Bytes stored where every granule is written, or outside DRAM, read
back, and every other byte reads as before; a byte stored into a granule never written leaves zeros in the rest of
that granule and every byte outside it as before. -/
def Obligations.StoreThenLoad : Prop :=
  (∀ (bs : List Byte) (a c : Nat) (m : MemState), m.wf →
    (∀ i, i < bs.length → (regionAt (a + i)).isDram = true → granule (a + i) ∈ m.written) →
    (MemState.putBytes bs a m).byte c = if a ≤ c ∧ c < a + bs.length then bs.getD (c - a) 0#8 else m.byte c) ∧
  (∀ (b : Byte) (a c : Nat) (m : MemState), m.wf → (regionAt a).isDram = true → granule a ∉ m.written →
    (m.putByte a b).byte c = if c = a then b
      else if 0x1000000000 + granule a * 4096 ≤ c ∧ c < 0x1000000000 + (granule a + 1) * 4096 then 0#8 else m.byte c)

/-- Every field of an edge word is kept (03 R65). Reading back the word of an edge whose fields fit their widths gives the
edge; and writing what is read from a word gives the word less its reserved bits. -/
def Obligations.EdgeWordRoundTrip : Prop :=
  ∀ w : EdgeWord, w.e < 2 ^ 24 → w.dt < 2 ^ 14 → w.epoch < 2 ^ 16 → EdgeWord.ofCode (EdgeWord.code w) = w
end

