-- ==== Sys2Proof/Laws/RunOp.lean ====
section
/-! SUPPORT. What executing an opcode answers: one lemma for each outcome of its rule (02 R36, R43, R47), and the small facts
about payloads that name one object. -/

namespace Sys2Proof.Machine

variable {opcode : Nat} {alts : Alts} {shape : List Byte → Option Nat} {body : State → Res} {r : Req} {s t : State}

/-- A ready request whose rule has its effect now completes with it. -/
theorem Ready.run_ok (h : Ready opcode alts r s) {a : Reply} (hs : shape r.payload = none) (hb : body s = .ok a t) :
    s.runOp opcode alts shape body r = t.complete r opcode a := by
  simp [State.runOp, h.1, h.2.1, h.2.2, hs, hb]

/-- A ready request whose rule waits stays in the record. -/
theorem Ready.run_wait (h : Ready opcode alts r s) (hs : shape r.payload = none) (hb : body s = .wait t) :
    s.runOp opcode alts shape body r = t.park r opcode := by
  simp [State.runOp, h.1, h.2.1, h.2.2, hs, hb]

/-- A ready request whose rule fails is answered and has no effect. -/
theorem Ready.run_fail (h : Ready opcode alts r s) {st d : Nat} {p : List Byte} (hs : shape r.payload = none)
    (hb : body s = .fail st d p) : s.runOp opcode alts shape body r = s.finish r opcode ⟨st, 0, d, p⟩ := by
  simp [State.runOp, h.1, h.2.1, h.2.2, hs, hb]

/-- A ready request of the wrong shape is ILLEGAL_VALUE. -/
theorem Ready.run_shape (h : Ready opcode alts r s) {d : Nat} (hs : shape r.payload = some d) :
    s.runOp opcode alts shape body r = s.finish r opcode ⟨stValue, 0, d, []⟩ := by
  simp [State.runOp, h.1, h.2.1, h.2.2, hs]

/-- A request that fails a check is answered with that check's status. -/
theorem State.run_refused (h : s.serving = true) {st d : Nat} (ha : s.precheck opcode alts r = some (st, d)) :
    s.runOp opcode alts shape body r = s.finish r opcode ⟨st, 0, d, []⟩ := by
  simp [State.runOp, h, ha]

/-- A request that passes its checks on an object in use waits for it (02 R41). -/
theorem State.run_waits (h : s.serving = true) (hp : s.precheck opcode alts r = none) (hw : waitsInGroup opcode = false)
    (ht : s.turn opcode r = false) : s.runOp opcode alts shape body r = s.park r opcode := by
  simp [State.runOp, h, hp, hw, ht]

@[simp] theorem Res.no_def (st d : Nat) : Res.no st d = .fail st d [] := rfl

theorem State.needLease_holds {b : Res} (h : s.holdsLease r.owner = true) : s.needLease r b = b := by
  simp [State.needLease, h]

@[simp] theorem len_none {n : Nat} {p : List Byte} : len n p = none ↔ p.length = n := by
  unfold len; split <;> simp_all

@[simp] theorem named_val {n : Nat} (x : Fin n) : named n x.val = some x := by simp [named]

theorem numAt_byte {n : Nat} (h : n < 256) : numAt [BitVec.ofNat 8 n] 0 1 = n := by
  simp [numAt, slice, ofLe, Nat.mod_eq_of_lt h]

@[simp] theorem numAt_fin {k : Nat} (hk : k ≤ 256) (x : Fin k) : numAt [BitVec.ofNat 8 x.val] 0 1 = x.val :=
  numAt_byte (Nat.lt_of_lt_of_le x.isLt hk)

end Sys2Proof.Machine
end

