-- ==== Sys2Proof/Laws/State.lean ====
section
/-! SUPPORT. One lemma for each field and each update of one part of the state: what it was given, or as before. -/

namespace Sys2Proof.Machine

variable (s : State)

@[simp] theorem State.modHost_clk (f : HostState → HostState) : (s.modHost f).clk = s.clk := rfl
@[simp] theorem State.modHost_freeCtr (f : HostState → HostState) : (s.modHost f).freeCtr = s.freeCtr := rfl
@[simp] theorem State.modHost_host (f : HostState → HostState) : (s.modHost f).host = f s.host := rfl
@[simp] theorem State.modHost_conv (f : HostState → HostState) : (s.modHost f).conv = s.conv := rfl
@[simp] theorem State.modHost_chg (f : HostState → HostState) : (s.modHost f).chg = s.chg := rfl
@[simp] theorem State.modHost_bus (f : HostState → HostState) : (s.modHost f).bus = s.bus := rfl
@[simp] theorem State.modHost_meas (f : HostState → HostState) : (s.modHost f).meas = s.meas := rfl
@[simp] theorem State.modHost_stack (f : HostState → HostState) : (s.modHost f).stack = s.stack := rfl
@[simp] theorem State.modHost_power (f : HostState → HostState) : (s.modHost f).power = s.power := rfl
@[simp] theorem State.modHost_clock (f : HostState → HostState) : (s.modHost f).clock = s.clock := rfl
@[simp] theorem State.modHost_sys (f : HostState → HostState) : (s.modHost f).sys = s.sys := rfl
@[simp] theorem State.modHost_link (f : HostState → HostState) : (s.modHost f).link = s.link := rfl
@[simp] theorem State.modHost_port (f : HostState → HostState) : (s.modHost f).port = s.port := rfl
@[simp] theorem State.modHost_nv (f : HostState → HostState) : (s.modHost f).nv = s.nv := rfl
@[simp] theorem State.modHost_pending (f : HostState → HostState) : (s.modHost f).pending = s.pending := rfl

@[simp] theorem State.modConv_clk (f : ConverterState → ConverterState) : (s.modConv f).clk = s.clk := rfl
@[simp] theorem State.modConv_freeCtr (f : ConverterState → ConverterState) : (s.modConv f).freeCtr = s.freeCtr := rfl
@[simp] theorem State.modConv_host (f : ConverterState → ConverterState) : (s.modConv f).host = s.host := rfl
@[simp] theorem State.modConv_conv (f : ConverterState → ConverterState) : (s.modConv f).conv = f s.conv := rfl
@[simp] theorem State.modConv_chg (f : ConverterState → ConverterState) : (s.modConv f).chg = s.chg := rfl
@[simp] theorem State.modConv_bus (f : ConverterState → ConverterState) : (s.modConv f).bus = s.bus := rfl
@[simp] theorem State.modConv_meas (f : ConverterState → ConverterState) : (s.modConv f).meas = s.meas := rfl
@[simp] theorem State.modConv_stack (f : ConverterState → ConverterState) : (s.modConv f).stack = s.stack := rfl
@[simp] theorem State.modConv_power (f : ConverterState → ConverterState) : (s.modConv f).power = s.power := rfl
@[simp] theorem State.modConv_clock (f : ConverterState → ConverterState) : (s.modConv f).clock = s.clock := rfl
@[simp] theorem State.modConv_sys (f : ConverterState → ConverterState) : (s.modConv f).sys = s.sys := rfl
@[simp] theorem State.modConv_link (f : ConverterState → ConverterState) : (s.modConv f).link = s.link := rfl
@[simp] theorem State.modConv_port (f : ConverterState → ConverterState) : (s.modConv f).port = s.port := rfl
@[simp] theorem State.modConv_nv (f : ConverterState → ConverterState) : (s.modConv f).nv = s.nv := rfl
@[simp] theorem State.modConv_pending (f : ConverterState → ConverterState) : (s.modConv f).pending = s.pending := rfl

@[simp] theorem State.modChg_clk (f : ChargeState → ChargeState) : (s.modChg f).clk = s.clk := rfl
@[simp] theorem State.modChg_freeCtr (f : ChargeState → ChargeState) : (s.modChg f).freeCtr = s.freeCtr := rfl
@[simp] theorem State.modChg_host (f : ChargeState → ChargeState) : (s.modChg f).host = s.host := rfl
@[simp] theorem State.modChg_conv (f : ChargeState → ChargeState) : (s.modChg f).conv = s.conv := rfl
@[simp] theorem State.modChg_chg (f : ChargeState → ChargeState) : (s.modChg f).chg = f s.chg := rfl
@[simp] theorem State.modChg_bus (f : ChargeState → ChargeState) : (s.modChg f).bus = s.bus := rfl
@[simp] theorem State.modChg_meas (f : ChargeState → ChargeState) : (s.modChg f).meas = s.meas := rfl
@[simp] theorem State.modChg_stack (f : ChargeState → ChargeState) : (s.modChg f).stack = s.stack := rfl
@[simp] theorem State.modChg_power (f : ChargeState → ChargeState) : (s.modChg f).power = s.power := rfl
@[simp] theorem State.modChg_clock (f : ChargeState → ChargeState) : (s.modChg f).clock = s.clock := rfl
@[simp] theorem State.modChg_sys (f : ChargeState → ChargeState) : (s.modChg f).sys = s.sys := rfl
@[simp] theorem State.modChg_link (f : ChargeState → ChargeState) : (s.modChg f).link = s.link := rfl
@[simp] theorem State.modChg_port (f : ChargeState → ChargeState) : (s.modChg f).port = s.port := rfl
@[simp] theorem State.modChg_nv (f : ChargeState → ChargeState) : (s.modChg f).nv = s.nv := rfl
@[simp] theorem State.modChg_pending (f : ChargeState → ChargeState) : (s.modChg f).pending = s.pending := rfl

@[simp] theorem State.modBus_clk (f : BusState → BusState) : (s.modBus f).clk = s.clk := rfl
@[simp] theorem State.modBus_freeCtr (f : BusState → BusState) : (s.modBus f).freeCtr = s.freeCtr := rfl
@[simp] theorem State.modBus_host (f : BusState → BusState) : (s.modBus f).host = s.host := rfl
@[simp] theorem State.modBus_conv (f : BusState → BusState) : (s.modBus f).conv = s.conv := rfl
@[simp] theorem State.modBus_chg (f : BusState → BusState) : (s.modBus f).chg = s.chg := rfl
@[simp] theorem State.modBus_bus (f : BusState → BusState) : (s.modBus f).bus = f s.bus := rfl
@[simp] theorem State.modBus_meas (f : BusState → BusState) : (s.modBus f).meas = s.meas := rfl
@[simp] theorem State.modBus_stack (f : BusState → BusState) : (s.modBus f).stack = s.stack := rfl
@[simp] theorem State.modBus_power (f : BusState → BusState) : (s.modBus f).power = s.power := rfl
@[simp] theorem State.modBus_clock (f : BusState → BusState) : (s.modBus f).clock = s.clock := rfl
@[simp] theorem State.modBus_sys (f : BusState → BusState) : (s.modBus f).sys = s.sys := rfl
@[simp] theorem State.modBus_link (f : BusState → BusState) : (s.modBus f).link = s.link := rfl
@[simp] theorem State.modBus_port (f : BusState → BusState) : (s.modBus f).port = s.port := rfl
@[simp] theorem State.modBus_nv (f : BusState → BusState) : (s.modBus f).nv = s.nv := rfl
@[simp] theorem State.modBus_pending (f : BusState → BusState) : (s.modBus f).pending = s.pending := rfl

@[simp] theorem State.modMeas_clk (f : MeasureState → MeasureState) : (s.modMeas f).clk = s.clk := rfl
@[simp] theorem State.modMeas_freeCtr (f : MeasureState → MeasureState) : (s.modMeas f).freeCtr = s.freeCtr := rfl
@[simp] theorem State.modMeas_host (f : MeasureState → MeasureState) : (s.modMeas f).host = s.host := rfl
@[simp] theorem State.modMeas_conv (f : MeasureState → MeasureState) : (s.modMeas f).conv = s.conv := rfl
@[simp] theorem State.modMeas_chg (f : MeasureState → MeasureState) : (s.modMeas f).chg = s.chg := rfl
@[simp] theorem State.modMeas_bus (f : MeasureState → MeasureState) : (s.modMeas f).bus = s.bus := rfl
@[simp] theorem State.modMeas_meas (f : MeasureState → MeasureState) : (s.modMeas f).meas = f s.meas := rfl
@[simp] theorem State.modMeas_stack (f : MeasureState → MeasureState) : (s.modMeas f).stack = s.stack := rfl
@[simp] theorem State.modMeas_power (f : MeasureState → MeasureState) : (s.modMeas f).power = s.power := rfl
@[simp] theorem State.modMeas_clock (f : MeasureState → MeasureState) : (s.modMeas f).clock = s.clock := rfl
@[simp] theorem State.modMeas_sys (f : MeasureState → MeasureState) : (s.modMeas f).sys = s.sys := rfl
@[simp] theorem State.modMeas_link (f : MeasureState → MeasureState) : (s.modMeas f).link = s.link := rfl
@[simp] theorem State.modMeas_port (f : MeasureState → MeasureState) : (s.modMeas f).port = s.port := rfl
@[simp] theorem State.modMeas_nv (f : MeasureState → MeasureState) : (s.modMeas f).nv = s.nv := rfl
@[simp] theorem State.modMeas_pending (f : MeasureState → MeasureState) : (s.modMeas f).pending = s.pending := rfl

@[simp] theorem State.modPower_clk (f : PowerState → PowerState) : (s.modPower f).clk = s.clk := rfl
@[simp] theorem State.modPower_freeCtr (f : PowerState → PowerState) : (s.modPower f).freeCtr = s.freeCtr := rfl
@[simp] theorem State.modPower_host (f : PowerState → PowerState) : (s.modPower f).host = s.host := rfl
@[simp] theorem State.modPower_conv (f : PowerState → PowerState) : (s.modPower f).conv = s.conv := rfl
@[simp] theorem State.modPower_chg (f : PowerState → PowerState) : (s.modPower f).chg = s.chg := rfl
@[simp] theorem State.modPower_bus (f : PowerState → PowerState) : (s.modPower f).bus = s.bus := rfl
@[simp] theorem State.modPower_meas (f : PowerState → PowerState) : (s.modPower f).meas = s.meas := rfl
@[simp] theorem State.modPower_stack (f : PowerState → PowerState) : (s.modPower f).stack = s.stack := rfl
@[simp] theorem State.modPower_power (f : PowerState → PowerState) : (s.modPower f).power = f s.power := rfl
@[simp] theorem State.modPower_clock (f : PowerState → PowerState) : (s.modPower f).clock = s.clock := rfl
@[simp] theorem State.modPower_sys (f : PowerState → PowerState) : (s.modPower f).sys = s.sys := rfl
@[simp] theorem State.modPower_link (f : PowerState → PowerState) : (s.modPower f).link = s.link := rfl
@[simp] theorem State.modPower_port (f : PowerState → PowerState) : (s.modPower f).port = s.port := rfl
@[simp] theorem State.modPower_nv (f : PowerState → PowerState) : (s.modPower f).nv = s.nv := rfl
@[simp] theorem State.modPower_pending (f : PowerState → PowerState) : (s.modPower f).pending = s.pending := rfl

@[simp] theorem State.modSys_clk (f : SystemState → SystemState) : (s.modSys f).clk = s.clk := rfl
@[simp] theorem State.modSys_freeCtr (f : SystemState → SystemState) : (s.modSys f).freeCtr = s.freeCtr := rfl
@[simp] theorem State.modSys_host (f : SystemState → SystemState) : (s.modSys f).host = s.host := rfl
@[simp] theorem State.modSys_conv (f : SystemState → SystemState) : (s.modSys f).conv = s.conv := rfl
@[simp] theorem State.modSys_chg (f : SystemState → SystemState) : (s.modSys f).chg = s.chg := rfl
@[simp] theorem State.modSys_bus (f : SystemState → SystemState) : (s.modSys f).bus = s.bus := rfl
@[simp] theorem State.modSys_meas (f : SystemState → SystemState) : (s.modSys f).meas = s.meas := rfl
@[simp] theorem State.modSys_stack (f : SystemState → SystemState) : (s.modSys f).stack = s.stack := rfl
@[simp] theorem State.modSys_power (f : SystemState → SystemState) : (s.modSys f).power = s.power := rfl
@[simp] theorem State.modSys_clock (f : SystemState → SystemState) : (s.modSys f).clock = s.clock := rfl
@[simp] theorem State.modSys_sys (f : SystemState → SystemState) : (s.modSys f).sys = f s.sys := rfl
@[simp] theorem State.modSys_link (f : SystemState → SystemState) : (s.modSys f).link = s.link := rfl
@[simp] theorem State.modSys_port (f : SystemState → SystemState) : (s.modSys f).port = s.port := rfl
@[simp] theorem State.modSys_nv (f : SystemState → SystemState) : (s.modSys f).nv = s.nv := rfl
@[simp] theorem State.modSys_pending (f : SystemState → SystemState) : (s.modSys f).pending = s.pending := rfl

@[simp] theorem State.modLink_clk (f : LinkState → LinkState) : (s.modLink f).clk = s.clk := rfl
@[simp] theorem State.modLink_freeCtr (f : LinkState → LinkState) : (s.modLink f).freeCtr = s.freeCtr := rfl
@[simp] theorem State.modLink_host (f : LinkState → LinkState) : (s.modLink f).host = s.host := rfl
@[simp] theorem State.modLink_conv (f : LinkState → LinkState) : (s.modLink f).conv = s.conv := rfl
@[simp] theorem State.modLink_chg (f : LinkState → LinkState) : (s.modLink f).chg = s.chg := rfl
@[simp] theorem State.modLink_bus (f : LinkState → LinkState) : (s.modLink f).bus = s.bus := rfl
@[simp] theorem State.modLink_meas (f : LinkState → LinkState) : (s.modLink f).meas = s.meas := rfl
@[simp] theorem State.modLink_stack (f : LinkState → LinkState) : (s.modLink f).stack = s.stack := rfl
@[simp] theorem State.modLink_power (f : LinkState → LinkState) : (s.modLink f).power = s.power := rfl
@[simp] theorem State.modLink_clock (f : LinkState → LinkState) : (s.modLink f).clock = s.clock := rfl
@[simp] theorem State.modLink_sys (f : LinkState → LinkState) : (s.modLink f).sys = s.sys := rfl
@[simp] theorem State.modLink_link (f : LinkState → LinkState) : (s.modLink f).link = f s.link := rfl
@[simp] theorem State.modLink_port (f : LinkState → LinkState) : (s.modLink f).port = s.port := rfl
@[simp] theorem State.modLink_nv (f : LinkState → LinkState) : (s.modLink f).nv = s.nv := rfl
@[simp] theorem State.modLink_pending (f : LinkState → LinkState) : (s.modLink f).pending = s.pending := rfl

@[simp] theorem State.modSp_clk (f : ServicePort → ServicePort) : (s.modSp f).clk = s.clk := rfl
@[simp] theorem State.modSp_freeCtr (f : ServicePort → ServicePort) : (s.modSp f).freeCtr = s.freeCtr := rfl
@[simp] theorem State.modSp_host (f : ServicePort → ServicePort) : (s.modSp f).host = s.host := rfl
@[simp] theorem State.modSp_conv (f : ServicePort → ServicePort) : (s.modSp f).conv = s.conv := rfl
@[simp] theorem State.modSp_chg (f : ServicePort → ServicePort) : (s.modSp f).chg = s.chg := rfl
@[simp] theorem State.modSp_bus (f : ServicePort → ServicePort) : (s.modSp f).bus = s.bus := rfl
@[simp] theorem State.modSp_meas (f : ServicePort → ServicePort) : (s.modSp f).meas = s.meas := rfl
@[simp] theorem State.modSp_stack (f : ServicePort → ServicePort) : (s.modSp f).stack = s.stack := rfl
@[simp] theorem State.modSp_power (f : ServicePort → ServicePort) : (s.modSp f).power = s.power := rfl
@[simp] theorem State.modSp_clock (f : ServicePort → ServicePort) : (s.modSp f).clock = s.clock := rfl
@[simp] theorem State.modSp_sys (f : ServicePort → ServicePort) : (s.modSp f).sys = s.sys := rfl
@[simp] theorem State.modSp_link (f : ServicePort → ServicePort) : (s.modSp f).link = s.link := rfl
@[simp] theorem State.modSp_port (f : ServicePort → ServicePort) : (s.modSp f).port = f s.port := rfl
@[simp] theorem State.modSp_nv (f : ServicePort → ServicePort) : (s.modSp f).nv = s.nv := rfl
@[simp] theorem State.modSp_pending (f : ServicePort → ServicePort) : (s.modSp f).pending = s.pending := rfl

@[simp] theorem State.modNv_clk (f : KeepState → KeepState) : (s.modNv f).clk = s.clk := rfl
@[simp] theorem State.modNv_freeCtr (f : KeepState → KeepState) : (s.modNv f).freeCtr = s.freeCtr := rfl
@[simp] theorem State.modNv_host (f : KeepState → KeepState) : (s.modNv f).host = s.host := rfl
@[simp] theorem State.modNv_conv (f : KeepState → KeepState) : (s.modNv f).conv = s.conv := rfl
@[simp] theorem State.modNv_chg (f : KeepState → KeepState) : (s.modNv f).chg = s.chg := rfl
@[simp] theorem State.modNv_bus (f : KeepState → KeepState) : (s.modNv f).bus = s.bus := rfl
@[simp] theorem State.modNv_meas (f : KeepState → KeepState) : (s.modNv f).meas = s.meas := rfl
@[simp] theorem State.modNv_stack (f : KeepState → KeepState) : (s.modNv f).stack = s.stack := rfl
@[simp] theorem State.modNv_power (f : KeepState → KeepState) : (s.modNv f).power = s.power := rfl
@[simp] theorem State.modNv_clock (f : KeepState → KeepState) : (s.modNv f).clock = s.clock := rfl
@[simp] theorem State.modNv_sys (f : KeepState → KeepState) : (s.modNv f).sys = s.sys := rfl
@[simp] theorem State.modNv_link (f : KeepState → KeepState) : (s.modNv f).link = s.link := rfl
@[simp] theorem State.modNv_port (f : KeepState → KeepState) : (s.modNv f).port = s.port := rfl
@[simp] theorem State.modNv_nv (f : KeepState → KeepState) : (s.modNv f).nv = f s.nv := rfl
@[simp] theorem State.modNv_pending (f : KeepState → KeepState) : (s.modNv f).pending = s.pending := rfl

@[simp] theorem State.modChain_clk (f : ChainState → ChainState) : (s.modChain f).clk = s.clk := rfl
@[simp] theorem State.modChain_freeCtr (f : ChainState → ChainState) : (s.modChain f).freeCtr = s.freeCtr := rfl
@[simp] theorem State.modChain_host (f : ChainState → ChainState) : (s.modChain f).host = s.host := rfl
@[simp] theorem State.modChain_conv (f : ChainState → ChainState) : (s.modChain f).conv = s.conv := rfl
@[simp] theorem State.modChain_chg (f : ChainState → ChainState) : (s.modChain f).chg = s.chg := rfl
@[simp] theorem State.modChain_bus (f : ChainState → ChainState) : (s.modChain f).bus = s.bus := rfl
@[simp] theorem State.modChain_meas (f : ChainState → ChainState) : (s.modChain f).meas = s.meas := rfl
@[simp] theorem State.modChain_power (f : ChainState → ChainState) : (s.modChain f).power = s.power := rfl
@[simp] theorem State.modChain_clock (f : ChainState → ChainState) : (s.modChain f).clock = s.clock := rfl
@[simp] theorem State.modChain_sys (f : ChainState → ChainState) : (s.modChain f).sys = s.sys := rfl
@[simp] theorem State.modChain_link (f : ChainState → ChainState) : (s.modChain f).link = s.link := rfl
@[simp] theorem State.modChain_port (f : ChainState → ChainState) : (s.modChain f).port = s.port := rfl
@[simp] theorem State.modChain_nv (f : ChainState → ChainState) : (s.modChain f).nv = s.nv := rfl
@[simp] theorem State.modChain_pending (f : ChainState → ChainState) : (s.modChain f).pending = s.pending := rfl
@[simp] theorem State.modChain_stack_chain (f : ChainState → ChainState) : (s.modChain f).stack.chain = f s.stack.chain := rfl
@[simp] theorem State.modChain_stack_est (f : ChainState → ChainState) : (s.modChain f).stack.est = s.stack.est := rfl
@[simp] theorem State.modChain_stack_stp (f : ChainState → ChainState) : (s.modChain f).stack.stp = s.stack.stp := rfl

@[simp] theorem State.modEst_clk (f : EstState → EstState) : (s.modEst f).clk = s.clk := rfl
@[simp] theorem State.modEst_freeCtr (f : EstState → EstState) : (s.modEst f).freeCtr = s.freeCtr := rfl
@[simp] theorem State.modEst_host (f : EstState → EstState) : (s.modEst f).host = s.host := rfl
@[simp] theorem State.modEst_conv (f : EstState → EstState) : (s.modEst f).conv = s.conv := rfl
@[simp] theorem State.modEst_chg (f : EstState → EstState) : (s.modEst f).chg = s.chg := rfl
@[simp] theorem State.modEst_bus (f : EstState → EstState) : (s.modEst f).bus = s.bus := rfl
@[simp] theorem State.modEst_meas (f : EstState → EstState) : (s.modEst f).meas = s.meas := rfl
@[simp] theorem State.modEst_power (f : EstState → EstState) : (s.modEst f).power = s.power := rfl
@[simp] theorem State.modEst_clock (f : EstState → EstState) : (s.modEst f).clock = s.clock := rfl
@[simp] theorem State.modEst_sys (f : EstState → EstState) : (s.modEst f).sys = s.sys := rfl
@[simp] theorem State.modEst_link (f : EstState → EstState) : (s.modEst f).link = s.link := rfl
@[simp] theorem State.modEst_port (f : EstState → EstState) : (s.modEst f).port = s.port := rfl
@[simp] theorem State.modEst_nv (f : EstState → EstState) : (s.modEst f).nv = s.nv := rfl
@[simp] theorem State.modEst_pending (f : EstState → EstState) : (s.modEst f).pending = s.pending := rfl
@[simp] theorem State.modEst_stack_est (f : EstState → EstState) : (s.modEst f).stack.est = f s.stack.est := rfl
@[simp] theorem State.modEst_stack_chain (f : EstState → EstState) : (s.modEst f).stack.chain = s.stack.chain := rfl
@[simp] theorem State.modEst_stack_stp (f : EstState → EstState) : (s.modEst f).stack.stp = s.stack.stp := rfl

@[simp] theorem State.modStp_clk (f : StippleState → StippleState) : (s.modStp f).clk = s.clk := rfl
@[simp] theorem State.modStp_freeCtr (f : StippleState → StippleState) : (s.modStp f).freeCtr = s.freeCtr := rfl
@[simp] theorem State.modStp_host (f : StippleState → StippleState) : (s.modStp f).host = s.host := rfl
@[simp] theorem State.modStp_conv (f : StippleState → StippleState) : (s.modStp f).conv = s.conv := rfl
@[simp] theorem State.modStp_chg (f : StippleState → StippleState) : (s.modStp f).chg = s.chg := rfl
@[simp] theorem State.modStp_bus (f : StippleState → StippleState) : (s.modStp f).bus = s.bus := rfl
@[simp] theorem State.modStp_meas (f : StippleState → StippleState) : (s.modStp f).meas = s.meas := rfl
@[simp] theorem State.modStp_power (f : StippleState → StippleState) : (s.modStp f).power = s.power := rfl
@[simp] theorem State.modStp_clock (f : StippleState → StippleState) : (s.modStp f).clock = s.clock := rfl
@[simp] theorem State.modStp_sys (f : StippleState → StippleState) : (s.modStp f).sys = s.sys := rfl
@[simp] theorem State.modStp_link (f : StippleState → StippleState) : (s.modStp f).link = s.link := rfl
@[simp] theorem State.modStp_port (f : StippleState → StippleState) : (s.modStp f).port = s.port := rfl
@[simp] theorem State.modStp_nv (f : StippleState → StippleState) : (s.modStp f).nv = s.nv := rfl
@[simp] theorem State.modStp_pending (f : StippleState → StippleState) : (s.modStp f).pending = s.pending := rfl
@[simp] theorem State.modStp_stack_stp (f : StippleState → StippleState) : (s.modStp f).stack.stp = f s.stack.stp := rfl
@[simp] theorem State.modStp_stack_chain (f : StippleState → StippleState) : (s.modStp f).stack.chain = s.stack.chain := rfl
@[simp] theorem State.modStp_stack_est (f : StippleState → StippleState) : (s.modStp f).stack.est = s.stack.est := rfl

@[simp] theorem State.modSafety_clk (f : Safety → Safety) : (s.modSafety f).clk = s.clk := rfl
@[simp] theorem State.modSafety_freeCtr (f : Safety → Safety) : (s.modSafety f).freeCtr = s.freeCtr := rfl
@[simp] theorem State.modSafety_host (f : Safety → Safety) : (s.modSafety f).host = s.host := rfl
@[simp] theorem State.modSafety_conv (f : Safety → Safety) : (s.modSafety f).conv = s.conv := rfl
@[simp] theorem State.modSafety_chg (f : Safety → Safety) : (s.modSafety f).chg = s.chg := rfl
@[simp] theorem State.modSafety_bus (f : Safety → Safety) : (s.modSafety f).bus = s.bus := rfl
@[simp] theorem State.modSafety_meas (f : Safety → Safety) : (s.modSafety f).meas = s.meas := rfl
@[simp] theorem State.modSafety_stack (f : Safety → Safety) : (s.modSafety f).stack = s.stack := rfl
@[simp] theorem State.modSafety_clock (f : Safety → Safety) : (s.modSafety f).clock = s.clock := rfl
@[simp] theorem State.modSafety_sys (f : Safety → Safety) : (s.modSafety f).sys = s.sys := rfl
@[simp] theorem State.modSafety_link (f : Safety → Safety) : (s.modSafety f).link = s.link := rfl
@[simp] theorem State.modSafety_port (f : Safety → Safety) : (s.modSafety f).port = s.port := rfl
@[simp] theorem State.modSafety_nv (f : Safety → Safety) : (s.modSafety f).nv = s.nv := rfl
@[simp] theorem State.modSafety_pending (f : Safety → Safety) : (s.modSafety f).pending = s.pending := rfl
@[simp] theorem State.modSafety_power_safety (f : Safety → Safety) : (s.modSafety f).power.safety = f s.power.safety := rfl
@[simp] theorem State.modSafety_power_seq (f : Safety → Safety) : (s.modSafety f).power.seq = s.power.seq := rfl
@[simp] theorem State.modSafety_power_supply (f : Safety → Safety) : (s.modSafety f).power.supply = s.power.supply := rfl
@[simp] theorem State.modSafety_power_rails (f : Safety → Safety) : (s.modSafety f).power.rails = s.power.rails := rfl
@[simp] theorem State.modSafety_power_slots (f : Safety → Safety) : (s.modSafety f).power.slots = s.power.slots := rfl
@[simp] theorem State.modSafety_power_keep (f : Safety → Safety) : (s.modSafety f).power.keep = s.power.keep := rfl
@[simp] theorem State.modSafety_power_releaseAt (f : Safety → Safety) : (s.modSafety f).power.releaseAt = s.power.releaseAt := rfl

@[simp] theorem State.modSqr_clk (f : Sequencer → Sequencer) : (s.modSqr f).clk = s.clk := rfl
@[simp] theorem State.modSqr_freeCtr (f : Sequencer → Sequencer) : (s.modSqr f).freeCtr = s.freeCtr := rfl
@[simp] theorem State.modSqr_host (f : Sequencer → Sequencer) : (s.modSqr f).host = s.host := rfl
@[simp] theorem State.modSqr_conv (f : Sequencer → Sequencer) : (s.modSqr f).conv = s.conv := rfl
@[simp] theorem State.modSqr_chg (f : Sequencer → Sequencer) : (s.modSqr f).chg = s.chg := rfl
@[simp] theorem State.modSqr_bus (f : Sequencer → Sequencer) : (s.modSqr f).bus = s.bus := rfl
@[simp] theorem State.modSqr_meas (f : Sequencer → Sequencer) : (s.modSqr f).meas = s.meas := rfl
@[simp] theorem State.modSqr_stack (f : Sequencer → Sequencer) : (s.modSqr f).stack = s.stack := rfl
@[simp] theorem State.modSqr_clock (f : Sequencer → Sequencer) : (s.modSqr f).clock = s.clock := rfl
@[simp] theorem State.modSqr_sys (f : Sequencer → Sequencer) : (s.modSqr f).sys = s.sys := rfl
@[simp] theorem State.modSqr_link (f : Sequencer → Sequencer) : (s.modSqr f).link = s.link := rfl
@[simp] theorem State.modSqr_port (f : Sequencer → Sequencer) : (s.modSqr f).port = s.port := rfl
@[simp] theorem State.modSqr_nv (f : Sequencer → Sequencer) : (s.modSqr f).nv = s.nv := rfl
@[simp] theorem State.modSqr_pending (f : Sequencer → Sequencer) : (s.modSqr f).pending = s.pending := rfl
@[simp] theorem State.modSqr_power_seq (f : Sequencer → Sequencer) : (s.modSqr f).power.seq = f s.power.seq := rfl
@[simp] theorem State.modSqr_power_safety (f : Sequencer → Sequencer) : (s.modSqr f).power.safety = s.power.safety := rfl
@[simp] theorem State.modSqr_power_supply (f : Sequencer → Sequencer) : (s.modSqr f).power.supply = s.power.supply := rfl
@[simp] theorem State.modSqr_power_rails (f : Sequencer → Sequencer) : (s.modSqr f).power.rails = s.power.rails := rfl
@[simp] theorem State.modSqr_power_slots (f : Sequencer → Sequencer) : (s.modSqr f).power.slots = s.power.slots := rfl
@[simp] theorem State.modSqr_power_keep (f : Sequencer → Sequencer) : (s.modSqr f).power.keep = s.power.keep := rfl
@[simp] theorem State.modSqr_power_releaseAt (f : Sequencer → Sequencer) : (s.modSqr f).power.releaseAt = s.power.releaseAt := rfl

@[simp] theorem State.modSupply_clk (f : Supplies → Supplies) : (s.modSupply f).clk = s.clk := rfl
@[simp] theorem State.modSupply_freeCtr (f : Supplies → Supplies) : (s.modSupply f).freeCtr = s.freeCtr := rfl
@[simp] theorem State.modSupply_host (f : Supplies → Supplies) : (s.modSupply f).host = s.host := rfl
@[simp] theorem State.modSupply_conv (f : Supplies → Supplies) : (s.modSupply f).conv = s.conv := rfl
@[simp] theorem State.modSupply_chg (f : Supplies → Supplies) : (s.modSupply f).chg = s.chg := rfl
@[simp] theorem State.modSupply_bus (f : Supplies → Supplies) : (s.modSupply f).bus = s.bus := rfl
@[simp] theorem State.modSupply_meas (f : Supplies → Supplies) : (s.modSupply f).meas = s.meas := rfl
@[simp] theorem State.modSupply_stack (f : Supplies → Supplies) : (s.modSupply f).stack = s.stack := rfl
@[simp] theorem State.modSupply_clock (f : Supplies → Supplies) : (s.modSupply f).clock = s.clock := rfl
@[simp] theorem State.modSupply_sys (f : Supplies → Supplies) : (s.modSupply f).sys = s.sys := rfl
@[simp] theorem State.modSupply_link (f : Supplies → Supplies) : (s.modSupply f).link = s.link := rfl
@[simp] theorem State.modSupply_port (f : Supplies → Supplies) : (s.modSupply f).port = s.port := rfl
@[simp] theorem State.modSupply_nv (f : Supplies → Supplies) : (s.modSupply f).nv = s.nv := rfl
@[simp] theorem State.modSupply_pending (f : Supplies → Supplies) : (s.modSupply f).pending = s.pending := rfl
@[simp] theorem State.modSupply_power_supply (f : Supplies → Supplies) : (s.modSupply f).power.supply = f s.power.supply := rfl
@[simp] theorem State.modSupply_power_safety (f : Supplies → Supplies) : (s.modSupply f).power.safety = s.power.safety := rfl
@[simp] theorem State.modSupply_power_seq (f : Supplies → Supplies) : (s.modSupply f).power.seq = s.power.seq := rfl
@[simp] theorem State.modSupply_power_rails (f : Supplies → Supplies) : (s.modSupply f).power.rails = s.power.rails := rfl
@[simp] theorem State.modSupply_power_slots (f : Supplies → Supplies) : (s.modSupply f).power.slots = s.power.slots := rfl
@[simp] theorem State.modSupply_power_keep (f : Supplies → Supplies) : (s.modSupply f).power.keep = s.power.keep := rfl
@[simp] theorem State.modSupply_power_releaseAt (f : Supplies → Supplies) : (s.modSupply f).power.releaseAt = s.power.releaseAt := rfl

@[simp] theorem State.modTb_clk (f : Timebase → Timebase) : (s.modTb f).clk = s.clk := rfl
@[simp] theorem State.modTb_freeCtr (f : Timebase → Timebase) : (s.modTb f).freeCtr = s.freeCtr := rfl
@[simp] theorem State.modTb_host (f : Timebase → Timebase) : (s.modTb f).host = s.host := rfl
@[simp] theorem State.modTb_conv (f : Timebase → Timebase) : (s.modTb f).conv = s.conv := rfl
@[simp] theorem State.modTb_chg (f : Timebase → Timebase) : (s.modTb f).chg = s.chg := rfl
@[simp] theorem State.modTb_bus (f : Timebase → Timebase) : (s.modTb f).bus = s.bus := rfl
@[simp] theorem State.modTb_meas (f : Timebase → Timebase) : (s.modTb f).meas = s.meas := rfl
@[simp] theorem State.modTb_stack (f : Timebase → Timebase) : (s.modTb f).stack = s.stack := rfl
@[simp] theorem State.modTb_power (f : Timebase → Timebase) : (s.modTb f).power = s.power := rfl
@[simp] theorem State.modTb_sys (f : Timebase → Timebase) : (s.modTb f).sys = s.sys := rfl
@[simp] theorem State.modTb_link (f : Timebase → Timebase) : (s.modTb f).link = s.link := rfl
@[simp] theorem State.modTb_port (f : Timebase → Timebase) : (s.modTb f).port = s.port := rfl
@[simp] theorem State.modTb_nv (f : Timebase → Timebase) : (s.modTb f).nv = s.nv := rfl
@[simp] theorem State.modTb_pending (f : Timebase → Timebase) : (s.modTb f).pending = s.pending := rfl
@[simp] theorem State.modTb_clock_tb (f : Timebase → Timebase) : (s.modTb f).clock.tb = f s.clock.tb := rfl
@[simp] theorem State.modTb_clock_th (f : Timebase → Timebase) : (s.modTb f).clock.th = s.clock.th := rfl

@[simp] theorem State.modTh_clk (f : Thermal → Thermal) : (s.modTh f).clk = s.clk := rfl
@[simp] theorem State.modTh_freeCtr (f : Thermal → Thermal) : (s.modTh f).freeCtr = s.freeCtr := rfl
@[simp] theorem State.modTh_host (f : Thermal → Thermal) : (s.modTh f).host = s.host := rfl
@[simp] theorem State.modTh_conv (f : Thermal → Thermal) : (s.modTh f).conv = s.conv := rfl
@[simp] theorem State.modTh_chg (f : Thermal → Thermal) : (s.modTh f).chg = s.chg := rfl
@[simp] theorem State.modTh_bus (f : Thermal → Thermal) : (s.modTh f).bus = s.bus := rfl
@[simp] theorem State.modTh_meas (f : Thermal → Thermal) : (s.modTh f).meas = s.meas := rfl
@[simp] theorem State.modTh_stack (f : Thermal → Thermal) : (s.modTh f).stack = s.stack := rfl
@[simp] theorem State.modTh_power (f : Thermal → Thermal) : (s.modTh f).power = s.power := rfl
@[simp] theorem State.modTh_sys (f : Thermal → Thermal) : (s.modTh f).sys = s.sys := rfl
@[simp] theorem State.modTh_link (f : Thermal → Thermal) : (s.modTh f).link = s.link := rfl
@[simp] theorem State.modTh_port (f : Thermal → Thermal) : (s.modTh f).port = s.port := rfl
@[simp] theorem State.modTh_nv (f : Thermal → Thermal) : (s.modTh f).nv = s.nv := rfl
@[simp] theorem State.modTh_pending (f : Thermal → Thermal) : (s.modTh f).pending = s.pending := rfl
@[simp] theorem State.modTh_clock_th (f : Thermal → Thermal) : (s.modTh f).clock.th = f s.clock.th := rfl
@[simp] theorem State.modTh_clock_tb (f : Thermal → Thermal) : (s.modTh f).clock.tb = s.clock.tb := rfl

@[simp] theorem State.modPhase_clk (i : Fin 64) (f : Phase → Phase) : (s.modPhase i f).clk = s.clk := rfl
@[simp] theorem State.modPhase_freeCtr (i : Fin 64) (f : Phase → Phase) : (s.modPhase i f).freeCtr = s.freeCtr := rfl
@[simp] theorem State.modPhase_host (i : Fin 64) (f : Phase → Phase) : (s.modPhase i f).host = s.host := rfl
@[simp] theorem State.modPhase_chg (i : Fin 64) (f : Phase → Phase) : (s.modPhase i f).chg = s.chg := rfl
@[simp] theorem State.modPhase_bus (i : Fin 64) (f : Phase → Phase) : (s.modPhase i f).bus = s.bus := rfl
@[simp] theorem State.modPhase_meas (i : Fin 64) (f : Phase → Phase) : (s.modPhase i f).meas = s.meas := rfl
@[simp] theorem State.modPhase_stack (i : Fin 64) (f : Phase → Phase) : (s.modPhase i f).stack = s.stack := rfl
@[simp] theorem State.modPhase_power (i : Fin 64) (f : Phase → Phase) : (s.modPhase i f).power = s.power := rfl
@[simp] theorem State.modPhase_clock (i : Fin 64) (f : Phase → Phase) : (s.modPhase i f).clock = s.clock := rfl
@[simp] theorem State.modPhase_sys (i : Fin 64) (f : Phase → Phase) : (s.modPhase i f).sys = s.sys := rfl
@[simp] theorem State.modPhase_link (i : Fin 64) (f : Phase → Phase) : (s.modPhase i f).link = s.link := rfl
@[simp] theorem State.modPhase_port (i : Fin 64) (f : Phase → Phase) : (s.modPhase i f).port = s.port := rfl
@[simp] theorem State.modPhase_nv (i : Fin 64) (f : Phase → Phase) : (s.modPhase i f).nv = s.nv := rfl
@[simp] theorem State.modPhase_pending (i : Fin 64) (f : Phase → Phase) : (s.modPhase i f).pending = s.pending := rfl

@[simp] theorem State.modGroup_clk (i : Fin 8) (f : Group → Group) : (s.modGroup i f).clk = s.clk := rfl
@[simp] theorem State.modGroup_freeCtr (i : Fin 8) (f : Group → Group) : (s.modGroup i f).freeCtr = s.freeCtr := rfl
@[simp] theorem State.modGroup_host (i : Fin 8) (f : Group → Group) : (s.modGroup i f).host = s.host := rfl
@[simp] theorem State.modGroup_chg (i : Fin 8) (f : Group → Group) : (s.modGroup i f).chg = s.chg := rfl
@[simp] theorem State.modGroup_bus (i : Fin 8) (f : Group → Group) : (s.modGroup i f).bus = s.bus := rfl
@[simp] theorem State.modGroup_meas (i : Fin 8) (f : Group → Group) : (s.modGroup i f).meas = s.meas := rfl
@[simp] theorem State.modGroup_stack (i : Fin 8) (f : Group → Group) : (s.modGroup i f).stack = s.stack := rfl
@[simp] theorem State.modGroup_power (i : Fin 8) (f : Group → Group) : (s.modGroup i f).power = s.power := rfl
@[simp] theorem State.modGroup_clock (i : Fin 8) (f : Group → Group) : (s.modGroup i f).clock = s.clock := rfl
@[simp] theorem State.modGroup_sys (i : Fin 8) (f : Group → Group) : (s.modGroup i f).sys = s.sys := rfl
@[simp] theorem State.modGroup_link (i : Fin 8) (f : Group → Group) : (s.modGroup i f).link = s.link := rfl
@[simp] theorem State.modGroup_port (i : Fin 8) (f : Group → Group) : (s.modGroup i f).port = s.port := rfl
@[simp] theorem State.modGroup_nv (i : Fin 8) (f : Group → Group) : (s.modGroup i f).nv = s.nv := rfl
@[simp] theorem State.modGroup_pending (i : Fin 8) (f : Group → Group) : (s.modGroup i f).pending = s.pending := rfl

@[simp] theorem State.modPair_clk (i : Fin 8) (f : PairGroup → PairGroup) : (s.modPair i f).clk = s.clk := rfl
@[simp] theorem State.modPair_freeCtr (i : Fin 8) (f : PairGroup → PairGroup) : (s.modPair i f).freeCtr = s.freeCtr := rfl
@[simp] theorem State.modPair_host (i : Fin 8) (f : PairGroup → PairGroup) : (s.modPair i f).host = s.host := rfl
@[simp] theorem State.modPair_chg (i : Fin 8) (f : PairGroup → PairGroup) : (s.modPair i f).chg = s.chg := rfl
@[simp] theorem State.modPair_bus (i : Fin 8) (f : PairGroup → PairGroup) : (s.modPair i f).bus = s.bus := rfl
@[simp] theorem State.modPair_meas (i : Fin 8) (f : PairGroup → PairGroup) : (s.modPair i f).meas = s.meas := rfl
@[simp] theorem State.modPair_stack (i : Fin 8) (f : PairGroup → PairGroup) : (s.modPair i f).stack = s.stack := rfl
@[simp] theorem State.modPair_power (i : Fin 8) (f : PairGroup → PairGroup) : (s.modPair i f).power = s.power := rfl
@[simp] theorem State.modPair_clock (i : Fin 8) (f : PairGroup → PairGroup) : (s.modPair i f).clock = s.clock := rfl
@[simp] theorem State.modPair_sys (i : Fin 8) (f : PairGroup → PairGroup) : (s.modPair i f).sys = s.sys := rfl
@[simp] theorem State.modPair_link (i : Fin 8) (f : PairGroup → PairGroup) : (s.modPair i f).link = s.link := rfl
@[simp] theorem State.modPair_port (i : Fin 8) (f : PairGroup → PairGroup) : (s.modPair i f).port = s.port := rfl
@[simp] theorem State.modPair_nv (i : Fin 8) (f : PairGroup → PairGroup) : (s.modPair i f).nv = s.nv := rfl
@[simp] theorem State.modPair_pending (i : Fin 8) (f : PairGroup → PairGroup) : (s.modPair i f).pending = s.pending := rfl

@[simp] theorem State.modPairLink_clk (f : PairLink → PairLink) : (s.modPairLink f).clk = s.clk := rfl
@[simp] theorem State.modPairLink_freeCtr (f : PairLink → PairLink) : (s.modPairLink f).freeCtr = s.freeCtr := rfl
@[simp] theorem State.modPairLink_host (f : PairLink → PairLink) : (s.modPairLink f).host = s.host := rfl
@[simp] theorem State.modPairLink_chg (f : PairLink → PairLink) : (s.modPairLink f).chg = s.chg := rfl
@[simp] theorem State.modPairLink_bus (f : PairLink → PairLink) : (s.modPairLink f).bus = s.bus := rfl
@[simp] theorem State.modPairLink_meas (f : PairLink → PairLink) : (s.modPairLink f).meas = s.meas := rfl
@[simp] theorem State.modPairLink_stack (f : PairLink → PairLink) : (s.modPairLink f).stack = s.stack := rfl
@[simp] theorem State.modPairLink_power (f : PairLink → PairLink) : (s.modPairLink f).power = s.power := rfl
@[simp] theorem State.modPairLink_clock (f : PairLink → PairLink) : (s.modPairLink f).clock = s.clock := rfl
@[simp] theorem State.modPairLink_sys (f : PairLink → PairLink) : (s.modPairLink f).sys = s.sys := rfl
@[simp] theorem State.modPairLink_link (f : PairLink → PairLink) : (s.modPairLink f).link = s.link := rfl
@[simp] theorem State.modPairLink_port (f : PairLink → PairLink) : (s.modPairLink f).port = s.port := rfl
@[simp] theorem State.modPairLink_nv (f : PairLink → PairLink) : (s.modPairLink f).nv = s.nv := rfl
@[simp] theorem State.modPairLink_pending (f : PairLink → PairLink) : (s.modPairLink f).pending = s.pending := rfl
@[simp] theorem State.modPairLink_conv_link (f : PairLink → PairLink) : (s.modPairLink f).conv.link = f s.conv.link := rfl

@[simp] theorem State.modOwner_clk (i : Fin 16) (f : Owner → Owner) : (s.modOwner i f).clk = s.clk := rfl
@[simp] theorem State.modOwner_freeCtr (i : Fin 16) (f : Owner → Owner) : (s.modOwner i f).freeCtr = s.freeCtr := rfl
@[simp] theorem State.modOwner_conv (i : Fin 16) (f : Owner → Owner) : (s.modOwner i f).conv = s.conv := rfl
@[simp] theorem State.modOwner_chg (i : Fin 16) (f : Owner → Owner) : (s.modOwner i f).chg = s.chg := rfl
@[simp] theorem State.modOwner_bus (i : Fin 16) (f : Owner → Owner) : (s.modOwner i f).bus = s.bus := rfl
@[simp] theorem State.modOwner_meas (i : Fin 16) (f : Owner → Owner) : (s.modOwner i f).meas = s.meas := rfl
@[simp] theorem State.modOwner_stack (i : Fin 16) (f : Owner → Owner) : (s.modOwner i f).stack = s.stack := rfl
@[simp] theorem State.modOwner_power (i : Fin 16) (f : Owner → Owner) : (s.modOwner i f).power = s.power := rfl
@[simp] theorem State.modOwner_clock (i : Fin 16) (f : Owner → Owner) : (s.modOwner i f).clock = s.clock := rfl
@[simp] theorem State.modOwner_sys (i : Fin 16) (f : Owner → Owner) : (s.modOwner i f).sys = s.sys := rfl
@[simp] theorem State.modOwner_link (i : Fin 16) (f : Owner → Owner) : (s.modOwner i f).link = s.link := rfl
@[simp] theorem State.modOwner_port (i : Fin 16) (f : Owner → Owner) : (s.modOwner i f).port = s.port := rfl
@[simp] theorem State.modOwner_nv (i : Fin 16) (f : Owner → Owner) : (s.modOwner i f).nv = s.nv := rfl
@[simp] theorem State.modOwner_pending (i : Fin 16) (f : Owner → Owner) : (s.modOwner i f).pending = s.pending := rfl

@[simp] theorem State.modFeed_clk (i : Fin 2) (f : Feed → Feed) : (s.modFeed i f).clk = s.clk := rfl
@[simp] theorem State.modFeed_freeCtr (i : Fin 2) (f : Feed → Feed) : (s.modFeed i f).freeCtr = s.freeCtr := rfl
@[simp] theorem State.modFeed_host (i : Fin 2) (f : Feed → Feed) : (s.modFeed i f).host = s.host := rfl
@[simp] theorem State.modFeed_conv (i : Fin 2) (f : Feed → Feed) : (s.modFeed i f).conv = s.conv := rfl
@[simp] theorem State.modFeed_chg (i : Fin 2) (f : Feed → Feed) : (s.modFeed i f).chg = s.chg := rfl
@[simp] theorem State.modFeed_meas (i : Fin 2) (f : Feed → Feed) : (s.modFeed i f).meas = s.meas := rfl
@[simp] theorem State.modFeed_stack (i : Fin 2) (f : Feed → Feed) : (s.modFeed i f).stack = s.stack := rfl
@[simp] theorem State.modFeed_power (i : Fin 2) (f : Feed → Feed) : (s.modFeed i f).power = s.power := rfl
@[simp] theorem State.modFeed_clock (i : Fin 2) (f : Feed → Feed) : (s.modFeed i f).clock = s.clock := rfl
@[simp] theorem State.modFeed_sys (i : Fin 2) (f : Feed → Feed) : (s.modFeed i f).sys = s.sys := rfl
@[simp] theorem State.modFeed_link (i : Fin 2) (f : Feed → Feed) : (s.modFeed i f).link = s.link := rfl
@[simp] theorem State.modFeed_port (i : Fin 2) (f : Feed → Feed) : (s.modFeed i f).port = s.port := rfl
@[simp] theorem State.modFeed_nv (i : Fin 2) (f : Feed → Feed) : (s.modFeed i f).nv = s.nv := rfl
@[simp] theorem State.modFeed_pending (i : Fin 2) (f : Feed → Feed) : (s.modFeed i f).pending = s.pending := rfl

@[simp] theorem State.modCont_clk (i : Fin 4) (f : Contactor → Contactor) : (s.modCont i f).clk = s.clk := rfl
@[simp] theorem State.modCont_freeCtr (i : Fin 4) (f : Contactor → Contactor) : (s.modCont i f).freeCtr = s.freeCtr := rfl
@[simp] theorem State.modCont_host (i : Fin 4) (f : Contactor → Contactor) : (s.modCont i f).host = s.host := rfl
@[simp] theorem State.modCont_conv (i : Fin 4) (f : Contactor → Contactor) : (s.modCont i f).conv = s.conv := rfl
@[simp] theorem State.modCont_chg (i : Fin 4) (f : Contactor → Contactor) : (s.modCont i f).chg = s.chg := rfl
@[simp] theorem State.modCont_meas (i : Fin 4) (f : Contactor → Contactor) : (s.modCont i f).meas = s.meas := rfl
@[simp] theorem State.modCont_stack (i : Fin 4) (f : Contactor → Contactor) : (s.modCont i f).stack = s.stack := rfl
@[simp] theorem State.modCont_power (i : Fin 4) (f : Contactor → Contactor) : (s.modCont i f).power = s.power := rfl
@[simp] theorem State.modCont_clock (i : Fin 4) (f : Contactor → Contactor) : (s.modCont i f).clock = s.clock := rfl
@[simp] theorem State.modCont_sys (i : Fin 4) (f : Contactor → Contactor) : (s.modCont i f).sys = s.sys := rfl
@[simp] theorem State.modCont_link (i : Fin 4) (f : Contactor → Contactor) : (s.modCont i f).link = s.link := rfl
@[simp] theorem State.modCont_port (i : Fin 4) (f : Contactor → Contactor) : (s.modCont i f).port = s.port := rfl
@[simp] theorem State.modCont_nv (i : Fin 4) (f : Contactor → Contactor) : (s.modCont i f).nv = s.nv := rfl
@[simp] theorem State.modCont_pending (i : Fin 4) (f : Contactor → Contactor) : (s.modCont i f).pending = s.pending := rfl

@[simp] theorem State.modStrPort_clk (i : Fin 4) (f : Port → Port) : (s.modStrPort i f).clk = s.clk := rfl
@[simp] theorem State.modStrPort_freeCtr (i : Fin 4) (f : Port → Port) : (s.modStrPort i f).freeCtr = s.freeCtr := rfl
@[simp] theorem State.modStrPort_host (i : Fin 4) (f : Port → Port) : (s.modStrPort i f).host = s.host := rfl
@[simp] theorem State.modStrPort_conv (i : Fin 4) (f : Port → Port) : (s.modStrPort i f).conv = s.conv := rfl
@[simp] theorem State.modStrPort_bus (i : Fin 4) (f : Port → Port) : (s.modStrPort i f).bus = s.bus := rfl
@[simp] theorem State.modStrPort_meas (i : Fin 4) (f : Port → Port) : (s.modStrPort i f).meas = s.meas := rfl
@[simp] theorem State.modStrPort_stack (i : Fin 4) (f : Port → Port) : (s.modStrPort i f).stack = s.stack := rfl
@[simp] theorem State.modStrPort_power (i : Fin 4) (f : Port → Port) : (s.modStrPort i f).power = s.power := rfl
@[simp] theorem State.modStrPort_clock (i : Fin 4) (f : Port → Port) : (s.modStrPort i f).clock = s.clock := rfl
@[simp] theorem State.modStrPort_sys (i : Fin 4) (f : Port → Port) : (s.modStrPort i f).sys = s.sys := rfl
@[simp] theorem State.modStrPort_link (i : Fin 4) (f : Port → Port) : (s.modStrPort i f).link = s.link := rfl
@[simp] theorem State.modStrPort_port (i : Fin 4) (f : Port → Port) : (s.modStrPort i f).port = s.port := rfl
@[simp] theorem State.modStrPort_nv (i : Fin 4) (f : Port → Port) : (s.modStrPort i f).nv = s.nv := rfl
@[simp] theorem State.modStrPort_pending (i : Fin 4) (f : Port → Port) : (s.modStrPort i f).pending = s.pending := rfl

@[simp] theorem State.modLow_clk (f : LowPower → LowPower) : (s.modLow f).clk = s.clk := rfl
@[simp] theorem State.modLow_freeCtr (f : LowPower → LowPower) : (s.modLow f).freeCtr = s.freeCtr := rfl
@[simp] theorem State.modLow_host (f : LowPower → LowPower) : (s.modLow f).host = s.host := rfl
@[simp] theorem State.modLow_conv (f : LowPower → LowPower) : (s.modLow f).conv = s.conv := rfl
@[simp] theorem State.modLow_bus (f : LowPower → LowPower) : (s.modLow f).bus = s.bus := rfl
@[simp] theorem State.modLow_meas (f : LowPower → LowPower) : (s.modLow f).meas = s.meas := rfl
@[simp] theorem State.modLow_stack (f : LowPower → LowPower) : (s.modLow f).stack = s.stack := rfl
@[simp] theorem State.modLow_power (f : LowPower → LowPower) : (s.modLow f).power = s.power := rfl
@[simp] theorem State.modLow_clock (f : LowPower → LowPower) : (s.modLow f).clock = s.clock := rfl
@[simp] theorem State.modLow_sys (f : LowPower → LowPower) : (s.modLow f).sys = s.sys := rfl
@[simp] theorem State.modLow_link (f : LowPower → LowPower) : (s.modLow f).link = s.link := rfl
@[simp] theorem State.modLow_port (f : LowPower → LowPower) : (s.modLow f).port = s.port := rfl
@[simp] theorem State.modLow_nv (f : LowPower → LowPower) : (s.modLow f).nv = s.nv := rfl
@[simp] theorem State.modLow_pending (f : LowPower → LowPower) : (s.modLow f).pending = s.pending := rfl
@[simp] theorem State.modLow_chg_low (f : LowPower → LowPower) : (s.modLow f).chg.low = f s.chg.low := rfl
@[simp] theorem State.modLow_chg_ports (f : LowPower → LowPower) : (s.modLow f).chg.ports = s.chg.ports := rfl

@[simp] theorem State.modSeq_clk (i : Fin 16) (f : SeqState → SeqState) : (s.modSeq i f).clk = s.clk := rfl
@[simp] theorem State.modSeq_freeCtr (i : Fin 16) (f : SeqState → SeqState) : (s.modSeq i f).freeCtr = s.freeCtr := rfl
@[simp] theorem State.modSeq_host (i : Fin 16) (f : SeqState → SeqState) : (s.modSeq i f).host = s.host := rfl
@[simp] theorem State.modSeq_conv (i : Fin 16) (f : SeqState → SeqState) : (s.modSeq i f).conv = s.conv := rfl
@[simp] theorem State.modSeq_chg (i : Fin 16) (f : SeqState → SeqState) : (s.modSeq i f).chg = s.chg := rfl
@[simp] theorem State.modSeq_bus (i : Fin 16) (f : SeqState → SeqState) : (s.modSeq i f).bus = s.bus := rfl
@[simp] theorem State.modSeq_stack (i : Fin 16) (f : SeqState → SeqState) : (s.modSeq i f).stack = s.stack := rfl
@[simp] theorem State.modSeq_power (i : Fin 16) (f : SeqState → SeqState) : (s.modSeq i f).power = s.power := rfl
@[simp] theorem State.modSeq_clock (i : Fin 16) (f : SeqState → SeqState) : (s.modSeq i f).clock = s.clock := rfl
@[simp] theorem State.modSeq_sys (i : Fin 16) (f : SeqState → SeqState) : (s.modSeq i f).sys = s.sys := rfl
@[simp] theorem State.modSeq_link (i : Fin 16) (f : SeqState → SeqState) : (s.modSeq i f).link = s.link := rfl
@[simp] theorem State.modSeq_port (i : Fin 16) (f : SeqState → SeqState) : (s.modSeq i f).port = s.port := rfl
@[simp] theorem State.modSeq_nv (i : Fin 16) (f : SeqState → SeqState) : (s.modSeq i f).nv = s.nv := rfl
@[simp] theorem State.modSeq_pending (i : Fin 16) (f : SeqState → SeqState) : (s.modSeq i f).pending = s.pending := rfl

@[simp] theorem State.modCmp_clk (i : Fin 12) (f : Comparator → Comparator) : (s.modCmp i f).clk = s.clk := rfl
@[simp] theorem State.modCmp_freeCtr (i : Fin 12) (f : Comparator → Comparator) : (s.modCmp i f).freeCtr = s.freeCtr := rfl
@[simp] theorem State.modCmp_host (i : Fin 12) (f : Comparator → Comparator) : (s.modCmp i f).host = s.host := rfl
@[simp] theorem State.modCmp_conv (i : Fin 12) (f : Comparator → Comparator) : (s.modCmp i f).conv = s.conv := rfl
@[simp] theorem State.modCmp_chg (i : Fin 12) (f : Comparator → Comparator) : (s.modCmp i f).chg = s.chg := rfl
@[simp] theorem State.modCmp_bus (i : Fin 12) (f : Comparator → Comparator) : (s.modCmp i f).bus = s.bus := rfl
@[simp] theorem State.modCmp_stack (i : Fin 12) (f : Comparator → Comparator) : (s.modCmp i f).stack = s.stack := rfl
@[simp] theorem State.modCmp_power (i : Fin 12) (f : Comparator → Comparator) : (s.modCmp i f).power = s.power := rfl
@[simp] theorem State.modCmp_clock (i : Fin 12) (f : Comparator → Comparator) : (s.modCmp i f).clock = s.clock := rfl
@[simp] theorem State.modCmp_sys (i : Fin 12) (f : Comparator → Comparator) : (s.modCmp i f).sys = s.sys := rfl
@[simp] theorem State.modCmp_link (i : Fin 12) (f : Comparator → Comparator) : (s.modCmp i f).link = s.link := rfl
@[simp] theorem State.modCmp_port (i : Fin 12) (f : Comparator → Comparator) : (s.modCmp i f).port = s.port := rfl
@[simp] theorem State.modCmp_nv (i : Fin 12) (f : Comparator → Comparator) : (s.modCmp i f).nv = s.nv := rfl
@[simp] theorem State.modCmp_pending (i : Fin 12) (f : Comparator → Comparator) : (s.modCmp i f).pending = s.pending := rfl

@[simp] theorem State.modChainPort_clk (i : Fin 2) (f : ChainPort → ChainPort) : (s.modChainPort i f).clk = s.clk := rfl
@[simp] theorem State.modChainPort_freeCtr (i : Fin 2) (f : ChainPort → ChainPort) : (s.modChainPort i f).freeCtr = s.freeCtr := rfl
@[simp] theorem State.modChainPort_host (i : Fin 2) (f : ChainPort → ChainPort) : (s.modChainPort i f).host = s.host := rfl
@[simp] theorem State.modChainPort_conv (i : Fin 2) (f : ChainPort → ChainPort) : (s.modChainPort i f).conv = s.conv := rfl
@[simp] theorem State.modChainPort_chg (i : Fin 2) (f : ChainPort → ChainPort) : (s.modChainPort i f).chg = s.chg := rfl
@[simp] theorem State.modChainPort_bus (i : Fin 2) (f : ChainPort → ChainPort) : (s.modChainPort i f).bus = s.bus := rfl
@[simp] theorem State.modChainPort_meas (i : Fin 2) (f : ChainPort → ChainPort) : (s.modChainPort i f).meas = s.meas := rfl
@[simp] theorem State.modChainPort_power (i : Fin 2) (f : ChainPort → ChainPort) : (s.modChainPort i f).power = s.power := rfl
@[simp] theorem State.modChainPort_clock (i : Fin 2) (f : ChainPort → ChainPort) : (s.modChainPort i f).clock = s.clock := rfl
@[simp] theorem State.modChainPort_sys (i : Fin 2) (f : ChainPort → ChainPort) : (s.modChainPort i f).sys = s.sys := rfl
@[simp] theorem State.modChainPort_link (i : Fin 2) (f : ChainPort → ChainPort) : (s.modChainPort i f).link = s.link := rfl
@[simp] theorem State.modChainPort_port (i : Fin 2) (f : ChainPort → ChainPort) : (s.modChainPort i f).port = s.port := rfl
@[simp] theorem State.modChainPort_nv (i : Fin 2) (f : ChainPort → ChainPort) : (s.modChainPort i f).nv = s.nv := rfl
@[simp] theorem State.modChainPort_pending (i : Fin 2) (f : ChainPort → ChainPort) : (s.modChainPort i f).pending = s.pending := rfl

@[simp] theorem State.modModule_clk (i : Fin 64) (f : Module → Module) : (s.modModule i f).clk = s.clk := rfl
@[simp] theorem State.modModule_freeCtr (i : Fin 64) (f : Module → Module) : (s.modModule i f).freeCtr = s.freeCtr := rfl
@[simp] theorem State.modModule_host (i : Fin 64) (f : Module → Module) : (s.modModule i f).host = s.host := rfl
@[simp] theorem State.modModule_conv (i : Fin 64) (f : Module → Module) : (s.modModule i f).conv = s.conv := rfl
@[simp] theorem State.modModule_chg (i : Fin 64) (f : Module → Module) : (s.modModule i f).chg = s.chg := rfl
@[simp] theorem State.modModule_bus (i : Fin 64) (f : Module → Module) : (s.modModule i f).bus = s.bus := rfl
@[simp] theorem State.modModule_meas (i : Fin 64) (f : Module → Module) : (s.modModule i f).meas = s.meas := rfl
@[simp] theorem State.modModule_power (i : Fin 64) (f : Module → Module) : (s.modModule i f).power = s.power := rfl
@[simp] theorem State.modModule_clock (i : Fin 64) (f : Module → Module) : (s.modModule i f).clock = s.clock := rfl
@[simp] theorem State.modModule_sys (i : Fin 64) (f : Module → Module) : (s.modModule i f).sys = s.sys := rfl
@[simp] theorem State.modModule_link (i : Fin 64) (f : Module → Module) : (s.modModule i f).link = s.link := rfl
@[simp] theorem State.modModule_port (i : Fin 64) (f : Module → Module) : (s.modModule i f).port = s.port := rfl
@[simp] theorem State.modModule_nv (i : Fin 64) (f : Module → Module) : (s.modModule i f).nv = s.nv := rfl
@[simp] theorem State.modModule_pending (i : Fin 64) (f : Module → Module) : (s.modModule i f).pending = s.pending := rfl

@[simp] theorem State.modMest_clk (i : Fin 64) (f : ModuleEst → ModuleEst) : (s.modMest i f).clk = s.clk := rfl
@[simp] theorem State.modMest_freeCtr (i : Fin 64) (f : ModuleEst → ModuleEst) : (s.modMest i f).freeCtr = s.freeCtr := rfl
@[simp] theorem State.modMest_host (i : Fin 64) (f : ModuleEst → ModuleEst) : (s.modMest i f).host = s.host := rfl
@[simp] theorem State.modMest_conv (i : Fin 64) (f : ModuleEst → ModuleEst) : (s.modMest i f).conv = s.conv := rfl
@[simp] theorem State.modMest_chg (i : Fin 64) (f : ModuleEst → ModuleEst) : (s.modMest i f).chg = s.chg := rfl
@[simp] theorem State.modMest_bus (i : Fin 64) (f : ModuleEst → ModuleEst) : (s.modMest i f).bus = s.bus := rfl
@[simp] theorem State.modMest_meas (i : Fin 64) (f : ModuleEst → ModuleEst) : (s.modMest i f).meas = s.meas := rfl
@[simp] theorem State.modMest_power (i : Fin 64) (f : ModuleEst → ModuleEst) : (s.modMest i f).power = s.power := rfl
@[simp] theorem State.modMest_clock (i : Fin 64) (f : ModuleEst → ModuleEst) : (s.modMest i f).clock = s.clock := rfl
@[simp] theorem State.modMest_sys (i : Fin 64) (f : ModuleEst → ModuleEst) : (s.modMest i f).sys = s.sys := rfl
@[simp] theorem State.modMest_link (i : Fin 64) (f : ModuleEst → ModuleEst) : (s.modMest i f).link = s.link := rfl
@[simp] theorem State.modMest_port (i : Fin 64) (f : ModuleEst → ModuleEst) : (s.modMest i f).port = s.port := rfl
@[simp] theorem State.modMest_nv (i : Fin 64) (f : ModuleEst → ModuleEst) : (s.modMest i f).nv = s.nv := rfl
@[simp] theorem State.modMest_pending (i : Fin 64) (f : ModuleEst → ModuleEst) : (s.modMest i f).pending = s.pending := rfl

@[simp] theorem State.modSest_clk (i : Fin 4) (f : StringEst → StringEst) : (s.modSest i f).clk = s.clk := rfl
@[simp] theorem State.modSest_freeCtr (i : Fin 4) (f : StringEst → StringEst) : (s.modSest i f).freeCtr = s.freeCtr := rfl
@[simp] theorem State.modSest_host (i : Fin 4) (f : StringEst → StringEst) : (s.modSest i f).host = s.host := rfl
@[simp] theorem State.modSest_conv (i : Fin 4) (f : StringEst → StringEst) : (s.modSest i f).conv = s.conv := rfl
@[simp] theorem State.modSest_chg (i : Fin 4) (f : StringEst → StringEst) : (s.modSest i f).chg = s.chg := rfl
@[simp] theorem State.modSest_bus (i : Fin 4) (f : StringEst → StringEst) : (s.modSest i f).bus = s.bus := rfl
@[simp] theorem State.modSest_meas (i : Fin 4) (f : StringEst → StringEst) : (s.modSest i f).meas = s.meas := rfl
@[simp] theorem State.modSest_power (i : Fin 4) (f : StringEst → StringEst) : (s.modSest i f).power = s.power := rfl
@[simp] theorem State.modSest_clock (i : Fin 4) (f : StringEst → StringEst) : (s.modSest i f).clock = s.clock := rfl
@[simp] theorem State.modSest_sys (i : Fin 4) (f : StringEst → StringEst) : (s.modSest i f).sys = s.sys := rfl
@[simp] theorem State.modSest_link (i : Fin 4) (f : StringEst → StringEst) : (s.modSest i f).link = s.link := rfl
@[simp] theorem State.modSest_port (i : Fin 4) (f : StringEst → StringEst) : (s.modSest i f).port = s.port := rfl
@[simp] theorem State.modSest_nv (i : Fin 4) (f : StringEst → StringEst) : (s.modSest i f).nv = s.nv := rfl
@[simp] theorem State.modSest_pending (i : Fin 4) (f : StringEst → StringEst) : (s.modSest i f).pending = s.pending := rfl

@[simp] theorem State.modSweep_clk (i : Fin 4) (f : StippleSweep → StippleSweep) : (s.modSweep i f).clk = s.clk := by
  simp only [State.modSweep, State.raiseIf]; split <;> rfl
@[simp] theorem State.modSweep_freeCtr (i : Fin 4) (f : StippleSweep → StippleSweep) : (s.modSweep i f).freeCtr = s.freeCtr := by
  simp only [State.modSweep, State.raiseIf]; split <;> rfl
@[simp] theorem State.modSweep_host (i : Fin 4) (f : StippleSweep → StippleSweep) : (s.modSweep i f).host = s.host := by
  simp only [State.modSweep, State.raiseIf]; split <;> rfl
@[simp] theorem State.modSweep_conv (i : Fin 4) (f : StippleSweep → StippleSweep) : (s.modSweep i f).conv = s.conv := by
  simp only [State.modSweep, State.raiseIf]; split <;> rfl
@[simp] theorem State.modSweep_chg (i : Fin 4) (f : StippleSweep → StippleSweep) : (s.modSweep i f).chg = s.chg := by
  simp only [State.modSweep, State.raiseIf]; split <;> rfl
@[simp] theorem State.modSweep_bus (i : Fin 4) (f : StippleSweep → StippleSweep) : (s.modSweep i f).bus = s.bus := by
  simp only [State.modSweep, State.raiseIf]; split <;> rfl
@[simp] theorem State.modSweep_meas (i : Fin 4) (f : StippleSweep → StippleSweep) : (s.modSweep i f).meas = s.meas := by
  simp only [State.modSweep, State.raiseIf]; split <;> rfl
@[simp] theorem State.modSweep_power (i : Fin 4) (f : StippleSweep → StippleSweep) : (s.modSweep i f).power = s.power := by
  simp only [State.modSweep, State.raiseIf]; split <;> rfl
@[simp] theorem State.modSweep_clock (i : Fin 4) (f : StippleSweep → StippleSweep) : (s.modSweep i f).clock = s.clock := by
  simp only [State.modSweep, State.raiseIf]; split <;> rfl
@[simp] theorem State.modSweep_link (i : Fin 4) (f : StippleSweep → StippleSweep) : (s.modSweep i f).link = s.link := by
  simp only [State.modSweep, State.raiseIf]; split <;> rfl
@[simp] theorem State.modSweep_port (i : Fin 4) (f : StippleSweep → StippleSweep) : (s.modSweep i f).port = s.port := by
  simp only [State.modSweep, State.raiseIf]; split <;> rfl
@[simp] theorem State.modSweep_nv (i : Fin 4) (f : StippleSweep → StippleSweep) : (s.modSweep i f).nv = s.nv := by
  simp only [State.modSweep, State.raiseIf]; split <;> rfl
@[simp] theorem State.modSweep_pending (i : Fin 4) (f : StippleSweep → StippleSweep) : (s.modSweep i f).pending = s.pending := by
  simp only [State.modSweep, State.raiseIf]; split <;> rfl

@[simp] theorem State.modIrq_clk (f : IrqState → IrqState) : (s.modIrq f).clk = s.clk := rfl
@[simp] theorem State.modIrq_freeCtr (f : IrqState → IrqState) : (s.modIrq f).freeCtr = s.freeCtr := rfl
@[simp] theorem State.modIrq_host (f : IrqState → IrqState) : (s.modIrq f).host = s.host := rfl
@[simp] theorem State.modIrq_conv (f : IrqState → IrqState) : (s.modIrq f).conv = s.conv := rfl
@[simp] theorem State.modIrq_chg (f : IrqState → IrqState) : (s.modIrq f).chg = s.chg := rfl
@[simp] theorem State.modIrq_bus (f : IrqState → IrqState) : (s.modIrq f).bus = s.bus := rfl
@[simp] theorem State.modIrq_meas (f : IrqState → IrqState) : (s.modIrq f).meas = s.meas := rfl
@[simp] theorem State.modIrq_stack (f : IrqState → IrqState) : (s.modIrq f).stack = s.stack := rfl
@[simp] theorem State.modIrq_power (f : IrqState → IrqState) : (s.modIrq f).power = s.power := rfl
@[simp] theorem State.modIrq_clock (f : IrqState → IrqState) : (s.modIrq f).clock = s.clock := rfl
@[simp] theorem State.modIrq_link (f : IrqState → IrqState) : (s.modIrq f).link = s.link := rfl
@[simp] theorem State.modIrq_port (f : IrqState → IrqState) : (s.modIrq f).port = s.port := rfl
@[simp] theorem State.modIrq_nv (f : IrqState → IrqState) : (s.modIrq f).nv = s.nv := rfl
@[simp] theorem State.modIrq_pending (f : IrqState → IrqState) : (s.modIrq f).pending = s.pending := rfl
@[simp] theorem State.modIrq_sys_irq (f : IrqState → IrqState) : (s.modIrq f).sys.irq = f s.sys.irq := rfl
@[simp] theorem State.modIrq_sys_mem (f : IrqState → IrqState) : (s.modIrq f).sys.mem = s.sys.mem := rfl
@[simp] theorem State.modIrq_sys_wd (f : IrqState → IrqState) : (s.modIrq f).sys.wd = s.sys.wd := rfl
@[simp] theorem State.modIrq_sys_ring (f : IrqState → IrqState) : (s.modIrq f).sys.ring = s.sys.ring := rfl
@[simp] theorem State.modIrq_sys_hawk (f : IrqState → IrqState) : (s.modIrq f).sys.hawk = s.sys.hawk := rfl

@[simp] theorem State.modMem_clk (f : MemState → MemState) : (s.modMem f).clk = s.clk := rfl
@[simp] theorem State.modMem_freeCtr (f : MemState → MemState) : (s.modMem f).freeCtr = s.freeCtr := rfl
@[simp] theorem State.modMem_host (f : MemState → MemState) : (s.modMem f).host = s.host := rfl
@[simp] theorem State.modMem_conv (f : MemState → MemState) : (s.modMem f).conv = s.conv := rfl
@[simp] theorem State.modMem_chg (f : MemState → MemState) : (s.modMem f).chg = s.chg := rfl
@[simp] theorem State.modMem_bus (f : MemState → MemState) : (s.modMem f).bus = s.bus := rfl
@[simp] theorem State.modMem_meas (f : MemState → MemState) : (s.modMem f).meas = s.meas := rfl
@[simp] theorem State.modMem_stack (f : MemState → MemState) : (s.modMem f).stack = s.stack := rfl
@[simp] theorem State.modMem_power (f : MemState → MemState) : (s.modMem f).power = s.power := rfl
@[simp] theorem State.modMem_clock (f : MemState → MemState) : (s.modMem f).clock = s.clock := rfl
@[simp] theorem State.modMem_link (f : MemState → MemState) : (s.modMem f).link = s.link := rfl
@[simp] theorem State.modMem_port (f : MemState → MemState) : (s.modMem f).port = s.port := rfl
@[simp] theorem State.modMem_nv (f : MemState → MemState) : (s.modMem f).nv = s.nv := rfl
@[simp] theorem State.modMem_pending (f : MemState → MemState) : (s.modMem f).pending = s.pending := rfl
@[simp] theorem State.modMem_sys_mem (f : MemState → MemState) : (s.modMem f).sys.mem = f s.sys.mem := rfl
@[simp] theorem State.modMem_sys_irq (f : MemState → MemState) : (s.modMem f).sys.irq = s.sys.irq := rfl
@[simp] theorem State.modMem_sys_wd (f : MemState → MemState) : (s.modMem f).sys.wd = s.sys.wd := rfl
@[simp] theorem State.modMem_sys_ring (f : MemState → MemState) : (s.modMem f).sys.ring = s.sys.ring := rfl
@[simp] theorem State.modMem_sys_hawk (f : MemState → MemState) : (s.modMem f).sys.hawk = s.sys.hawk := rfl

@[simp] theorem State.modWd_clk (f : Watchdog → Watchdog) : (s.modWd f).clk = s.clk := rfl
@[simp] theorem State.modWd_freeCtr (f : Watchdog → Watchdog) : (s.modWd f).freeCtr = s.freeCtr := rfl
@[simp] theorem State.modWd_host (f : Watchdog → Watchdog) : (s.modWd f).host = s.host := rfl
@[simp] theorem State.modWd_conv (f : Watchdog → Watchdog) : (s.modWd f).conv = s.conv := rfl
@[simp] theorem State.modWd_chg (f : Watchdog → Watchdog) : (s.modWd f).chg = s.chg := rfl
@[simp] theorem State.modWd_bus (f : Watchdog → Watchdog) : (s.modWd f).bus = s.bus := rfl
@[simp] theorem State.modWd_meas (f : Watchdog → Watchdog) : (s.modWd f).meas = s.meas := rfl
@[simp] theorem State.modWd_stack (f : Watchdog → Watchdog) : (s.modWd f).stack = s.stack := rfl
@[simp] theorem State.modWd_power (f : Watchdog → Watchdog) : (s.modWd f).power = s.power := rfl
@[simp] theorem State.modWd_clock (f : Watchdog → Watchdog) : (s.modWd f).clock = s.clock := rfl
@[simp] theorem State.modWd_link (f : Watchdog → Watchdog) : (s.modWd f).link = s.link := rfl
@[simp] theorem State.modWd_port (f : Watchdog → Watchdog) : (s.modWd f).port = s.port := rfl
@[simp] theorem State.modWd_nv (f : Watchdog → Watchdog) : (s.modWd f).nv = s.nv := rfl
@[simp] theorem State.modWd_pending (f : Watchdog → Watchdog) : (s.modWd f).pending = s.pending := rfl
@[simp] theorem State.modWd_sys_wd (f : Watchdog → Watchdog) : (s.modWd f).sys.wd = f s.sys.wd := rfl
@[simp] theorem State.modWd_sys_irq (f : Watchdog → Watchdog) : (s.modWd f).sys.irq = s.sys.irq := rfl
@[simp] theorem State.modWd_sys_mem (f : Watchdog → Watchdog) : (s.modWd f).sys.mem = s.sys.mem := rfl
@[simp] theorem State.modWd_sys_ring (f : Watchdog → Watchdog) : (s.modWd f).sys.ring = s.sys.ring := rfl
@[simp] theorem State.modWd_sys_hawk (f : Watchdog → Watchdog) : (s.modWd f).sys.hawk = s.sys.hawk := rfl

@[simp] theorem State.modDma_clk (i : Fin 32) (f : DmaChannel → DmaChannel) : (s.modDma i f).clk = s.clk := rfl
@[simp] theorem State.modDma_freeCtr (i : Fin 32) (f : DmaChannel → DmaChannel) : (s.modDma i f).freeCtr = s.freeCtr := rfl
@[simp] theorem State.modDma_host (i : Fin 32) (f : DmaChannel → DmaChannel) : (s.modDma i f).host = s.host := rfl
@[simp] theorem State.modDma_conv (i : Fin 32) (f : DmaChannel → DmaChannel) : (s.modDma i f).conv = s.conv := rfl
@[simp] theorem State.modDma_chg (i : Fin 32) (f : DmaChannel → DmaChannel) : (s.modDma i f).chg = s.chg := rfl
@[simp] theorem State.modDma_bus (i : Fin 32) (f : DmaChannel → DmaChannel) : (s.modDma i f).bus = s.bus := rfl
@[simp] theorem State.modDma_meas (i : Fin 32) (f : DmaChannel → DmaChannel) : (s.modDma i f).meas = s.meas := rfl
@[simp] theorem State.modDma_stack (i : Fin 32) (f : DmaChannel → DmaChannel) : (s.modDma i f).stack = s.stack := rfl
@[simp] theorem State.modDma_power (i : Fin 32) (f : DmaChannel → DmaChannel) : (s.modDma i f).power = s.power := rfl
@[simp] theorem State.modDma_clock (i : Fin 32) (f : DmaChannel → DmaChannel) : (s.modDma i f).clock = s.clock := rfl
@[simp] theorem State.modDma_link (i : Fin 32) (f : DmaChannel → DmaChannel) : (s.modDma i f).link = s.link := rfl
@[simp] theorem State.modDma_port (i : Fin 32) (f : DmaChannel → DmaChannel) : (s.modDma i f).port = s.port := rfl
@[simp] theorem State.modDma_nv (i : Fin 32) (f : DmaChannel → DmaChannel) : (s.modDma i f).nv = s.nv := rfl
@[simp] theorem State.modDma_pending (i : Fin 32) (f : DmaChannel → DmaChannel) : (s.modDma i f).pending = s.pending := rfl

@[simp] theorem State.modRing_clk (i : Nat) (f : Ring → Ring) : (s.modRing i f).clk = s.clk := rfl
@[simp] theorem State.modRing_freeCtr (i : Nat) (f : Ring → Ring) : (s.modRing i f).freeCtr = s.freeCtr := rfl
@[simp] theorem State.modRing_host (i : Nat) (f : Ring → Ring) : (s.modRing i f).host = s.host := rfl
@[simp] theorem State.modRing_conv (i : Nat) (f : Ring → Ring) : (s.modRing i f).conv = s.conv := rfl
@[simp] theorem State.modRing_chg (i : Nat) (f : Ring → Ring) : (s.modRing i f).chg = s.chg := rfl
@[simp] theorem State.modRing_bus (i : Nat) (f : Ring → Ring) : (s.modRing i f).bus = s.bus := rfl
@[simp] theorem State.modRing_meas (i : Nat) (f : Ring → Ring) : (s.modRing i f).meas = s.meas := rfl
@[simp] theorem State.modRing_stack (i : Nat) (f : Ring → Ring) : (s.modRing i f).stack = s.stack := rfl
@[simp] theorem State.modRing_power (i : Nat) (f : Ring → Ring) : (s.modRing i f).power = s.power := rfl
@[simp] theorem State.modRing_clock (i : Nat) (f : Ring → Ring) : (s.modRing i f).clock = s.clock := rfl
@[simp] theorem State.modRing_link (i : Nat) (f : Ring → Ring) : (s.modRing i f).link = s.link := rfl
@[simp] theorem State.modRing_port (i : Nat) (f : Ring → Ring) : (s.modRing i f).port = s.port := rfl
@[simp] theorem State.modRing_nv (i : Nat) (f : Ring → Ring) : (s.modRing i f).nv = s.nv := rfl
@[simp] theorem State.modRing_pending (i : Nat) (f : Ring → Ring) : (s.modRing i f).pending = s.pending := rfl

@[simp] theorem State.modEth_clk (i : Fin 2) (f : EthPort → EthPort) : (s.modEth i f).clk = s.clk := rfl
@[simp] theorem State.modEth_freeCtr (i : Fin 2) (f : EthPort → EthPort) : (s.modEth i f).freeCtr = s.freeCtr := rfl
@[simp] theorem State.modEth_host (i : Fin 2) (f : EthPort → EthPort) : (s.modEth i f).host = s.host := rfl
@[simp] theorem State.modEth_conv (i : Fin 2) (f : EthPort → EthPort) : (s.modEth i f).conv = s.conv := rfl
@[simp] theorem State.modEth_chg (i : Fin 2) (f : EthPort → EthPort) : (s.modEth i f).chg = s.chg := rfl
@[simp] theorem State.modEth_bus (i : Fin 2) (f : EthPort → EthPort) : (s.modEth i f).bus = s.bus := rfl
@[simp] theorem State.modEth_meas (i : Fin 2) (f : EthPort → EthPort) : (s.modEth i f).meas = s.meas := rfl
@[simp] theorem State.modEth_stack (i : Fin 2) (f : EthPort → EthPort) : (s.modEth i f).stack = s.stack := rfl
@[simp] theorem State.modEth_power (i : Fin 2) (f : EthPort → EthPort) : (s.modEth i f).power = s.power := rfl
@[simp] theorem State.modEth_clock (i : Fin 2) (f : EthPort → EthPort) : (s.modEth i f).clock = s.clock := rfl
@[simp] theorem State.modEth_sys (i : Fin 2) (f : EthPort → EthPort) : (s.modEth i f).sys = s.sys := rfl
@[simp] theorem State.modEth_port (i : Fin 2) (f : EthPort → EthPort) : (s.modEth i f).port = s.port := rfl
@[simp] theorem State.modEth_nv (i : Fin 2) (f : EthPort → EthPort) : (s.modEth i f).nv = s.nv := rfl
@[simp] theorem State.modEth_pending (i : Fin 2) (f : EthPort → EthPort) : (s.modEth i f).pending = s.pending := rfl

@[simp] theorem State.modTw_clk (f : TwoWire → TwoWire) : (s.modTw f).clk = s.clk := rfl
@[simp] theorem State.modTw_freeCtr (f : TwoWire → TwoWire) : (s.modTw f).freeCtr = s.freeCtr := rfl
@[simp] theorem State.modTw_host (f : TwoWire → TwoWire) : (s.modTw f).host = s.host := rfl
@[simp] theorem State.modTw_conv (f : TwoWire → TwoWire) : (s.modTw f).conv = s.conv := rfl
@[simp] theorem State.modTw_chg (f : TwoWire → TwoWire) : (s.modTw f).chg = s.chg := rfl
@[simp] theorem State.modTw_bus (f : TwoWire → TwoWire) : (s.modTw f).bus = s.bus := rfl
@[simp] theorem State.modTw_meas (f : TwoWire → TwoWire) : (s.modTw f).meas = s.meas := rfl
@[simp] theorem State.modTw_stack (f : TwoWire → TwoWire) : (s.modTw f).stack = s.stack := rfl
@[simp] theorem State.modTw_power (f : TwoWire → TwoWire) : (s.modTw f).power = s.power := rfl
@[simp] theorem State.modTw_clock (f : TwoWire → TwoWire) : (s.modTw f).clock = s.clock := rfl
@[simp] theorem State.modTw_sys (f : TwoWire → TwoWire) : (s.modTw f).sys = s.sys := rfl
@[simp] theorem State.modTw_port (f : TwoWire → TwoWire) : (s.modTw f).port = s.port := rfl
@[simp] theorem State.modTw_nv (f : TwoWire → TwoWire) : (s.modTw f).nv = s.nv := rfl
@[simp] theorem State.modTw_pending (f : TwoWire → TwoWire) : (s.modTw f).pending = s.pending := rfl
@[simp] theorem State.modTw_link_tw (f : TwoWire → TwoWire) : (s.modTw f).link.tw = f s.link.tw := rfl
@[simp] theorem State.modTw_link_eth (f : TwoWire → TwoWire) : (s.modTw f).link.eth = s.link.eth := rfl
@[simp] theorem State.modTw_link_out (f : TwoWire → TwoWire) : (s.modTw f).link.out = s.link.out := rfl
@[simp] theorem State.modTw_link_streams (f : TwoWire → TwoWire) : (s.modTw f).link.streams = s.link.streams := rfl
@[simp] theorem State.modTw_link_frames (f : TwoWire → TwoWire) : (s.modTw f).link.frames = s.link.frames := rfl
@[simp] theorem State.modTw_link_arp (f : TwoWire → TwoWire) : (s.modTw f).link.arp = s.link.arp := rfl

@[simp] theorem State.modStream_clk (i : Fin 32) (f : Stream → Stream) : (s.modStream i f).clk = s.clk := rfl
@[simp] theorem State.modStream_freeCtr (i : Fin 32) (f : Stream → Stream) : (s.modStream i f).freeCtr = s.freeCtr := rfl
@[simp] theorem State.modStream_host (i : Fin 32) (f : Stream → Stream) : (s.modStream i f).host = s.host := rfl
@[simp] theorem State.modStream_conv (i : Fin 32) (f : Stream → Stream) : (s.modStream i f).conv = s.conv := rfl
@[simp] theorem State.modStream_chg (i : Fin 32) (f : Stream → Stream) : (s.modStream i f).chg = s.chg := rfl
@[simp] theorem State.modStream_bus (i : Fin 32) (f : Stream → Stream) : (s.modStream i f).bus = s.bus := rfl
@[simp] theorem State.modStream_meas (i : Fin 32) (f : Stream → Stream) : (s.modStream i f).meas = s.meas := rfl
@[simp] theorem State.modStream_stack (i : Fin 32) (f : Stream → Stream) : (s.modStream i f).stack = s.stack := rfl
@[simp] theorem State.modStream_power (i : Fin 32) (f : Stream → Stream) : (s.modStream i f).power = s.power := rfl
@[simp] theorem State.modStream_clock (i : Fin 32) (f : Stream → Stream) : (s.modStream i f).clock = s.clock := rfl
@[simp] theorem State.modStream_sys (i : Fin 32) (f : Stream → Stream) : (s.modStream i f).sys = s.sys := rfl
@[simp] theorem State.modStream_port (i : Fin 32) (f : Stream → Stream) : (s.modStream i f).port = s.port := rfl
@[simp] theorem State.modStream_nv (i : Fin 32) (f : Stream → Stream) : (s.modStream i f).nv = s.nv := rfl
@[simp] theorem State.modStream_pending (i : Fin 32) (f : Stream → Stream) : (s.modStream i f).pending = s.pending := rfl

@[simp] theorem State.modNvm_clk (f : NvmState → NvmState) : (s.modNvm f).clk = s.clk := rfl
@[simp] theorem State.modNvm_freeCtr (f : NvmState → NvmState) : (s.modNvm f).freeCtr = s.freeCtr := rfl
@[simp] theorem State.modNvm_host (f : NvmState → NvmState) : (s.modNvm f).host = s.host := rfl
@[simp] theorem State.modNvm_conv (f : NvmState → NvmState) : (s.modNvm f).conv = s.conv := rfl
@[simp] theorem State.modNvm_chg (f : NvmState → NvmState) : (s.modNvm f).chg = s.chg := rfl
@[simp] theorem State.modNvm_bus (f : NvmState → NvmState) : (s.modNvm f).bus = s.bus := rfl
@[simp] theorem State.modNvm_meas (f : NvmState → NvmState) : (s.modNvm f).meas = s.meas := rfl
@[simp] theorem State.modNvm_stack (f : NvmState → NvmState) : (s.modNvm f).stack = s.stack := rfl
@[simp] theorem State.modNvm_power (f : NvmState → NvmState) : (s.modNvm f).power = s.power := rfl
@[simp] theorem State.modNvm_clock (f : NvmState → NvmState) : (s.modNvm f).clock = s.clock := rfl
@[simp] theorem State.modNvm_sys (f : NvmState → NvmState) : (s.modNvm f).sys = s.sys := rfl
@[simp] theorem State.modNvm_link (f : NvmState → NvmState) : (s.modNvm f).link = s.link := rfl
@[simp] theorem State.modNvm_port (f : NvmState → NvmState) : (s.modNvm f).port = s.port := rfl
@[simp] theorem State.modNvm_pending (f : NvmState → NvmState) : (s.modNvm f).pending = s.pending := rfl
@[simp] theorem State.modNvm_nv_nvm (f : NvmState → NvmState) : (s.modNvm f).nv.nvm = f s.nv.nvm := rfl
@[simp] theorem State.modNvm_nv_fw (f : NvmState → NvmState) : (s.modNvm f).nv.fw = s.nv.fw := rfl
@[simp] theorem State.modNvm_nv_sec (f : NvmState → NvmState) : (s.modNvm f).nv.sec = s.nv.sec := rfl

@[simp] theorem State.modFw_clk (f : FwState → FwState) : (s.modFw f).clk = s.clk := rfl
@[simp] theorem State.modFw_freeCtr (f : FwState → FwState) : (s.modFw f).freeCtr = s.freeCtr := rfl
@[simp] theorem State.modFw_host (f : FwState → FwState) : (s.modFw f).host = s.host := rfl
@[simp] theorem State.modFw_conv (f : FwState → FwState) : (s.modFw f).conv = s.conv := rfl
@[simp] theorem State.modFw_chg (f : FwState → FwState) : (s.modFw f).chg = s.chg := rfl
@[simp] theorem State.modFw_bus (f : FwState → FwState) : (s.modFw f).bus = s.bus := rfl
@[simp] theorem State.modFw_meas (f : FwState → FwState) : (s.modFw f).meas = s.meas := rfl
@[simp] theorem State.modFw_stack (f : FwState → FwState) : (s.modFw f).stack = s.stack := rfl
@[simp] theorem State.modFw_power (f : FwState → FwState) : (s.modFw f).power = s.power := rfl
@[simp] theorem State.modFw_clock (f : FwState → FwState) : (s.modFw f).clock = s.clock := rfl
@[simp] theorem State.modFw_sys (f : FwState → FwState) : (s.modFw f).sys = s.sys := rfl
@[simp] theorem State.modFw_link (f : FwState → FwState) : (s.modFw f).link = s.link := rfl
@[simp] theorem State.modFw_port (f : FwState → FwState) : (s.modFw f).port = s.port := rfl
@[simp] theorem State.modFw_pending (f : FwState → FwState) : (s.modFw f).pending = s.pending := rfl
@[simp] theorem State.modFw_nv_fw (f : FwState → FwState) : (s.modFw f).nv.fw = f s.nv.fw := rfl
@[simp] theorem State.modFw_nv_nvm (f : FwState → FwState) : (s.modFw f).nv.nvm = s.nv.nvm := rfl
@[simp] theorem State.modFw_nv_sec (f : FwState → FwState) : (s.modFw f).nv.sec = s.nv.sec := rfl

@[simp] theorem State.modSec_clk (f : SecState → SecState) : (s.modSec f).clk = s.clk := rfl
@[simp] theorem State.modSec_freeCtr (f : SecState → SecState) : (s.modSec f).freeCtr = s.freeCtr := rfl
@[simp] theorem State.modSec_host (f : SecState → SecState) : (s.modSec f).host = s.host := rfl
@[simp] theorem State.modSec_conv (f : SecState → SecState) : (s.modSec f).conv = s.conv := rfl
@[simp] theorem State.modSec_chg (f : SecState → SecState) : (s.modSec f).chg = s.chg := rfl
@[simp] theorem State.modSec_bus (f : SecState → SecState) : (s.modSec f).bus = s.bus := rfl
@[simp] theorem State.modSec_meas (f : SecState → SecState) : (s.modSec f).meas = s.meas := rfl
@[simp] theorem State.modSec_stack (f : SecState → SecState) : (s.modSec f).stack = s.stack := rfl
@[simp] theorem State.modSec_power (f : SecState → SecState) : (s.modSec f).power = s.power := rfl
@[simp] theorem State.modSec_clock (f : SecState → SecState) : (s.modSec f).clock = s.clock := rfl
@[simp] theorem State.modSec_sys (f : SecState → SecState) : (s.modSec f).sys = s.sys := rfl
@[simp] theorem State.modSec_link (f : SecState → SecState) : (s.modSec f).link = s.link := rfl
@[simp] theorem State.modSec_port (f : SecState → SecState) : (s.modSec f).port = s.port := rfl
@[simp] theorem State.modSec_pending (f : SecState → SecState) : (s.modSec f).pending = s.pending := rfl
@[simp] theorem State.modSec_nv_sec (f : SecState → SecState) : (s.modSec f).nv.sec = f s.nv.sec := rfl
@[simp] theorem State.modSec_nv_nvm (f : SecState → SecState) : (s.modSec f).nv.nvm = s.nv.nvm := rfl
@[simp] theorem State.modSec_nv_fw (f : SecState → SecState) : (s.modSec f).nv.fw = s.nv.fw := rfl

@[simp] theorem State.atLeast_clk (t : Nanos) : (s.atLeast t).clk = max s.clk t := rfl
@[simp] theorem State.atLeast_freeCtr (t : Nanos) : (s.atLeast t).freeCtr = s.freeCtr := rfl
@[simp] theorem State.atLeast_host (t : Nanos) : (s.atLeast t).host = s.host := rfl
@[simp] theorem State.atLeast_conv (t : Nanos) : (s.atLeast t).conv = s.conv := rfl
@[simp] theorem State.atLeast_chg (t : Nanos) : (s.atLeast t).chg = s.chg := rfl
@[simp] theorem State.atLeast_bus (t : Nanos) : (s.atLeast t).bus = s.bus := rfl
@[simp] theorem State.atLeast_meas (t : Nanos) : (s.atLeast t).meas = s.meas := rfl
@[simp] theorem State.atLeast_stack (t : Nanos) : (s.atLeast t).stack = s.stack := rfl
@[simp] theorem State.atLeast_power (t : Nanos) : (s.atLeast t).power = s.power := rfl
@[simp] theorem State.atLeast_clock (t : Nanos) : (s.atLeast t).clock = s.clock := rfl
@[simp] theorem State.atLeast_sys (t : Nanos) : (s.atLeast t).sys = s.sys := rfl
@[simp] theorem State.atLeast_link (t : Nanos) : (s.atLeast t).link = s.link := rfl
@[simp] theorem State.atLeast_port (t : Nanos) : (s.atLeast t).port = s.port := rfl
@[simp] theorem State.atLeast_nv (t : Nanos) : (s.atLeast t).nv = s.nv := rfl
@[simp] theorem State.atLeast_pending (t : Nanos) : (s.atLeast t).pending = s.pending := rfl

@[simp] theorem State.raise_clk (n : Nat) : (s.raise n).clk = s.clk := rfl
@[simp] theorem State.raise_freeCtr (n : Nat) : (s.raise n).freeCtr = s.freeCtr := rfl
@[simp] theorem State.raise_host (n : Nat) : (s.raise n).host = s.host := rfl
@[simp] theorem State.raise_conv (n : Nat) : (s.raise n).conv = s.conv := rfl
@[simp] theorem State.raise_chg (n : Nat) : (s.raise n).chg = s.chg := rfl
@[simp] theorem State.raise_bus (n : Nat) : (s.raise n).bus = s.bus := rfl
@[simp] theorem State.raise_meas (n : Nat) : (s.raise n).meas = s.meas := rfl
@[simp] theorem State.raise_stack (n : Nat) : (s.raise n).stack = s.stack := rfl
@[simp] theorem State.raise_power (n : Nat) : (s.raise n).power = s.power := rfl
@[simp] theorem State.raise_clock (n : Nat) : (s.raise n).clock = s.clock := rfl
@[simp] theorem State.raise_link (n : Nat) : (s.raise n).link = s.link := rfl
@[simp] theorem State.raise_port (n : Nat) : (s.raise n).port = s.port := rfl
@[simp] theorem State.raise_nv (n : Nat) : (s.raise n).nv = s.nv := rfl
@[simp] theorem State.raise_pending (n : Nat) : (s.raise n).pending = s.pending := rfl
@[simp] theorem State.raise_sys (n : Nat) : (s.raise n).sys = { s.sys with irq := s.sys.irq.modSrc n IrqSource.raise } := rfl

@[simp] theorem State.emit_clk (a : RingSource) (d : RingDest) (b : List Byte) : (s.emit a d b).clk = s.clk := by
  simp only [State.emit]; split <;> rfl
@[simp] theorem State.emit_freeCtr (a : RingSource) (d : RingDest) (b : List Byte) : (s.emit a d b).freeCtr = s.freeCtr := by
  simp only [State.emit]; split <;> rfl
@[simp] theorem State.emit_host (a : RingSource) (d : RingDest) (b : List Byte) : (s.emit a d b).host = s.host := by
  simp only [State.emit]; split <;> rfl
@[simp] theorem State.emit_conv (a : RingSource) (d : RingDest) (b : List Byte) : (s.emit a d b).conv = s.conv := by
  simp only [State.emit]; split <;> rfl
@[simp] theorem State.emit_chg (a : RingSource) (d : RingDest) (b : List Byte) : (s.emit a d b).chg = s.chg := by
  simp only [State.emit]; split <;> rfl
@[simp] theorem State.emit_bus (a : RingSource) (d : RingDest) (b : List Byte) : (s.emit a d b).bus = s.bus := by
  simp only [State.emit]; split <;> rfl
@[simp] theorem State.emit_meas (a : RingSource) (d : RingDest) (b : List Byte) : (s.emit a d b).meas = s.meas := by
  simp only [State.emit]; split <;> rfl
@[simp] theorem State.emit_stack (a : RingSource) (d : RingDest) (b : List Byte) : (s.emit a d b).stack = s.stack := by
  simp only [State.emit]; split <;> rfl
@[simp] theorem State.emit_power (a : RingSource) (d : RingDest) (b : List Byte) : (s.emit a d b).power = s.power := by
  simp only [State.emit]; split <;> rfl
@[simp] theorem State.emit_clock (a : RingSource) (d : RingDest) (b : List Byte) : (s.emit a d b).clock = s.clock := by
  simp only [State.emit]; split <;> rfl
@[simp] theorem State.emit_link (a : RingSource) (d : RingDest) (b : List Byte) : (s.emit a d b).link = s.link := by
  simp only [State.emit]; split <;> rfl
@[simp] theorem State.emit_port (a : RingSource) (d : RingDest) (b : List Byte) : (s.emit a d b).port = s.port := by
  simp only [State.emit]; split <;> rfl
@[simp] theorem State.emit_nv (a : RingSource) (d : RingDest) (b : List Byte) : (s.emit a d b).nv = s.nv := by
  simp only [State.emit]; split <;> rfl
@[simp] theorem State.emit_pending (a : RingSource) (d : RingDest) (b : List Byte) : (s.emit a d b).pending = s.pending := by
  simp only [State.emit]; split <;> rfl

@[simp] theorem State.drawn_clk : s.drawn.clk = s.clk := rfl
@[simp] theorem State.drawn_freeCtr : s.drawn.freeCtr = s.freeCtr + 1 := rfl
@[simp] theorem State.drawn_host : s.drawn.host = s.host := rfl
@[simp] theorem State.drawn_conv : s.drawn.conv = s.conv := rfl
@[simp] theorem State.drawn_chg : s.drawn.chg = s.chg := rfl
@[simp] theorem State.drawn_bus : s.drawn.bus = s.bus := rfl
@[simp] theorem State.drawn_meas : s.drawn.meas = s.meas := rfl
@[simp] theorem State.drawn_stack : s.drawn.stack = s.stack := rfl
@[simp] theorem State.drawn_power : s.drawn.power = s.power := rfl
@[simp] theorem State.drawn_clock : s.drawn.clock = s.clock := rfl
@[simp] theorem State.drawn_sys : s.drawn.sys = s.sys := rfl
@[simp] theorem State.drawn_link : s.drawn.link = s.link := rfl
@[simp] theorem State.drawn_port : s.drawn.port = s.port := rfl
@[simp] theorem State.drawn_nv : s.drawn.nv = s.nv := rfl
@[simp] theorem State.drawn_pending : s.drawn.pending = s.pending := rfl

@[simp] theorem State.modPhase_phase_self (i : Fin 64) (f : Phase → Phase) : (s.modPhase i f).phase i = f (s.phase i) := by
  simp [State.modPhase, State.phase, vmod]
theorem State.modPhase_phase_ne {i j : Fin 64} (h : i ≠ j) (f : Phase → Phase) : (s.modPhase i f).phase j = s.phase j := by
  have h : i.val ≠ j.val := fun e => h (Fin.ext e)
  simp [State.modPhase, State.phase, vmod, h]
@[simp] theorem State.modGroup_group_self (i : Fin 8) (f : Group → Group) : (s.modGroup i f).group i = f (s.group i) := by
  simp [State.modGroup, State.group, vmod]
theorem State.modGroup_group_ne {i j : Fin 8} (h : i ≠ j) (f : Group → Group) : (s.modGroup i f).group j = s.group j := by
  have h : i.val ≠ j.val := fun e => h (Fin.ext e)
  simp [State.modGroup, State.group, vmod, h]
@[simp] theorem State.modOwner_owner_self (i : Fin 16) (f : Owner → Owner) : (s.modOwner i f).owner i = f (s.owner i) := by
  simp [State.modOwner, State.owner, vmod]
theorem State.modOwner_owner_ne {i j : Fin 16} (h : i ≠ j) (f : Owner → Owner) : (s.modOwner i f).owner j = s.owner j := by
  have h : i.val ≠ j.val := fun e => h (Fin.ext e)
  simp [State.modOwner, State.owner, vmod, h]
@[simp] theorem State.modFeed_feed_self (i : Fin 2) (f : Feed → Feed) : (s.modFeed i f).feed i = f (s.feed i) := by
  simp [State.modFeed, State.feed, vmod]
theorem State.modFeed_feed_ne {i j : Fin 2} (h : i ≠ j) (f : Feed → Feed) : (s.modFeed i f).feed j = s.feed j := by
  have h : i.val ≠ j.val := fun e => h (Fin.ext e)
  simp [State.modFeed, State.feed, vmod, h]
@[simp] theorem State.modCont_cont_self (i : Fin 4) (f : Contactor → Contactor) : (s.modCont i f).cont i = f (s.cont i) := by
  simp [State.modCont, State.cont, vmod]
theorem State.modCont_cont_ne {i j : Fin 4} (h : i ≠ j) (f : Contactor → Contactor) : (s.modCont i f).cont j = s.cont j := by
  have h : i.val ≠ j.val := fun e => h (Fin.ext e)
  simp [State.modCont, State.cont, vmod, h]
@[simp] theorem State.modStrPort_strPort_self (i : Fin 4) (f : Port → Port) : (s.modStrPort i f).strPort i = f (s.strPort i) := by
  simp [State.modStrPort, State.strPort, vmod]
theorem State.modStrPort_strPort_ne {i j : Fin 4} (h : i ≠ j) (f : Port → Port) : (s.modStrPort i f).strPort j = s.strPort j := by
  have h : i.val ≠ j.val := fun e => h (Fin.ext e)
  simp [State.modStrPort, State.strPort, vmod, h]
@[simp] theorem State.modModule_module__self (i : Fin 64) (f : Module → Module) : (s.modModule i f).module_ i = f (s.module_ i) := by
  simp [State.modModule, State.module_, vmod]
theorem State.modModule_module__ne {i j : Fin 64} (h : i ≠ j) (f : Module → Module) : (s.modModule i f).module_ j = s.module_ j := by
  have h : i.val ≠ j.val := fun e => h (Fin.ext e)
  simp [State.modModule, State.module_, vmod, h]
@[simp] theorem State.modMest_mest_self (i : Fin 64) (f : ModuleEst → ModuleEst) : (s.modMest i f).mest i = f (s.mest i) := by
  simp [State.modMest, State.mest, vmod]
theorem State.modMest_mest_ne {i j : Fin 64} (h : i ≠ j) (f : ModuleEst → ModuleEst) : (s.modMest i f).mest j = s.mest j := by
  have h : i.val ≠ j.val := fun e => h (Fin.ext e)
  simp [State.modMest, State.mest, vmod, h]
@[simp] theorem State.modSest_sest_self (i : Fin 4) (f : StringEst → StringEst) : (s.modSest i f).sest i = f (s.sest i) := by
  simp [State.modSest, State.sest, vmod]
theorem State.modSest_sest_ne {i j : Fin 4} (h : i ≠ j) (f : StringEst → StringEst) : (s.modSest i f).sest j = s.sest j := by
  have h : i.val ≠ j.val := fun e => h (Fin.ext e)
  simp [State.modSest, State.sest, vmod, h]
@[simp] theorem State.modEth_eth_self (i : Fin 2) (f : EthPort → EthPort) : (s.modEth i f).eth i = f (s.eth i) := by
  simp [State.modEth, State.eth, vmod]
theorem State.modEth_eth_ne {i j : Fin 2} (h : i ≠ j) (f : EthPort → EthPort) : (s.modEth i f).eth j = s.eth j := by
  have h : i.val ≠ j.val := fun e => h (Fin.ext e)
  simp [State.modEth, State.eth, vmod, h]
@[simp] theorem State.modDma_dma_self (i : Fin 32) (f : DmaChannel → DmaChannel) : (s.modDma i f).dma i = f (s.dma i) := by
  simp [State.modDma, State.dma, vmod]
theorem State.modDma_dma_ne {i j : Fin 32} (h : i ≠ j) (f : DmaChannel → DmaChannel) : (s.modDma i f).dma j = s.dma j := by
  have h : i.val ≠ j.val := fun e => h (Fin.ext e)
  simp [State.modDma, State.dma, vmod, h]
@[simp] theorem State.modChainPort_chainPort_self (i : Fin 2) (f : ChainPort → ChainPort) : (s.modChainPort i f).chainPort i = f (s.chainPort i) := by
  simp [State.modChainPort, State.chainPort, vmod]
theorem State.modChainPort_chainPort_ne {i j : Fin 2} (h : i ≠ j) (f : ChainPort → ChainPort) : (s.modChainPort i f).chainPort j = s.chainPort j := by
  have h : i.val ≠ j.val := fun e => h (Fin.ext e)
  simp [State.modChainPort, State.chainPort, vmod, h]
/-! ### Records and events: the ring queue, the MRAM queue and the draw counter alone -/

@[simp] theorem State.store_clk (a k : Nat) (b : List Byte) : (s.store a k b).clk = s.clk := rfl
@[simp] theorem State.store_freeCtr (a k : Nat) (b : List Byte) : (s.store a k b).freeCtr = s.freeCtr := rfl
@[simp] theorem State.store_host (a k : Nat) (b : List Byte) : (s.store a k b).host = s.host := rfl
@[simp] theorem State.store_conv (a k : Nat) (b : List Byte) : (s.store a k b).conv = s.conv := rfl
@[simp] theorem State.store_chg (a k : Nat) (b : List Byte) : (s.store a k b).chg = s.chg := rfl
@[simp] theorem State.store_bus (a k : Nat) (b : List Byte) : (s.store a k b).bus = s.bus := rfl
@[simp] theorem State.store_meas (a k : Nat) (b : List Byte) : (s.store a k b).meas = s.meas := rfl
@[simp] theorem State.store_stack (a k : Nat) (b : List Byte) : (s.store a k b).stack = s.stack := rfl
@[simp] theorem State.store_power (a k : Nat) (b : List Byte) : (s.store a k b).power = s.power := rfl
@[simp] theorem State.store_clock (a k : Nat) (b : List Byte) : (s.store a k b).clock = s.clock := rfl
@[simp] theorem State.store_sys (a k : Nat) (b : List Byte) : (s.store a k b).sys = s.sys := rfl
@[simp] theorem State.store_link (a k : Nat) (b : List Byte) : (s.store a k b).link = s.link := rfl
@[simp] theorem State.store_port (a k : Nat) (b : List Byte) : (s.store a k b).port = s.port := rfl
@[simp] theorem State.store_pending (a k : Nat) (b : List Byte) : (s.store a k b).pending = s.pending := rfl
@[simp] theorem State.store_nv_fw (a k : Nat) (b : List Byte) : (s.store a k b).nv.fw = s.nv.fw := rfl
@[simp] theorem State.store_nv_sec (a k : Nat) (b : List Byte) : (s.store a k b).nv.sec = s.nv.sec := rfl

@[simp] theorem State.event_clk (a : RingSource) (d : RingDest) (c : Nat) (b : List Byte) : (s.event a d c b).clk = s.clk := by
  simp [State.event]
@[simp] theorem State.event_freeCtr (a : RingSource) (d : RingDest) (c : Nat) (b : List Byte) : (s.event a d c b).freeCtr = s.freeCtr := by
  simp [State.event]
@[simp] theorem State.event_host (a : RingSource) (d : RingDest) (c : Nat) (b : List Byte) : (s.event a d c b).host = s.host := by
  simp [State.event]
@[simp] theorem State.event_conv (a : RingSource) (d : RingDest) (c : Nat) (b : List Byte) : (s.event a d c b).conv = s.conv := by
  simp [State.event]
@[simp] theorem State.event_chg (a : RingSource) (d : RingDest) (c : Nat) (b : List Byte) : (s.event a d c b).chg = s.chg := by
  simp [State.event]
@[simp] theorem State.event_bus (a : RingSource) (d : RingDest) (c : Nat) (b : List Byte) : (s.event a d c b).bus = s.bus := by
  simp [State.event]
@[simp] theorem State.event_meas (a : RingSource) (d : RingDest) (c : Nat) (b : List Byte) : (s.event a d c b).meas = s.meas := by
  simp [State.event]
@[simp] theorem State.event_stack (a : RingSource) (d : RingDest) (c : Nat) (b : List Byte) : (s.event a d c b).stack = s.stack := by
  simp [State.event]
@[simp] theorem State.event_power (a : RingSource) (d : RingDest) (c : Nat) (b : List Byte) : (s.event a d c b).power = s.power := by
  simp [State.event]
@[simp] theorem State.event_clock (a : RingSource) (d : RingDest) (c : Nat) (b : List Byte) : (s.event a d c b).clock = s.clock := by
  simp [State.event]
@[simp] theorem State.event_link (a : RingSource) (d : RingDest) (c : Nat) (b : List Byte) : (s.event a d c b).link = s.link := by
  simp [State.event]
@[simp] theorem State.event_port (a : RingSource) (d : RingDest) (c : Nat) (b : List Byte) : (s.event a d c b).port = s.port := by
  simp [State.event]
@[simp] theorem State.event_pending (a : RingSource) (d : RingDest) (c : Nat) (b : List Byte) : (s.event a d c b).pending = s.pending := by
  simp [State.event]

@[simp] theorem State.openEvent_clk (a : RingSource) (d : RingDest) : (s.openEvent a d).clk = s.clk := by
  simp [State.openEvent]
@[simp] theorem State.openEvent_host (a : RingSource) (d : RingDest) : (s.openEvent a d).host = s.host := by
  simp [State.openEvent]
@[simp] theorem State.openEvent_conv (a : RingSource) (d : RingDest) : (s.openEvent a d).conv = s.conv := by
  simp [State.openEvent]
@[simp] theorem State.openEvent_chg (a : RingSource) (d : RingDest) : (s.openEvent a d).chg = s.chg := by
  simp [State.openEvent]
@[simp] theorem State.openEvent_bus (a : RingSource) (d : RingDest) : (s.openEvent a d).bus = s.bus := by
  simp [State.openEvent]
@[simp] theorem State.openEvent_meas (a : RingSource) (d : RingDest) : (s.openEvent a d).meas = s.meas := by
  simp [State.openEvent]
@[simp] theorem State.openEvent_stack (a : RingSource) (d : RingDest) : (s.openEvent a d).stack = s.stack := by
  simp [State.openEvent]
@[simp] theorem State.openEvent_power (a : RingSource) (d : RingDest) : (s.openEvent a d).power = s.power := by
  simp [State.openEvent]
@[simp] theorem State.openEvent_clock (a : RingSource) (d : RingDest) : (s.openEvent a d).clock = s.clock := by
  simp [State.openEvent]
@[simp] theorem State.openEvent_link (a : RingSource) (d : RingDest) : (s.openEvent a d).link = s.link := by
  simp [State.openEvent]
@[simp] theorem State.openEvent_port (a : RingSource) (d : RingDest) : (s.openEvent a d).port = s.port := by
  simp [State.openEvent]
@[simp] theorem State.openEvent_pending (a : RingSource) (d : RingDest) : (s.openEvent a d).pending = s.pending := by
  simp [State.openEvent]

@[simp] theorem State.audit_clk (o st op t q : Nat) (b : List Byte) : (s.audit o st op t q b).clk = s.clk := by
  simp [State.audit]
@[simp] theorem State.audit_freeCtr (o st op t q : Nat) (b : List Byte) : (s.audit o st op t q b).freeCtr = s.freeCtr := by
  simp [State.audit]
@[simp] theorem State.audit_host (o st op t q : Nat) (b : List Byte) : (s.audit o st op t q b).host = s.host := by
  simp [State.audit]
@[simp] theorem State.audit_conv (o st op t q : Nat) (b : List Byte) : (s.audit o st op t q b).conv = s.conv := by
  simp [State.audit]
@[simp] theorem State.audit_chg (o st op t q : Nat) (b : List Byte) : (s.audit o st op t q b).chg = s.chg := by
  simp [State.audit]
@[simp] theorem State.audit_bus (o st op t q : Nat) (b : List Byte) : (s.audit o st op t q b).bus = s.bus := by
  simp [State.audit]
@[simp] theorem State.audit_meas (o st op t q : Nat) (b : List Byte) : (s.audit o st op t q b).meas = s.meas := by
  simp [State.audit]
@[simp] theorem State.audit_stack (o st op t q : Nat) (b : List Byte) : (s.audit o st op t q b).stack = s.stack := by
  simp [State.audit]
@[simp] theorem State.audit_power (o st op t q : Nat) (b : List Byte) : (s.audit o st op t q b).power = s.power := by
  simp [State.audit]
@[simp] theorem State.audit_clock (o st op t q : Nat) (b : List Byte) : (s.audit o st op t q b).clock = s.clock := by
  simp [State.audit]
@[simp] theorem State.audit_link (o st op t q : Nat) (b : List Byte) : (s.audit o st op t q b).link = s.link := by
  simp [State.audit]
@[simp] theorem State.audit_port (o st op t q : Nat) (b : List Byte) : (s.audit o st op t q b).port = s.port := by
  simp [State.audit]
@[simp] theorem State.audit_pending (o st op t q : Nat) (b : List Byte) : (s.audit o st op t q b).pending = s.pending := by
  simp [State.audit]

/-! ### Parameters and time, which no update outside their own part changes -/

theorem State.param_host {s t : State} (h : t.host = s.host) (id : Nat) : t.param id = s.param id := by
  unfold State.param; rw [h]
theorem State.held_host {s t : State} (h : t.host = s.host) (id : Nat) : t.held id = s.held id := by
  unfold State.held; rw [h]
theorem State.groupOf_host {s t : State} (h : t.host = s.host) (p : Fin 64) : t.groupOf p = s.groupOf p := by
  unfold State.groupOf; rw [State.held_host h]

@[simp] theorem State.modConv_param (f : ConverterState → ConverterState) (id : Nat) : (s.modConv f).param id = s.param id := State.param_host (by simp) id
@[simp] theorem State.modConv_held (f : ConverterState → ConverterState) (id : Nat) : (s.modConv f).held id = s.held id := State.held_host (by simp) id
@[simp] theorem State.modConv_groupOf (f : ConverterState → ConverterState) (p : Fin 64) : (s.modConv f).groupOf p = s.groupOf p := State.groupOf_host (by simp) p
@[simp] theorem State.modChg_param (f : ChargeState → ChargeState) (id : Nat) : (s.modChg f).param id = s.param id := State.param_host (by simp) id
@[simp] theorem State.modChg_held (f : ChargeState → ChargeState) (id : Nat) : (s.modChg f).held id = s.held id := State.held_host (by simp) id
@[simp] theorem State.modChg_groupOf (f : ChargeState → ChargeState) (p : Fin 64) : (s.modChg f).groupOf p = s.groupOf p := State.groupOf_host (by simp) p
@[simp] theorem State.modBus_param (f : BusState → BusState) (id : Nat) : (s.modBus f).param id = s.param id := State.param_host (by simp) id
@[simp] theorem State.modBus_held (f : BusState → BusState) (id : Nat) : (s.modBus f).held id = s.held id := State.held_host (by simp) id
@[simp] theorem State.modBus_groupOf (f : BusState → BusState) (p : Fin 64) : (s.modBus f).groupOf p = s.groupOf p := State.groupOf_host (by simp) p
@[simp] theorem State.modMeas_param (f : MeasureState → MeasureState) (id : Nat) : (s.modMeas f).param id = s.param id := State.param_host (by simp) id
@[simp] theorem State.modMeas_held (f : MeasureState → MeasureState) (id : Nat) : (s.modMeas f).held id = s.held id := State.held_host (by simp) id
@[simp] theorem State.modMeas_groupOf (f : MeasureState → MeasureState) (p : Fin 64) : (s.modMeas f).groupOf p = s.groupOf p := State.groupOf_host (by simp) p
@[simp] theorem State.modPower_param (f : PowerState → PowerState) (id : Nat) : (s.modPower f).param id = s.param id := State.param_host (by simp) id
@[simp] theorem State.modPower_held (f : PowerState → PowerState) (id : Nat) : (s.modPower f).held id = s.held id := State.held_host (by simp) id
@[simp] theorem State.modPower_groupOf (f : PowerState → PowerState) (p : Fin 64) : (s.modPower f).groupOf p = s.groupOf p := State.groupOf_host (by simp) p
@[simp] theorem State.modSys_param (f : SystemState → SystemState) (id : Nat) : (s.modSys f).param id = s.param id := State.param_host (by simp) id
@[simp] theorem State.modSys_held (f : SystemState → SystemState) (id : Nat) : (s.modSys f).held id = s.held id := State.held_host (by simp) id
@[simp] theorem State.modSys_groupOf (f : SystemState → SystemState) (p : Fin 64) : (s.modSys f).groupOf p = s.groupOf p := State.groupOf_host (by simp) p
@[simp] theorem State.modLink_param (f : LinkState → LinkState) (id : Nat) : (s.modLink f).param id = s.param id := State.param_host (by simp) id
@[simp] theorem State.modLink_held (f : LinkState → LinkState) (id : Nat) : (s.modLink f).held id = s.held id := State.held_host (by simp) id
@[simp] theorem State.modLink_groupOf (f : LinkState → LinkState) (p : Fin 64) : (s.modLink f).groupOf p = s.groupOf p := State.groupOf_host (by simp) p
@[simp] theorem State.modSp_param (f : ServicePort → ServicePort) (id : Nat) : (s.modSp f).param id = s.param id := State.param_host (by simp) id
@[simp] theorem State.modSp_held (f : ServicePort → ServicePort) (id : Nat) : (s.modSp f).held id = s.held id := State.held_host (by simp) id
@[simp] theorem State.modSp_groupOf (f : ServicePort → ServicePort) (p : Fin 64) : (s.modSp f).groupOf p = s.groupOf p := State.groupOf_host (by simp) p
@[simp] theorem State.modNv_param (f : KeepState → KeepState) (id : Nat) : (s.modNv f).param id = s.param id := State.param_host (by simp) id
@[simp] theorem State.modNv_held (f : KeepState → KeepState) (id : Nat) : (s.modNv f).held id = s.held id := State.held_host (by simp) id
@[simp] theorem State.modNv_groupOf (f : KeepState → KeepState) (p : Fin 64) : (s.modNv f).groupOf p = s.groupOf p := State.groupOf_host (by simp) p
@[simp] theorem State.modChain_param (f : ChainState → ChainState) (id : Nat) : (s.modChain f).param id = s.param id := State.param_host (by simp) id
@[simp] theorem State.modChain_held (f : ChainState → ChainState) (id : Nat) : (s.modChain f).held id = s.held id := State.held_host (by simp) id
@[simp] theorem State.modChain_groupOf (f : ChainState → ChainState) (p : Fin 64) : (s.modChain f).groupOf p = s.groupOf p := State.groupOf_host (by simp) p
@[simp] theorem State.modEst_param (f : EstState → EstState) (id : Nat) : (s.modEst f).param id = s.param id := State.param_host (by simp) id
@[simp] theorem State.modEst_held (f : EstState → EstState) (id : Nat) : (s.modEst f).held id = s.held id := State.held_host (by simp) id
@[simp] theorem State.modEst_groupOf (f : EstState → EstState) (p : Fin 64) : (s.modEst f).groupOf p = s.groupOf p := State.groupOf_host (by simp) p
@[simp] theorem State.modStp_param (f : StippleState → StippleState) (id : Nat) : (s.modStp f).param id = s.param id := State.param_host (by simp) id
@[simp] theorem State.modStp_held (f : StippleState → StippleState) (id : Nat) : (s.modStp f).held id = s.held id := State.held_host (by simp) id
@[simp] theorem State.modStp_groupOf (f : StippleState → StippleState) (p : Fin 64) : (s.modStp f).groupOf p = s.groupOf p := State.groupOf_host (by simp) p
@[simp] theorem State.modSafety_param (f : Safety → Safety) (id : Nat) : (s.modSafety f).param id = s.param id := State.param_host (by simp) id
@[simp] theorem State.modSafety_held (f : Safety → Safety) (id : Nat) : (s.modSafety f).held id = s.held id := State.held_host (by simp) id
@[simp] theorem State.modSafety_groupOf (f : Safety → Safety) (p : Fin 64) : (s.modSafety f).groupOf p = s.groupOf p := State.groupOf_host (by simp) p
@[simp] theorem State.modSqr_param (f : Sequencer → Sequencer) (id : Nat) : (s.modSqr f).param id = s.param id := State.param_host (by simp) id
@[simp] theorem State.modSqr_held (f : Sequencer → Sequencer) (id : Nat) : (s.modSqr f).held id = s.held id := State.held_host (by simp) id
@[simp] theorem State.modSqr_groupOf (f : Sequencer → Sequencer) (p : Fin 64) : (s.modSqr f).groupOf p = s.groupOf p := State.groupOf_host (by simp) p
@[simp] theorem State.modSupply_param (f : Supplies → Supplies) (id : Nat) : (s.modSupply f).param id = s.param id := State.param_host (by simp) id
@[simp] theorem State.modSupply_held (f : Supplies → Supplies) (id : Nat) : (s.modSupply f).held id = s.held id := State.held_host (by simp) id
@[simp] theorem State.modSupply_groupOf (f : Supplies → Supplies) (p : Fin 64) : (s.modSupply f).groupOf p = s.groupOf p := State.groupOf_host (by simp) p
@[simp] theorem State.modTb_param (f : Timebase → Timebase) (id : Nat) : (s.modTb f).param id = s.param id := State.param_host (by simp) id
@[simp] theorem State.modTb_held (f : Timebase → Timebase) (id : Nat) : (s.modTb f).held id = s.held id := State.held_host (by simp) id
@[simp] theorem State.modTb_groupOf (f : Timebase → Timebase) (p : Fin 64) : (s.modTb f).groupOf p = s.groupOf p := State.groupOf_host (by simp) p
@[simp] theorem State.modTh_param (f : Thermal → Thermal) (id : Nat) : (s.modTh f).param id = s.param id := State.param_host (by simp) id
@[simp] theorem State.modTh_held (f : Thermal → Thermal) (id : Nat) : (s.modTh f).held id = s.held id := State.held_host (by simp) id
@[simp] theorem State.modTh_groupOf (f : Thermal → Thermal) (p : Fin 64) : (s.modTh f).groupOf p = s.groupOf p := State.groupOf_host (by simp) p
@[simp] theorem State.modPhase_param (i : Fin 64) (f : Phase → Phase) (id : Nat) : (s.modPhase i f).param id = s.param id := State.param_host (by simp) id
@[simp] theorem State.modPhase_held (i : Fin 64) (f : Phase → Phase) (id : Nat) : (s.modPhase i f).held id = s.held id := State.held_host (by simp) id
@[simp] theorem State.modPhase_groupOf (i : Fin 64) (f : Phase → Phase) (p : Fin 64) : (s.modPhase i f).groupOf p = s.groupOf p := State.groupOf_host (by simp) p
@[simp] theorem State.modGroup_param (i : Fin 8) (f : Group → Group) (id : Nat) : (s.modGroup i f).param id = s.param id := State.param_host (by simp) id
@[simp] theorem State.modGroup_held (i : Fin 8) (f : Group → Group) (id : Nat) : (s.modGroup i f).held id = s.held id := State.held_host (by simp) id
@[simp] theorem State.modGroup_groupOf (i : Fin 8) (f : Group → Group) (p : Fin 64) : (s.modGroup i f).groupOf p = s.groupOf p := State.groupOf_host (by simp) p
@[simp] theorem State.modPair_param (i : Fin 8) (f : PairGroup → PairGroup) (id : Nat) : (s.modPair i f).param id = s.param id := State.param_host (by simp) id
@[simp] theorem State.modPair_held (i : Fin 8) (f : PairGroup → PairGroup) (id : Nat) : (s.modPair i f).held id = s.held id := State.held_host (by simp) id
@[simp] theorem State.modPair_groupOf (i : Fin 8) (f : PairGroup → PairGroup) (p : Fin 64) : (s.modPair i f).groupOf p = s.groupOf p := State.groupOf_host (by simp) p
@[simp] theorem State.modPairLink_param (f : PairLink → PairLink) (id : Nat) : (s.modPairLink f).param id = s.param id := State.param_host (by simp) id
@[simp] theorem State.modPairLink_held (f : PairLink → PairLink) (id : Nat) : (s.modPairLink f).held id = s.held id := State.held_host (by simp) id
@[simp] theorem State.modPairLink_groupOf (f : PairLink → PairLink) (p : Fin 64) : (s.modPairLink f).groupOf p = s.groupOf p := State.groupOf_host (by simp) p
@[simp] theorem State.modFeed_param (i : Fin 2) (f : Feed → Feed) (id : Nat) : (s.modFeed i f).param id = s.param id := State.param_host (by simp) id
@[simp] theorem State.modFeed_held (i : Fin 2) (f : Feed → Feed) (id : Nat) : (s.modFeed i f).held id = s.held id := State.held_host (by simp) id
@[simp] theorem State.modFeed_groupOf (i : Fin 2) (f : Feed → Feed) (p : Fin 64) : (s.modFeed i f).groupOf p = s.groupOf p := State.groupOf_host (by simp) p
@[simp] theorem State.modCont_param (i : Fin 4) (f : Contactor → Contactor) (id : Nat) : (s.modCont i f).param id = s.param id := State.param_host (by simp) id
@[simp] theorem State.modCont_held (i : Fin 4) (f : Contactor → Contactor) (id : Nat) : (s.modCont i f).held id = s.held id := State.held_host (by simp) id
@[simp] theorem State.modCont_groupOf (i : Fin 4) (f : Contactor → Contactor) (p : Fin 64) : (s.modCont i f).groupOf p = s.groupOf p := State.groupOf_host (by simp) p
@[simp] theorem State.modStrPort_param (i : Fin 4) (f : Port → Port) (id : Nat) : (s.modStrPort i f).param id = s.param id := State.param_host (by simp) id
@[simp] theorem State.modStrPort_held (i : Fin 4) (f : Port → Port) (id : Nat) : (s.modStrPort i f).held id = s.held id := State.held_host (by simp) id
@[simp] theorem State.modStrPort_groupOf (i : Fin 4) (f : Port → Port) (p : Fin 64) : (s.modStrPort i f).groupOf p = s.groupOf p := State.groupOf_host (by simp) p
@[simp] theorem State.modLow_param (f : LowPower → LowPower) (id : Nat) : (s.modLow f).param id = s.param id := State.param_host (by simp) id
@[simp] theorem State.modLow_held (f : LowPower → LowPower) (id : Nat) : (s.modLow f).held id = s.held id := State.held_host (by simp) id
@[simp] theorem State.modLow_groupOf (f : LowPower → LowPower) (p : Fin 64) : (s.modLow f).groupOf p = s.groupOf p := State.groupOf_host (by simp) p
@[simp] theorem State.modSeq_param (i : Fin 16) (f : SeqState → SeqState) (id : Nat) : (s.modSeq i f).param id = s.param id := State.param_host (by simp) id
@[simp] theorem State.modSeq_held (i : Fin 16) (f : SeqState → SeqState) (id : Nat) : (s.modSeq i f).held id = s.held id := State.held_host (by simp) id
@[simp] theorem State.modSeq_groupOf (i : Fin 16) (f : SeqState → SeqState) (p : Fin 64) : (s.modSeq i f).groupOf p = s.groupOf p := State.groupOf_host (by simp) p
@[simp] theorem State.modCmp_param (i : Fin 12) (f : Comparator → Comparator) (id : Nat) : (s.modCmp i f).param id = s.param id := State.param_host (by simp) id
@[simp] theorem State.modCmp_held (i : Fin 12) (f : Comparator → Comparator) (id : Nat) : (s.modCmp i f).held id = s.held id := State.held_host (by simp) id
@[simp] theorem State.modCmp_groupOf (i : Fin 12) (f : Comparator → Comparator) (p : Fin 64) : (s.modCmp i f).groupOf p = s.groupOf p := State.groupOf_host (by simp) p
@[simp] theorem State.modChainPort_param (i : Fin 2) (f : ChainPort → ChainPort) (id : Nat) : (s.modChainPort i f).param id = s.param id := State.param_host (by simp) id
@[simp] theorem State.modChainPort_held (i : Fin 2) (f : ChainPort → ChainPort) (id : Nat) : (s.modChainPort i f).held id = s.held id := State.held_host (by simp) id
@[simp] theorem State.modChainPort_groupOf (i : Fin 2) (f : ChainPort → ChainPort) (p : Fin 64) : (s.modChainPort i f).groupOf p = s.groupOf p := State.groupOf_host (by simp) p
@[simp] theorem State.modModule_param (i : Fin 64) (f : Module → Module) (id : Nat) : (s.modModule i f).param id = s.param id := State.param_host (by simp) id
@[simp] theorem State.modModule_held (i : Fin 64) (f : Module → Module) (id : Nat) : (s.modModule i f).held id = s.held id := State.held_host (by simp) id
@[simp] theorem State.modModule_groupOf (i : Fin 64) (f : Module → Module) (p : Fin 64) : (s.modModule i f).groupOf p = s.groupOf p := State.groupOf_host (by simp) p
@[simp] theorem State.modMest_param (i : Fin 64) (f : ModuleEst → ModuleEst) (id : Nat) : (s.modMest i f).param id = s.param id := State.param_host (by simp) id
@[simp] theorem State.modMest_held (i : Fin 64) (f : ModuleEst → ModuleEst) (id : Nat) : (s.modMest i f).held id = s.held id := State.held_host (by simp) id
@[simp] theorem State.modMest_groupOf (i : Fin 64) (f : ModuleEst → ModuleEst) (p : Fin 64) : (s.modMest i f).groupOf p = s.groupOf p := State.groupOf_host (by simp) p
@[simp] theorem State.modSest_param (i : Fin 4) (f : StringEst → StringEst) (id : Nat) : (s.modSest i f).param id = s.param id := State.param_host (by simp) id
@[simp] theorem State.modSest_held (i : Fin 4) (f : StringEst → StringEst) (id : Nat) : (s.modSest i f).held id = s.held id := State.held_host (by simp) id
@[simp] theorem State.modSest_groupOf (i : Fin 4) (f : StringEst → StringEst) (p : Fin 64) : (s.modSest i f).groupOf p = s.groupOf p := State.groupOf_host (by simp) p
@[simp] theorem State.modSweep_param (i : Fin 4) (f : StippleSweep → StippleSweep) (id : Nat) : (s.modSweep i f).param id = s.param id := State.param_host (by simp) id
@[simp] theorem State.modSweep_held (i : Fin 4) (f : StippleSweep → StippleSweep) (id : Nat) : (s.modSweep i f).held id = s.held id := State.held_host (by simp) id
@[simp] theorem State.modSweep_groupOf (i : Fin 4) (f : StippleSweep → StippleSweep) (p : Fin 64) : (s.modSweep i f).groupOf p = s.groupOf p := State.groupOf_host (by simp) p
@[simp] theorem State.modIrq_param (f : IrqState → IrqState) (id : Nat) : (s.modIrq f).param id = s.param id := State.param_host (by simp) id
@[simp] theorem State.modIrq_held (f : IrqState → IrqState) (id : Nat) : (s.modIrq f).held id = s.held id := State.held_host (by simp) id
@[simp] theorem State.modIrq_groupOf (f : IrqState → IrqState) (p : Fin 64) : (s.modIrq f).groupOf p = s.groupOf p := State.groupOf_host (by simp) p
@[simp] theorem State.modMem_param (f : MemState → MemState) (id : Nat) : (s.modMem f).param id = s.param id := State.param_host (by simp) id
@[simp] theorem State.modMem_held (f : MemState → MemState) (id : Nat) : (s.modMem f).held id = s.held id := State.held_host (by simp) id
@[simp] theorem State.modMem_groupOf (f : MemState → MemState) (p : Fin 64) : (s.modMem f).groupOf p = s.groupOf p := State.groupOf_host (by simp) p
@[simp] theorem State.modWd_param (f : Watchdog → Watchdog) (id : Nat) : (s.modWd f).param id = s.param id := State.param_host (by simp) id
@[simp] theorem State.modWd_held (f : Watchdog → Watchdog) (id : Nat) : (s.modWd f).held id = s.held id := State.held_host (by simp) id
@[simp] theorem State.modWd_groupOf (f : Watchdog → Watchdog) (p : Fin 64) : (s.modWd f).groupOf p = s.groupOf p := State.groupOf_host (by simp) p
@[simp] theorem State.modDma_param (i : Fin 32) (f : DmaChannel → DmaChannel) (id : Nat) : (s.modDma i f).param id = s.param id := State.param_host (by simp) id
@[simp] theorem State.modDma_held (i : Fin 32) (f : DmaChannel → DmaChannel) (id : Nat) : (s.modDma i f).held id = s.held id := State.held_host (by simp) id
@[simp] theorem State.modDma_groupOf (i : Fin 32) (f : DmaChannel → DmaChannel) (p : Fin 64) : (s.modDma i f).groupOf p = s.groupOf p := State.groupOf_host (by simp) p
@[simp] theorem State.modRing_param (i : Nat) (f : Ring → Ring) (id : Nat) : (s.modRing i f).param id = s.param id := State.param_host (by simp) id
@[simp] theorem State.modRing_held (i : Nat) (f : Ring → Ring) (id : Nat) : (s.modRing i f).held id = s.held id := State.held_host (by simp) id
@[simp] theorem State.modRing_groupOf (i : Nat) (f : Ring → Ring) (p : Fin 64) : (s.modRing i f).groupOf p = s.groupOf p := State.groupOf_host (by simp) p
@[simp] theorem State.modEth_param (i : Fin 2) (f : EthPort → EthPort) (id : Nat) : (s.modEth i f).param id = s.param id := State.param_host (by simp) id
@[simp] theorem State.modEth_held (i : Fin 2) (f : EthPort → EthPort) (id : Nat) : (s.modEth i f).held id = s.held id := State.held_host (by simp) id
@[simp] theorem State.modEth_groupOf (i : Fin 2) (f : EthPort → EthPort) (p : Fin 64) : (s.modEth i f).groupOf p = s.groupOf p := State.groupOf_host (by simp) p
@[simp] theorem State.modTw_param (f : TwoWire → TwoWire) (id : Nat) : (s.modTw f).param id = s.param id := State.param_host (by simp) id
@[simp] theorem State.modTw_held (f : TwoWire → TwoWire) (id : Nat) : (s.modTw f).held id = s.held id := State.held_host (by simp) id
@[simp] theorem State.modTw_groupOf (f : TwoWire → TwoWire) (p : Fin 64) : (s.modTw f).groupOf p = s.groupOf p := State.groupOf_host (by simp) p
@[simp] theorem State.modStream_param (i : Fin 32) (f : Stream → Stream) (id : Nat) : (s.modStream i f).param id = s.param id := State.param_host (by simp) id
@[simp] theorem State.modStream_held (i : Fin 32) (f : Stream → Stream) (id : Nat) : (s.modStream i f).held id = s.held id := State.held_host (by simp) id
@[simp] theorem State.modStream_groupOf (i : Fin 32) (f : Stream → Stream) (p : Fin 64) : (s.modStream i f).groupOf p = s.groupOf p := State.groupOf_host (by simp) p
@[simp] theorem State.modNvm_param (f : NvmState → NvmState) (id : Nat) : (s.modNvm f).param id = s.param id := State.param_host (by simp) id
@[simp] theorem State.modNvm_held (f : NvmState → NvmState) (id : Nat) : (s.modNvm f).held id = s.held id := State.held_host (by simp) id
@[simp] theorem State.modNvm_groupOf (f : NvmState → NvmState) (p : Fin 64) : (s.modNvm f).groupOf p = s.groupOf p := State.groupOf_host (by simp) p
@[simp] theorem State.modFw_param (f : FwState → FwState) (id : Nat) : (s.modFw f).param id = s.param id := State.param_host (by simp) id
@[simp] theorem State.modFw_held (f : FwState → FwState) (id : Nat) : (s.modFw f).held id = s.held id := State.held_host (by simp) id
@[simp] theorem State.modFw_groupOf (f : FwState → FwState) (p : Fin 64) : (s.modFw f).groupOf p = s.groupOf p := State.groupOf_host (by simp) p
@[simp] theorem State.modSec_param (f : SecState → SecState) (id : Nat) : (s.modSec f).param id = s.param id := State.param_host (by simp) id
@[simp] theorem State.modSec_held (f : SecState → SecState) (id : Nat) : (s.modSec f).held id = s.held id := State.held_host (by simp) id
@[simp] theorem State.modSec_groupOf (f : SecState → SecState) (p : Fin 64) : (s.modSec f).groupOf p = s.groupOf p := State.groupOf_host (by simp) p
@[simp] theorem State.atLeast_param (x : Nanos) (id : Nat) : (s.atLeast x).param id = s.param id := State.param_host (by simp) id
@[simp] theorem State.atLeast_held (x : Nanos) (id : Nat) : (s.atLeast x).held id = s.held id := State.held_host (by simp) id
@[simp] theorem State.atLeast_groupOf (x : Nanos) (p : Fin 64) : (s.atLeast x).groupOf p = s.groupOf p := State.groupOf_host (by simp) p
@[simp] theorem State.raise_param (n : Nat) (id : Nat) : (s.raise n).param id = s.param id := State.param_host (by simp) id
@[simp] theorem State.raise_held (n : Nat) (id : Nat) : (s.raise n).held id = s.held id := State.held_host (by simp) id
@[simp] theorem State.raise_groupOf (n : Nat) (p : Fin 64) : (s.raise n).groupOf p = s.groupOf p := State.groupOf_host (by simp) p
@[simp] theorem State.drawn_param  (id : Nat) : (s.drawn ).param id = s.param id := State.param_host (by simp) id
@[simp] theorem State.drawn_held  (id : Nat) : (s.drawn ).held id = s.held id := State.held_host (by simp) id
@[simp] theorem State.drawn_groupOf  (p : Fin 64) : (s.drawn ).groupOf p = s.groupOf p := State.groupOf_host (by simp) p

end Sys2Proof.Machine
end

