-- ==== Sys2Proof/Laws/Answer.lean ====
section
/-! SUPPORT. What answering a command can do (02 R39 to R43): it sends a frame or a record, takes the command out of the record,
counts a failed tag, and leaves everything else. -/

namespace Sys2Proof.Machine

variable (s : State)

@[simp] theorem State.emit_sys_mem (a : RingSource) (d : RingDest) (b : List Byte) : (s.emit a d b).sys.mem = s.sys.mem := by
  simp only [State.emit]; split <;> rfl
@[simp] theorem State.event_sys_mem (a : RingSource) (d : RingDest) (c : Nat) (b : List Byte) : (s.event a d c b).sys.mem = s.sys.mem := by
  simp [State.event]
@[simp] theorem State.openEvent_sys_mem (a : RingSource) (d : RingDest) : (s.openEvent a d).sys.mem = s.sys.mem := by
  simp [State.openEvent]
@[simp] theorem State.audit_sys_mem (o st op t q : Nat) (b : List Byte) : (s.audit o st op t q b).sys.mem = s.sys.mem := by
  simp [State.audit]
@[simp] theorem State.emit_sys_irq (a : RingSource) (d : RingDest) (b : List Byte) : (s.emit a d b).sys.irq = s.sys.irq := by
  simp only [State.emit]; split <;> rfl
@[simp] theorem State.event_sys_irq (a : RingSource) (d : RingDest) (c : Nat) (b : List Byte) : (s.event a d c b).sys.irq = s.sys.irq := by
  simp [State.event]
@[simp] theorem State.openEvent_sys_irq (a : RingSource) (d : RingDest) : (s.openEvent a d).sys.irq = s.sys.irq := by
  simp [State.openEvent]
@[simp] theorem State.audit_sys_irq (o st op t q : Nat) (b : List Byte) : (s.audit o st op t q b).sys.irq = s.sys.irq := by
  simp [State.audit]
@[simp] theorem State.emit_sys_wd (a : RingSource) (d : RingDest) (b : List Byte) : (s.emit a d b).sys.wd = s.sys.wd := by
  simp only [State.emit]; split <;> rfl
@[simp] theorem State.event_sys_wd (a : RingSource) (d : RingDest) (c : Nat) (b : List Byte) : (s.event a d c b).sys.wd = s.sys.wd := by
  simp [State.event]
@[simp] theorem State.openEvent_sys_wd (a : RingSource) (d : RingDest) : (s.openEvent a d).sys.wd = s.sys.wd := by
  simp [State.openEvent]
@[simp] theorem State.audit_sys_wd (o st op t q : Nat) (b : List Byte) : (s.audit o st op t q b).sys.wd = s.sys.wd := by
  simp [State.audit]
@[simp] theorem State.emit_sys_hawk (a : RingSource) (d : RingDest) (b : List Byte) : (s.emit a d b).sys.hawk = s.sys.hawk := by
  simp only [State.emit]; split <;> rfl
@[simp] theorem State.event_sys_hawk (a : RingSource) (d : RingDest) (c : Nat) (b : List Byte) : (s.event a d c b).sys.hawk = s.sys.hawk := by
  simp [State.event]
@[simp] theorem State.openEvent_sys_hawk (a : RingSource) (d : RingDest) : (s.openEvent a d).sys.hawk = s.sys.hawk := by
  simp [State.openEvent]
@[simp] theorem State.audit_sys_hawk (o st op t q : Nat) (b : List Byte) : (s.audit o st op t q b).sys.hawk = s.sys.hawk := by
  simp [State.audit]
@[simp] theorem State.emit_sys_heldSince (a : RingSource) (d : RingDest) (b : List Byte) : (s.emit a d b).sys.heldSince = s.sys.heldSince := by
  simp only [State.emit]; split <;> rfl
@[simp] theorem State.event_sys_heldSince (a : RingSource) (d : RingDest) (c : Nat) (b : List Byte) : (s.event a d c b).sys.heldSince = s.sys.heldSince := by
  simp [State.event]
@[simp] theorem State.openEvent_sys_heldSince (a : RingSource) (d : RingDest) : (s.openEvent a d).sys.heldSince = s.sys.heldSince := by
  simp [State.openEvent]
@[simp] theorem State.audit_sys_heldSince (o st op t q : Nat) (b : List Byte) : (s.audit o st op t q b).sys.heldSince = s.sys.heldSince := by
  simp [State.audit]
@[simp] theorem State.emit_sys_dma (a : RingSource) (d : RingDest) (b : List Byte) : (s.emit a d b).sys.dma = s.sys.dma := by
  simp only [State.emit]; split <;> rfl
@[simp] theorem State.event_sys_dma (a : RingSource) (d : RingDest) (c : Nat) (b : List Byte) : (s.event a d c b).sys.dma = s.sys.dma := by
  simp [State.event]
@[simp] theorem State.openEvent_sys_dma (a : RingSource) (d : RingDest) : (s.openEvent a d).sys.dma = s.sys.dma := by
  simp [State.openEvent]
@[simp] theorem State.audit_sys_dma (o st op t q : Nat) (b : List Byte) : (s.audit o st op t q b).sys.dma = s.sys.dma := by
  simp [State.audit]
@[simp] theorem State.emit_sys_dmaEn (a : RingSource) (d : RingDest) (b : List Byte) : (s.emit a d b).sys.dmaEn = s.sys.dmaEn := by
  simp only [State.emit]; split <;> rfl
@[simp] theorem State.event_sys_dmaEn (a : RingSource) (d : RingDest) (c : Nat) (b : List Byte) : (s.event a d c b).sys.dmaEn = s.sys.dmaEn := by
  simp [State.event]
@[simp] theorem State.openEvent_sys_dmaEn (a : RingSource) (d : RingDest) : (s.openEvent a d).sys.dmaEn = s.sys.dmaEn := by
  simp [State.openEvent]
@[simp] theorem State.audit_sys_dmaEn (o st op t q : Nat) (b : List Byte) : (s.audit o st op t q b).sys.dmaEn = s.sys.dmaEn := by
  simp [State.audit]
@[simp] theorem State.audit_nv_fw (o st op t q : Nat) (b : List Byte) : (s.audit o st op t q b).nv.fw = s.nv.fw := by
  simp [State.audit]
@[simp] theorem State.audit_nv_sec (o st op t q : Nat) (b : List Byte) : (s.audit o st op t q b).nv.sec = s.nv.sec := by
  simp [State.audit]
@[simp] theorem State.audit_records (o st op t q : Nat) (b : List Byte) : (s.audit o st op t q b).nv.nvm.records = s.nv.nvm.records := by
  simp only [State.audit, State.store, State.modNv_nv, NvmState.put, NvmState.spill, NvmState.enqueue]
  repeat' split
  all_goals simp

@[simp] theorem State.send_clk (x : Response) : (s.send x).clk = s.clk := by
  simp only [State.send]
  repeat' split
  all_goals simp
@[simp] theorem State.send_freeCtr (x : Response) : (s.send x).freeCtr = s.freeCtr := by
  simp only [State.send]
  repeat' split
  all_goals simp
@[simp] theorem State.send_conv (x : Response) : (s.send x).conv = s.conv := by
  simp only [State.send]
  repeat' split
  all_goals simp
@[simp] theorem State.send_chg (x : Response) : (s.send x).chg = s.chg := by
  simp only [State.send]
  repeat' split
  all_goals simp
@[simp] theorem State.send_bus (x : Response) : (s.send x).bus = s.bus := by
  simp only [State.send]
  repeat' split
  all_goals simp
@[simp] theorem State.send_meas (x : Response) : (s.send x).meas = s.meas := by
  simp only [State.send]
  repeat' split
  all_goals simp
@[simp] theorem State.send_stack (x : Response) : (s.send x).stack = s.stack := by
  simp only [State.send]
  repeat' split
  all_goals simp
@[simp] theorem State.send_power (x : Response) : (s.send x).power = s.power := by
  simp only [State.send]
  repeat' split
  all_goals simp
@[simp] theorem State.send_clock (x : Response) : (s.send x).clock = s.clock := by
  simp only [State.send]
  repeat' split
  all_goals simp
@[simp] theorem State.send_port (x : Response) : (s.send x).port = s.port := by
  simp only [State.send]
  repeat' split
  all_goals simp
@[simp] theorem State.send_pending (x : Response) : (s.send x).pending = s.pending := by
  simp only [State.send]
  repeat' split
  all_goals simp
@[simp] theorem State.send_host_owners (x : Response) : (s.send x).host.owners = s.host.owners := by
  simp only [State.send]
  repeat' split
  all_goals simp
@[simp] theorem State.send_host_lease (x : Response) : (s.send x).host.lease = s.host.lease := by
  simp only [State.send]
  repeat' split
  all_goals simp
@[simp] theorem State.send_host_record (x : Response) : (s.send x).host.record = s.host.record := by
  simp only [State.send]
  repeat' split
  all_goals simp
@[simp] theorem State.send_host_poeCnt (x : Response) : (s.send x).host.poeCnt = s.host.poeCnt := by
  simp only [State.send]
  repeat' split
  all_goals simp
@[simp] theorem State.send_host_recordPending (x : Response) : (s.send x).host.recordPending = s.host.recordPending := by
  simp only [State.send]
  repeat' split
  all_goals simp
@[simp] theorem State.send_host_closed (x : Response) : (s.send x).host.closed = s.host.closed := by
  simp only [State.send]
  repeat' split
  all_goals simp
@[simp] theorem State.send_host_params (x : Response) : (s.send x).host.params = s.host.params := by
  simp only [State.send]
  repeat' split
  all_goals simp
@[simp] theorem State.send_host_tables (x : Response) : (s.send x).host.tables = s.host.tables := by
  simp only [State.send]
  repeat' split
  all_goals simp
@[simp] theorem State.send_host_committing (x : Response) : (s.send x).host.committing = s.host.committing := by
  simp only [State.send]
  repeat' split
  all_goals simp
@[simp] theorem State.send_host_tableCount (x : Response) : (s.send x).host.tableCount = s.host.tableCount := by
  simp only [State.send]
  repeat' split
  all_goals simp
@[simp] theorem State.send_nv_nvm (x : Response) : (s.send x).nv.nvm = s.nv.nvm := by
  simp only [State.send]
  repeat' split
  all_goals simp
@[simp] theorem State.send_nv_fw (x : Response) : (s.send x).nv.fw = s.nv.fw := by
  simp only [State.send]
  repeat' split
  all_goals simp
@[simp] theorem State.send_sys_mem (x : Response) : (s.send x).sys.mem = s.sys.mem := by
  simp only [State.send]
  repeat' split
  all_goals simp
@[simp] theorem State.send_sys_irq (x : Response) : (s.send x).sys.irq = s.sys.irq := by
  simp only [State.send]
  repeat' split
  all_goals simp
@[simp] theorem State.send_sys_wd (x : Response) : (s.send x).sys.wd = s.sys.wd := by
  simp only [State.send]
  repeat' split
  all_goals simp
@[simp] theorem State.send_sys_hawk (x : Response) : (s.send x).sys.hawk = s.sys.hawk := by
  simp only [State.send]
  repeat' split
  all_goals simp

@[simp] theorem State.respond_clk (r : Req) (op : Nat) (a : Reply) : (s.respond r op a).clk = s.clk := by
  simp only [State.respond, State.answer]
  repeat' split
  all_goals simp
@[simp] theorem State.respond_freeCtr (r : Req) (op : Nat) (a : Reply) : (s.respond r op a).freeCtr = s.freeCtr := by
  simp only [State.respond, State.answer]
  repeat' split
  all_goals simp
@[simp] theorem State.respond_conv (r : Req) (op : Nat) (a : Reply) : (s.respond r op a).conv = s.conv := by
  simp only [State.respond, State.answer]
  repeat' split
  all_goals simp
@[simp] theorem State.respond_chg (r : Req) (op : Nat) (a : Reply) : (s.respond r op a).chg = s.chg := by
  simp only [State.respond, State.answer]
  repeat' split
  all_goals simp
@[simp] theorem State.respond_bus (r : Req) (op : Nat) (a : Reply) : (s.respond r op a).bus = s.bus := by
  simp only [State.respond, State.answer]
  repeat' split
  all_goals simp
@[simp] theorem State.respond_meas (r : Req) (op : Nat) (a : Reply) : (s.respond r op a).meas = s.meas := by
  simp only [State.respond, State.answer]
  repeat' split
  all_goals simp
@[simp] theorem State.respond_stack (r : Req) (op : Nat) (a : Reply) : (s.respond r op a).stack = s.stack := by
  simp only [State.respond, State.answer]
  repeat' split
  all_goals simp
@[simp] theorem State.respond_power (r : Req) (op : Nat) (a : Reply) : (s.respond r op a).power = s.power := by
  simp only [State.respond, State.answer]
  repeat' split
  all_goals simp
@[simp] theorem State.respond_clock (r : Req) (op : Nat) (a : Reply) : (s.respond r op a).clock = s.clock := by
  simp only [State.respond, State.answer]
  repeat' split
  all_goals simp
@[simp] theorem State.respond_port (r : Req) (op : Nat) (a : Reply) : (s.respond r op a).port = s.port := by
  simp only [State.respond, State.answer]
  repeat' split
  all_goals simp
@[simp] theorem State.respond_pending (r : Req) (op : Nat) (a : Reply) : (s.respond r op a).pending = s.pending := by
  simp only [State.respond, State.answer]
  repeat' split
  all_goals simp
@[simp] theorem State.respond_host_owners (r : Req) (op : Nat) (a : Reply) : (s.respond r op a).host.owners = s.host.owners := by
  simp only [State.respond, State.answer]
  repeat' split
  all_goals simp
@[simp] theorem State.respond_host_lease (r : Req) (op : Nat) (a : Reply) : (s.respond r op a).host.lease = s.host.lease := by
  simp only [State.respond, State.answer]
  repeat' split
  all_goals simp
@[simp] theorem State.respond_host_record (r : Req) (op : Nat) (a : Reply) : (s.respond r op a).host.record = s.host.record := by
  simp only [State.respond, State.answer]
  repeat' split
  all_goals simp
@[simp] theorem State.respond_host_poeCnt (r : Req) (op : Nat) (a : Reply) : (s.respond r op a).host.poeCnt = s.host.poeCnt := by
  simp only [State.respond, State.answer]
  repeat' split
  all_goals simp
@[simp] theorem State.respond_host_recordPending (r : Req) (op : Nat) (a : Reply) : (s.respond r op a).host.recordPending = s.host.recordPending := by
  simp only [State.respond, State.answer]
  repeat' split
  all_goals simp
@[simp] theorem State.respond_host_closed (r : Req) (op : Nat) (a : Reply) : (s.respond r op a).host.closed = s.host.closed := by
  simp only [State.respond, State.answer]
  repeat' split
  all_goals simp
@[simp] theorem State.respond_host_params (r : Req) (op : Nat) (a : Reply) : (s.respond r op a).host.params = s.host.params := by
  simp only [State.respond, State.answer]
  repeat' split
  all_goals simp
@[simp] theorem State.respond_host_tables (r : Req) (op : Nat) (a : Reply) : (s.respond r op a).host.tables = s.host.tables := by
  simp only [State.respond, State.answer]
  repeat' split
  all_goals simp
@[simp] theorem State.respond_host_committing (r : Req) (op : Nat) (a : Reply) : (s.respond r op a).host.committing = s.host.committing := by
  simp only [State.respond, State.answer]
  repeat' split
  all_goals simp
@[simp] theorem State.respond_host_tableCount (r : Req) (op : Nat) (a : Reply) : (s.respond r op a).host.tableCount = s.host.tableCount := by
  simp only [State.respond, State.answer]
  repeat' split
  all_goals simp
@[simp] theorem State.respond_nv_nvm (r : Req) (op : Nat) (a : Reply) : (s.respond r op a).nv.nvm = s.nv.nvm := by
  simp only [State.respond, State.answer]
  repeat' split
  all_goals simp
@[simp] theorem State.respond_nv_fw (r : Req) (op : Nat) (a : Reply) : (s.respond r op a).nv.fw = s.nv.fw := by
  simp only [State.respond, State.answer]
  repeat' split
  all_goals simp
@[simp] theorem State.respond_sys_mem (r : Req) (op : Nat) (a : Reply) : (s.respond r op a).sys.mem = s.sys.mem := by
  simp only [State.respond, State.answer]
  repeat' split
  all_goals simp
@[simp] theorem State.respond_sys_irq (r : Req) (op : Nat) (a : Reply) : (s.respond r op a).sys.irq = s.sys.irq := by
  simp only [State.respond, State.answer]
  repeat' split
  all_goals simp
@[simp] theorem State.respond_sys_wd (r : Req) (op : Nat) (a : Reply) : (s.respond r op a).sys.wd = s.sys.wd := by
  simp only [State.respond, State.answer]
  repeat' split
  all_goals simp
@[simp] theorem State.respond_sys_hawk (r : Req) (op : Nat) (a : Reply) : (s.respond r op a).sys.hawk = s.sys.hawk := by
  simp only [State.respond, State.answer]
  repeat' split
  all_goals simp

@[simp] theorem State.finish_clk (r : Req) (op : Nat) (a : Reply) : (s.finish r op a).clk = s.clk := by
  simp only [State.finish, State.auditReq]
  split <;> simp
@[simp] theorem State.finish_freeCtr (r : Req) (op : Nat) (a : Reply) : (s.finish r op a).freeCtr = s.freeCtr := by
  simp only [State.finish, State.auditReq]
  split <;> simp
@[simp] theorem State.finish_conv (r : Req) (op : Nat) (a : Reply) : (s.finish r op a).conv = s.conv := by
  simp only [State.finish, State.auditReq]
  split <;> simp
@[simp] theorem State.finish_chg (r : Req) (op : Nat) (a : Reply) : (s.finish r op a).chg = s.chg := by
  simp only [State.finish, State.auditReq]
  split <;> simp
@[simp] theorem State.finish_bus (r : Req) (op : Nat) (a : Reply) : (s.finish r op a).bus = s.bus := by
  simp only [State.finish, State.auditReq]
  split <;> simp
@[simp] theorem State.finish_meas (r : Req) (op : Nat) (a : Reply) : (s.finish r op a).meas = s.meas := by
  simp only [State.finish, State.auditReq]
  split <;> simp
@[simp] theorem State.finish_stack (r : Req) (op : Nat) (a : Reply) : (s.finish r op a).stack = s.stack := by
  simp only [State.finish, State.auditReq]
  split <;> simp
@[simp] theorem State.finish_power (r : Req) (op : Nat) (a : Reply) : (s.finish r op a).power = s.power := by
  simp only [State.finish, State.auditReq]
  split <;> simp
@[simp] theorem State.finish_clock (r : Req) (op : Nat) (a : Reply) : (s.finish r op a).clock = s.clock := by
  simp only [State.finish, State.auditReq]
  split <;> simp
@[simp] theorem State.finish_port (r : Req) (op : Nat) (a : Reply) : (s.finish r op a).port = s.port := by
  simp only [State.finish, State.auditReq]
  split <;> simp
@[simp] theorem State.finish_pending (r : Req) (op : Nat) (a : Reply) : (s.finish r op a).pending = s.pending := by
  simp only [State.finish, State.auditReq]
  split <;> simp
@[simp] theorem State.finish_host_owners (r : Req) (op : Nat) (a : Reply) : (s.finish r op a).host.owners = s.host.owners := by
  simp only [State.finish, State.auditReq]
  split <;> simp
@[simp] theorem State.finish_host_lease (r : Req) (op : Nat) (a : Reply) : (s.finish r op a).host.lease = s.host.lease := by
  simp only [State.finish, State.auditReq]
  split <;> simp
@[simp] theorem State.finish_host_poeCnt (r : Req) (op : Nat) (a : Reply) : (s.finish r op a).host.poeCnt = s.host.poeCnt := by
  simp only [State.finish, State.auditReq]
  split <;> simp
@[simp] theorem State.finish_host_recordPending (r : Req) (op : Nat) (a : Reply) : (s.finish r op a).host.recordPending = s.host.recordPending := by
  simp only [State.finish, State.auditReq]
  split <;> simp
@[simp] theorem State.finish_host_closed (r : Req) (op : Nat) (a : Reply) : (s.finish r op a).host.closed = s.host.closed := by
  simp only [State.finish, State.auditReq]
  split <;> simp
@[simp] theorem State.finish_host_params (r : Req) (op : Nat) (a : Reply) : (s.finish r op a).host.params = s.host.params := by
  simp only [State.finish, State.auditReq]
  split <;> simp
@[simp] theorem State.finish_host_tables (r : Req) (op : Nat) (a : Reply) : (s.finish r op a).host.tables = s.host.tables := by
  simp only [State.finish, State.auditReq]
  split <;> simp
@[simp] theorem State.finish_host_committing (r : Req) (op : Nat) (a : Reply) : (s.finish r op a).host.committing = s.host.committing := by
  simp only [State.finish, State.auditReq]
  split <;> simp
@[simp] theorem State.finish_host_tableCount (r : Req) (op : Nat) (a : Reply) : (s.finish r op a).host.tableCount = s.host.tableCount := by
  simp only [State.finish, State.auditReq]
  split <;> simp
@[simp] theorem State.finish_nv_fw (r : Req) (op : Nat) (a : Reply) : (s.finish r op a).nv.fw = s.nv.fw := by
  simp only [State.finish, State.auditReq]
  split <;> simp
@[simp] theorem State.finish_sys_mem (r : Req) (op : Nat) (a : Reply) : (s.finish r op a).sys.mem = s.sys.mem := by
  simp only [State.finish, State.auditReq]
  split <;> simp
@[simp] theorem State.finish_sys_irq (r : Req) (op : Nat) (a : Reply) : (s.finish r op a).sys.irq = s.sys.irq := by
  simp only [State.finish, State.auditReq]
  split <;> simp
@[simp] theorem State.finish_sys_wd (r : Req) (op : Nat) (a : Reply) : (s.finish r op a).sys.wd = s.sys.wd := by
  simp only [State.finish, State.auditReq]
  split <;> simp
@[simp] theorem State.finish_sys_hawk (r : Req) (op : Nat) (a : Reply) : (s.finish r op a).sys.hawk = s.sys.hawk := by
  simp only [State.finish, State.auditReq]
  split <;> simp
@[simp] theorem State.finish_records (r : Req) (op : Nat) (a : Reply) : (s.finish r op a).nv.nvm.records = s.nv.nvm.records := by
  simp only [State.finish, State.auditReq]
  split <;> simp
@[simp] theorem State.finish_record (r : Req) (op : Nat) (a : Reply) :
    (s.finish r op a).host.record = s.host.record.filter (fun c => !sameCmd r c) := by
  simp only [State.finish, State.auditReq]
  split <;> simp

/-- Marking a command changes none of the others. -/
theorem not_same_marked (r : Req) (a : Reply) (l : List Cmd) :
    (l.map (fun c => if sameCmd r c then { c with outcome := some a } else c)).filter (fun c => !sameCmd r c) =
      l.filter (fun c => !sameCmd r c) := by
  have keeps (c : Cmd) (x : Option Reply) : sameCmd r { c with outcome := x } = sameCmd r c := rfl
  induction l with
  | nil => rfl
  | cons c l ih =>
    rw [List.map_cons, List.filter_cons, List.filter_cons, ih]
    cases h : sameCmd r c <;> simp [h, keeps]

@[simp] theorem State.complete_clk (r : Req) (op : Nat) (a : Reply) : (s.complete r op a).clk = s.clk := by
  simp [State.complete, State.mark]
@[simp] theorem State.complete_freeCtr (r : Req) (op : Nat) (a : Reply) : (s.complete r op a).freeCtr = s.freeCtr := by
  simp [State.complete, State.mark]
@[simp] theorem State.complete_conv (r : Req) (op : Nat) (a : Reply) : (s.complete r op a).conv = s.conv := by
  simp [State.complete, State.mark]
@[simp] theorem State.complete_chg (r : Req) (op : Nat) (a : Reply) : (s.complete r op a).chg = s.chg := by
  simp [State.complete, State.mark]
@[simp] theorem State.complete_bus (r : Req) (op : Nat) (a : Reply) : (s.complete r op a).bus = s.bus := by
  simp [State.complete, State.mark]
@[simp] theorem State.complete_meas (r : Req) (op : Nat) (a : Reply) : (s.complete r op a).meas = s.meas := by
  simp [State.complete, State.mark]
@[simp] theorem State.complete_stack (r : Req) (op : Nat) (a : Reply) : (s.complete r op a).stack = s.stack := by
  simp [State.complete, State.mark]
@[simp] theorem State.complete_power (r : Req) (op : Nat) (a : Reply) : (s.complete r op a).power = s.power := by
  simp [State.complete, State.mark]
@[simp] theorem State.complete_clock (r : Req) (op : Nat) (a : Reply) : (s.complete r op a).clock = s.clock := by
  simp [State.complete, State.mark]
@[simp] theorem State.complete_port (r : Req) (op : Nat) (a : Reply) : (s.complete r op a).port = s.port := by
  simp [State.complete, State.mark]
@[simp] theorem State.complete_pending (r : Req) (op : Nat) (a : Reply) : (s.complete r op a).pending = s.pending := by
  simp [State.complete, State.mark]
@[simp] theorem State.complete_host_owners (r : Req) (op : Nat) (a : Reply) : (s.complete r op a).host.owners = s.host.owners := by
  simp [State.complete, State.mark]
@[simp] theorem State.complete_host_lease (r : Req) (op : Nat) (a : Reply) : (s.complete r op a).host.lease = s.host.lease := by
  simp [State.complete, State.mark]
@[simp] theorem State.complete_host_recordPending (r : Req) (op : Nat) (a : Reply) : (s.complete r op a).host.recordPending = s.host.recordPending := by
  simp [State.complete, State.mark]
@[simp] theorem State.complete_host_closed (r : Req) (op : Nat) (a : Reply) : (s.complete r op a).host.closed = s.host.closed := by
  simp [State.complete, State.mark]
@[simp] theorem State.complete_host_params (r : Req) (op : Nat) (a : Reply) : (s.complete r op a).host.params = s.host.params := by
  simp [State.complete, State.mark]
@[simp] theorem State.complete_host_tables (r : Req) (op : Nat) (a : Reply) : (s.complete r op a).host.tables = s.host.tables := by
  simp [State.complete, State.mark]
@[simp] theorem State.complete_host_committing (r : Req) (op : Nat) (a : Reply) : (s.complete r op a).host.committing = s.host.committing := by
  simp [State.complete, State.mark]
@[simp] theorem State.complete_host_tableCount (r : Req) (op : Nat) (a : Reply) : (s.complete r op a).host.tableCount = s.host.tableCount := by
  simp [State.complete, State.mark]
@[simp] theorem State.complete_nv_fw (r : Req) (op : Nat) (a : Reply) : (s.complete r op a).nv.fw = s.nv.fw := by
  simp [State.complete, State.mark]
@[simp] theorem State.complete_sys_mem (r : Req) (op : Nat) (a : Reply) : (s.complete r op a).sys.mem = s.sys.mem := by
  simp [State.complete, State.mark]
@[simp] theorem State.complete_sys_irq (r : Req) (op : Nat) (a : Reply) : (s.complete r op a).sys.irq = s.sys.irq := by
  simp [State.complete, State.mark]
@[simp] theorem State.complete_sys_wd (r : Req) (op : Nat) (a : Reply) : (s.complete r op a).sys.wd = s.sys.wd := by
  simp [State.complete, State.mark]
@[simp] theorem State.complete_sys_hawk (r : Req) (op : Nat) (a : Reply) : (s.complete r op a).sys.hawk = s.sys.hawk := by
  simp [State.complete, State.mark]
@[simp] theorem State.complete_poeCnt (r : Req) (op : Nat) (a : Reply) : (s.complete r op a).host.poeCnt = s.host.poeCnt + 1#32 := by
  simp [State.complete, State.mark]
@[simp] theorem State.complete_records (r : Req) (op : Nat) (a : Reply) : (s.complete r op a).nv.nvm.records = s.nv.nvm.records := by
  simp [State.complete, State.mark]
@[simp] theorem State.complete_record (r : Req) (op : Nat) (a : Reply) :
    (s.complete r op a).host.record = s.host.record.filter (fun c => !sameCmd r c) := by
  simp only [State.complete, State.mark, State.finish_record, State.modHost_host]
  exact not_same_marked r a _

@[simp] theorem State.park_clk (r : Req) (op : Nat) : (s.park r op).clk = s.clk := by
  simp only [State.park]
  repeat' split
  all_goals simp [State.record]
@[simp] theorem State.park_freeCtr (r : Req) (op : Nat) : (s.park r op).freeCtr = s.freeCtr := by
  simp only [State.park]
  repeat' split
  all_goals simp [State.record]
@[simp] theorem State.park_conv (r : Req) (op : Nat) : (s.park r op).conv = s.conv := by
  simp only [State.park]
  repeat' split
  all_goals simp [State.record]
@[simp] theorem State.park_chg (r : Req) (op : Nat) : (s.park r op).chg = s.chg := by
  simp only [State.park]
  repeat' split
  all_goals simp [State.record]
@[simp] theorem State.park_bus (r : Req) (op : Nat) : (s.park r op).bus = s.bus := by
  simp only [State.park]
  repeat' split
  all_goals simp [State.record]
@[simp] theorem State.park_meas (r : Req) (op : Nat) : (s.park r op).meas = s.meas := by
  simp only [State.park]
  repeat' split
  all_goals simp [State.record]
@[simp] theorem State.park_stack (r : Req) (op : Nat) : (s.park r op).stack = s.stack := by
  simp only [State.park]
  repeat' split
  all_goals simp [State.record]
@[simp] theorem State.park_power (r : Req) (op : Nat) : (s.park r op).power = s.power := by
  simp only [State.park]
  repeat' split
  all_goals simp [State.record]
@[simp] theorem State.park_clock (r : Req) (op : Nat) : (s.park r op).clock = s.clock := by
  simp only [State.park]
  repeat' split
  all_goals simp [State.record]
@[simp] theorem State.park_port (r : Req) (op : Nat) : (s.park r op).port = s.port := by
  simp only [State.park]
  repeat' split
  all_goals simp [State.record]
@[simp] theorem State.park_pending (r : Req) (op : Nat) : (s.park r op).pending = s.pending := by
  simp only [State.park]
  repeat' split
  all_goals simp [State.record]
@[simp] theorem State.park_host_owners (r : Req) (op : Nat) : (s.park r op).host.owners = s.host.owners := by
  simp only [State.park]
  repeat' split
  all_goals simp [State.record]
@[simp] theorem State.park_host_lease (r : Req) (op : Nat) : (s.park r op).host.lease = s.host.lease := by
  simp only [State.park]
  repeat' split
  all_goals simp [State.record]
@[simp] theorem State.park_host_poeCnt (r : Req) (op : Nat) : (s.park r op).host.poeCnt = s.host.poeCnt := by
  simp only [State.park]
  repeat' split
  all_goals simp [State.record]
@[simp] theorem State.park_host_recordPending (r : Req) (op : Nat) : (s.park r op).host.recordPending = s.host.recordPending := by
  simp only [State.park]
  repeat' split
  all_goals simp [State.record]
@[simp] theorem State.park_host_closed (r : Req) (op : Nat) : (s.park r op).host.closed = s.host.closed := by
  simp only [State.park]
  repeat' split
  all_goals simp [State.record]
@[simp] theorem State.park_host_params (r : Req) (op : Nat) : (s.park r op).host.params = s.host.params := by
  simp only [State.park]
  repeat' split
  all_goals simp [State.record]
@[simp] theorem State.park_host_tables (r : Req) (op : Nat) : (s.park r op).host.tables = s.host.tables := by
  simp only [State.park]
  repeat' split
  all_goals simp [State.record]
@[simp] theorem State.park_host_committing (r : Req) (op : Nat) : (s.park r op).host.committing = s.host.committing := by
  simp only [State.park]
  repeat' split
  all_goals simp [State.record]
@[simp] theorem State.park_host_tableCount (r : Req) (op : Nat) : (s.park r op).host.tableCount = s.host.tableCount := by
  simp only [State.park]
  repeat' split
  all_goals simp [State.record]
@[simp] theorem State.park_nv_nvm (r : Req) (op : Nat) : (s.park r op).nv.nvm = s.nv.nvm := by
  simp only [State.park]
  repeat' split
  all_goals simp [State.record]
@[simp] theorem State.park_nv_fw (r : Req) (op : Nat) : (s.park r op).nv.fw = s.nv.fw := by
  simp only [State.park]
  repeat' split
  all_goals simp [State.record]
@[simp] theorem State.park_sys_mem (r : Req) (op : Nat) : (s.park r op).sys.mem = s.sys.mem := by
  simp only [State.park]
  repeat' split
  all_goals simp [State.record]
@[simp] theorem State.park_sys_irq (r : Req) (op : Nat) : (s.park r op).sys.irq = s.sys.irq := by
  simp only [State.park]
  repeat' split
  all_goals simp [State.record]
@[simp] theorem State.park_sys_wd (r : Req) (op : Nat) : (s.park r op).sys.wd = s.sys.wd := by
  simp only [State.park]
  repeat' split
  all_goals simp [State.record]
@[simp] theorem State.park_sys_hawk (r : Req) (op : Nat) : (s.park r op).sys.hawk = s.sys.hawk := by
  simp only [State.park]
  repeat' split
  all_goals simp [State.record]

end Sys2Proof.Machine
end

