-- ==== Sys2Proof/Laws/Bank.lean ====
section
/-! SUPPORT. Banks: what a write and a removal leave, and that both keep the canonical form. -/

namespace Sys2Proof.Machine

variable {α : Type}

theorem bankRising_mono {lo lo' : Nat} (hl : lo' ≤ lo) {b : Bank α} (h : bankRising lo b = true) :
    bankRising lo' b = true := by
  cases b with
  | nil => rfl
  | cons e b =>
    obtain ⟨j, x⟩ := e
    simp only [bankRising, Bool.and_eq_true, decide_eq_true_eq] at h ⊢
    exact ⟨Nat.le_trans hl h.1, h.2⟩

theorem bankRising_drop (k : Nat) {lo : Nat} {b : Bank α} (h : bankRising lo b = true) :
    bankRising lo (bankDrop k b) = true := by
  induction b generalizing lo with
  | nil => rfl
  | cons e b ih =>
    obtain ⟨j, x⟩ := e
    simp only [bankRising, Bool.and_eq_true, decide_eq_true_eq] at h
    unfold bankDrop
    split
    · exact bankRising_mono (by omega) h.2
    · split <;> simp only [bankRising, Bool.and_eq_true, decide_eq_true_eq]
      · exact h
      · exact ⟨h.1, ih h.2⟩

theorem bankRising_put (k : Nat) (x : α) {lo : Nat} (hk : lo ≤ k) {b : Bank α} (h : bankRising lo b = true) :
    bankRising lo (bankPut k x b) = true := by
  induction b generalizing lo with
  | nil => simp [bankPut, bankRising, hk]
  | cons e b ih =>
    obtain ⟨j, y⟩ := e
    simp only [bankRising, Bool.and_eq_true, decide_eq_true_eq] at h
    unfold bankPut
    split
    · rename_i hj
      simp only [bankRising, Bool.and_eq_true, decide_eq_true_eq]
      exact ⟨hk, hj ▸ h.2⟩
    · split <;> simp only [bankRising, Bool.and_eq_true, decide_eq_true_eq]
      · exact ⟨hk, by omega, h.2⟩
      · exact ⟨h.1, ih (by omega) h.2⟩

theorem bankRising_filter (p : Nat × α → Bool) {lo : Nat} {b : Bank α} (h : bankRising lo b = true) :
    bankRising lo (b.filter p) = true := by
  induction b generalizing lo with
  | nil => rfl
  | cons e b ih =>
    obtain ⟨j, y⟩ := e
    simp only [bankRising, Bool.and_eq_true, decide_eq_true_eq] at h
    simp only [List.filter_cons]
    split
    · simp only [bankRising, Bool.and_eq_true, decide_eq_true_eq]
      exact ⟨h.1, ih h.2⟩
    · exact bankRising_mono (by omega) (ih h.2)

theorem mem_bankDrop {k : Nat} {b : Bank α} {e : Nat × α} (h : e ∈ bankDrop k b) : e ∈ b := by
  induction b with
  | nil => exact h
  | cons d b ih =>
    obtain ⟨j, y⟩ := d
    unfold bankDrop at h
    split at h
    · exact List.mem_cons_of_mem _ h
    · split at h
      · exact h
      · rcases List.mem_cons.1 h with h | h
        · exact h ▸ List.mem_cons_self
        · exact List.mem_cons_of_mem _ (ih h)

theorem mem_bankPut {k : Nat} {x : α} {b : Bank α} {e : Nat × α} (h : e ∈ bankPut k x b) : e = (k, x) ∨ e ∈ b := by
  induction b with
  | nil => exact Or.inl (List.mem_singleton.1 h)
  | cons d b ih =>
    obtain ⟨j, y⟩ := d
    unfold bankPut at h
    split at h
    · rcases List.mem_cons.1 h with h | h
      · exact Or.inl h
      · exact Or.inr (List.mem_cons_of_mem _ h)
    · split at h
      · rcases List.mem_cons.1 h with h | h
        · exact Or.inl h
        · exact Or.inr h
      · rcases List.mem_cons.1 h with h | h
        · exact Or.inr (h ▸ List.mem_cons_self)
        · exact (ih h).imp id (List.mem_cons_of_mem _)

theorem bankWf_set [DecidableEq α] (d : α) (k : Nat) (x : α) {b : Bank α} (h : bankWf d b = true) :
    bankWf d (bankSet d k x b) = true := by
  simp only [bankWf, Bool.and_eq_true, List.all_eq_true, decide_eq_true_eq] at h ⊢
  unfold bankSet
  split
  · exact ⟨bankRising_drop k h.1, fun e he => h.2 e (mem_bankDrop he)⟩
  · rename_i hx
    refine ⟨bankRising_put k x (Nat.zero_le _) h.1, fun e he => ?_⟩
    rcases mem_bankPut he with he | he
    · exact he ▸ hx
    · exact h.2 e he

theorem bankWf_filter [DecidableEq α] (d : α) (p : Nat × α → Bool) {b : Bank α} (h : bankWf d b = true) :
    bankWf d (b.filter p) = true := by
  simp only [bankWf, Bool.and_eq_true, List.all_eq_true, decide_eq_true_eq] at h ⊢
  exact ⟨bankRising_filter p h.1, fun e he => h.2 e (List.mem_filter.1 he).1⟩

/-- A read of the key just written. -/
theorem bankGet?_put_self (k : Nat) (x : α) (b : Bank α) : bankGet? k (bankPut k x b) = some x := by
  induction b with
  | nil => simp [bankPut, bankGet?]
  | cons d b ih =>
    obtain ⟨j, y⟩ := d
    unfold bankPut
    split
    · simp [bankGet?]
    · split
      · simp [bankGet?]
      · rename_i h1 h2
        simp [bankGet?, h1, h2, ih]

theorem bankGet?_put_ne {j k : Nat} (hne : j ≠ k) (x : α) {lo : Nat} {b : Bank α} (h : bankRising lo b = true) :
    bankGet? j (bankPut k x b) = bankGet? j b := by
  induction b generalizing lo with
  | nil => simp [bankPut, bankGet?, hne]
  | cons d b ih =>
    obtain ⟨i, y⟩ := d
    simp only [bankRising, Bool.and_eq_true, decide_eq_true_eq] at h
    unfold bankPut
    split
    · rename_i hk
      subst hk
      simp [bankGet?, hne]
    · split
      · rename_i h1 h2
        simp only [bankGet?, hne, if_false]
        split
        · rename_i h3
          split
          · omega
          · split
            · rfl
            · omega
        · rfl
      · rename_i h1 h2
        simp only [bankGet?]
        rw [ih h.2]

theorem bankGet?_below {j lo : Nat} (hl : j < lo) {b : Bank α} (h : bankRising lo b = true) : bankGet? j b = none := by
  cases b with
  | nil => rfl
  | cons d b =>
    obtain ⟨i, y⟩ := d
    simp only [bankRising, Bool.and_eq_true, decide_eq_true_eq] at h
    simp only [bankGet?]
    rw [if_neg (by omega), if_pos (by omega)]

theorem bankGet?_drop_self {k lo : Nat} {b : Bank α} (h : bankRising lo b = true) : bankGet? k (bankDrop k b) = none := by
  induction b generalizing lo with
  | nil => rfl
  | cons d b ih =>
    obtain ⟨j, y⟩ := d
    simp only [bankRising, Bool.and_eq_true, decide_eq_true_eq] at h
    unfold bankDrop
    split
    · exact bankGet?_below (by omega) h.2
    · split
      · simp [bankGet?, *]
      · simp [bankGet?, *, ih h.2]

theorem bankGet?_drop_ne {j k : Nat} (hne : j ≠ k) {lo : Nat} {b : Bank α} (h : bankRising lo b = true) :
    bankGet? j (bankDrop k b) = bankGet? j b := by
  induction b generalizing lo with
  | nil => rfl
  | cons d b ih =>
    obtain ⟨i, y⟩ := d
    simp only [bankRising, Bool.and_eq_true, decide_eq_true_eq] at h
    unfold bankDrop
    split
    · rename_i hk
      subst hk
      simp only [bankGet?, hne, if_false]
      split
      · exact bankGet?_below (by omega) h.2
      · rfl
    · split
      · rfl
      · simp only [bankGet?]
        rw [ih h.2]

/-- A read of the key just set, in a canonical bank. -/
theorem bankGet_set_self [DecidableEq α] (d : α) (k : Nat) (x : α) {b : Bank α} (h : bankWf d b = true) :
    bankGet d k (bankSet d k x b) = x := by
  simp only [bankWf, Bool.and_eq_true] at h
  unfold bankSet bankGet
  split
  · rename_i hx
    rw [bankGet?_drop_self h.1, hx]
    rfl
  · rw [bankGet?_put_self]
    rfl

/-- A read of another key. -/
theorem bankGet_set_ne [DecidableEq α] (d : α) {j k : Nat} (hne : j ≠ k) (x : α) {b : Bank α} (h : bankWf d b = true) :
    bankGet d j (bankSet d k x b) = bankGet d j b := by
  simp only [bankWf, Bool.and_eq_true] at h
  unfold bankSet bankGet
  split
  · rw [bankGet?_drop_ne hne h.1]
  · rw [bankGet?_put_ne hne x h.1]

end Sys2Proof.Machine
end

