-- ==== Sys2Proof/Laws/Fuses.lean ====
section
/-! SUPPORT. Fuses: programming and latching keep what is blown, and latch only what is blown (19 R507, R508). -/

namespace Sys2Proof.Machine

theorem Fuse.within_refl (f : Fuse) : f.within f := ⟨id, id⟩

theorem Fuse.within_trans {f g h : Fuse} (a : f.within g) (b : g.within h) : f.within h :=
  ⟨fun x => b.1 (a.1 x), fun x => b.2 (a.2 x)⟩

theorem Fuse.within_blow (a b : Bool) (f : Fuse) : f.within (f.blow a b) :=
  ⟨fun h => by simp [Fuse.blow, h], fun h => by simp [Fuse.blow, h]⟩

theorem Fuse.reads_blow (a b : Bool) {f : Fuse} (h : f.reads = true) : (f.blow a b).reads = true := by
  cases f
  simp only [Fuse.reads, Fuse.blow, Bool.or_eq_true] at h ⊢
  exact h.imp Or.inl Or.inl

theorem Fuse.honest_blow (a b : Bool) {f : Fuse} (h : f.honest) : (f.blow a b).honest :=
  fun hl => Fuse.reads_blow a b (h hl)

theorem SecState.within_refl (c : SecState) : c.within c :=
  ⟨Fuse.within_refl _, Fuse.within_refl _, Fuse.within_refl _, Fuse.within_refl _, Nat.le_refl _⟩

theorem SecState.within_trans {c d e : SecState} (a : c.within d) (b : d.within e) : c.within e :=
  ⟨Fuse.within_trans a.1 b.1, Fuse.within_trans a.2 b.2, Fuse.within_trans a.3 b.3, Fuse.within_trans a.4 b.4,
    Nat.le_trans a.5 b.5⟩

/-- A change of one option fuse that only blows it. -/
theorem SecState.modFuse_ok {f : Fuse → Fuse} (k : Nat) (hw : ∀ x : Fuse, x.within (f x))
    (hh : ∀ x : Fuse, x.honest → (f x).honest) (c : SecState) :
    c.within (c.modFuse k f) ∧ (c.honest → (c.modFuse k f).honest) := by
  unfold SecState.modFuse
  split
  · refine ⟨⟨hw _, Fuse.within_refl _, Fuse.within_refl _, Fuse.within_refl _, Nat.le_refl _⟩, fun h j => ?_⟩
    match j with
    | 0 => exact hh _ (h 0)
    | 1 => exact h 1
    | 2 => exact h 2
    | 3 => exact h 3
  · refine ⟨⟨Fuse.within_refl _, hw _, Fuse.within_refl _, Fuse.within_refl _, Nat.le_refl _⟩, fun h j => ?_⟩
    match j with
    | 0 => exact h 0
    | 1 => exact hh _ (h 1)
    | 2 => exact h 2
    | 3 => exact h 3
  · refine ⟨⟨Fuse.within_refl _, Fuse.within_refl _, hw _, Fuse.within_refl _, Nat.le_refl _⟩, fun h j => ?_⟩
    match j with
    | 0 => exact h 0
    | 1 => exact h 1
    | 2 => exact hh _ (h 2)
    | 3 => exact h 3
  · refine ⟨⟨Fuse.within_refl _, Fuse.within_refl _, Fuse.within_refl _, hw _, Nat.le_refl _⟩, fun h j => ?_⟩
    match j with
    | 0 => exact h 0
    | 1 => exact h 1
    | 2 => exact h 2
    | 3 => exact hh _ (h 3)

theorem SecState.latchFuses_ok (c : SecState) : c.within c.latchFuses ∧ (c.honest → c.latchFuses.honest) := by
  refine ⟨⟨Fuse.within_refl _, Fuse.within_refl _, Fuse.within_refl _, Fuse.within_refl _, Nat.le_refl _⟩, fun _ j => ?_⟩
  match j with
  | 0 => exact id
  | 1 => exact id
  | 2 => exact id
  | 3 => exact id

/-- FW_COMMIT raises the rollback count. -/
theorem SecState.raise_ok (n : Nat) (c : SecState) :
    c.within { c with rollback := max c.rollback n } ∧ (c.honest → SecState.honest { c with rollback := max c.rollback n }) := by
  refine ⟨⟨Fuse.within_refl _, Fuse.within_refl _, Fuse.within_refl _, Fuse.within_refl _, Nat.le_max_left _ _⟩,
    fun h j => ?_⟩
  match j with
  | 0 => exact h 0
  | 1 => exact h 1
  | 2 => exact h 2
  | 3 => exact h 3

end Sys2Proof.Machine
end

