-- ==== Sys2Proof/Laws/Gates.lean ====
section
/-! SUPPORT. What the operations on the gate outputs keep: the two outputs of a channel are never high together, now or at any
transition placed (03 R61). -/

namespace Sys2Proof.Machine

variable {x y : Phase}

/-- Outputs that are low, with nothing placed, are not high together. -/
theorem low_exclusive (h : x.pwmH = false) (hl : x.line = []) : x.exclusive := by
  simp [Phase.exclusive, h, hl]

theorem exclusive_ite {c : Prop} [Decidable c] (hx : x.exclusive) (hy : y.exclusive) :
    (if c then x else y).exclusive := by split <;> assumption

theorem foldl_exclusive {α : Type} {l : List α} {f : Phase → α → Phase} {x : Phase} (hx : x.exclusive)
    (hf : ∀ y a, y.exclusive → (f y a).exclusive) : (l.foldl f x).exclusive := by
  induction l generalizing x with
  | nil => exact hx
  | cons a l ih => exact ih (hf x a hx)

/-- A line cut down to some of its transitions. -/
theorem Phase.fewer_exclusive {l : List PinEdge} (h : x.exclusive) (hs : ∀ e ∈ l, e ∈ x.line) :
    Phase.exclusive { x with line := l } := ⟨h.1, fun e he => h.2 e (hs e he)⟩

theorem Phase.place_exclusive {t : Nat} {a b : Bool} (h : x.exclusive) : (x.place t a b).exclusive := by
  refine ⟨h.1, fun e he => ?_⟩
  rcases List.mem_append.mp he with he | he
  · exact h.2 e (List.mem_filter.mp he).1
  · rw [List.mem_singleton.mp he]
    cases a <;> simp

theorem Phase.low_exclusive {t : Nat} (h : x.exclusive) : (x.low t).exclusive := by
  unfold Phase.low
  exact exclusive_ite h (Phase.place_exclusive h)

theorem Phase.dropShort_exclusive {now t : Nat} {a b : Bool} (h : x.exclusive) : (x.dropShort now t a b).exclusive := by
  unfold Phase.dropShort
  split
  · exact exclusive_ite (Phase.fewer_exclusive h (fun _ he => List.dropLast_subset _ he)) h
  · exact h

theorem Phase.actWord_exclusive {now base r f : Nat} {w : EdgeWord} (h : x.exclusive) :
    (x.actWord now base r f w).exclusive := by
  have h1 := Phase.dropShort_exclusive (now := now) (t := base + w.e) (a := w.fall) (b := !w.fall) h
  have h2 : ∀ (other : Bool) (t : Nat) (a b : Bool),
      ((if other then (x.dropShort now (base + w.e) w.fall (!w.fall)).place (base + w.e) false false
        else x.dropShort now (base + w.e) w.fall (!w.fall)).place t a b).exclusive :=
    fun _ _ _ _ => Phase.place_exclusive (exclusive_ite (Phase.place_exclusive h1) h1)
  unfold Phase.actWord
  exact exclusive_ite h1 (exclusive_ite (exclusive_ite (Phase.place_exclusive h1) h1)
    (exclusive_ite (h2 _ _ _ _) (h2 _ _ _ _)))

theorem Phase.actWords_exclusive {now base hs r f : Nat} {ws : List EdgeWord} (h : x.exclusive) :
    (x.actWords now base hs r f ws).exclusive := by
  induction ws generalizing x with
  | nil => exact h
  | cons w ws ih =>
    unfold Phase.actWords
    exact exclusive_ite (Phase.low_exclusive (Phase.dropShort_exclusive h))
      (exclusive_ite (ih h) (ih (Phase.actWord_exclusive h)))

theorem Phase.prune_exclusive {t : Nat} (h : x.exclusive) : (x.prune t).exclusive := by
  refine ⟨fun hx => ?_, fun e he => h.2 e (List.mem_filter.mp he).1⟩
  have h1 : (x.pinsAt t).1 = true := hx.1
  have h2 : ((x.pinsAt t).2 && !(x.pinsAt t).1) = true := hx.2
  simp [h1] at h2

theorem Phase.stop_exclusive {t : Nat} (h : x.exclusive) : (x.stop t).exclusive := Phase.low_exclusive (t := t) h

theorem Phase.bothLow_exclusive {t : Nat} (h : x.exclusive) : (x.bothLow t).exclusive := Phase.low_exclusive (t := t) h

theorem Phase.periodTimes_exclusive {start : Nat} (h : x.exclusive) : (x.periodTimes start).exclusive :=
  Phase.prune_exclusive (x := { x with perStart := start }) h

theorem Phase.drive_exclusive {c : CommitAt} {ws : List U64} (h : x.exclusive) : (x.drive c ws).exclusive :=
  Phase.actWords_exclusive (now := c.now) (base := x.perStart) h

theorem Phase.commit_exclusive {c : CommitAt} {epoch : U16} {bump : Bump} {start : Nat} {drives : Bool} (h : x.exclusive) :
    (x.commit c epoch bump start drives).exclusive := by
  have h1 : (if c.half = true then x else { x.periodTimes start with heldLow := false }).exclusive :=
    exclusive_ite h (Phase.periodTimes_exclusive h)
  unfold Phase.commit
  refine exclusive_ite (Phase.bothLow_exclusive h1) (exclusive_ite h1 ?_)
  split
  · exact Phase.drive_exclusive h1
  · exact Phase.bothLow_exclusive h1
  · exact Phase.drive_exclusive h1
  · exact Phase.bothLow_exclusive h1

end Sys2Proof.Machine
end

