-- ==== Sys2Proof/Laws/Memory.lean ====
section
/-! SUPPORT. Memory: every operation on its bytes keeps the canonical form; a write is read back, and leaves every other
address as it was. -/

namespace Sys2Proof.Machine

theorem MemState.storeBytes_wf (bs : List Byte) (a : Nat) {m : MemState} (h : m.wf) : (MemState.storeBytes bs a m).wf := by
  induction bs generalizing a m with
  | nil => exact h
  | cons b bs ih => exact ih (a + 1) (bankWf_set 0#8 a b h)

theorem MemState.touch_wf (g : Nat) {m : MemState} (h : m.wf) : (m.touch g).wf := by
  unfold MemState.touch
  split
  · exact h
  · exact bankWf_filter 0#8 _ h

theorem MemState.putByte_wf (a : Nat) (b : Byte) {m : MemState} (h : m.wf) : (m.putByte a b).wf := by
  unfold MemState.putByte
  refine bankWf_set 0#8 a b ?_
  split
  · exact touch_wf _ h
  · exact h

theorem MemState.putBytes_wf (bs : List Byte) (a : Nat) {m : MemState} (h : m.wf) : (MemState.putBytes bs a m).wf := by
  induction bs generalizing a m with
  | nil => exact h
  | cons b bs ih => exact ih (a + 1) (putByte_wf a b h)

theorem MemState.foldl_wf {α : Type} {l : List α} {f : MemState → α → MemState} {m : MemState} (h : m.wf)
    (hf : ∀ (m : MemState) a, m.wf → (f m a).wf) : (l.foldl f m).wf := by
  induction l generalizing m with
  | nil => exact h
  | cons a l ih => exact ih (hf m a h)

/-- The byte just written is read back. -/
theorem MemState.byte_putByte_self (a : Nat) (b : Byte) {m : MemState} (h : m.wf) : (m.putByte a b).byte a = b := by
  unfold MemState.putByte MemState.byte
  refine bankGet_set_self 0#8 a b ?_
  split
  · exact touch_wf _ h
  · exact h

/-- In SRAM, a write leaves every other address as it was. -/
theorem MemState.byte_putByte_ne {a c : Nat} (hne : c ≠ a) (b : Byte) {m : MemState} (h : m.wf)
    (hd : (regionAt a).isDram = false) : (m.putByte a b).byte c = m.byte c := by
  unfold MemState.putByte MemState.byte
  rw [hd]
  exact bankGet_set_ne 0#8 hne b h

/-- A copy of the mailbox store leaves the addresses outside it as they were. -/
theorem MemState.byte_storeBytes_ne (bs : List Byte) {a c : Nat} (ho : c < a ∨ a + bs.length ≤ c) {m : MemState} (h : m.wf) :
    (MemState.storeBytes bs a m).byte c = m.byte c := by
  induction bs generalizing a m with
  | nil => rfl
  | cons b bs ih =>
    simp only [List.length_cons] at ho
    refine (ih (a := a + 1) (by omega) (bankWf_set 0#8 a b h)).trans ?_
    exact bankGet_set_ne 0#8 (by omega) b h

end Sys2Proof.Machine
end

