-- ==== Sys2Proof/Laws/Keep.lean ====
section
/-! SUPPORT. What every operation keeps, as one relation between the state before and the state after, and that
relation for the operations of `Machine/Ops.lean` which change one part of the state. -/

namespace Sys2Proof.Machine

/-- What every command keeps. -/
structure Keeps (s t : State) : Prop where
  pending : t.pending = s.pending
  clk : s.clk ≤ t.clk
  aged : s.aged t
  gates : s.gatesExclusive → t.gatesExclusive
  mem : s.sys.mem.wf → t.sys.mem.wf
  params : s.host.params.wf → t.host.params.wf
  fuses : s.nv.sec.within t.nv.sec
  honest : s.nv.sec.honest → t.nv.sec.honest

theorem SecState.same {c d : SecState} (h1 : d.wdtHwstart = c.wdtHwstart)
    (h2 : d.servicePortDisable = c.servicePortDisable) (h3 : d.customerCores = c.customerCores)
    (h4 : d.debugLock = c.debugLock) (h5 : d.rollback = c.rollback) : c.within d ∧ (c.honest → d.honest) := by
  refine ⟨⟨h1 ▸ Fuse.within_refl _, h2 ▸ Fuse.within_refl _, h3 ▸ Fuse.within_refl _, h4 ▸ Fuse.within_refl _,
    Nat.le_of_eq h5.symm⟩, fun h k => ?_⟩
  have e : d.fuse k.val = c.fuse k.val := by
    unfold SecState.fuse
    split <;> assumption
  exact e ▸ h k

theorem State.aged_refl (s : State) : s.aged s := Or.inl ⟨rfl, Int.le_refl _, id⟩

theorem State.aged_trans {s t u : State} (a : s.aged t) (b : t.aged u) (c : s.clk ≤ t.clk) : s.aged u := by
  rcases a with ⟨a1, a2, a3⟩ | a | a <;> rcases b with ⟨b1, b2, b3⟩ | b | b
  · exact Or.inl ⟨b1.trans a1, Int.le_trans a2 b2, fun x => b3 (a3 x)⟩
  · exact Or.inr (Or.inl b)
  · exact Or.inr (Or.inr (Nat.le_trans c b))
  · exact Or.inr (Or.inl (b3 a))
  · exact Or.inr (Or.inl b)
  · exact Or.inr (Or.inr (Nat.le_trans c b))
  · exact Or.inr (Or.inr (b1 ▸ a))
  · exact Or.inr (Or.inl b)
  · exact Or.inr (Or.inr (Nat.le_trans c b))

theorem Keeps.refl (s : State) : Keeps s s :=
  ⟨rfl, Nat.le_refl _, State.aged_refl s, id, id, id, SecState.within_refl _, id⟩

theorem Keeps.trans {s t u : State} (a : Keeps s t) (b : Keeps t u) : Keeps s u :=
  ⟨b.pending.trans a.pending, Nat.le_trans a.clk b.clk, State.aged_trans a.aged b.aged a.clk,
    fun h => b.gates (a.gates h), fun h => b.mem (a.mem h), fun h => b.params (a.params h),
    SecState.within_trans a.fuses b.fuses, fun h => b.honest (a.honest h)⟩

variable {s0 s : State}

/-! ### Control structure -/

theorem ite_keeps {c : Prop} [Decidable c] {a b : State} (ha : Keeps s0 a) (hb : Keeps s0 b) :
    Keeps s0 (if c then a else b) := by split <;> assumption

theorem dite_keeps {c : Prop} [Decidable c] {a : c → State} {b : ¬ c → State} (ha : ∀ h, Keeps s0 (a h))
    (hb : ∀ h, Keeps s0 (b h)) : Keeps s0 (if h : c then a h else b h) := by
  split
  · exact ha _
  · exact hb _

theorem foldl_keeps {α : Type} {l : List α} {f : State → α → State} (hs : Keeps s0 s)
    (hf : ∀ t x, Keeps s0 t → Keeps s0 (f t x)) : Keeps s0 (l.foldl f s) := by
  induction l generalizing s with
  | nil => exact hs
  | cons x l ih => exact ih (hf s x hs)

theorem foldlPair_keeps {α β : Type} {l : List α} {f : State × β → α → State × β} {x : State × β} (hs : Keeps s0 x.1)
    (hf : ∀ t a, Keeps s0 t.1 → Keeps s0 (f t a).1) : Keeps s0 (l.foldl f x).1 := by
  induction l generalizing x with
  | nil => exact hs
  | cons a l ih => exact ih (hf x a hs)

theorem eachGroup_keeps {f : Fin 8 → State → State} (hs : Keeps s0 s)
    (hf : ∀ g t, Keeps s0 t → Keeps s0 (f g t)) : Keeps s0 (s.eachGroup f) :=
  foldl_keeps hs (fun t x h => hf x t h)

theorem eachPhase_keeps {f : Fin 64 → State → State} (hs : Keeps s0 s)
    (hf : ∀ g t, Keeps s0 t → Keeps s0 (f g t)) : Keeps s0 (s.eachPhase f) :=
  foldl_keeps hs (fun t x h => hf x t h)

/-- The state that a command's answer leads to keeps what every command keeps. -/
def KeepsRes (s0 : State) : Res → Prop
  | .ok _ t => Keeps s0 t
  | .fail _ _ _ => True
  | .wait t => Keeps s0 t

/-- An outcome keeps what every command keeps. -/
def KeepsOut (s0 : State) (o : Out) : Prop := ∀ t, o = .next t → Keeps s0 t

theorem ok_keeps {a : Reply} (h : Keeps s0 s) : KeepsRes s0 (.ok a s) := h
theorem wait_keeps (h : Keeps s0 s) : KeepsRes s0 (.wait s) := h
theorem fail_keeps {st d : Nat} {p : List Byte} : KeepsRes s0 (.fail st d p) := trivial
theorem no_keeps {st d : Nat} : KeepsRes s0 (Res.no st d) := trivial

theorem iteRes_keeps {c : Prop} [Decidable c] {a b : Res} (ha : KeepsRes s0 a) (hb : KeepsRes s0 b) :
    KeepsRes s0 (if c then a else b) := by split <;> assumption

theorem diteRes_keeps {c : Prop} [Decidable c] {a : c → Res} {b : ¬ c → Res} (ha : ∀ h, KeepsRes s0 (a h))
    (hb : ∀ h, KeepsRes s0 (b h)) : KeepsRes s0 (if h : c then a h else b h) := by
  split
  · exact ha _
  · exact hb _

theorem next_keeps (h : Keeps s0 s) : KeepsOut s0 (.next s) := by
  intro t e
  cases e
  exact h

theorem iteOut_keeps {c : Prop} [Decidable c] {a b : Out} (ha : KeepsOut s0 a) (hb : KeepsOut s0 b) :
    KeepsOut s0 (if c then a else b) := by split <;> assumption

/-! ### One part of the state -/

theorem freeCtr_keeps {n : Nat} (h : Keeps s0 s) : Keeps s0 { s with freeCtr := n } :=
  h.trans ⟨rfl, Nat.le_refl _, State.aged_refl s, id, id, id, SecState.within_refl _, id⟩

theorem modHost_keeps {f : HostState → HostState} (h : Keeps s0 s) (hf : ∀ x, x.params.wf → (f x).params.wf) :
    Keeps s0 (s.modHost f) :=
  h.trans ⟨rfl, Nat.le_refl _, State.aged_refl s, id, id, hf s.host, SecState.within_refl _, id⟩

theorem params_ite {c : Prop} [Decidable c] {x y : HostState} (hx : x.params.wf) (hy : y.params.wf) :
    (if c then x else y).params.wf := by split <;> assumption

/-- A change of phases that lets no channel drive both outputs. -/
abbrev ConverterState.safely (c d : ConverterState) : Prop :=
  (∀ p : Fin 64, (c.phases[p.val]).exclusive) → ∀ p : Fin 64, (d.phases[p.val]).exclusive

theorem modConv_keeps {f : ConverterState → ConverterState} (h : Keeps s0 s) (hf : ∀ c : ConverterState, c.safely (f c)) :
    Keeps s0 (s.modConv f) :=
  h.trans ⟨rfl, Nat.le_refl _, State.aged_refl s, hf s.conv, id, id, SecState.within_refl _, id⟩

theorem modPhase_keeps {p : Fin 64} {f : Phase → Phase} (h : Keeps s0 s) (hf : ∀ x, x.exclusive → (f x).exclusive) :
    Keeps s0 (s.modPhase p f) := by
  refine modConv_keeps h (fun c hc q => ?_)
  simp only [vmod, Vector.getElem_set]
  split
  · exact hf _ (hc p)
  · exact hc q

theorem map_safely {v : Vector Phase 64} {f : Phase → Phase} (hf : ∀ x : Phase, x.exclusive → (f x).exclusive)
    (h : ∀ p : Fin 64, (v[p.val]).exclusive) : ∀ p : Fin 64, ((v.map f)[p.val]).exclusive := by
  intro p
  rw [Vector.getElem_map]
  exact hf _ (h p)

theorem modGroup_keeps {g : Fin 8} {f : Group → Group} (h : Keeps s0 s) : Keeps s0 (s.modGroup g f) :=
  modConv_keeps h (fun _ hc => hc)

theorem modOwner_keeps {o : Fin 16} {f : Owner → Owner} (h : Keeps s0 s) : Keeps s0 (s.modOwner o f) :=
  modHost_keeps h (fun _ hc => hc)

theorem modChg_keeps {f : ChargeState → ChargeState} (h : Keeps s0 s) : Keeps s0 (s.modChg f) :=
  h.trans ⟨rfl, Nat.le_refl _, State.aged_refl s, id, id, id, SecState.within_refl _, id⟩
theorem modBus_keeps {f : BusState → BusState} (h : Keeps s0 s) : Keeps s0 (s.modBus f) :=
  h.trans ⟨rfl, Nat.le_refl _, State.aged_refl s, id, id, id, SecState.within_refl _, id⟩
theorem modMeas_keeps {f : MeasureState → MeasureState} (h : Keeps s0 s) : Keeps s0 (s.modMeas f) :=
  h.trans ⟨rfl, Nat.le_refl _, State.aged_refl s, id, id, id, SecState.within_refl _, id⟩
theorem modChain_keeps {f : ChainState → ChainState} (h : Keeps s0 s) : Keeps s0 (s.modChain f) :=
  h.trans ⟨rfl, Nat.le_refl _, State.aged_refl s, id, id, id, SecState.within_refl _, id⟩
theorem modEst_keeps {f : EstState → EstState} (h : Keeps s0 s) : Keeps s0 (s.modEst f) :=
  h.trans ⟨rfl, Nat.le_refl _, State.aged_refl s, id, id, id, SecState.within_refl _, id⟩
theorem modStp_keeps {f : StippleState → StippleState} (h : Keeps s0 s) : Keeps s0 (s.modStp f) :=
  h.trans ⟨rfl, Nat.le_refl _, State.aged_refl s, id, id, id, SecState.within_refl _, id⟩
theorem modTh_keeps {f : Thermal → Thermal} (h : Keeps s0 s) : Keeps s0 (s.modTh f) :=
  h.trans ⟨rfl, Nat.le_refl _, State.aged_refl s, id, id, id, SecState.within_refl _, id⟩
theorem modLink_keeps {f : LinkState → LinkState} (h : Keeps s0 s) : Keeps s0 (s.modLink f) :=
  h.trans ⟨rfl, Nat.le_refl _, State.aged_refl s, id, id, id, SecState.within_refl _, id⟩
theorem modSp_keeps {f : ServicePort → ServicePort} (h : Keeps s0 s) : Keeps s0 (s.modSp f) :=
  h.trans ⟨rfl, Nat.le_refl _, State.aged_refl s, id, id, id, SecState.within_refl _, id⟩

/-- A change of the supply that neither moves the release of the D-die nor starts it. -/
abbrev PowerState.calmly (p q : PowerState) : Prop :=
  q.releaseAt = p.releaseAt ∧ (p.safety.dieRunning = false → q.safety.dieRunning = false)

theorem calmly_ite {c : Prop} [Decidable c] {p a b : PowerState} (ha : p.calmly a) (hb : p.calmly b) :
    p.calmly (if c then a else b) := by split <;> assumption

theorem calmly_dite {c : Prop} [Decidable c] {p : PowerState} {a : c → PowerState} {b : ¬ c → PowerState}
    (ha : ∀ h, p.calmly (a h)) (hb : ∀ h, p.calmly (b h)) : p.calmly (if h : c then a h else b h) := by
  split
  · exact ha _
  · exact hb _

theorem modPower_keeps {f : PowerState → PowerState} (h : Keeps s0 s) (hf : ∀ p : PowerState, p.calmly (f p)) :
    Keeps s0 (s.modPower f) :=
  h.trans ⟨rfl, Nat.le_refl _, Or.inl ⟨(hf s.power).1, Int.le_refl _, (hf s.power).2⟩, id, id, id,
    SecState.within_refl _, id⟩

theorem modSafety_keeps {f : Safety → Safety} (h : Keeps s0 s)
    (hf : ∀ x, x.dieRunning = false → (f x).dieRunning = false) : Keeps s0 (s.modSafety f) :=
  modPower_keeps h (fun p => ⟨rfl, hf p.safety⟩)

theorem step_ite {c : Prop} [Decidable c] {n : Int} {a b : Timebase} (ha : n ≤ a.step) (hb : n ≤ b.step) :
    n ≤ (if c then a else b).step := by split <;> assumption

theorem modTb_keeps {f : Timebase → Timebase} (h : Keeps s0 s) (hf : ∀ x, x.step ≤ (f x).step) :
    Keeps s0 (s.modTb f) :=
  h.trans ⟨rfl, Nat.le_refl _, Or.inl ⟨rfl, hf s.clock.tb, id⟩, id, id, id, SecState.within_refl _, id⟩

theorem modSys_keeps {f : SystemState → SystemState} (h : Keeps s0 s) (hf : ∀ x, x.mem.wf → (f x).mem.wf) :
    Keeps s0 (s.modSys f) :=
  h.trans ⟨rfl, Nat.le_refl _, State.aged_refl s, id, hf s.sys, id, SecState.within_refl _, id⟩

theorem modNv_keeps {f : KeepState → KeepState} (h : Keeps s0 s)
    (hf : ∀ k, k.sec.within (f k).sec ∧ (k.sec.honest → (f k).sec.honest)) : Keeps s0 (s.modNv f) :=
  h.trans ⟨rfl, Nat.le_refl _, State.aged_refl s, id, id, id, (hf s.nv).1, (hf s.nv).2⟩

theorem modFeed_keeps {i : Fin 2} {f : Feed → Feed} (h : Keeps s0 s) : Keeps s0 (s.modFeed i f) := modBus_keeps h
theorem modCont_keeps {i : Fin 4} {f : Contactor → Contactor} (h : Keeps s0 s) : Keeps s0 (s.modCont i f) := modBus_keeps h
theorem modStrPort_keeps {i : Fin 4} {f : Port → Port} (h : Keeps s0 s) : Keeps s0 (s.modStrPort i f) := modChg_keeps h

theorem atLeast_keeps {t : Nat} (h : Keeps s0 s) : Keeps s0 (s.atLeast t) :=
  h.trans ⟨rfl, Nat.le_max_left _ _, Or.inl ⟨rfl, Int.le_refl _, id⟩, id, id, id, SecState.within_refl _, id⟩

end Sys2Proof.Machine
end

