-- ==== Sys2Proof/Laws/KeepOps.lean ====
section
/-! SUPPORT. What the operations and meanings of `Machine/Ops.lean` keep (`Keeps`). -/

namespace Sys2Proof.Machine

variable {s0 s : State}

theorem State.atDevice_keeps {t_ : Nat} (h : Keeps s0 s) : Keeps s0 (State.atDevice t_ s) := by
  unfold State.atDevice
  repeat' (first
    | with_reducible assumption | with_reducible apply atLeast_keeps)

theorem ParamState.wf_set {p : ParamState} (id : Nat) (v : BitVec 64) (h : p.wf) :
    ParamState.wf { p with values := bankSet (BitVec.ofNat 64 (paramDefault id)) id v p.values } := by
  refine ⟨?_, ?_⟩ <;> dsimp only <;> unfold bankSet <;> split
  · exact bankRising_drop id h.1
  · exact bankRising_put id v (Nat.zero_le _) h.1
  · exact fun e he => h.2 e (mem_bankDrop he)
  · rename_i hv
    intro e he
    rcases mem_bankPut he with he | he
    · exact he ▸ hv
    · exact h.2 e he

theorem State.setParam_keeps {id v : Nat} (h : Keeps s0 s) : Keeps s0 (State.setParam id v s) :=
  modHost_keeps h (fun _ hx => ParamState.wf_set id _ hx)

theorem State.pickParam_keeps {id : Nat} (h : Keeps s0 s) : Keeps s0 (State.pickParam id s) := by
  unfold State.pickParam
  repeat' (first
    | with_reducible assumption | with_reducible refine modHost_keeps ?_ (fun _ hx => hx)
    | with_reducible apply modHost_keeps | exact fun _ hx => hx)

theorem State.raise_keeps {n : Nat} (h : Keeps s0 s) : Keeps s0 (State.raise n s) := by
  unfold State.raise
  repeat' (first
    | with_reducible assumption | with_reducible refine modSys_keeps ?_ (fun _ hx => hx)
    | with_reducible apply modSys_keeps | exact fun _ hx => hx)

theorem State.raiseIf_keeps {b : Bool} {n : Nat} (h : Keeps s0 s) : Keeps s0 (State.raiseIf b n s) := by
  unfold State.raiseIf
  repeat' (first
    | with_reducible assumption | with_reducible apply ite_keeps | with_reducible apply State.raise_keeps)

theorem State.emit_keeps {src : RingSource} {d : RingDest} {bytes : List Byte} (h : Keeps s0 s) : Keeps s0 (State.emit src d bytes s) := by
  unfold State.emit
  repeat' (first
    | with_reducible assumption | with_reducible apply ite_keeps
    | with_reducible refine modSys_keeps ?_ (fun _ hx => hx) | with_reducible apply modSys_keeps
    | exact fun _ hx => hx)

theorem State.store_keeps {type : Nat} {key : Nat} {payload : List Byte} (h : Keeps s0 s) : Keeps s0 (State.store type key payload s) := by
  unfold State.store
  repeat' (first
    | with_reducible assumption
    | with_reducible refine modNv_keeps ?_ (fun _ => SecState.same rfl rfl rfl rfl rfl)
    | with_reducible apply modNv_keeps | exact fun _ => SecState.same rfl rfl rfl rfl rfl)

theorem State.event_keeps {src : RingSource} {d : RingDest} {code : Nat} {body : List Byte} (h : Keeps s0 s) : Keeps s0 (State.event src d code body s) := by
  unfold State.event
  repeat' (first
    | with_reducible assumption | with_reducible apply State.store_keeps
    | with_reducible apply State.emit_keeps)

theorem State.openEvent_keeps {src : RingSource} {d : RingDest} (h : Keeps s0 s) : Keeps s0 (State.openEvent src d s) := by
  unfold State.openEvent
  repeat' (first
    | with_reducible assumption | with_reducible apply State.store_keeps
    | with_reducible apply State.emit_keeps | with_reducible apply freeCtr_keeps)

theorem State.storeOpen_keeps {type : Nat} {key : Nat} {n : Nat} (h : Keeps s0 s) : Keeps s0 (State.storeOpen type key n s) := by
  unfold State.storeOpen
  repeat' (first
    | with_reducible assumption | with_reducible apply State.store_keeps | with_reducible apply freeCtr_keeps)

theorem State.audit_keeps {owner : Nat} {status : Nat} {opcode : Nat} {tag : Nat} {seq : Nat} {content : List Byte} (h : Keeps s0 s) : Keeps s0 (State.audit owner status opcode tag seq content s) := by
  unfold State.audit
  repeat' (first
    | with_reducible assumption | with_reducible apply State.store_keeps
    | with_reducible apply State.emit_keeps)

theorem State.send_keeps {x_ : Response} (h : Keeps s0 s) : Keeps s0 (State.send x_ s) := by
  unfold State.send
  repeat' (first
    | with_reducible assumption | with_reducible apply ite_keeps | with_reducible apply modLink_keeps
    | with_reducible refine modHost_keeps ?_ (fun _ hx => hx) | with_reducible apply modHost_keeps
    | exact fun _ hx => hx | with_reducible apply State.emit_keeps | split | dsimp only)

theorem State.answer_keeps {raw : Option U32} {r : Req} {opcode : Nat} {a : Reply} (h : Keeps s0 s) : Keeps s0 (State.answer raw r opcode a s) := by
  unfold State.answer
  repeat' (first
    | with_reducible assumption | with_reducible apply ite_keeps
    | with_reducible refine modNv_keeps ?_ (fun _ => SecState.same rfl rfl rfl rfl rfl)
    | with_reducible apply modNv_keeps | exact fun _ => SecState.same rfl rfl rfl rfl rfl
    | with_reducible apply State.send_keeps)

theorem State.respond_keeps {r : Req} {opcode : Nat} {a : Reply} (h : Keeps s0 s) : Keeps s0 (State.respond r opcode a s) := by
  unfold State.respond
  repeat' (first
    | with_reducible assumption | with_reducible apply State.answer_keeps)

theorem State.auditReq_keeps {r : Req} {opcode : Nat} {a : Reply} (h : Keeps s0 s) : Keeps s0 (State.auditReq r opcode a s) := by
  unfold State.auditReq
  repeat' (first
    | with_reducible assumption | with_reducible apply ite_keeps | with_reducible apply State.audit_keeps)

theorem State.finish_keeps {r : Req} {opcode : Nat} {a : Reply} (h : Keeps s0 s) : Keeps s0 (State.finish r opcode a s) := by
  unfold State.finish
  repeat' (first
    | with_reducible assumption | with_reducible apply ite_keeps | with_reducible apply State.auditReq_keeps
    | with_reducible apply State.respond_keeps | with_reducible refine modHost_keeps ?_ (fun _ hx => hx)
    | with_reducible apply modHost_keeps | exact fun _ hx => hx)

theorem State.mark_keeps {r : Req} {a : Reply} (h : Keeps s0 s) : Keeps s0 (State.mark r a s) := by
  unfold State.mark
  repeat' (first
    | with_reducible assumption | with_reducible apply ite_keeps
    | with_reducible refine modHost_keeps ?_ (fun _ hx => hx) | with_reducible apply modHost_keeps
    | exact fun _ hx => hx)

theorem State.complete_keeps {r : Req} {opcode : Nat} {a : Reply} (h : Keeps s0 s) : Keeps s0 (State.complete r opcode a s) := by
  unfold State.complete
  repeat' (first
    | with_reducible assumption | with_reducible apply State.finish_keeps
    | with_reducible apply State.mark_keeps)

theorem State.record_keeps {r : Req} {opcode : Nat} (h : Keeps s0 s) : Keeps s0 (State.record r opcode s) := by
  unfold State.record
  repeat' (first
    | with_reducible assumption | with_reducible refine modHost_keeps ?_ (fun _ hx => hx)
    | with_reducible apply modHost_keeps | exact fun _ hx => hx)

theorem State.park_keeps {r : Req} {opcode : Nat} (h : Keeps s0 s) : Keeps s0 (State.park r opcode s) := by
  unfold State.park
  repeat' (first
    | with_reducible assumption | with_reducible apply ite_keeps | with_reducible apply State.record_keeps
    | with_reducible apply State.respond_keeps)

theorem runOp_keeps {opcode : Nat} {alts : Alts} {shape : List Byte → Option Nat} {body : State → Res} {r : Req}
    (h : Keeps s0 s) (hb : ∀ t, Keeps s0 t → KeepsRes s0 (body t)) :
    Keeps s0 (s.runOp opcode alts shape body r) := by
  unfold State.runOp
  have hr := hb s h
  split
  · exact h
  · split
    · exact State.finish_keeps h
    · refine ite_keeps (State.park_keeps h) ?_
      split
      · exact State.finish_keeps h
      · split
        · rename_i e
          rw [e] at hr
          exact State.complete_keeps hr
        · exact State.finish_keeps h
        · rename_i e
          rw [e] at hr
          exact State.park_keeps hr

theorem needLease_keeps {r : Req} {b : Res} (h : KeepsRes s0 b) : KeepsRes s0 (s.needLease r b) := by
  unfold State.needLease
  split
  · exact h
  · trivial

end Sys2Proof.Machine
end

