-- ==== Sys2Proof/Laws/KeepGroupOps.lean ====
section
/-! SUPPORT. What the operations and meanings of `Machine/GroupOps.lean` keep (`Keeps`). -/

namespace Sys2Proof.Machine

variable {s0 s : State}

theorem State.bumpEpoch_keeps {g : Fin 8} {b : Bump} (h : Keeps s0 s) : Keeps s0 (State.bumpEpoch g b s) := by
  unfold State.bumpEpoch
  repeat' (first
    | with_reducible assumption | with_reducible apply ite_keeps | with_reducible apply modGroup_keeps)

theorem settleGroup_keeps {s0_ : State} {g : Fin 8} (h : Keeps s0 s) : Keeps s0 (settleGroup s0_ g s) := by
  unfold settleGroup
  repeat' (first
    | with_reducible assumption | with_reducible apply modGroup_keeps
    | with_reducible apply State.raiseIf_keeps)

theorem State.settle_keeps {s0_ : State} (h : Keeps s0 s) : Keeps s0 (State.settle s s0_) := by
  unfold State.settle
  repeat' (first
    | with_reducible assumption | with_reducible refine eachGroup_keeps ?_ (fun x t ht => ?_)
    | with_reducible apply settleGroup_keeps)

theorem State.stopPhase_keeps {p : Fin 64} (h : Keeps s0 s) : Keeps s0 (State.stopPhase p s) := by
  unfold State.stopPhase
  repeat' (first
    | with_reducible assumption | with_reducible refine modPhase_keeps ?_ (fun _ hx => hx)
    | with_reducible apply modPhase_keeps | exact fun _ hx => hx | exact fun _ hx => Phase.stop_exclusive hx
    | exact fun _ hx => Phase.low_exclusive hx | exact fun _ hx => exclusive_ite hx hx)

theorem State.groupLow_keeps {g : Fin 8} (h : Keeps s0 s) : Keeps s0 (State.groupLow g s) := by
  unfold State.groupLow
  repeat' (first
    | with_reducible assumption | with_reducible refine foldl_keeps ?_ (fun t x ht => ?_)
    | with_reducible apply State.stopPhase_keeps)

theorem State.endScheduled_keeps {sel : Scheduled → Bool} {status : Nat} {detail : Nat} (h : Keeps s0 s) : Keeps s0 (State.endScheduled sel status detail s) := by
  unfold State.endScheduled
  repeat' (first
    | with_reducible assumption | with_reducible refine foldl_keeps ?_ (fun t x ht => ?_)
    | with_reducible refine modConv_keeps ?_ (fun _ hx => hx) | with_reducible apply modConv_keeps
    | exact fun _ hx => hx | with_reducible apply State.finish_keeps)

theorem State.endWaiting_keeps {g : Fin 8} {status : Nat} {detail : Nat} (h : Keeps s0 s) : Keeps s0 (State.endWaiting g status detail s) := by
  unfold State.endWaiting
  repeat' (first
    | with_reducible assumption | with_reducible refine foldl_keeps ?_ (fun t x ht => ?_)
    | with_reducible refine eachGroup_keeps ?_ (fun x t ht => ?_) | with_reducible apply modGroup_keeps
    | with_reducible apply State.finish_keeps)

theorem State.stippleAbort_keeps {p : Fin 4} {cause : Nat} (h : Keeps s0 s) : Keeps s0 (State.stippleAbort p cause s) := by
  unfold State.stippleAbort
  repeat' (first
    | with_reducible assumption | with_reducible apply modStp_keeps)

theorem State.stippleAbortAll_keeps {cause : Nat} (h : Keeps s0 s) : Keeps s0 (State.stippleAbortAll cause s) := by
  unfold State.stippleAbortAll
  repeat' (first
    | with_reducible assumption | with_reducible refine foldl_keeps ?_ (fun t x ht => ?_)
    | with_reducible apply State.stippleAbort_keeps)

theorem State.groupFault_keeps {g : Fin 8} {cause : Nat} (h : Keeps s0 s) : Keeps s0 (State.groupFault g cause s) := by
  unfold State.groupFault
  repeat' (first
    | with_reducible assumption | with_reducible apply ite_keeps | with_reducible apply modGroup_keeps
    | with_reducible apply State.groupLow_keeps | with_reducible apply State.bumpEpoch_keeps
    | with_reducible apply State.setParam_keeps | with_reducible apply State.endScheduled_keeps
    | with_reducible apply State.endWaiting_keeps | with_reducible apply State.stippleAbort_keeps | split
    | dsimp only)

theorem State.enterMode_keeps {g : Fin 8} {m : Mode} (h : Keeps s0 s) : Keeps s0 (State.enterMode g m s) := by
  unfold State.enterMode
  repeat' (first
    | with_reducible assumption | with_reducible apply ite_keeps | with_reducible apply State.groupLow_keeps
    | with_reducible apply modGroup_keeps | with_reducible apply modEst_keeps
    | with_reducible apply State.bumpEpoch_keeps | with_reducible apply State.stippleAbort_keeps | split
    | dsimp only)

theorem State.evalReady_keeps {g : Fin 8} (h : Keeps s0 s) : Keeps s0 (State.evalReady g s) := by
  unfold State.evalReady
  repeat' (first
    | with_reducible assumption | with_reducible apply ite_keeps | with_reducible apply modGroup_keeps
    | with_reducible apply State.groupFault_keeps)

theorem State.leaseLost_keeps {cause : LeaseLoss} (h : Keeps s0 s) : Keeps s0 (State.leaseLost cause s) := by
  unfold State.leaseLost
  repeat' (first
    | with_reducible assumption | with_reducible apply ite_keeps
    | with_reducible refine eachGroup_keeps ?_ (fun x t ht => ?_) | with_reducible apply modGroup_keeps
    | with_reducible apply State.setParam_keeps | with_reducible apply State.raise_keeps
    | with_reducible apply State.endScheduled_keeps | with_reducible refine modHost_keeps ?_ (fun _ hx => hx)
    | with_reducible apply modHost_keeps | exact fun _ hx => hx
    | with_reducible apply State.stippleAbortAll_keeps)

theorem State.faultNFalls_keeps {causeOf : Fin 8 → Nat} (h : Keeps s0 s) : Keeps s0 (State.faultNFalls causeOf s) := by
  unfold State.faultNFalls
  repeat' (first
    | with_reducible assumption | with_reducible apply State.stippleAbortAll_keeps
    | with_reducible refine eachGroup_keeps ?_ (fun x t ht => ?_) | with_reducible apply State.bumpEpoch_keeps
    | with_reducible apply State.groupFault_keeps | with_reducible apply State.raise_keeps
    | with_reducible refine eachPhase_keeps ?_ (fun x t ht => ?_)
    | with_reducible refine modPhase_keeps ?_ (fun _ hx => hx) | with_reducible apply modPhase_keeps
    | exact fun _ hx => hx | exact fun _ hx => Phase.stop_exclusive hx
    | exact fun _ hx => Phase.low_exclusive hx | exact fun _ hx => exclusive_ite hx hx)

theorem State.feedHeld_keeps {f : Fin 2} (h : Keeps s0 s) : Keeps s0 (State.feedHeld f s) := by
  unfold State.feedHeld
  repeat' (first
    | with_reducible assumption | with_reducible apply State.raise_keeps | with_reducible apply modFeed_keeps)

theorem State.safeState_keeps {cause : Nat} {flags : Nat} (h : Keeps s0 s) : Keeps s0 (State.safeState cause flags s) := by
  unfold State.safeState
  repeat' (first
    | with_reducible assumption | with_reducible apply ite_keeps
    | with_reducible refine foldl_keeps ?_ (fun t x ht => ?_)
    | with_reducible refine modSafety_keeps ?_ (fun _ hx => hx) | with_reducible apply modSafety_keeps
    | exact fun _ hx => hx | with_reducible refine modPower_keeps ?_ (fun _ => ⟨rfl, id⟩)
    | with_reducible apply modPower_keeps | exact fun _ => ⟨rfl, id⟩
    | with_reducible refine eachGroup_keeps ?_ (fun x t ht => ?_)
    | with_reducible apply State.groupFault_keeps | with_reducible apply State.faultNFalls_keeps
    | with_reducible apply State.feedHeld_keeps | with_reducible apply modBus_keeps
    | with_reducible apply modCont_keeps | with_reducible apply State.raiseIf_keeps)

end Sys2Proof.Machine
end

