-- ==== Sys2Proof/Laws/KeepTableOps.lean ====
section
/-! SUPPORT. What the operations and meanings of `Machine/TableOps.lean` keep (`Keeps`). -/

namespace Sys2Proof.Machine

variable {s0 s : State}

theorem State.activate_keeps {key : Nat} {t_ : Table} (h : Keeps s0 s) : Keeps s0 (State.activate key t_ s) := by
  unfold State.activate
  repeat' (first
    | with_reducible assumption | with_reducible refine modHost_keeps ?_ (fun _ hx => hx)
    | with_reducible apply modHost_keeps | exact fun _ hx => hx | with_reducible apply State.complete_keeps
    | with_reducible apply modOwner_keeps | split | dsimp only)

theorem State.takeTable_keeps {key : Nat} {bit : Nat} (h : Keeps s0 s) : Keeps s0 (State.takeTable key bit s) := by
  unfold State.takeTable
  repeat' (first
    | with_reducible assumption | with_reducible apply ite_keeps | with_reducible apply State.activate_keeps
    | with_reducible refine modHost_keeps ?_ (fun _ hx => hx) | with_reducible apply modHost_keeps
    | exact fun _ hx => hx | split | dsimp only)

theorem State.takeType_keeps {ty : Nat} {bit : Nat} (h : Keeps s0 s) : Keeps s0 (State.takeType ty bit s) := by
  unfold State.takeType
  repeat' (first
    | with_reducible assumption | with_reducible refine foldl_keeps ?_ (fun t x ht => ?_)
    | with_reducible apply State.takeTable_keeps)

end Sys2Proof.Machine
end

