-- ==== Sys2Proof/Laws/KeepStringOps.lean ====
section
/-! SUPPORT. What the operations and meanings of `Machine/StringOps.lean` keep (`Keeps`). -/

namespace Sys2Proof.Machine

variable {s0 s : State}

theorem State.modModule_keeps {m : Fin 64} {f : Module → Module} (h : Keeps s0 s) : Keeps s0 (State.modModule m f s) := by
  unfold State.modModule
  repeat' (first
    | with_reducible assumption | with_reducible apply modChain_keeps)

end Sys2Proof.Machine
end

