-- ==== Sys2Proof/Laws/KeepInputs.lean ====
section
/-! SUPPORT. What the operations and meanings of `Machine/Inputs.lean` keep (`Keeps`). -/

namespace Sys2Proof.Machine

variable {s0 s : State}

theorem State.takeInput_keeps {e : Fin 20 × List Capture} (h : Keeps s0 s) : Keeps s0 (State.takeInput e s) := by
  unfold State.takeInput
  repeat' (first
    | with_reducible assumption | with_reducible apply ite_keeps | with_reducible apply modMeas_keeps)

theorem State.takeInputs_keeps {es : List (Fin 20 × List Capture)} (h : Keeps s0 s) : Keeps s0 (State.takeInputs es s) := by
  unfold State.takeInputs
  repeat' (first
    | with_reducible assumption | with_reducible refine foldl_keeps ?_ (fun t x ht => ?_)
    | with_reducible apply State.takeInput_keeps)

theorem State.checkInputs_keeps (h : Keeps s0 s) : Keeps s0 (State.checkInputs s) := by
  unfold State.checkInputs
  repeat' (first
    | with_reducible assumption | with_reducible apply ite_keeps | with_reducible apply State.safeState_keeps)

end Sys2Proof.Machine
end

