-- ==== Sys2Proof/Laws/KeepPhase.lean ====
section
/-! SUPPORT. What the operations and meanings of `Machine/Phase.lean` keep (`Keeps`). -/

namespace Sys2Proof.Machine

variable {s0 s : State}

theorem State.setCause_keeps {p : Fin 64} {c : Nat} (h : Keeps s0 s) : Keeps s0 (State.setCause p c s) := by
  unfold State.setCause
  repeat' (first
    | with_reducible assumption | with_reducible apply ite_keeps | with_reducible apply State.raise_keeps
    | with_reducible refine modPhase_keeps ?_ (fun _ hx => hx) | with_reducible apply modPhase_keeps
    | exact fun _ hx => hx | exact fun _ hx => Phase.stop_exclusive hx
    | exact fun _ hx => Phase.low_exclusive hx | exact fun _ hx => exclusive_ite hx hx)

theorem State.setRole_keeps {p : Fin 64} {r : Role} (h : Keeps s0 s) : Keeps s0 (State.setRole p r s) := by
  unfold State.setRole
  repeat' (first
    | exact fun x hx => exclusive_ite hx (Phase.low_exclusive hx) | with_reducible assumption
    | with_reducible apply ite_keeps | with_reducible apply State.setParam_keeps
    | with_reducible refine modPhase_keeps ?_ (fun _ hx => hx) | with_reducible apply modPhase_keeps
    | exact fun _ hx => hx | exact fun _ hx => Phase.stop_exclusive hx
    | exact fun _ hx => Phase.low_exclusive hx | exact fun _ hx => exclusive_ite hx hx
    | with_reducible apply State.raise_keeps)

theorem State.retireNext_keeps {p : Fin 64} {c : Nat} (h : Keeps s0 s) : Keeps s0 (State.retireNext p c s) := by
  unfold State.retireNext
  repeat' (first
    | with_reducible assumption | with_reducible refine modPhase_keeps ?_ (fun _ hx => hx)
    | with_reducible apply modPhase_keeps | exact fun _ hx => hx | exact fun _ hx => Phase.stop_exclusive hx
    | exact fun _ hx => Phase.low_exclusive hx | exact fun _ hx => exclusive_ite hx hx)

theorem State.senseNext_keeps {p : Fin 64} {c : Nat} (h : Keeps s0 s) : Keeps s0 (State.senseNext p c s) := by
  unfold State.senseNext
  repeat' (first
    | with_reducible assumption | with_reducible refine modPhase_keeps ?_ (fun _ hx => hx)
    | with_reducible apply modPhase_keeps | exact fun _ hx => hx | exact fun _ hx => Phase.stop_exclusive hx
    | exact fun _ hx => Phase.low_exclusive hx | exact fun _ hx => exclusive_ite hx hx)

theorem State.driverFault_keeps {p : Fin 64} (h : Keeps s0 s) : Keeps s0 (State.driverFault p s) := by
  unfold State.driverFault
  repeat' (first
    | with_reducible assumption | with_reducible apply State.bumpEpoch_keeps
    | with_reducible apply State.setCause_keeps | with_reducible apply State.retireNext_keeps
    | with_reducible apply State.stopPhase_keeps | split | dsimp only)

theorem State.dfltActs_keeps {p : Fin 64} (h : Keeps s0 s) : Keeps s0 (State.dfltActs p s) := by
  unfold State.dfltActs
  repeat' (first
    | with_reducible assumption | with_reducible apply State.driverFault_keeps
    | with_reducible refine modPhase_keeps ?_ (fun _ hx => hx) | with_reducible apply modPhase_keeps
    | exact fun _ hx => hx | exact fun _ hx => Phase.stop_exclusive hx
    | exact fun _ hx => Phase.low_exclusive hx | exact fun _ hx => exclusive_ite hx hx)

theorem State.dfltCheck_keeps {p : Fin 64} (h : Keeps s0 s) : Keeps s0 (State.dfltCheck p s) := by
  unfold State.dfltCheck
  repeat' (first
    | with_reducible assumption | with_reducible apply ite_keeps
    | with_reducible refine modPhase_keeps ?_ (fun _ hx => hx) | with_reducible apply modPhase_keeps
    | exact fun _ hx => hx | exact fun _ hx => Phase.stop_exclusive hx
    | exact fun _ hx => Phase.low_exclusive hx | exact fun _ hx => exclusive_ite hx hx
    | with_reducible apply State.raise_keeps | with_reducible apply State.dfltActs_keeps)

theorem execDfltAsserted_keeps {p : Fin 64} {held : Nat} (h : Keeps s0 s) : KeepsOut s0 (execDfltAsserted p held s) := by
  unfold execDfltAsserted
  repeat' (first
    | with_reducible assumption | with_reducible apply next_keeps | with_reducible apply iteOut_keeps
    | with_reducible apply ite_keeps | with_reducible apply State.settle_keeps
    | with_reducible apply State.dfltCheck_keeps | with_reducible refine modPhase_keeps ?_ (fun _ hx => hx)
    | with_reducible apply modPhase_keeps | exact fun _ hx => hx | exact fun _ hx => Phase.stop_exclusive hx
    | exact fun _ hx => Phase.low_exclusive hx | exact fun _ hx => exclusive_ite hx hx)

theorem execDfltBlankingEnd_keeps {p : Fin 64} (h : Keeps s0 s) : KeepsOut s0 (execDfltBlankingEnd p s) := by
  unfold execDfltBlankingEnd
  repeat' (first
    | with_reducible assumption | with_reducible apply next_keeps | with_reducible apply iteOut_keeps
    | with_reducible apply ite_keeps | with_reducible apply State.atDevice_keeps
    | with_reducible apply State.settle_keeps | with_reducible apply State.dfltActs_keeps | split | dsimp only)

theorem execDfltDeasserted_keeps {p : Fin 64} (h : Keeps s0 s) : KeepsOut s0 (execDfltDeasserted p s) := by
  unfold execDfltDeasserted
  repeat' (first
    | with_reducible assumption | with_reducible apply next_keeps | with_reducible apply State.dfltCheck_keeps
    | with_reducible refine modPhase_keeps ?_ (fun _ hx => hx) | with_reducible apply modPhase_keeps
    | exact fun _ hx => hx | exact fun _ hx => Phase.stop_exclusive hx
    | exact fun _ hx => Phase.low_exclusive hx | exact fun _ hx => exclusive_ite hx hx)

theorem State.trip_keeps {p : Fin 64} (h : Keeps s0 s) : Keeps s0 (State.trip p s) := by
  unfold State.trip
  repeat' (first
    | with_reducible assumption | with_reducible apply ite_keeps
    | with_reducible refine modPhase_keeps ?_ (fun _ hx => hx) | with_reducible apply modPhase_keeps
    | exact fun _ hx => hx | exact fun _ hx => Phase.stop_exclusive hx
    | exact fun _ hx => Phase.low_exclusive hx | exact fun _ hx => exclusive_ite hx hx
    | with_reducible apply State.bumpEpoch_keeps | with_reducible apply State.setCause_keeps
    | with_reducible apply State.retireNext_keeps)

theorem execFastTrip_keeps {p : Fin 64} {bits : List Bool} (h : Keeps s0 s) : KeepsOut s0 (execFastTrip p bits s) := by
  unfold execFastTrip
  repeat' (first
    | with_reducible assumption | with_reducible apply next_keeps | with_reducible apply iteOut_keeps
    | with_reducible apply ite_keeps | with_reducible apply State.settle_keeps
    | with_reducible apply State.trip_keeps)

theorem State.senseFlag_keeps {p : Fin 64} {cause : Nat} (h : Keeps s0 s) : Keeps s0 (State.senseFlag p cause s) := by
  unfold State.senseFlag
  repeat' (first
    | with_reducible assumption | with_reducible apply ite_keeps | with_reducible apply State.senseNext_keeps)

theorem execSdStuckDetect_keeps {p : Fin 64} (h : Keeps s0 s) : KeepsOut s0 (execSdStuckDetect p s) := by
  unfold execSdStuckDetect
  repeat' (first
    | with_reducible assumption | with_reducible apply next_keeps | with_reducible apply State.senseFlag_keeps
    | with_reducible refine modPhase_keeps ?_ (fun _ hx => hx) | with_reducible apply modPhase_keeps
    | exact fun _ hx => hx | exact fun _ hx => Phase.stop_exclusive hx
    | exact fun _ hx => Phase.low_exclusive hx | exact fun _ hx => exclusive_ite hx hx)

theorem execSdClkLostDetect_keeps {k : Fin 8} (h : Keeps s0 s) : KeepsOut s0 (execSdClkLostDetect k s) := by
  unfold execSdClkLostDetect
  repeat' (first
    | with_reducible assumption | with_reducible apply next_keeps
    | with_reducible refine foldl_keeps ?_ (fun t x ht => ?_) | with_reducible apply State.senseFlag_keeps
    | with_reducible refine modPhase_keeps ?_ (fun _ hx => hx) | with_reducible apply modPhase_keeps
    | exact fun _ hx => hx | exact fun _ hx => Phase.stop_exclusive hx
    | exact fun _ hx => Phase.low_exclusive hx | exact fun _ hx => exclusive_ite hx hx)

theorem execSenseFlagClear_keeps {p : Fin 64} {stuck : Bool} {clock : Bool} (h : Keeps s0 s) : KeepsOut s0 (execSenseFlagClear p stuck clock s) := by
  unfold execSenseFlagClear
  repeat' (first
    | with_reducible assumption | with_reducible apply next_keeps | with_reducible apply iteOut_keeps
    | with_reducible apply ite_keeps | with_reducible refine foldl_keeps ?_ (fun t x ht => ?_)
    | with_reducible refine modPhase_keeps ?_ (fun _ hx => hx) | with_reducible apply modPhase_keeps
    | exact fun _ hx => hx | exact fun _ hx => Phase.stop_exclusive hx
    | exact fun _ hx => Phase.low_exclusive hx | exact fun _ hx => exclusive_ite hx hx)

theorem execDeadtimeLimit_keeps {p : Fin 64} (h : Keeps s0 s) : KeepsOut s0 (execDeadtimeLimit p s) := by
  unfold execDeadtimeLimit
  repeat' (first
    | with_reducible assumption | with_reducible apply next_keeps | with_reducible apply iteOut_keeps
    | with_reducible apply ite_keeps | with_reducible apply State.setCause_keeps
    | with_reducible refine modPhase_keeps ?_ (fun _ hx => hx) | with_reducible apply modPhase_keeps
    | exact fun _ hx => hx | exact fun _ hx => Phase.stop_exclusive hx
    | exact fun _ hx => Phase.low_exclusive hx | exact fun _ hx => exclusive_ite hx hx)

theorem execOpenLegDetect_keeps {p : Fin 64} (h : Keeps s0 s) : KeepsOut s0 (execOpenLegDetect p s) := by
  unfold execOpenLegDetect
  repeat' (first
    | with_reducible assumption | with_reducible apply next_keeps | with_reducible apply iteOut_keeps
    | with_reducible apply ite_keeps | with_reducible apply State.retireNext_keeps
    | with_reducible refine modPhase_keeps ?_ (fun _ hx => hx) | with_reducible apply modPhase_keeps
    | exact fun _ hx => hx | exact fun _ hx => Phase.stop_exclusive hx
    | exact fun _ hx => Phase.low_exclusive hx | exact fun _ hx => exclusive_ite hx hx)

theorem execSenseImplausibleDetect_keeps {p : Fin 64} (h : Keeps s0 s) : KeepsOut s0 (execSenseImplausibleDetect p s) := by
  unfold execSenseImplausibleDetect
  repeat' (first
    | with_reducible assumption | with_reducible apply next_keeps | with_reducible apply iteOut_keeps
    | with_reducible apply ite_keeps | with_reducible apply State.senseNext_keeps
    | with_reducible refine modPhase_keeps ?_ (fun _ hx => hx) | with_reducible apply modPhase_keeps
    | exact fun _ hx => hx | exact fun _ hx => Phase.stop_exclusive hx
    | exact fun _ hx => Phase.low_exclusive hx | exact fun _ hx => exclusive_ite hx hx)

theorem execZeroCurrentOffsetDetect_keeps {p : Fin 64} (h : Keeps s0 s) : KeepsOut s0 (execZeroCurrentOffsetDetect p s) := by
  unfold execZeroCurrentOffsetDetect
  repeat' (first
    | with_reducible assumption | with_reducible apply next_keeps | with_reducible apply iteOut_keeps
    | with_reducible apply ite_keeps | with_reducible refine modPhase_keeps ?_ (fun _ hx => hx)
    | with_reducible apply modPhase_keeps | exact fun _ hx => hx | exact fun _ hx => Phase.stop_exclusive hx
    | exact fun _ hx => Phase.low_exclusive hx | exact fun _ hx => exclusive_ite hx hx
    | with_reducible apply State.retireNext_keeps | with_reducible apply State.setCause_keeps | split
    | dsimp only)

theorem execSenseSumRecord_keeps {g : Fin 8} (h : Keeps s0 s) : KeepsOut s0 (execSenseSumRecord g s) := by
  unfold execSenseSumRecord
  repeat' (first
    | with_reducible assumption | with_reducible apply next_keeps | with_reducible apply iteOut_keeps
    | with_reducible apply ite_keeps | with_reducible apply State.event_keeps
    | with_reducible apply modGroup_keeps)

theorem execWearLimitReached_keeps {p : Fin 64} (h : Keeps s0 s) : KeepsOut s0 (execWearLimitReached p s) := by
  unfold execWearLimitReached
  repeat' (first
    | with_reducible assumption | with_reducible apply next_keeps | with_reducible apply iteOut_keeps
    | with_reducible apply ite_keeps | with_reducible refine modPhase_keeps ?_ (fun _ hx => hx)
    | with_reducible apply modPhase_keeps | exact fun _ hx => hx | exact fun _ hx => Phase.stop_exclusive hx
    | exact fun _ hx => Phase.low_exclusive hx | exact fun _ hx => exclusive_ite hx hx)

theorem State.overTemp_keeps {p : Fin 64} {asserted : Bool} (h : Keeps s0 s) : Keeps s0 (State.overTemp p asserted s) := by
  unfold State.overTemp
  repeat' (first
    | with_reducible assumption | with_reducible apply ite_keeps
    | with_reducible refine modPhase_keeps ?_ (fun _ hx => hx) | with_reducible apply modPhase_keeps
    | exact fun _ hx => hx | exact fun _ hx => Phase.stop_exclusive hx
    | exact fun _ hx => Phase.low_exclusive hx | exact fun _ hx => exclusive_ite hx hx
    | with_reducible apply State.retireNext_keeps)

theorem execShadowEnd_keeps {p : Fin 64} (h : Keeps s0 s) : KeepsOut s0 (execShadowEnd p s) := by
  unfold execShadowEnd
  repeat' (first
    | with_reducible assumption | with_reducible apply next_keeps | with_reducible apply iteOut_keeps
    | with_reducible apply ite_keeps | with_reducible refine modPhase_keeps ?_ (fun _ hx => hx)
    | with_reducible apply modPhase_keeps | exact fun _ hx => hx | exact fun _ hx => Phase.stop_exclusive hx
    | exact fun _ hx => Phase.low_exclusive hx | exact fun _ hx => exclusive_ite hx hx | split | dsimp only)

theorem execPhaseBankSupplyWindow_keeps {k : Fin 8} {mv : Nat} {ns : Nat} (h : Keeps s0 s) : KeepsOut s0 (execPhaseBankSupplyWindow k mv ns s) := by
  unfold execPhaseBankSupplyWindow
  repeat' (first
    | with_reducible assumption | with_reducible apply next_keeps | with_reducible apply iteOut_keeps
    | with_reducible apply ite_keeps | with_reducible refine foldl_keeps ?_ (fun t x ht => ?_)
    | with_reducible refine modConv_keeps ?_ (fun _ hx => hx) | with_reducible apply modConv_keeps
    | exact fun _ hx => hx | with_reducible apply State.settle_keeps
    | with_reducible apply State.driverFault_keeps | with_reducible refine modPhase_keeps ?_ (fun _ hx => hx)
    | with_reducible apply modPhase_keeps | exact fun _ hx => hx | exact fun _ hx => Phase.stop_exclusive hx
    | exact fun _ hx => Phase.low_exclusive hx | exact fun _ hx => exclusive_ite hx hx)

theorem execPhaseStatus_keeps {r : Req} (h : Keeps s0 s) : KeepsOut s0 (execPhaseStatus r s) := by
  unfold execPhaseStatus
  repeat' (first
    | with_reducible assumption | with_reducible apply ok_keeps | with_reducible apply next_keeps
    | with_reducible refine runOp_keeps ?_ (fun t ht => ?_))

theorem execPhaseTelemetry_keeps {r : Req} (h : Keeps s0 s) : KeepsOut s0 (execPhaseTelemetry r s) := by
  unfold execPhaseTelemetry
  repeat' (first
    | with_reducible assumption | with_reducible apply ok_keeps | with_reducible apply next_keeps
    | with_reducible refine foldl_keeps ?_ (fun t x ht => ?_)
    | with_reducible refine runOp_keeps ?_ (fun t ht => ?_)
    | with_reducible refine modPhase_keeps ?_ (fun _ hx => hx) | with_reducible apply modPhase_keeps
    | exact fun _ hx => hx | exact fun _ hx => Phase.stop_exclusive hx
    | exact fun _ hx => Phase.low_exclusive hx | exact fun _ hx => exclusive_ite hx hx)

theorem execPhaseCounters_keeps {r : Req} (h : Keeps s0 s) : KeepsOut s0 (execPhaseCounters r s) := by
  unfold execPhaseCounters
  repeat' (first
    | with_reducible assumption | with_reducible apply ok_keeps | with_reducible apply next_keeps
    | with_reducible refine runOp_keeps ?_ (fun t ht => ?_))

theorem execPhaseRestore_keeps {r : Req} (h : Keeps s0 s) : KeepsOut s0 (execPhaseRestore r s) := by
  unfold execPhaseRestore
  repeat' (first
    | with_reducible assumption | with_reducible apply wait_keeps | with_reducible apply no_keeps
    | with_reducible apply next_keeps | with_reducible refine runOp_keeps ?_ (fun t ht => ?_)
    | with_reducible refine modPhase_keeps ?_ (fun _ hx => hx) | with_reducible apply modPhase_keeps
    | exact fun _ hx => hx | exact fun _ hx => Phase.stop_exclusive hx
    | exact fun _ hx => Phase.low_exclusive hx | exact fun _ hx => exclusive_ite hx hx | split | dsimp only)

theorem execPhaseReplaced_keeps {r : Req} (h : Keeps s0 s) : KeepsOut s0 (execPhaseReplaced r s) := by
  unfold execPhaseReplaced
  repeat' (first
    | with_reducible assumption | with_reducible apply ok_keeps | with_reducible apply no_keeps
    | with_reducible apply iteRes_keeps | with_reducible apply next_keeps | with_reducible apply iteOut_keeps
    | with_reducible apply ite_keeps | with_reducible refine runOp_keeps ?_ (fun t ht => ?_)
    | with_reducible apply State.audit_keeps | with_reducible refine modPhase_keeps ?_ (fun _ hx => hx)
    | with_reducible apply modPhase_keeps | exact fun _ hx => hx | exact fun _ hx => Phase.stop_exclusive hx
    | exact fun _ hx => Phase.low_exclusive hx | exact fun _ hx => exclusive_ite hx hx | split | dsimp only)

theorem State.inject_keeps {p : Fin 64} {kind : Nat} (h : Keeps s0 s) : Keeps s0 (State.inject p kind s) := by
  unfold State.inject
  repeat' (first
    | with_reducible assumption | with_reducible apply ite_keeps | with_reducible apply State.dfltActs_keeps
    | with_reducible apply State.trip_keeps | with_reducible apply State.senseFlag_keeps
    | with_reducible refine modPhase_keeps ?_ (fun _ hx => hx) | with_reducible apply modPhase_keeps
    | exact fun _ hx => hx | exact fun _ hx => Phase.stop_exclusive hx
    | exact fun _ hx => Phase.low_exclusive hx | exact fun _ hx => exclusive_ite hx hx | split | dsimp only)

theorem execPhaseFaultInject_keeps {r : Req} (h : Keeps s0 s) : KeepsOut s0 (execPhaseFaultInject r s) := by
  unfold execPhaseFaultInject
  repeat' (first
    | with_reducible assumption | with_reducible apply ok_keeps | with_reducible apply no_keeps
    | with_reducible apply iteRes_keeps | with_reducible apply next_keeps | with_reducible apply iteOut_keeps
    | with_reducible apply ite_keeps | with_reducible apply State.settle_keeps
    | with_reducible refine runOp_keeps ?_ (fun t ht => ?_) | with_reducible apply needLease_keeps
    | with_reducible apply State.inject_keeps | split | dsimp only)

end Sys2Proof.Machine
end

