-- ==== Sys2Proof/Laws/KeepAdc.lean ====
section
/-! SUPPORT. What the operations and meanings of `Machine/Adc.lean` keep (`Keeps`). -/

namespace Sys2Proof.Machine

variable {s0 s : State}

theorem State.followTherm_keeps {p : Fin 64} (h : Keeps s0 s) : Keeps s0 (State.followTherm p s) := by
  unfold State.followTherm
  repeat' (first
    | with_reducible assumption | with_reducible apply ite_keeps | with_reducible apply State.overTemp_keeps)

theorem State.refreshThermal_keeps (h : Keeps s0 s) : Keeps s0 (State.refreshThermal s) := by
  unfold State.refreshThermal
  repeat' (first
    | with_reducible assumption | with_reducible refine eachPhase_keeps ?_ (fun x t ht => ?_)
    | with_reducible apply State.followTherm_keeps)

theorem execPhaseThermalInput_keeps {p : Fin 64} (h : Keeps s0 s) : KeepsOut s0 (execPhaseThermalInput p s) := by
  unfold execPhaseThermalInput
  repeat' (first
    | with_reducible assumption | with_reducible apply next_keeps
    | with_reducible apply State.followTherm_keeps)

theorem State.calibrate_keeps {sel : Converter → Bool} (h : Keeps s0 s) : Keeps s0 (State.calibrate sel s) := by
  unfold State.calibrate
  repeat' (first
    | with_reducible assumption | with_reducible apply ite_keeps | with_reducible apply modMeas_keeps)

end Sys2Proof.Machine
end

