-- ==== Sys2Proof/Laws/KeepInterleave.lean ====
section
/-! SUPPORT. What the operations and meanings of `Machine/Interleave.lean` keep (`Keeps`). -/

namespace Sys2Proof.Machine

variable {s0 s : State}

theorem State.placeNew_keeps {g : Fin 8} {new : List (Fin 64)} (h : Keeps s0 s) : Keeps s0 (State.placeNew g new s) := by
  unfold State.placeNew
  repeat' (first
    | with_reducible assumption | with_reducible apply ite_keeps
    | with_reducible refine foldl_keeps ?_ (fun t x ht => ?_)
    | with_reducible refine modPhase_keeps ?_ (fun _ hx => hx) | with_reducible apply modPhase_keeps
    | exact fun _ hx => hx | exact fun _ hx => Phase.stop_exclusive hx
    | exact fun _ hx => Phase.low_exclusive hx | exact fun _ hx => exclusive_ite hx hx)

theorem State.glidePhases_keeps {g : Fin 8} (h : Keeps s0 s) : Keeps s0 (State.glidePhases g s) := by
  unfold State.glidePhases
  repeat' (first
    | with_reducible assumption | with_reducible refine foldl_keeps ?_ (fun t x ht => ?_)
    | with_reducible refine modPhase_keeps ?_ (fun _ hx => hx) | with_reducible apply modPhase_keeps
    | exact fun _ hx => hx | exact fun _ hx => Phase.stop_exclusive hx
    | exact fun _ hx => Phase.low_exclusive hx | exact fun _ hx => exclusive_ite hx hx)

theorem State.startSwitching_keeps {g : Fin 8} {ps : List (Fin 64)} (h : Keeps s0 s) : Keeps s0 (State.startSwitching g ps s) := by
  unfold State.startSwitching
  repeat' (first
    | with_reducible assumption | with_reducible refine foldl_keeps ?_ (fun t x ht => ?_)
    | with_reducible refine modPhase_keeps ?_ (fun _ hx => hx) | with_reducible apply modPhase_keeps
    | exact fun _ hx => hx | exact fun _ hx => Phase.stop_exclusive hx
    | exact fun _ hx => Phase.low_exclusive hx | exact fun _ hx => exclusive_ite hx hx
    | with_reducible apply State.placeNew_keeps)

end Sys2Proof.Machine
end

