-- ==== Sys2Proof/Laws/KeepMode.lean ====
section
/-! SUPPORT. What the operations and meanings of `Machine/Mode.lean` keep (`Keeps`). -/

namespace Sys2Proof.Machine

variable {s0 s : State}

theorem State.seedLoop_keeps {g : Fin 8} {m : Mode} (h : Keeps s0 s) : Keeps s0 (State.seedLoop g m s) := by
  unfold State.seedLoop
  repeat' (first
    | with_reducible assumption | with_reducible apply modGroup_keeps | split | dsimp only)

theorem State.startMode_keeps {g : Fin 8} {m : Mode} (h : Keeps s0 s) : Keeps s0 (State.startMode g m s) := by
  unfold State.startMode
  repeat' (first
    | with_reducible assumption | with_reducible apply State.enterMode_keeps
    | with_reducible apply State.startSwitching_keeps | with_reducible apply modGroup_keeps
    | with_reducible apply State.seedLoop_keeps)

theorem State.resume_keeps {g : Fin 8} (h : Keeps s0 s) : Keeps s0 (State.resume g s) := by
  unfold State.resume
  repeat' (first
    | with_reducible assumption | with_reducible apply modGroup_keeps
    | with_reducible apply State.startSwitching_keeps)

theorem State.startRampDown_keeps {g : Fin 8} {target : Mode} (h : Keeps s0 s) : Keeps s0 (State.startRampDown g target s) := by
  unfold State.startRampDown
  repeat' (first
    | with_reducible assumption | with_reducible apply ite_keeps
    | with_reducible apply State.endScheduled_keeps | with_reducible apply modGroup_keeps)

theorem State.endPrecharge_keeps {g : Fin 8} (h : Keeps s0 s) : Keeps s0 (State.endPrecharge g s) := by
  unfold State.endPrecharge
  repeat' (first
    | with_reducible assumption | with_reducible apply ite_keeps | with_reducible apply modGroup_keeps
    | with_reducible apply State.startRampDown_keeps | with_reducible apply State.setParam_keeps)

theorem State.takeMode_keeps {g : Fin 8} {m : Mode} (h : Keeps s0 s) : Keeps s0 (State.takeMode g m s) := by
  unfold State.takeMode
  repeat' (first
    | with_reducible assumption | with_reducible apply ite_keeps | with_reducible apply State.setParam_keeps
    | with_reducible apply State.startRampDown_keeps | with_reducible apply State.enterMode_keeps
    | with_reducible apply State.startMode_keeps | with_reducible apply State.resume_keeps
    | with_reducible apply State.seedLoop_keeps | with_reducible apply modGroup_keeps | split | dsimp only)

theorem State.storeItem_keeps {id : Nat} {v : Nat} (h : Keeps s0 s) : Keeps s0 (State.storeItem id v s) := by
  unfold State.storeItem
  repeat' (first
    | with_reducible assumption | with_reducible apply ite_keeps | with_reducible apply modOwner_keeps
    | with_reducible apply State.setParam_keeps | with_reducible refine modPhase_keeps ?_ (fun _ hx => hx)
    | with_reducible apply modPhase_keeps | exact fun _ hx => hx | exact fun _ hx => Phase.stop_exclusive hx
    | exact fun _ hx => Phase.low_exclusive hx | exact fun _ hx => exclusive_ite hx hx
    | with_reducible apply State.takeMode_keeps | with_reducible apply modGroup_keeps)

end Sys2Proof.Machine
end

