-- ==== Sys2Proof/Laws/KeepCommit.lean ====
section
/-! SUPPORT. What the operations and meanings of `Machine/Commit.lean` keep (`Keeps`). -/

namespace Sys2Proof.Machine

variable {s0 s : State}

theorem State.keepDepth_keeps {g : Fin 8} {p : Fin 64} (h : Keeps s0 s) : Keeps s0 (State.keepDepth g p s) := by
  unfold State.keepDepth
  repeat' (first
    | with_reducible assumption | with_reducible apply ite_keeps
    | with_reducible refine modPhase_keeps ?_ (fun _ hx => hx) | with_reducible apply modPhase_keeps
    | exact fun _ hx => hx | exact fun _ hx => Phase.stop_exclusive hx
    | exact fun _ hx => Phase.low_exclusive hx | exact fun _ hx => exclusive_ite hx hx)

theorem ParamState.foldl_values {l : List Nat} {f : ParamState → Nat → ParamState}
    (hf : ∀ q k, (f q k).values = q.values) (x : ParamState) : (l.foldl f x).values = x.values := by
  induction l generalizing x with
  | nil => rfl
  | cons k l ih => exact (ih _).trans (hf x k)

theorem ParamState.pickPhase_values (p : Fin 64) (x : ParamState) : (x.pickPhase p).values = x.values :=
  ParamState.foldl_values (f := fun q k => q.pick (phId p (k + 1))) (fun _ _ => rfl) x

theorem pickHost_keeps {p : Fin 64} (h : Keeps s0 s) :
    Keeps s0 (s.modHost (fun x => { x with params := x.params.pickPhase p })) :=
  modHost_keeps h (fun x hx => by simpa only [ParamState.wf, ParamState.pickPhase_values] using hx)

theorem State.pickPhase_keeps {p : Fin 64} (h : Keeps s0 s) : Keeps s0 (State.pickPhase p s) := by
  unfold State.pickPhase
  exact State.dfltCheck_keeps (ite_keeps (pickHost_keeps h) (modPhase_keeps (pickHost_keeps h) (fun _ hx => hx)))

theorem State.retirePhase_keeps {p : Fin 64} {c : Nat} (h : Keeps s0 s) : Keeps s0 (State.retirePhase p c s) := by
  unfold State.retirePhase
  repeat' (first
    | with_reducible assumption | with_reducible apply ite_keeps | with_reducible apply State.raise_keeps
    | with_reducible apply State.setParam_keeps | with_reducible refine modPhase_keeps ?_ (fun _ hx => hx)
    | with_reducible apply modPhase_keeps | exact fun _ hx => hx | exact fun _ hx => Phase.stop_exclusive hx
    | exact fun _ hx => Phase.low_exclusive hx | exact fun _ hx => exclusive_ite hx hx)

theorem State.enterShadow_keeps {half : Bool} {p : Fin 64} {c : Nat} {a : Fin 64} {b : Fin 64} (h : Keeps s0 s) : Keeps s0 (State.enterShadow half p c a b s) := by
  unfold State.enterShadow
  repeat' (first
    | with_reducible assumption | with_reducible apply ite_keeps | with_reducible apply State.setParam_keeps
    | with_reducible refine modPhase_keeps ?_ (fun _ hx => hx) | with_reducible apply modPhase_keeps
    | exact fun _ hx => hx | exact fun _ hx => Phase.stop_exclusive hx
    | exact fun _ hx => Phase.low_exclusive hx | exact fun _ hx => exclusive_ite hx hx
    | with_reducible apply State.setCause_keeps)

theorem State.autoRole_keeps {g : Fin 8} {half : Bool} {near : List (Fin 64)} {p : Fin 64} (h : Keeps s0 s) : Keeps s0 (State.autoRole g half near p s) := by
  unfold State.autoRole
  repeat' (first
    | with_reducible assumption | with_reducible apply ite_keeps
    | with_reducible apply State.enterShadow_keeps | with_reducible apply State.retirePhase_keeps
    | with_reducible refine modPhase_keeps ?_ (fun _ hx => hx) | with_reducible apply modPhase_keeps
    | exact fun _ hx => hx | exact fun _ hx => Phase.stop_exclusive hx
    | exact fun _ hx => Phase.low_exclusive hx | exact fun _ hx => exclusive_ite hx hx | split | dsimp only)

theorem State.pickFiller_keeps {g : Fin 8} (h : Keeps s0 s) : Keeps s0 (State.pickFiller g s) := by
  unfold State.pickFiller
  repeat' (first
    | with_reducible assumption | with_reducible apply ite_keeps
    | with_reducible refine foldl_keeps ?_ (fun t x ht => ?_) | with_reducible apply State.setRole_keeps
    | split | dsimp only)

theorem State.fill_keeps {g : Fin 8} {gone : List (Fin 64)} (h : Keeps s0 s) : Keeps s0 (State.fill g gone s) := by
  unfold State.fill
  repeat' (first
    | with_reducible assumption | with_reducible apply ite_keeps
    | with_reducible refine foldl_keeps ?_ (fun t x ht => ?_) | with_reducible apply State.pickFiller_keeps)

theorem State.writeRole_keeps {p : Fin 64} (h : Keeps s0 s) : Keeps s0 (State.writeRole p s) := by
  unfold State.writeRole
  repeat' (first
    | with_reducible assumption | with_reducible apply ite_keeps
    | with_reducible refine modPhase_keeps ?_ (fun _ hx => hx) | with_reducible apply modPhase_keeps
    | exact fun _ hx => hx | exact fun _ hx => Phase.stop_exclusive hx
    | exact fun _ hx => Phase.low_exclusive hx | exact fun _ hx => exclusive_ite hx hx
    | with_reducible apply State.setRole_keeps | with_reducible apply State.setParam_keeps
    | with_reducible apply State.raise_keeps | split | dsimp only)

theorem State.restoreOne_keeps {p : Fin 64} {r : Req} (h : Keeps s0 s) : Keeps s0 (State.restoreOne p r s) := by
  unfold State.restoreOne
  repeat' (first
    | with_reducible assumption | with_reducible apply State.finish_keeps
    | with_reducible apply State.complete_keeps | with_reducible apply State.setRole_keeps
    | with_reducible refine modPhase_keeps ?_ (fun _ hx => hx) | with_reducible apply modPhase_keeps
    | exact fun _ hx => hx | exact fun _ hx => Phase.stop_exclusive hx
    | exact fun _ hx => Phase.low_exclusive hx | exact fun _ hx => exclusive_ite hx hx | split | dsimp only)

theorem State.applyRestore_keeps {p : Fin 64} (h : Keeps s0 s) : Keeps s0 (State.applyRestore p s) := by
  unfold State.applyRestore
  repeat' (first
    | with_reducible assumption | with_reducible refine foldl_keeps ?_ (fun t x ht => ?_)
    | with_reducible apply State.restoreOne_keeps | with_reducible refine modPhase_keeps ?_ (fun _ hx => hx)
    | with_reducible apply modPhase_keeps | exact fun _ hx => hx | exact fun _ hx => Phase.stop_exclusive hx
    | exact fun _ hx => Phase.low_exclusive hx | exact fun _ hx => exclusive_ite hx hx)

theorem State.joinPhases_keeps {g : Fin 8} {before : List (Fin 64)} (h : Keeps s0 s) : Keeps s0 (State.joinPhases g before s) := by
  unfold State.joinPhases
  repeat' (first
    | with_reducible assumption | with_reducible apply ite_keeps
    | with_reducible apply State.startSwitching_keeps)

theorem State.startRegrout_keeps {g : Fin 8} (h : Keeps s0 s) : Keeps s0 (State.startRegrout g s) := by
  unfold State.startRegrout
  repeat' (first
    | with_reducible assumption | with_reducible refine foldl_keeps ?_ (fun t x ht => ?_)
    | with_reducible refine modPhase_keeps ?_ (fun _ hx => hx) | with_reducible apply modPhase_keeps
    | exact fun _ hx => hx | exact fun _ hx => Phase.stop_exclusive hx
    | exact fun _ hx => Phase.low_exclusive hx | exact fun _ hx => exclusive_ite hx hx
    | with_reducible apply State.bumpEpoch_keeps | with_reducible apply modGroup_keeps)

theorem State.dfltAtRole_keeps {p : Fin 64} (h : Keeps s0 s) : Keeps s0 (State.dfltAtRole p s) := by
  unfold State.dfltAtRole
  repeat' (first
    | with_reducible assumption | with_reducible apply ite_keeps
    | with_reducible apply State.driverFault_keeps)

theorem State.commitRoles_keeps {g : Fin 8} {half : Bool} (h : Keeps s0 s) : Keeps s0 (State.commitRoles g half s) := by
  unfold State.commitRoles
  repeat' (first
    | with_reducible assumption | with_reducible apply ite_keeps
    | with_reducible refine foldl_keeps ?_ (fun t x ht => ?_) | with_reducible apply State.autoRole_keeps
    | with_reducible apply State.fill_keeps | with_reducible apply State.writeRole_keeps
    | with_reducible apply State.applyRestore_keeps | with_reducible apply State.retirePhase_keeps
    | with_reducible apply State.joinPhases_keeps | with_reducible apply State.keepDepth_keeps
    | with_reducible apply State.dfltAtRole_keeps | with_reducible apply State.startRegrout_keeps)

theorem State.commitFaults_keeps {g : Fin 8} (h : Keeps s0 s) : Keeps s0 (State.commitFaults g s) := by
  unfold State.commitFaults
  repeat' (first
    | with_reducible assumption | with_reducible apply ite_keeps | with_reducible apply State.groupFault_keeps)

theorem State.applyAck_keeps {g : Fin 8} (h : Keeps s0 s) : Keeps s0 (State.applyAck g s) := by
  unfold State.applyAck
  repeat' (first
    | with_reducible assumption | with_reducible apply ite_keeps | with_reducible apply modGroup_keeps
    | with_reducible apply State.finish_keeps | with_reducible apply State.setParam_keeps
    | with_reducible apply State.enterMode_keeps | with_reducible apply State.complete_keeps
    | with_reducible apply State.evalReady_keeps | split | dsimp only)

theorem State.applyEngines_keeps {g : Fin 8} (h : Keeps s0 s) : Keeps s0 (State.applyEngines g s) := by
  unfold State.applyEngines
  repeat' (first
    | with_reducible assumption | with_reducible apply ite_keeps
    | with_reducible refine modNv_keeps ?_ (fun _ => SecState.same rfl rfl rfl rfl rfl)
    | with_reducible apply modNv_keeps | exact fun _ => SecState.same rfl rfl rfl rfl rfl
    | with_reducible apply State.raise_keeps | with_reducible apply State.event_keeps)

theorem State.commitPhase_keeps {g : Fin 8} {half : Bool} {p : Fin 64} (h : Keeps s0 s) : Keeps s0 (State.commitPhase g half p s) := by
  unfold State.commitPhase
  repeat' (first
    | exact fun _ hx => Phase.commit_exclusive hx | with_reducible assumption
    | with_reducible refine modPhase_keeps ?_ (fun _ hx => hx) | with_reducible apply modPhase_keeps
    | exact fun _ hx => hx | exact fun _ hx => Phase.stop_exclusive hx
    | exact fun _ hx => Phase.low_exclusive hx | exact fun _ hx => exclusive_ite hx hx
    | with_reducible apply State.raiseIf_keeps)

theorem State.captureEdges_keeps {g : Fin 8} {half : Bool} (h : Keeps s0 s) : Keeps s0 (State.captureEdges g half s) := by
  unfold State.captureEdges
  repeat' (first
    | with_reducible assumption | with_reducible apply ite_keeps
    | with_reducible refine foldl_keeps ?_ (fun t x ht => ?_) | with_reducible apply State.emit_keeps
    | with_reducible apply modGroup_keeps)

theorem State.commitHead_keeps {g : Fin 8} {half : Bool} (h : Keeps s0 s) : Keeps s0 (State.commitHead g half s) := by
  unfold State.commitHead
  repeat' (first
    | with_reducible assumption | with_reducible refine foldl_keeps ?_ (fun t x ht => ?_)
    | with_reducible apply State.pickPhase_keeps | with_reducible apply State.applyAck_keeps
    | with_reducible apply State.commitFaults_keeps | with_reducible apply State.commitRoles_keeps)

theorem State.commitTail_keeps {s0_ : State} {g : Fin 8} {half : Bool} (h : Keeps s0 s) : Keeps s0 (State.commitTail s0_ g half s) := by
  unfold State.commitTail
  repeat' (first
    | with_reducible assumption | with_reducible apply ite_keeps
    | with_reducible refine foldl_keeps ?_ (fun t x ht => ?_) | with_reducible apply State.endPrecharge_keeps
    | with_reducible apply State.captureEdges_keeps | with_reducible apply State.applyEngines_keeps
    | with_reducible apply modGroup_keeps | with_reducible apply State.commitPhase_keeps
    | with_reducible refine modPhase_keeps ?_ (fun _ hx => hx) | with_reducible apply modPhase_keeps
    | exact fun _ hx => hx | exact fun _ hx => Phase.stop_exclusive hx
    | exact fun _ hx => Phase.low_exclusive hx | exact fun _ hx => exclusive_ite hx hx
    | with_reducible apply State.settle_keeps)

end Sys2Proof.Machine
end

