-- ==== Sys2Proof/Laws/KeepContactorOps.lean ====
section
/-! SUPPORT. What the operations and meanings of `Machine/ContactorOps.lean` keep (`Keeps`). -/

namespace Sys2Proof.Machine

variable {s0 s : State}

theorem State.contTo_keeps {p : Fin 4} {run : ContRun} {cause : Option Nat} (h : Keeps s0 s) : Keeps s0 (State.contTo p run cause s) := by
  unfold State.contTo
  repeat' (first
    | with_reducible assumption | with_reducible apply ite_keeps | with_reducible apply State.raiseIf_keeps
    | with_reducible apply modCont_keeps | with_reducible apply State.stippleAbort_keeps)

theorem State.weld_keeps {p : Fin 4} (h : Keeps s0 s) : Keeps s0 (State.weld p s) := by
  unfold State.weld
  repeat' (first
    | with_reducible assumption | with_reducible apply State.raiseIf_keeps
    | with_reducible apply modCont_keeps)

theorem State.release_keeps {p : Fin 4} (h : Keeps s0 s) : Keeps s0 (State.release p s) := by
  unfold State.release
  repeat' (first
    | with_reducible assumption | with_reducible apply ite_keeps | with_reducible apply modCont_keeps)

theorem State.freeGroup_keeps {p : Fin 4} (h : Keeps s0 s) : Keeps s0 (State.freeGroup p s) := by
  unfold State.freeGroup
  repeat' (first
    | with_reducible assumption | with_reducible apply State.endPrecharge_keeps | split | dsimp only)

theorem State.prechargeBy_keeps {p : Fin 4} {g : Fin 8} {run : ContRun} (h : Keeps s0 s) : Keeps s0 (State.prechargeBy p g run s) := by
  unfold State.prechargeBy
  repeat' (first
    | with_reducible assumption | with_reducible apply State.contTo_keeps | with_reducible apply modCont_keeps
    | with_reducible apply State.startMode_keeps | with_reducible apply State.setParam_keeps)

theorem State.startWeldTest_keeps {p : Fin 4} {g : Fin 8} (h : Keeps s0 s) : Keeps s0 (State.startWeldTest p g s) := by
  unfold State.startWeldTest
  repeat' (first
    | with_reducible assumption | with_reducible apply State.prechargeBy_keeps)

theorem State.opened_keeps {p : Fin 4} (h : Keeps s0 s) : Keeps s0 (State.opened p s) := by
  unfold State.opened
  repeat' (first
    | with_reducible assumption | with_reducible apply ite_keeps
    | with_reducible apply State.startWeldTest_keeps | with_reducible apply modCont_keeps
    | with_reducible apply State.contTo_keeps | split | dsimp only)

theorem State.closed__keeps {p : Fin 4} (h : Keeps s0 s) : Keeps s0 (State.closed_ p s) := by
  unfold State.closed_
  repeat' (first
    | with_reducible assumption | with_reducible apply modGroup_keeps
    | with_reducible apply State.contTo_keeps | split | dsimp only)

theorem State.contFeedback_keeps {p : Fin 4} (h : Keeps s0 s) : Keeps s0 (State.contFeedback p s) := by
  unfold State.contFeedback
  repeat' (first
    | with_reducible assumption | with_reducible apply ite_keeps | with_reducible apply State.closed__keeps
    | with_reducible apply State.opened_keeps | split | dsimp only)

theorem State.startOpening_keeps {p : Fin 4} {test : Bool} (h : Keeps s0 s) : Keeps s0 (State.startOpening p test s) := by
  unfold State.startOpening
  repeat' (first
    | with_reducible assumption | with_reducible apply modCont_keeps
    | with_reducible apply State.release_keeps | with_reducible apply State.contFeedback_keeps
    | with_reducible apply State.contTo_keeps)

theorem State.prechargeFails_keeps {g : Fin 8} {cause : Nat} (h : Keeps s0 s) : Keeps s0 (State.prechargeFails g cause s) := by
  unfold State.prechargeFails
  repeat' (first
    | with_reducible assumption | with_reducible apply ite_keeps
    | with_reducible apply State.endPrecharge_keeps | with_reducible apply State.contTo_keeps | split
    | dsimp only)

theorem State.endTest_keeps {p : Fin 4} {moved : Bool} (h : Keeps s0 s) : Keeps s0 (State.endTest p moved s) := by
  unfold State.endTest
  repeat' (first
    | with_reducible assumption | with_reducible apply ite_keeps | with_reducible apply State.freeGroup_keeps
    | with_reducible apply State.contTo_keeps | with_reducible apply modCont_keeps
    | with_reducible apply State.weld_keeps | with_reducible apply State.complete_keeps | split | dsimp only)

theorem State.precharge_keeps {g : Fin 8} (h : Keeps s0 s) : Keeps s0 (State.precharge g s) := by
  unfold State.precharge
  repeat' (first
    | with_reducible assumption | with_reducible apply ite_keeps | with_reducible apply State.endTest_keeps
    | with_reducible apply State.prechargeFails_keeps | split | dsimp only)

end Sys2Proof.Machine
end

