-- ==== Sys2Proof/Laws/KeepFeedOps.lean ====
section
/-! SUPPORT. What the operations and meanings of `Machine/FeedOps.lean` keep (`Keeps`). -/

namespace Sys2Proof.Machine

variable {s0 s : State}

theorem State.checkPg_keeps (h : Keeps s0 s) : Keeps s0 (State.checkPg s) := by
  unfold State.checkPg
  repeat' (first
    | with_reducible assumption | with_reducible apply ite_keeps | with_reducible apply State.raise_keeps
    | with_reducible apply modBus_keeps)

theorem State.feedTo_keeps {f : Fin 2} {run : FeedRun} {cause : Option Nat} (h : Keeps s0 s) : Keeps s0 (State.feedTo f run cause s) := by
  unfold State.feedTo
  repeat' (first
    | with_reducible assumption | with_reducible apply State.checkPg_keeps
    | with_reducible apply State.raiseIf_keeps | with_reducible apply modFeed_keeps)

theorem State.feedTrip_keeps {f : Fin 2} {cause : Nat} (h : Keeps s0 s) : Keeps s0 (State.feedTrip f cause s) := by
  unfold State.feedTrip
  repeat' (first
    | with_reducible assumption | with_reducible apply ite_keeps | with_reducible apply State.feedTo_keeps
    | with_reducible apply modFeed_keeps)

theorem State.loadComparators_keeps {f : Fin 2} (h : Keeps s0 s) : Keeps s0 (State.loadComparators f s) := by
  unfold State.loadComparators
  repeat' (first
    | with_reducible assumption | with_reducible apply modFeed_keeps)

theorem State.trackClosing_keeps (h : Keeps s0 s) : Keeps s0 (State.trackClosing s) := by
  unfold State.trackClosing
  repeat' (first
    | with_reducible assumption | with_reducible apply ite_keeps
    | with_reducible refine foldl_keeps ?_ (fun t x ht => ?_) | with_reducible apply modFeed_keeps)

theorem State.feedOpens_keeps {f : Fin 2} (h : Keeps s0 s) : Keeps s0 (State.feedOpens f s) := by
  unfold State.feedOpens
  repeat' (first
    | with_reducible assumption | with_reducible apply modFeed_keeps | with_reducible apply State.feedTo_keeps
    | with_reducible apply State.complete_keeps | split | dsimp only)

theorem State.advanceOpenings_keeps {g : Fin 8} (h : Keeps s0 s) : Keeps s0 (State.advanceOpenings g s) := by
  unfold State.advanceOpenings
  repeat' (first
    | with_reducible assumption | with_reducible apply ite_keeps
    | with_reducible refine foldl_keeps ?_ (fun t x ht => ?_) | with_reducible apply State.feedOpens_keeps
    | with_reducible apply modFeed_keeps | split | dsimp only)

end Sys2Proof.Machine
end

