-- ==== Sys2Proof/Laws/KeepTrowel.lean ====
section
/-! SUPPORT. What the operations and meanings of `Machine/Trowel.lean` keep (`Keeps`). -/

namespace Sys2Proof.Machine

variable {s0 s : State}

theorem Phase.account_exclusive {avg : Rat} {o : LawOut} {x : Phase} (h : x.exclusive) :
    (x.account avg o).exclusive :=
  foldl_exclusive (foldl_exclusive h (fun _ _ hx => exclusive_ite (exclusive_ite hx hx) (exclusive_ite hx hx)))
    (fun _ _ hx => exclusive_ite hx (exclusive_ite hx hx))

theorem State.publish_keeps {g : Fin 8} {p : Fin 64} (h : Keeps s0 s) : Keeps s0 (State.publish g p s) := by
  unfold State.publish
  repeat' (first
    | exact fun x hx => Phase.account_exclusive (x := x) hx | with_reducible assumption
    | with_reducible apply ite_keeps | with_reducible refine modPhase_keeps ?_ (fun _ hx => hx)
    | with_reducible apply modPhase_keeps | exact fun _ hx => hx | exact fun _ hx => Phase.stop_exclusive hx
    | exact fun _ hx => Phase.low_exclusive hx | exact fun _ hx => exclusive_ite hx hx | split | dsimp only)

theorem Phase.second_exclusive {now : Nanos} {avg i : Rat} {x : Phase} (h : x.exclusive) : (x.second now avg i).exclusive := by
  unfold Phase.second
  exact exclusive_ite h h

theorem Phase.take_exclusive {now : Nanos} {at_ : Nat} {avg i : Rat} {residual : Int} {start : Bool} {x : Phase}
    (h : x.exclusive) : (x.take now at_ avg i residual start).exclusive := by
  have h1 := Phase.second_exclusive (now := now) (avg := avg) (i := i) h
  unfold Phase.take
  generalize x.second now avg i = y at h1
  cases y
  dsimp only [Phase.exclusive] at h1 ⊢
  exact h1

theorem Phase.openLeg_exclusive {sL sH avg : Rat} {n : Nat} {meas : Rat} {x : Phase} (h : x.exclusive) :
    (x.openLeg sL sH avg n meas).exclusive := by
  unfold Phase.openLeg
  exact exclusive_ite h (exclusive_ite h h)

theorem execTrowelUpdate_keeps {p : Fin 64} {bits : List Bool} (h : Keeps s0 s) : KeepsOut s0 (execTrowelUpdate p bits s) := by
  unfold execTrowelUpdate
  repeat' (first
    | exact fun x hx => Phase.openLeg_exclusive hx | exact fun x hx => Phase.take_exclusive (x := x) hx
    | with_reducible assumption | with_reducible apply next_keeps | with_reducible apply iteOut_keeps
    | with_reducible apply ite_keeps | with_reducible refine modPhase_keeps ?_ (fun _ hx => hx)
    | with_reducible apply modPhase_keeps | exact fun _ hx => hx | exact fun _ hx => Phase.stop_exclusive hx
    | exact fun _ hx => Phase.low_exclusive hx | exact fun _ hx => exclusive_ite hx hx
    | with_reducible apply State.raiseIf_keeps | with_reducible apply State.stopPhase_keeps
    | with_reducible apply State.publish_keeps)

end Sys2Proof.Machine
end

