-- ==== Sys2Proof/Laws/KeepPeriod.lean ====
section
/-! SUPPORT. What the operations and meanings of `Machine/Period.lean` keep (`Keeps`). -/

namespace Sys2Proof.Machine

variable {s0 s : State}

theorem State.restartTimer_keeps {g : Fin 8} (h : Keeps s0 s) : Keeps s0 (State.restartTimer g s) := by
  unfold State.restartTimer
  repeat' (first
    | with_reducible assumption | with_reducible apply modGroup_keeps)

theorem State.applyShares_keeps {g : Fin 8} (h : Keeps s0 s) : Keeps s0 (State.applyShares g s) := by
  unfold State.applyShares
  repeat' (first
    | with_reducible assumption | with_reducible refine foldl_keeps ?_ (fun t x ht => ?_)
    | with_reducible refine modPhase_keeps ?_ (fun _ hx => hx) | with_reducible apply modPhase_keeps
    | exact fun _ hx => hx | exact fun _ hx => Phase.stop_exclusive hx
    | exact fun _ hx => Phase.low_exclusive hx | exact fun _ hx => exclusive_ite hx hx)

theorem State.stepBurst_keeps {g : Fin 8} (h : Keeps s0 s) : Keeps s0 (State.stepBurst g s) := by
  unfold State.stepBurst
  repeat' (first
    | with_reducible assumption | with_reducible apply ite_keeps | with_reducible apply modGroup_keeps | split
    | dsimp only)

theorem State.wearWarn_keeps {g : Fin 8} {p : Fin 64} (h : Keeps s0 s) : Keeps s0 (State.wearWarn g p s) := by
  unfold State.wearWarn
  repeat' (first
    | with_reducible assumption | with_reducible apply ite_keeps | with_reducible apply State.raise_keeps
    | with_reducible refine modPhase_keeps ?_ (fun _ hx => hx) | with_reducible apply modPhase_keeps
    | exact fun _ hx => hx | exact fun _ hx => Phase.stop_exclusive hx
    | exact fun _ hx => Phase.low_exclusive hx | exact fun _ hx => exclusive_ite hx hx)

theorem State.wearRetire_keeps {g : Fin 8} {p : Fin 64} (h : Keeps s0 s) : Keeps s0 (State.wearRetire g p s) := by
  unfold State.wearRetire
  repeat' (first
    | with_reducible assumption | with_reducible apply ite_keeps | with_reducible apply State.retireNext_keeps)

theorem State.checkFiller_keeps {p : Fin 64} (h : Keeps s0 s) : Keeps s0 (State.checkFiller p s) := by
  unfold State.checkFiller
  repeat' (first
    | with_reducible assumption | with_reducible apply ite_keeps | with_reducible apply State.retireNext_keeps)

theorem State.sumCheck_keeps {g : Fin 8} {start : Nat} {ripple : List (Fin 64 × List Bool × List Bool)} (h : Keeps s0 s) : Keeps s0 (State.sumCheck g start ripple s) := by
  unfold State.sumCheck
  repeat' (first
    | with_reducible assumption | with_reducible apply ite_keeps
    | with_reducible refine foldl_keeps ?_ (fun t x ht => ?_) | with_reducible apply modGroup_keeps
    | with_reducible refine modPhase_keeps ?_ (fun _ hx => hx) | with_reducible apply modPhase_keeps
    | exact fun _ hx => hx | exact fun _ hx => Phase.stop_exclusive hx
    | exact fun _ hx => Phase.low_exclusive hx | exact fun _ hx => exclusive_ite hx hx | split | dsimp only)

theorem execPeriodStart_keeps {g : Fin 8} {ripple : List (Fin 64 × List Bool × List Bool)} (h : Keeps s0 s) : KeepsOut s0 (execPeriodStart g ripple s) := by
  unfold execPeriodStart
  repeat' (first
    | with_reducible assumption | with_reducible apply next_keeps | with_reducible apply iteOut_keeps
    | with_reducible apply ite_keeps | with_reducible refine foldl_keeps ?_ (fun t x ht => ?_)
    | with_reducible apply State.pickParam_keeps | with_reducible apply State.atDevice_keeps
    | with_reducible apply State.sumCheck_keeps | with_reducible apply modGroup_keeps
    | with_reducible apply State.keepDepth_keeps | with_reducible apply State.wearRetire_keeps
    | with_reducible apply State.checkFiller_keeps | with_reducible apply State.wearWarn_keeps
    | with_reducible refine modPhase_keeps ?_ (fun _ hx => hx) | with_reducible apply modPhase_keeps
    | exact fun _ hx => hx | exact fun _ hx => Phase.stop_exclusive hx
    | exact fun _ hx => Phase.low_exclusive hx | exact fun _ hx => exclusive_ite hx hx
    | with_reducible apply State.glidePhases_keeps | with_reducible apply State.stepBurst_keeps
    | with_reducible apply State.settle_keeps | with_reducible apply State.applyShares_keeps | split
    | dsimp only)

end Sys2Proof.Machine
end

