-- ==== Sys2Proof/Laws/KeepEstOps.lean ====
section
/-! SUPPORT. What the operations and meanings of `Machine/EstOps.lean` keep (`Keeps`). -/

namespace Sys2Proof.Machine

variable {s0 s : State}

theorem State.modMest_keeps {m : Fin 64} {f : ModuleEst → ModuleEst} (h : Keeps s0 s) : Keeps s0 (State.modMest m f s) := by
  unfold State.modMest
  repeat' (first
    | with_reducible assumption | with_reducible apply modEst_keeps)

theorem State.modSest_keeps {p : Fin 4} {f : StringEst → StringEst} (h : Keeps s0 s) : Keeps s0 (State.modSest p f s) := by
  unfold State.modSest
  repeat' (first
    | with_reducible assumption | with_reducible apply modEst_keeps)

theorem State.estTick_keeps {p : Fin 4} (h : Keeps s0 s) : Keeps s0 (State.estTick p s) := by
  unfold State.estTick
  repeat' (first
    | with_reducible assumption | with_reducible apply ite_keeps
    | with_reducible refine foldl_keeps ?_ (fun t x ht => ?_) | with_reducible apply State.modMest_keeps
    | with_reducible apply State.modSest_keeps)

theorem State.quietTick_keeps (h : Keeps s0 s) : Keeps s0 (State.quietTick s) := by
  unfold State.quietTick
  repeat' (first
    | with_reducible assumption | with_reducible apply ite_keeps | with_reducible apply modEst_keeps)

theorem State.hibernateRecords_keeps {flags : Nat} (h : Keeps s0 s) : Keeps s0 (State.hibernateRecords flags s) := by
  unfold State.hibernateRecords
  repeat' (first
    | with_reducible assumption | with_reducible apply ite_keeps
    | with_reducible refine foldl_keeps ?_ (fun t x ht => ?_) | with_reducible apply State.event_keeps)

theorem State.fullRate_keeps (h : Keeps s0 s) : Keeps s0 (State.fullRate s) := by
  unfold State.fullRate
  repeat' (first
    | with_reducible assumption | with_reducible apply ite_keeps | with_reducible apply modEst_keeps
    | with_reducible apply modChain_keeps | with_reducible apply State.raise_keeps
    | with_reducible apply State.hibernateRecords_keeps)

theorem State.rateTick_keeps (h : Keeps s0 s) : Keeps s0 (State.rateTick s) := by
  unfold State.rateTick
  repeat' (first
    | with_reducible assumption | with_reducible apply ite_keeps | with_reducible apply State.quietTick_keeps
    | with_reducible apply State.fullRate_keeps)

end Sys2Proof.Machine
end

