-- ==== Sys2Proof/Laws/KeepStippleOps.lean ====
section
/-! SUPPORT. What the operations and meanings of `Machine/StippleOps.lean` keep (`Keeps`). -/

namespace Sys2Proof.Machine

variable {s0 s : State}

theorem State.modSweep_keeps {p : Fin 4} {f : StippleSweep → StippleSweep} (h : Keeps s0 s) : Keeps s0 (State.modSweep p f s) := by
  unfold State.modSweep
  repeat' (first
    | with_reducible assumption | with_reducible apply modStp_keeps | with_reducible apply State.raiseIf_keeps)

theorem State.stippleRetry_keeps {g : Fin 8} (h : Keeps s0 s) : Keeps s0 (State.stippleRetry g s) := by
  unfold State.stippleRetry
  repeat' (first
    | with_reducible assumption | with_reducible apply ite_keeps | with_reducible apply State.modSweep_keeps
    | split | dsimp only)

theorem State.stippleMark_keeps {p : Fin 4} (h : Keeps s0 s) : Keeps s0 (State.stippleMark p s) := by
  unfold State.stippleMark
  repeat' (first
    | with_reducible assumption | with_reducible apply ite_keeps
    | with_reducible apply State.stippleAbort_keeps | with_reducible apply State.modSweep_keeps)

theorem State.stippleSample_keeps {p : Fin 4} (h : Keeps s0 s) : Keeps s0 (State.stippleSample p s) := by
  unfold State.stippleSample
  repeat' (first
    | with_reducible assumption | with_reducible apply ite_keeps | with_reducible apply State.modSweep_keeps
    | split | dsimp only)

theorem State.writePoints_keeps {p : Fin 4} (h : Keeps s0 s) : Keeps s0 (State.writePoints p s) := by
  unfold State.writePoints
  repeat' (first
    | with_reducible assumption | with_reducible apply ite_keeps
    | with_reducible refine foldl_keeps ?_ (fun t x ht => ?_) | with_reducible apply State.emit_keeps
    | with_reducible apply modStp_keeps | with_reducible apply State.modSweep_keeps
    | with_reducible apply State.raise_keeps)

theorem State.applyFloat_keeps (h : Keeps s0 s) : Keeps s0 (State.applyFloat s) := by
  unfold State.applyFloat
  repeat' (first
    | with_reducible assumption | with_reducible apply ite_keeps
    | with_reducible refine modNv_keeps ?_ (fun _ => SecState.same rfl rfl rfl rfl rfl)
    | with_reducible apply modNv_keeps | exact fun _ => SecState.same rfl rfl rfl rfl rfl
    | with_reducible apply State.raise_keeps | with_reducible apply State.event_keeps
    | with_reducible apply freeCtr_keeps)

end Sys2Proof.Machine
end

