-- ==== Sys2Proof/Laws/KeepControl.lean ====
section
/-! SUPPORT. What the operations and meanings of `Machine/Control.lean` keep (`Keeps`). -/

namespace Sys2Proof.Machine

variable {s0 s : State}

theorem State.writeEntry_keeps {e : SetpointEntry} (h : Keeps s0 s) : Keeps s0 (State.writeEntry e s) := by
  unfold State.writeEntry
  repeat' (first
    | exact fun _ hx => MemState.putBytes_wf _ _ hx | with_reducible assumption
    | with_reducible apply ite_keeps | with_reducible apply State.takeMode_keeps
    | with_reducible apply State.storeItem_keeps | split | dsimp only)

theorem State.effectSetpoints_keeps {q : Scheduled} (h : Keeps s0 s) : Keeps s0 (State.effectSetpoints q s) := by
  unfold State.effectSetpoints
  repeat' (first
    | with_reducible assumption | with_reducible apply ite_keeps
    | with_reducible refine foldl_keeps ?_ (fun t x ht => ?_) | with_reducible apply State.finish_keeps
    | with_reducible apply State.writeEntry_keeps | with_reducible apply State.complete_keeps | split
    | dsimp only)

theorem execScheduledSetpointEffect_keeps (h : Keeps s0 s) : KeepsOut s0 (execScheduledSetpointEffect s) := by
  unfold execScheduledSetpointEffect
  repeat' (first
    | with_reducible assumption | with_reducible apply next_keeps | with_reducible apply iteOut_keeps
    | with_reducible apply ite_keeps | with_reducible refine foldl_keeps ?_ (fun t x ht => ?_)
    | with_reducible apply atLeast_keeps | with_reducible refine modConv_keeps ?_ (fun _ hx => hx)
    | with_reducible apply modConv_keeps | exact fun _ hx => hx | with_reducible apply State.settle_keeps
    | with_reducible apply State.effectSetpoints_keeps | split | dsimp only)

theorem State.takeTables_keeps {g : Fin 8} (h : Keeps s0 s) : Keeps s0 (State.takeTables g s) := by
  unfold State.takeTables
  repeat' (first
    | with_reducible assumption | with_reducible apply ite_keeps | with_reducible apply modGroup_keeps
    | with_reducible apply State.takeType_keeps | with_reducible apply State.takeTable_keeps
    | with_reducible refine modConv_keeps ?_ (fun _ hx => hx) | with_reducible apply modConv_keeps
    | exact fun _ hx => hx)

theorem State.applyShed_keeps {g : Fin 8} (h : Keeps s0 s) : Keeps s0 (State.applyShed g s) := by
  unfold State.applyShed
  repeat' (first
    | exact fun x hx => exclusive_ite (exclusive_ite hx hx) hx | with_reducible assumption
    | with_reducible apply ite_keeps | with_reducible refine foldl_keeps ?_ (fun t x ht => ?_)
    | with_reducible refine modPhase_keeps ?_ (fun _ hx => hx) | with_reducible apply modPhase_keeps
    | exact fun _ hx => hx | exact fun _ hx => Phase.stop_exclusive hx
    | exact fun _ hx => Phase.low_exclusive hx | exact fun _ hx => exclusive_ite hx hx
    | with_reducible apply State.placeNew_keeps)

theorem State.dropShadows_keeps {g : Fin 8} (h : Keeps s0 s) : Keeps s0 (State.dropShadows g s) := by
  unfold State.dropShadows
  repeat' (first
    | with_reducible assumption | with_reducible apply ite_keeps
    | with_reducible refine foldl_keeps ?_ (fun t x ht => ?_) | with_reducible apply State.startRegrout_keeps
    | with_reducible apply State.retirePhase_keeps)

theorem State.lightSample_keeps {g : Fin 8} (h : Keeps s0 s) : Keeps s0 (State.lightSample g s) := by
  unfold State.lightSample
  repeat' (first
    | with_reducible assumption | with_reducible apply ite_keeps | with_reducible apply modGroup_keeps
    | with_reducible apply State.dropShadows_keeps | with_reducible apply State.applyShed_keeps | split
    | dsimp only)

theorem execLightLoadStageEntry_keeps {g : Fin 8} (h : Keeps s0 s) : KeepsOut s0 (execLightLoadStageEntry g s) := by
  unfold execLightLoadStageEntry
  repeat' (first
    | with_reducible assumption | with_reducible apply next_keeps | with_reducible apply iteOut_keeps
    | with_reducible apply ite_keeps | with_reducible apply atLeast_keeps
    | with_reducible apply modGroup_keeps | with_reducible apply State.settle_keeps
    | with_reducible apply State.applyShed_keeps | with_reducible apply State.dropShadows_keeps | split
    | dsimp only)

theorem State.splitPair_keeps {g : Fin 8} (h : Keeps s0 s) : Keeps s0 (State.splitPair g s) := by
  unfold State.splitPair
  repeat' (first
    | with_reducible assumption | with_reducible apply ite_keeps | with_reducible apply modGroup_keeps
    | with_reducible apply State.setParam_keeps | with_reducible apply State.seedLoop_keeps | split
    | dsimp only)

theorem State.setDirs_keeps {g : Fin 8} (h : Keeps s0 s) : Keeps s0 (State.setDirs g s) := by
  unfold State.setDirs
  repeat' (first
    | with_reducible assumption | with_reducible apply ite_keeps
    | with_reducible refine foldl_keeps ?_ (fun t x ht => ?_) | with_reducible apply modFeed_keeps)

theorem State.checkPoint_keeps {g : Fin 8} {clipped : Bool} (h : Keeps s0 s) : Keeps s0 (State.checkPoint g clipped s) := by
  unfold State.checkPoint
  repeat' (first
    | with_reducible assumption | with_reducible apply ite_keeps | with_reducible apply modStp_keeps | split
    | dsimp only)

theorem State.control_keeps {g : Fin 8} {t_ : Rat} (h : Keeps s0 s) : Keeps s0 (State.control g t_ s) := by
  unfold State.control
  repeat' (first
    | with_reducible assumption | with_reducible apply ite_keeps | with_reducible apply State.bumpEpoch_keeps
    | with_reducible apply modGroup_keeps | with_reducible apply State.checkPoint_keeps | split | dsimp only)

theorem State.predictPair_keeps {g : Fin 8} (h : Keeps s0 s) : Keeps s0 (State.predictPair g s) := by
  unfold State.predictPair
  repeat' (first
    | with_reducible assumption | with_reducible apply ite_keeps | with_reducible apply modGroup_keeps)

theorem State.trackMatch_keeps {g : Fin 8} (h : Keeps s0 s) : Keeps s0 (State.trackMatch g s) := by
  unfold State.trackMatch
  repeat' (first
    | with_reducible assumption | with_reducible apply modGroup_keeps)

theorem State.takeSetpoints_keeps {g : Fin 8} (h : Keeps s0 s) : Keeps s0 (State.takeSetpoints g s) := by
  unfold State.takeSetpoints
  repeat' (first
    | with_reducible assumption | with_reducible apply ite_keeps
    | with_reducible refine foldl_keeps ?_ (fun t x ht => ?_)
    | with_reducible apply State.effectSetpoints_keeps | with_reducible apply modGroup_keeps)

theorem State.pickGroup_keeps {g : Fin 8} (h : Keeps s0 s) : Keeps s0 (State.pickGroup g s) := by
  unfold State.pickGroup
  repeat' (first
    | with_reducible assumption | with_reducible refine foldl_keeps ?_ (fun t x ht => ?_)
    | with_reducible apply State.pickParam_keeps)

theorem execOuterLoopSample_keeps {g : Fin 8} {inputs : List (Fin 20 × List Capture)} (h : Keeps s0 s) : KeepsOut s0 (execOuterLoopSample g inputs s) := by
  unfold execOuterLoopSample
  repeat' (first
    | with_reducible assumption | with_reducible apply next_keeps | with_reducible apply iteOut_keeps
    | with_reducible apply ite_keeps | with_reducible apply State.pickGroup_keeps
    | with_reducible apply modGroup_keeps | with_reducible apply State.atDevice_keeps
    | with_reducible apply State.takeTables_keeps | with_reducible apply State.advanceOpenings_keeps
    | with_reducible apply State.trackClosing_keeps | with_reducible apply State.takeInputs_keeps
    | with_reducible apply State.predictPair_keeps | with_reducible apply State.splitPair_keeps
    | with_reducible apply State.evalReady_keeps | with_reducible apply State.control_keeps
    | with_reducible apply State.setDirs_keeps | with_reducible apply State.lightSample_keeps
    | with_reducible apply State.stippleRetry_keeps | with_reducible apply State.applyShares_keeps
    | with_reducible apply State.precharge_keeps | with_reducible apply State.trackMatch_keeps
    | with_reducible apply State.settle_keeps | with_reducible apply State.checkInputs_keeps
    | with_reducible apply State.takeSetpoints_keeps)

theorem execRampDownComplete_keeps {g : Fin 8} (h : Keeps s0 s) : KeepsOut s0 (execRampDownComplete g s) := by
  unfold execRampDownComplete
  repeat' (first
    | with_reducible assumption | with_reducible apply next_keeps | with_reducible apply iteOut_keeps
    | with_reducible apply ite_keeps | with_reducible apply State.settle_keeps
    | with_reducible apply State.enterMode_keeps | split | dsimp only)

end Sys2Proof.Machine
end

