-- ==== Sys2Proof/Laws/KeepGroupCmds.lean ====
section
/-! SUPPORT. What the operations and meanings of `Machine/GroupCmds.lean` keep (`Keeps`). -/

namespace Sys2Proof.Machine

variable {s0 s : State}

theorem execGroupStatus_keeps {r : Req} (h : Keeps s0 s) : KeepsOut s0 (execGroupStatus r s) := by
  unfold execGroupStatus
  repeat' (first
    | with_reducible assumption | with_reducible apply ok_keeps | with_reducible apply next_keeps
    | with_reducible refine runOp_keeps ?_ (fun t ht => ?_))

theorem execGroupTelemetry_keeps {r : Req} (h : Keeps s0 s) : KeepsOut s0 (execGroupTelemetry r s) := by
  unfold execGroupTelemetry
  repeat' (first
    | with_reducible assumption | with_reducible apply ok_keeps | with_reducible apply next_keeps
    | with_reducible refine foldl_keeps ?_ (fun t x ht => ?_)
    | with_reducible refine runOp_keeps ?_ (fun t ht => ?_) | with_reducible apply modGroup_keeps)

theorem execGroupSetpoint_keeps {r : Req} (h : Keeps s0 s) : KeepsOut s0 (execGroupSetpoint r s) := by
  unfold execGroupSetpoint
  repeat' (first
    | with_reducible assumption | with_reducible apply wait_keeps | with_reducible apply no_keeps
    | with_reducible apply iteRes_keeps | with_reducible apply next_keeps | with_reducible apply iteOut_keeps
    | with_reducible apply ite_keeps | with_reducible refine runOp_keeps ?_ (fun t ht => ?_)
    | with_reducible apply needLease_keeps | with_reducible apply modGroup_keeps
    | with_reducible refine modConv_keeps ?_ (fun _ hx => hx) | with_reducible apply modConv_keeps
    | exact fun _ hx => hx | split | dsimp only)

theorem execGroupCancel_keeps {r : Req} (h : Keeps s0 s) : KeepsOut s0 (execGroupCancel r s) := by
  unfold execGroupCancel
  repeat' (first
    | with_reducible assumption | with_reducible apply ok_keeps | with_reducible apply next_keeps
    | with_reducible refine runOp_keeps ?_ (fun t ht => ?_) | with_reducible apply needLease_keeps
    | with_reducible apply State.endScheduled_keeps)

theorem execGroupFaultAck_keeps {r : Req} (h : Keeps s0 s) : KeepsOut s0 (execGroupFaultAck r s) := by
  unfold execGroupFaultAck
  repeat' (first
    | with_reducible assumption | with_reducible apply wait_keeps | with_reducible apply no_keeps
    | with_reducible apply iteRes_keeps | with_reducible apply next_keeps | with_reducible apply iteOut_keeps
    | with_reducible apply ite_keeps | with_reducible refine runOp_keeps ?_ (fun t ht => ?_)
    | with_reducible apply needLease_keeps | with_reducible apply modGroup_keeps | split | dsimp only)

theorem execGroupLimits_keeps {r : Req} (h : Keeps s0 s) : KeepsOut s0 (execGroupLimits r s) := by
  unfold execGroupLimits
  repeat' (first
    | with_reducible assumption | with_reducible apply ok_keeps | with_reducible apply no_keeps
    | with_reducible apply next_keeps | with_reducible refine runOp_keeps ?_ (fun t ht => ?_) | split
    | dsimp only)

theorem State.telemetryOut_keeps {g : Fin 8} (h : Keeps s0 s) : Keeps s0 (State.telemetryOut g s) := by
  unfold State.telemetryOut
  repeat' (first
    | with_reducible assumption | with_reducible apply ite_keeps
    | with_reducible refine foldl_keeps ?_ (fun t x ht => ?_) | with_reducible apply State.emit_keeps)

theorem execTelemetryWindowEnd_keeps {g : Fin 8} (h : Keeps s0 s) : KeepsOut s0 (execTelemetryWindowEnd g s) := by
  unfold execTelemetryWindowEnd
  repeat' (first
    | with_reducible assumption | with_reducible apply next_keeps
    | with_reducible refine foldl_keeps ?_ (fun t x ht => ?_) | with_reducible apply atLeast_keeps
    | with_reducible apply modGroup_keeps | with_reducible refine modPhase_keeps ?_ (fun _ hx => hx)
    | with_reducible apply modPhase_keeps | exact fun _ hx => hx | exact fun _ hx => Phase.stop_exclusive hx
    | exact fun _ hx => Phase.low_exclusive hx | exact fun _ hx => exclusive_ite hx hx
    | with_reducible apply State.telemetryOut_keeps)

theorem execSyncInEdge_keeps {time : Nat} (h : Keeps s0 s) : KeepsOut s0 (execSyncInEdge time s) := by
  unfold execSyncInEdge
  repeat' (first
    | with_reducible assumption | with_reducible apply next_keeps | with_reducible apply iteOut_keeps
    | with_reducible apply ite_keeps | with_reducible apply State.settle_keeps
    | with_reducible refine eachGroup_keeps ?_ (fun x t ht => ?_) | with_reducible apply modGroup_keeps)

theorem execSyncLossTimeout_keeps {g : Fin 8} (h : Keeps s0 s) : KeepsOut s0 (execSyncLossTimeout g s) := by
  unfold execSyncLossTimeout
  repeat' (first
    | with_reducible assumption | with_reducible apply next_keeps | with_reducible apply iteOut_keeps
    | with_reducible apply ite_keeps | with_reducible apply atLeast_keeps
    | with_reducible apply State.settle_keeps | with_reducible apply modGroup_keeps | split | dsimp only)

theorem execLimitSetCheck_keeps {means : List (Fin 8 × Reading × Reading)} {vLink : Reading} (h : Keeps s0 s) : KeepsOut s0 (execLimitSetCheck means vLink s) := by
  unfold execLimitSetCheck
  repeat' (first
    | with_reducible assumption | with_reducible apply next_keeps | with_reducible apply iteOut_keeps
    | with_reducible apply ite_keeps | with_reducible refine foldl_keeps ?_ (fun t x ht => ?_)
    | with_reducible apply modGroup_keeps | with_reducible apply State.settle_keeps
    | with_reducible apply State.safeState_keeps | split | dsimp only)

end Sys2Proof.Machine
end

