-- ==== Sys2Proof/Laws/KeepFeeds.lean ====
section
/-! SUPPORT. What the operations and meanings of `Machine/Feeds.lean` keep (`Keeps`). -/

namespace Sys2Proof.Machine

variable {s0 s : State}

theorem State.takeFeedTable_keeps {f : Fin 2} (h : Keeps s0 s) : Keeps s0 (State.takeFeedTable f s) := by
  unfold State.takeFeedTable
  repeat' (first
    | with_reducible assumption | with_reducible apply ite_keeps
    | with_reducible refine foldl_keeps ?_ (fun t x ht => ?_) | with_reducible apply modFeed_keeps
    | with_reducible apply State.takeTable_keeps)

theorem State.feedArmed_keeps {f : Fin 2} (h : Keeps s0 s) : Keeps s0 (State.feedArmed f s) := by
  unfold State.feedArmed
  repeat' (first
    | with_reducible assumption | with_reducible apply ite_keeps | with_reducible apply State.feedTo_keeps)

theorem State.trackOn_keeps {f : Fin 2} (h : Keeps s0 s) : Keeps s0 (State.trackOn f s) := by
  unfold State.trackOn
  repeat' (first
    | with_reducible assumption | with_reducible apply ite_keeps | with_reducible apply modFeed_keeps)

theorem State.feedFixed_keeps {f : Fin 2} (h : Keeps s0 s) : Keeps s0 (State.feedFixed f s) := by
  unfold State.feedFixed
  repeat' (first
    | with_reducible assumption | with_reducible apply ite_keeps | with_reducible apply State.feedTrip_keeps
    | with_reducible apply State.feedTo_keeps | with_reducible apply modFeed_keeps
    | with_reducible apply State.feedArmed_keeps)

theorem State.pickFeed_keeps {f : Fin 2} (h : Keeps s0 s) : Keeps s0 (State.pickFeed f s) := by
  unfold State.pickFeed
  repeat' (first
    | with_reducible assumption | with_reducible refine foldl_keeps ?_ (fun t x ht => ?_)
    | with_reducible apply State.pickParam_keeps)

theorem State.feedLooks_keeps {f : Fin 2} (h : Keeps s0 s) : Keeps s0 (State.feedLooks f s) := by
  unfold State.feedLooks
  repeat' (first
    | with_reducible assumption | with_reducible apply modFeed_keeps)

theorem State.feedFire_keeps {f : Fin 2} (h : Keeps s0 s) : Keeps s0 (State.feedFire f s) := by
  unfold State.feedFire
  repeat' (first
    | with_reducible assumption | with_reducible apply ite_keeps | with_reducible apply State.feedTrip_keeps
    | with_reducible apply State.feedTo_keeps | split | dsimp only)

theorem State.evaluateFeed_keeps {f : Fin 2} {ok : Bool} (h : Keeps s0 s) : Keeps s0 (State.evaluateFeed f ok s) := by
  unfold State.evaluateFeed
  repeat' (first
    | with_reducible assumption | with_reducible apply modFeed_keeps
    | with_reducible apply State.loadComparators_keeps | with_reducible apply State.pickFeed_keeps
    | with_reducible apply State.feedFixed_keeps | with_reducible apply State.trackOn_keeps
    | with_reducible apply State.takeFeedTable_keeps | with_reducible apply State.feedLooks_keeps
    | with_reducible apply State.feedFire_keeps)

theorem execFeedEvaluation_keeps {okA : Bool} {okB : Bool} {inputs : List (Fin 20 × List Capture)} (h : Keeps s0 s) : KeepsOut s0 (execFeedEvaluation okA okB inputs s) := by
  unfold execFeedEvaluation
  repeat' (first
    | with_reducible assumption | with_reducible apply next_keeps | with_reducible apply iteOut_keeps
    | with_reducible apply ite_keeps | with_reducible apply State.trackClosing_keeps
    | with_reducible apply State.takeInputs_keeps | with_reducible apply State.evaluateFeed_keeps
    | with_reducible apply State.settle_keeps | with_reducible apply State.checkInputs_keeps)

theorem execFeedOvercurrentTrip_keeps {f : Fin 2} {bits : List Capture} (h : Keeps s0 s) : KeepsOut s0 (execFeedOvercurrentTrip f bits s) := by
  unfold execFeedOvercurrentTrip
  repeat' (first
    | with_reducible assumption | with_reducible apply next_keeps | with_reducible apply iteOut_keeps
    | with_reducible apply ite_keeps | with_reducible apply State.feedTrip_keeps)

theorem execFeedReverseTurnOff_keeps {f : Fin 2} {bits : List Capture} (h : Keeps s0 s) : KeepsOut s0 (execFeedReverseTurnOff f bits s) := by
  unfold execFeedReverseTurnOff
  repeat' (first
    | with_reducible assumption | with_reducible apply next_keeps | with_reducible apply iteOut_keeps
    | with_reducible apply ite_keeps | with_reducible apply modFeed_keeps
    | with_reducible apply State.feedTrip_keeps | with_reducible apply State.trackClosing_keeps
    | with_reducible apply State.feedTo_keeps)

theorem execFeedBlockingRearm_keeps {f : Fin 2} (h : Keeps s0 s) : KeepsOut s0 (execFeedBlockingRearm f s) := by
  unfold execFeedBlockingRearm
  repeat' (first
    | with_reducible assumption | with_reducible apply next_keeps | with_reducible apply iteOut_keeps
    | with_reducible apply ite_keeps | with_reducible apply State.trackClosing_keeps
    | with_reducible apply atLeast_keeps | with_reducible apply State.settle_keeps
    | with_reducible apply State.checkInputs_keeps | with_reducible apply State.feedTo_keeps | split
    | dsimp only)

theorem execFeedBlockTimeout_keeps {f : Fin 2} (h : Keeps s0 s) : KeepsOut s0 (execFeedBlockTimeout f s) := by
  unfold execFeedBlockTimeout
  repeat' (first
    | with_reducible assumption | with_reducible apply next_keeps | with_reducible apply iteOut_keeps
    | with_reducible apply ite_keeps | with_reducible apply State.feedTo_keeps
    | with_reducible apply atLeast_keeps)

theorem execFeedRetryWaitEnd_keeps {f : Fin 2} (h : Keeps s0 s) : KeepsOut s0 (execFeedRetryWaitEnd f s) := by
  unfold execFeedRetryWaitEnd
  repeat' (first
    | with_reducible assumption | with_reducible apply next_keeps | with_reducible apply iteOut_keeps
    | with_reducible apply ite_keeps | with_reducible apply atLeast_keeps
    | with_reducible apply State.feedTo_keeps | with_reducible apply modFeed_keeps)

theorem execFeedBusOv_keeps {f : Fin 2} (h : Keeps s0 s) : KeepsOut s0 (execFeedBusOv f s) := by
  unfold execFeedBusOv
  repeat' (first
    | with_reducible assumption | with_reducible apply next_keeps | with_reducible apply iteOut_keeps
    | with_reducible apply ite_keeps | with_reducible apply State.feedTo_keeps
    | with_reducible apply atLeast_keeps | split | dsimp only)

theorem execFeedSwitchLost_keeps {f : Fin 2} (h : Keeps s0 s) : KeepsOut s0 (execFeedSwitchLost f s) := by
  unfold execFeedSwitchLost
  repeat' (first
    | with_reducible assumption | with_reducible apply next_keeps | with_reducible apply iteOut_keeps
    | with_reducible apply ite_keeps | with_reducible apply State.feedTrip_keeps
    | with_reducible apply atLeast_keeps | split | dsimp only)

theorem execFeedPgDelayExpiry_keeps {f : Fin 2} (h : Keeps s0 s) : KeepsOut s0 (execFeedPgDelayExpiry f s) := by
  unfold execFeedPgDelayExpiry
  repeat' (first
    | with_reducible assumption | with_reducible apply next_keeps | with_reducible apply iteOut_keeps
    | with_reducible apply ite_keeps | with_reducible apply modFeed_keeps | with_reducible apply atLeast_keeps
    | with_reducible apply State.raise_keeps | with_reducible apply modBus_keeps)

theorem execFeedRetryClear_keeps {f : Fin 2} (h : Keeps s0 s) : KeepsOut s0 (execFeedRetryClear f s) := by
  unfold execFeedRetryClear
  repeat' (first
    | with_reducible assumption | with_reducible apply next_keeps | with_reducible apply iteOut_keeps
    | with_reducible apply ite_keeps | with_reducible apply modFeed_keeps | with_reducible apply atLeast_keeps)

theorem execFeedStatus_keeps {r : Req} (h : Keeps s0 s) : KeepsOut s0 (execFeedStatus r s) := by
  unfold execFeedStatus
  repeat' (first
    | with_reducible assumption | with_reducible apply ok_keeps | with_reducible apply no_keeps
    | with_reducible apply iteRes_keeps | with_reducible apply next_keeps | with_reducible apply iteOut_keeps
    | with_reducible apply ite_keeps | with_reducible refine runOp_keeps ?_ (fun t ht => ?_))

theorem execFeedArm_keeps {r : Req} (h : Keeps s0 s) : KeepsOut s0 (execFeedArm r s) := by
  unfold execFeedArm
  repeat' (first
    | with_reducible assumption | with_reducible apply ok_keeps | with_reducible apply no_keeps
    | with_reducible apply iteRes_keeps | with_reducible apply next_keeps | with_reducible apply iteOut_keeps
    | with_reducible apply ite_keeps | with_reducible refine runOp_keeps ?_ (fun t ht => ?_)
    | with_reducible apply needLease_keeps | with_reducible apply modFeed_keeps
    | with_reducible apply State.feedTo_keeps | with_reducible apply State.auditReq_keeps | split | dsimp only)

theorem execFeedOpen_keeps {r : Req} (h : Keeps s0 s) : KeepsOut s0 (execFeedOpen r s) := by
  unfold execFeedOpen
  repeat' (first
    | with_reducible assumption | with_reducible apply ok_keeps | with_reducible apply wait_keeps
    | with_reducible apply no_keeps | with_reducible apply iteRes_keeps | with_reducible apply next_keeps
    | with_reducible apply iteOut_keeps | with_reducible apply ite_keeps
    | with_reducible refine runOp_keeps ?_ (fun t ht => ?_) | with_reducible apply needLease_keeps
    | with_reducible apply State.feedTo_keeps | with_reducible apply modFeed_keeps | split | dsimp only)

end Sys2Proof.Machine
end

