-- ==== Sys2Proof/Laws/KeepMeasure.lean ====
section
/-! SUPPORT. What the operations and meanings of `Machine/Measure.lean` keep (`Keeps`). -/

namespace Sys2Proof.Machine

variable {s0 s : State}

theorem State.modChan_keeps {n : Nat} {f : AdcChannel → AdcChannel} (h : Keeps s0 s) : Keeps s0 (State.modChan n f s) := by
  unfold State.modChan
  repeat' (first
    | with_reducible assumption | with_reducible apply modMeas_keeps)

theorem State.convert_keeps {n : Nat} {e : U16 × Reading} {time : Nat} (h : Keeps s0 s) : Keeps s0 (State.convert n e time s) := by
  unfold State.convert
  repeat' (first
    | with_reducible assumption | with_reducible apply ite_keeps | with_reducible apply State.modChan_keeps)

theorem State.spread_keeps {amps : List Reading} (h : Keeps s0 s) : Keeps s0 (State.spread amps s) := by
  unfold State.spread
  repeat' (first
    | with_reducible assumption | with_reducible apply ite_keeps
    | with_reducible refine modPower_keeps ?_ (fun _ => ⟨rfl, id⟩) | with_reducible apply modPower_keeps
    | exact fun _ => ⟨rfl, id⟩ | with_reducible apply modTh_keeps)

theorem State.recal_keeps (h : Keeps s0 s) : Keeps s0 (State.recal s) := by
  unfold State.recal
  repeat' (first
    | with_reducible assumption | with_reducible apply ite_keeps | with_reducible apply State.calibrate_keeps)

theorem State.checkBandgap_keeps {k : Fin 2} {v : Int} (h : Keeps s0 s) : Keeps s0 (State.checkBandgap k v s) := by
  unfold State.checkBandgap
  repeat' (first
    | with_reducible assumption | with_reducible apply ite_keeps | with_reducible apply modMeas_keeps | split
    | dsimp only)

theorem execHousekeepingRun_keeps {k : Fin 2} {readings : List (U16 × Reading)} {amps : List Reading} (h : Keeps s0 s) : KeepsOut s0 (execHousekeepingRun k readings amps s) := by
  unfold execHousekeepingRun
  repeat' (first
    | with_reducible assumption | with_reducible apply next_keeps | with_reducible apply iteOut_keeps
    | with_reducible apply ite_keeps | with_reducible refine foldl_keeps ?_ (fun t x ht => ?_)
    | with_reducible apply State.atDevice_keeps | with_reducible apply modMeas_keeps
    | with_reducible apply State.convert_keeps | with_reducible apply State.spread_keeps
    | with_reducible apply State.recal_keeps | with_reducible apply State.checkBandgap_keeps | split
    | dsimp only)

theorem State.calEnded_keeps (h : Keeps s0 s) : Keeps s0 (State.calEnded s) := by
  unfold State.calEnded
  repeat' (first
    | with_reducible assumption | with_reducible apply ite_keeps
    | with_reducible refine foldl_keeps ?_ (fun t x ht => ?_) | with_reducible apply modBus_keeps
    | with_reducible apply State.feedTo_keeps)

theorem State.modSeq_keeps {i : Fin 16} {f : SeqState → SeqState} (h : Keeps s0 s) : Keeps s0 (State.modSeq i f s) := by
  unfold State.modSeq
  repeat' (first
    | with_reducible assumption | with_reducible apply modMeas_keeps)

theorem State.trigger_keeps {i : Fin 16} (h : Keeps s0 s) : Keeps s0 (State.trigger i s) := by
  unfold State.trigger
  repeat' (first
    | with_reducible assumption | with_reducible apply ite_keeps | with_reducible apply State.openEvent_keeps
    | with_reducible apply State.modSeq_keeps | split | dsimp only)

theorem State.triggerKind_keeps {kind : Nat} {sel : Nat → Bool} (h : Keeps s0 s) : Keeps s0 (State.triggerKind kind sel s) := by
  unfold State.triggerKind
  repeat' (first
    | with_reducible assumption | with_reducible refine foldl_keeps ?_ (fun t x ht => ?_)
    | with_reducible apply State.trigger_keeps)

theorem execSequenceTrigger_keeps {i : Fin 16} (h : Keeps s0 s) : KeepsOut s0 (execSequenceTrigger i s) := by
  unfold execSequenceTrigger
  repeat' (first
    | with_reducible assumption | with_reducible apply next_keeps | with_reducible apply iteOut_keeps
    | with_reducible apply ite_keeps | with_reducible apply State.trigger_keeps
    | with_reducible apply atLeast_keeps | with_reducible apply State.atDevice_keeps | split | dsimp only)

theorem State.startPending_keeps {k : Fin 2} (h : Keeps s0 s) : Keeps s0 (State.startPending k s) := by
  unfold State.startPending
  repeat' (first
    | with_reducible assumption | with_reducible apply ite_keeps | with_reducible apply State.modSeq_keeps
    | split | dsimp only)

theorem execSequenceRunComplete_keeps {i : Fin 16} {codes : List (U16 × Reading)} (h : Keeps s0 s) : KeepsOut s0 (execSequenceRunComplete i codes s) := by
  unfold execSequenceRunComplete
  repeat' (first
    | with_reducible assumption | with_reducible apply next_keeps | with_reducible apply iteOut_keeps
    | with_reducible apply ite_keeps | with_reducible refine foldl_keeps ?_ (fun t x ht => ?_)
    | with_reducible apply State.atDevice_keeps | with_reducible apply State.convert_keeps
    | with_reducible apply State.emit_keeps | with_reducible apply State.modSeq_keeps
    | with_reducible apply modMeas_keeps | with_reducible apply State.refreshThermal_keeps
    | with_reducible apply State.startPending_keeps)

theorem execSelfCalibrationComplete_keeps {k : Fin 2} {good : Bool} (h : Keeps s0 s) : KeepsOut s0 (execSelfCalibrationComplete k good s) := by
  unfold execSelfCalibrationComplete
  repeat' (first
    | with_reducible assumption | with_reducible apply next_keeps | with_reducible apply iteOut_keeps
    | with_reducible apply ite_keeps | with_reducible apply modMeas_keeps
    | with_reducible apply State.refreshThermal_keeps | with_reducible apply State.startPending_keeps
    | with_reducible apply State.calEnded_keeps | with_reducible apply State.finish_keeps
    | with_reducible apply State.complete_keeps | split | dsimp only)

theorem State.vsdRecord_keeps {v : Nat} (h : Keeps s0 s) : Keeps s0 (State.vsdRecord v s) := by
  unfold State.vsdRecord
  repeat' (first
    | with_reducible assumption | with_reducible apply ite_keeps | with_reducible apply State.event_keeps)

theorem State.vsdRecords_keeps {sel : Nat → Bool} (h : Keeps s0 s) : Keeps s0 (State.vsdRecords sel s) := by
  unfold State.vsdRecords
  repeat' (first
    | with_reducible assumption | with_reducible refine foldl_keeps ?_ (fun t x ht => ?_)
    | with_reducible apply State.vsdRecord_keeps)

theorem execSequenceTableActivation_keeps (h : Keeps s0 s) : KeepsOut s0 (execSequenceTableActivation s) := by
  unfold execSequenceTableActivation
  repeat' (first
    | with_reducible assumption | with_reducible apply next_keeps | with_reducible apply iteOut_keeps
    | with_reducible apply ite_keeps | with_reducible apply modMeas_keeps
    | with_reducible apply State.refreshThermal_keeps | with_reducible apply State.vsdRecords_keeps
    | with_reducible apply State.loadComparators_keeps | with_reducible apply State.settle_keeps
    | with_reducible apply State.checkInputs_keeps | with_reducible apply State.takeType_keeps)

theorem State.modCmp_keeps {n : Fin 12} {f : Comparator → Comparator} (h : Keeps s0 s) : Keeps s0 (State.modCmp n f s) := by
  unfold State.modCmp
  repeat' (first
    | with_reducible assumption | with_reducible apply modMeas_keeps)

theorem State.scrimLevel_keeps (h : Keeps s0 s) : Keeps s0 (State.scrimLevel s) := by
  unfold State.scrimLevel
  repeat' (first
    | with_reducible assumption | with_reducible apply ite_keeps
    | with_reducible refine modSafety_keeps ?_ (fun _ hx => hx) | with_reducible apply modSafety_keeps
    | exact fun _ hx => hx)

theorem State.cmpRelease_keeps {n : Fin 12} (h : Keeps s0 s) : Keeps s0 (State.cmpRelease n s) := by
  unfold State.cmpRelease
  repeat' (first
    | with_reducible assumption | with_reducible apply ite_keeps
    | with_reducible apply State.refreshThermal_keeps | with_reducible apply State.scrimLevel_keeps
    | with_reducible apply State.raise_keeps | with_reducible apply State.modCmp_keeps)

theorem State.cmpSees_keeps {n : Fin 12} {uv : Nat} (h : Keeps s0 s) : Keeps s0 (State.cmpSees n uv s) := by
  unfold State.cmpSees
  repeat' (first
    | with_reducible assumption | with_reducible apply ite_keeps | with_reducible apply State.modCmp_keeps)

theorem State.cmpQualified_keeps {n : Fin 12} (h : Keeps s0 s) : Keeps s0 (State.cmpQualified n s) := by
  unfold State.cmpQualified
  repeat' (first
    | with_reducible assumption | with_reducible apply atLeast_keeps)

theorem execComparatorAssert_keeps {n : Fin 12} {uv : Nat} (h : Keeps s0 s) : KeepsOut s0 (execComparatorAssert n uv s) := by
  unfold execComparatorAssert
  repeat' (first
    | with_reducible assumption | with_reducible apply next_keeps | with_reducible apply iteOut_keeps
    | with_reducible apply ite_keeps | with_reducible apply State.cmpSees_keeps
    | with_reducible apply State.raise_keeps | with_reducible apply State.modCmp_keeps
    | with_reducible apply State.cmpQualified_keeps | with_reducible apply State.refreshThermal_keeps
    | with_reducible apply State.triggerKind_keeps | with_reducible apply State.settle_keeps
    | with_reducible apply State.safeState_keeps)

theorem execComparatorRelease_keeps {n : Fin 12} {uv : Nat} (h : Keeps s0 s) : KeepsOut s0 (execComparatorRelease n uv s) := by
  unfold execComparatorRelease
  repeat' (first
    | with_reducible assumption | with_reducible apply next_keeps | with_reducible apply iteOut_keeps
    | with_reducible apply ite_keeps | with_reducible apply State.cmpSees_keeps
    | with_reducible apply State.cmpRelease_keeps | with_reducible apply State.cmpQualified_keeps)

theorem execVsdInputInvalid_keeps {v : Fin 20} (h : Keeps s0 s) : KeepsOut s0 (execVsdInputInvalid v s) := by
  unfold execVsdInputInvalid
  repeat' (first
    | with_reducible assumption | with_reducible apply next_keeps | with_reducible apply iteOut_keeps
    | with_reducible apply ite_keeps | with_reducible apply modMeas_keeps
    | with_reducible apply State.settle_keeps | with_reducible apply State.checkInputs_keeps
    | with_reducible apply State.vsdRecord_keeps)

theorem State.inputLevel_keeps (h : Keeps s0 s) : Keeps s0 (State.inputLevel s) := by
  unfold State.inputLevel
  repeat' (first
    | with_reducible assumption | with_reducible apply ite_keeps
    | with_reducible refine modSafety_keeps ?_ (fun _ hx => hx) | with_reducible apply modSafety_keeps
    | exact fun _ hx => hx)

theorem execVsdInputValid_keeps {v : Fin 20} (h : Keeps s0 s) : KeepsOut s0 (execVsdInputValid v s) := by
  unfold execVsdInputValid
  repeat' (first
    | with_reducible assumption | with_reducible apply next_keeps | with_reducible apply iteOut_keeps
    | with_reducible apply ite_keeps | with_reducible apply State.inputLevel_keeps
    | with_reducible apply modMeas_keeps)

theorem execModulatorClockLost_keeps {cc : Bool} {lost : Bool} (h : Keeps s0 s) : KeepsOut s0 (execModulatorClockLost cc lost s) := by
  unfold execModulatorClockLost
  repeat' (first
    | with_reducible assumption | with_reducible apply next_keeps | with_reducible apply iteOut_keeps
    | with_reducible apply ite_keeps | with_reducible apply modMeas_keeps
    | with_reducible apply State.inputLevel_keeps | with_reducible apply State.settle_keeps
    | with_reducible apply State.checkInputs_keeps | with_reducible apply State.vsdRecords_keeps)

theorem State.pickCoulomb_keeps (h : Keeps s0 s) : Keeps s0 (State.pickCoulomb s) := by
  unfold State.pickCoulomb
  repeat' (first
    | with_reducible assumption | with_reducible refine foldl_keeps ?_ (fun t x ht => ?_)
    | with_reducible apply State.pickParam_keeps)

theorem State.ccTick_keeps {c : Fin 4} {d : Int} (h : Keeps s0 s) : Keeps s0 (State.ccTick c d s) := by
  unfold State.ccTick
  repeat' (first
    | with_reducible assumption | with_reducible apply ite_keeps | with_reducible apply State.raiseIf_keeps
    | with_reducible apply modMeas_keeps | split | dsimp only)

theorem State.ccWakeCount_keeps {c : Fin 4} (h : Keeps s0 s) : Keeps s0 (State.ccWakeCount c s) := by
  unfold State.ccWakeCount
  repeat' (first
    | with_reducible assumption | with_reducible apply ite_keeps | with_reducible apply modMeas_keeps)

theorem State.sessionTick_keeps {p : Fin 4} (h : Keeps s0 s) : Keeps s0 (State.sessionTick p s) := by
  unfold State.sessionTick
  repeat' (first
    | with_reducible assumption | with_reducible apply ite_keeps | with_reducible apply modStrPort_keeps)

theorem State.ccClear_keeps {f : Nat} {c : Fin 4} (h : Keeps s0 s) : Keeps s0 (State.ccClear f c s) := by
  unfold State.ccClear
  repeat' (first
    | with_reducible assumption | with_reducible apply modMeas_keeps | with_reducible apply State.store_keeps)

theorem State.ccResetNow_keeps {r : Req} (h : Keeps s0 s) : Keeps s0 (State.ccResetNow r s) := by
  unfold State.ccResetNow
  repeat' (first
    | with_reducible assumption | with_reducible refine foldl_keeps ?_ (fun t x ht => ?_)
    | with_reducible apply State.ccClear_keeps | with_reducible apply State.complete_keeps)

theorem execCoulombTick_keeps {counts : List Reading} (h : Keeps s0 s) : KeepsOut s0 (execCoulombTick counts s) := by
  unfold execCoulombTick
  repeat' (first
    | with_reducible assumption | with_reducible apply next_keeps | with_reducible apply iteOut_keeps
    | with_reducible apply ite_keeps | with_reducible refine foldl_keeps ?_ (fun t x ht => ?_)
    | with_reducible apply State.pickCoulomb_keeps | with_reducible apply State.atDevice_keeps
    | with_reducible apply State.ccWakeCount_keeps | with_reducible apply State.ccTick_keeps
    | with_reducible apply modMeas_keeps | with_reducible apply State.estTick_keeps
    | with_reducible apply State.sessionTick_keeps | with_reducible apply State.rateTick_keeps
    | with_reducible apply State.ccResetNow_keeps)

theorem execCoulombTelemetryInterval_keeps {c : Fin 4} (h : Keeps s0 s) : KeepsOut s0 (execCoulombTelemetryInterval c s) := by
  unfold execCoulombTelemetryInterval
  repeat' (first
    | with_reducible assumption | with_reducible apply next_keeps | with_reducible apply iteOut_keeps
    | with_reducible apply ite_keeps | with_reducible refine foldl_keeps ?_ (fun t x ht => ?_)
    | with_reducible apply atLeast_keeps | with_reducible refine modSys_keeps ?_ (fun _ hx => hx)
    | with_reducible apply modSys_keeps | exact fun _ hx => hx | with_reducible apply State.emit_keeps | split
    | dsimp only)

theorem execMeasRead_keeps {r : Req} (h : Keeps s0 s) : KeepsOut s0 (execMeasRead r s) := by
  unfold execMeasRead
  repeat' (first
    | with_reducible assumption | with_reducible apply ok_keeps | with_reducible apply next_keeps
    | with_reducible refine runOp_keeps ?_ (fun t ht => ?_))

theorem execMeasVsdRead_keeps {r : Req} (h : Keeps s0 s) : KeepsOut s0 (execMeasVsdRead r s) := by
  unfold execMeasVsdRead
  repeat' (first
    | with_reducible assumption | with_reducible apply ok_keeps | with_reducible apply next_keeps
    | with_reducible refine runOp_keeps ?_ (fun t ht => ?_))

theorem execMeasTrigger_keeps {r : Req} (h : Keeps s0 s) : KeepsOut s0 (execMeasTrigger r s) := by
  unfold execMeasTrigger
  repeat' (first
    | with_reducible assumption | with_reducible apply ok_keeps | with_reducible apply no_keeps
    | with_reducible apply iteRes_keeps | with_reducible apply next_keeps | with_reducible apply iteOut_keeps
    | with_reducible apply ite_keeps | with_reducible refine foldl_keeps ?_ (fun t x ht => ?_)
    | with_reducible refine runOp_keeps ?_ (fun t ht => ?_) | with_reducible apply State.trigger_keeps)

theorem execMeasCalibrate_keeps {r : Req} (h : Keeps s0 s) : KeepsOut s0 (execMeasCalibrate r s) := by
  unfold execMeasCalibrate
  repeat' (first
    | with_reducible assumption | with_reducible apply wait_keeps | with_reducible apply no_keeps
    | with_reducible apply iteRes_keeps | with_reducible apply next_keeps | with_reducible apply iteOut_keeps
    | with_reducible apply ite_keeps | with_reducible refine runOp_keeps ?_ (fun t ht => ?_)
    | with_reducible apply modMeas_keeps | with_reducible apply State.calibrate_keeps)

theorem execMeasCmpStatus_keeps {r : Req} (h : Keeps s0 s) : KeepsOut s0 (execMeasCmpStatus r s) := by
  unfold execMeasCmpStatus
  repeat' (first
    | with_reducible assumption | with_reducible apply ok_keeps | with_reducible apply next_keeps
    | with_reducible refine runOp_keeps ?_ (fun t ht => ?_))

theorem execMeasCmpClear_keeps {r : Req} (h : Keeps s0 s) : KeepsOut s0 (execMeasCmpClear r s) := by
  unfold execMeasCmpClear
  repeat' (first
    | with_reducible assumption | with_reducible apply ok_keeps | with_reducible apply no_keeps
    | with_reducible apply iteRes_keeps | with_reducible apply next_keeps | with_reducible apply iteOut_keeps
    | with_reducible apply ite_keeps | with_reducible refine foldl_keeps ?_ (fun t x ht => ?_)
    | with_reducible refine runOp_keeps ?_ (fun t ht => ?_) | with_reducible apply needLease_keeps
    | with_reducible apply State.cmpRelease_keeps)

theorem execCcRead_keeps {r : Req} (h : Keeps s0 s) : KeepsOut s0 (execCcRead r s) := by
  unfold execCcRead
  repeat' (first
    | with_reducible assumption | with_reducible apply ok_keeps | with_reducible apply no_keeps
    | with_reducible apply iteRes_keeps | with_reducible apply next_keeps | with_reducible apply iteOut_keeps
    | with_reducible apply ite_keeps | with_reducible refine runOp_keeps ?_ (fun t ht => ?_))

theorem execCcReset_keeps {r : Req} (h : Keeps s0 s) : KeepsOut s0 (execCcReset r s) := by
  unfold execCcReset
  repeat' (first
    | with_reducible assumption | with_reducible apply wait_keeps | with_reducible apply no_keeps
    | with_reducible apply iteRes_keeps | with_reducible apply next_keeps | with_reducible apply iteOut_keeps
    | with_reducible apply ite_keeps | with_reducible refine runOp_keeps ?_ (fun t ht => ?_)
    | with_reducible apply modMeas_keeps)

theorem execMeasSeqStatus_keeps {r : Req} (h : Keeps s0 s) : KeepsOut s0 (execMeasSeqStatus r s) := by
  unfold execMeasSeqStatus
  repeat' (first
    | with_reducible assumption | with_reducible apply ok_keeps | with_reducible apply next_keeps
    | with_reducible refine runOp_keeps ?_ (fun t ht => ?_))

end Sys2Proof.Machine
end

