-- ==== Sys2Proof/Laws/KeepCharge.lean ====
section
/-! SUPPORT. What the operations and meanings of `Machine/Charge.lean` keep (`Keeps`). -/

namespace Sys2Proof.Machine

variable {s0 s : State}

theorem State.journalFaults_keeps (h : Keeps s0 s) : Keeps s0 (State.journalFaults s) := by
  unfold State.journalFaults
  repeat' (first
    | with_reducible assumption | with_reducible apply State.store_keeps)

theorem State.latchFaults_keeps {p : Fin 4} {m : BitVec 7} (h : Keeps s0 s) : Keeps s0 (State.latchFaults p m s) := by
  unfold State.latchFaults
  repeat' (first
    | with_reducible assumption | with_reducible apply ite_keeps
    | with_reducible apply State.journalFaults_keeps | with_reducible apply State.raise_keeps
    | with_reducible apply modStrPort_keeps)

theorem State.portChanged_keeps {s0_ : State} {p : Fin 4} (h : Keeps s0 s) : Keeps s0 (State.portChanged s s0_ p) := by
  unfold State.portChanged
  repeat' (first
    | with_reducible assumption | with_reducible apply modStrPort_keeps
    | with_reducible apply State.raiseIf_keeps)

theorem State.portSweep_keeps {p : Fin 4} (h : Keeps s0 s) : Keeps s0 (State.portSweep p s) := by
  unfold State.portSweep
  repeat' (first
    | with_reducible assumption | with_reducible apply ite_keeps | with_reducible apply modStrPort_keeps
    | with_reducible apply State.portChanged_keeps | with_reducible apply State.latchFaults_keeps | split
    | dsimp only)

theorem State.takeProfile_keeps {p : Fin 4} (h : Keeps s0 s) : Keeps s0 (State.takeProfile p s) := by
  unfold State.takeProfile
  repeat' (first
    | with_reducible assumption | with_reducible apply ite_keeps | with_reducible apply modStrPort_keeps
    | with_reducible apply State.takeType_keeps)

theorem State.restartProfile_keeps {p : Fin 4} (h : Keeps s0 s) : Keeps s0 (State.restartProfile p s) := by
  unfold State.restartProfile
  repeat' (first
    | with_reducible assumption | with_reducible apply ite_keeps
    | with_reducible refine foldl_keeps ?_ (fun t x ht => ?_) | with_reducible apply modStrPort_keeps
    | with_reducible apply State.complete_keeps)

theorem State.chargeMoved_keeps {p : Fin 4} (h : Keeps s0 s) : Keeps s0 (State.chargeMoved p s) := by
  unfold State.chargeMoved
  repeat' (first
    | with_reducible assumption | with_reducible apply State.modSest_keeps)

theorem State.pickPort_keeps {p : Fin 4} (h : Keeps s0 s) : Keeps s0 (State.pickPort p s) := by
  unfold State.pickPort
  repeat' (first
    | with_reducible assumption | with_reducible refine foldl_keeps ?_ (fun t x ht => ?_)
    | with_reducible apply State.pickParam_keeps)

theorem execStringEvaluation_keeps {p : Fin 4} (h : Keeps s0 s) : KeepsOut s0 (execStringEvaluation p s) := by
  unfold execStringEvaluation
  repeat' (first
    | with_reducible assumption | with_reducible apply next_keeps | with_reducible apply iteOut_keeps
    | with_reducible apply ite_keeps | with_reducible apply State.pickPort_keeps
    | with_reducible apply State.restartProfile_keeps | with_reducible apply State.takeProfile_keeps
    | with_reducible apply State.chargeMoved_keeps | with_reducible apply modStrPort_keeps
    | with_reducible apply State.latchFaults_keeps | with_reducible apply State.portChanged_keeps | split
    | dsimp only)

theorem execStringStatus_keeps {r : Req} (h : Keeps s0 s) : KeepsOut s0 (execStringStatus r s) := by
  unfold execStringStatus
  repeat' (first
    | with_reducible assumption | with_reducible apply ok_keeps | with_reducible apply no_keeps
    | with_reducible apply iteRes_keeps | with_reducible apply next_keeps | with_reducible apply iteOut_keeps
    | with_reducible apply ite_keeps | with_reducible refine runOp_keeps ?_ (fun t ht => ?_))

theorem execChargeFaultRead_keeps {r : Req} (h : Keeps s0 s) : KeepsOut s0 (execChargeFaultRead r s) := by
  unfold execChargeFaultRead
  repeat' (first
    | with_reducible assumption | with_reducible apply ok_keeps | with_reducible apply no_keeps
    | with_reducible apply iteRes_keeps | with_reducible apply next_keeps | with_reducible apply iteOut_keeps
    | with_reducible apply ite_keeps | with_reducible refine runOp_keeps ?_ (fun t ht => ?_)
    | with_reducible apply needLease_keeps | with_reducible apply State.portChanged_keeps
    | with_reducible apply modStrPort_keeps | with_reducible apply State.auditReq_keeps
    | with_reducible apply State.journalFaults_keeps | split | dsimp only)

theorem execProfileRestart_keeps {r : Req} (h : Keeps s0 s) : KeepsOut s0 (execProfileRestart r s) := by
  unfold execProfileRestart
  repeat' (first
    | with_reducible assumption | with_reducible apply wait_keeps | with_reducible apply no_keeps
    | with_reducible apply iteRes_keeps | with_reducible apply next_keeps | with_reducible apply iteOut_keeps
    | with_reducible apply ite_keeps | with_reducible refine runOp_keeps ?_ (fun t ht => ?_)
    | with_reducible apply needLease_keeps | with_reducible apply modStrPort_keeps | split | dsimp only)

end Sys2Proof.Machine
end

