-- ==== Sys2Proof/Laws/KeepChain.lean ====
section
/-! SUPPORT. What the operations and meanings of `Machine/Chain.lean` keep (`Keeps`). -/

namespace Sys2Proof.Machine

variable {s0 s : State}

theorem State.modChainPort_keeps {q : Fin 2} {f : ChainPort → ChainPort} (h : Keeps s0 s) : Keeps s0 (State.modChainPort q f s) := by
  unfold State.modChainPort
  repeat' (first
    | with_reducible assumption | with_reducible apply modChain_keeps)

theorem State.chainCount_keeps {q : Fin 2} {j : Fin 8} (h : Keeps s0 s) : Keeps s0 (State.chainCount q j s) := by
  unfold State.chainCount
  repeat' (first
    | with_reducible assumption | with_reducible apply State.modChainPort_keeps)

theorem State.moduleTo_keeps {m : Fin 64} {r : ModuleRun} (h : Keeps s0 s) : Keeps s0 (State.moduleTo m r s) := by
  unfold State.moduleTo
  repeat' (first
    | with_reducible assumption | with_reducible apply ite_keeps | with_reducible apply State.raise_keeps
    | with_reducible apply State.modModule_keeps)

theorem State.ringTo_keeps {r : RingRun} (h : Keeps s0 s) : Keeps s0 (State.ringTo r s) := by
  unfold State.ringTo
  repeat' (first
    | with_reducible assumption | with_reducible apply ite_keeps | with_reducible apply State.raise_keeps
    | with_reducible apply modChain_keeps)

theorem State.ringChange_keeps {r : RingRun} (h : Keeps s0 s) : Keeps s0 (State.ringChange r s) := by
  unfold State.ringChange
  repeat' (first
    | with_reducible assumption | with_reducible apply ite_keeps | with_reducible apply modChain_keeps
    | with_reducible apply State.ringTo_keeps)

theorem execChainReceiverLock_keeps {q : Fin 2} {symbols : List ChainRx} (h : Keeps s0 s) : KeepsOut s0 (execChainReceiverLock q symbols s) := by
  unfold execChainReceiverLock
  repeat' (first
    | with_reducible assumption | with_reducible apply next_keeps | with_reducible apply iteOut_keeps
    | with_reducible apply ite_keeps | with_reducible refine foldl_keeps ?_ (fun t x ht => ?_)
    | with_reducible apply State.modChainPort_keeps | with_reducible apply State.raiseIf_keeps
    | with_reducible apply State.stippleAbortAll_keeps | with_reducible apply modChain_keeps)

theorem State.ringSees_keeps {q : Fin 2} {origin : Fin 2} (h : Keeps s0 s) : Keeps s0 (State.ringSees q origin s) := by
  unfold State.ringSees
  repeat' (first
    | with_reducible assumption | with_reducible apply ite_keeps | with_reducible apply modChain_keeps
    | with_reducible apply State.ringChange_keeps)

theorem State.ringHeals_keeps (h : Keeps s0 s) : Keeps s0 (State.ringHeals s) := by
  unfold State.ringHeals
  repeat' (first
    | with_reducible assumption | with_reducible apply ite_keeps | with_reducible apply State.ringChange_keeps)

theorem execRingStateChange_keeps {q : Fin 2} {origin : Fin 2} (h : Keeps s0 s) : KeepsOut s0 (execRingStateChange q origin s) := by
  unfold execRingStateChange
  repeat' (first
    | with_reducible assumption | with_reducible apply next_keeps | with_reducible apply iteOut_keeps
    | with_reducible apply ite_keeps | with_reducible apply State.ringSees_keeps)

theorem State.takeRingDelay_keeps {closed : Bool} {a : Nat} {b : Nat} (h : Keeps s0 s) : Keeps s0 (State.takeRingDelay closed a b s) := by
  unfold State.takeRingDelay
  repeat' (first
    | with_reducible assumption | with_reducible apply State.raiseIf_keeps
    | with_reducible apply modChain_keeps)

theorem State.pickChain_keeps (h : Keeps s0 s) : Keeps s0 (State.pickChain s) := by
  unfold State.pickChain
  repeat' (first
    | with_reducible assumption | with_reducible refine foldl_keeps ?_ (fun t x ht => ?_)
    | with_reducible apply State.pickParam_keeps)

theorem State.delayOf_keeps {closed : Bool} {a : Nat} {b : Nat} {m : Fin 64} {delta : Int} (h : Keeps s0 s) : Keeps s0 (State.delayOf closed a b m delta s) := by
  unfold State.delayOf
  repeat' (first
    | with_reducible assumption | with_reducible apply ite_keeps | with_reducible apply State.modModule_keeps
    | split | dsimp only)

theorem execDelayMeasurement_keeps {a : Nat} {b : Nat} {deltas : List (Fin 64 × Reading)} (h : Keeps s0 s) : KeepsOut s0 (execDelayMeasurement a b deltas s) := by
  unfold execDelayMeasurement
  repeat' (first
    | with_reducible assumption | with_reducible apply next_keeps | with_reducible apply iteOut_keeps
    | with_reducible apply ite_keeps | with_reducible refine foldl_keeps ?_ (fun t x ht => ?_)
    | with_reducible apply atLeast_keeps | with_reducible apply State.delayOf_keeps
    | with_reducible apply State.takeRingDelay_keeps | with_reducible apply modChain_keeps
    | with_reducible apply State.complete_keeps)

theorem State.startEnumeration_keeps {r : Option Req} (h : Keeps s0 s) : Keeps s0 (State.startEnumeration r s) := by
  unfold State.startEnumeration
  repeat' (first
    | with_reducible assumption | with_reducible apply modChain_keeps
    | with_reducible apply State.fullRate_keeps | with_reducible apply State.stippleAbortAll_keeps | split
    | dsimp only)

theorem State.bind_keeps {m : Fin 64} {x_ : Option NodeInfo} {closed : Bool} {n : Nat} (h : Keeps s0 s) : Keeps s0 (State.bind m x_ closed n s) := by
  unfold State.bind
  repeat' (first
    | with_reducible assumption | with_reducible apply ite_keeps | with_reducible apply State.moduleTo_keeps
    | with_reducible apply State.modModule_keeps | split | dsimp only)

theorem execEnumerationEnd_keeps {found : List NodeInfo} {reachA : Nat} {reachB : Nat} {a : Nat} {b : Nat} (h : Keeps s0 s) : KeepsOut s0 (execEnumerationEnd found reachA reachB a b s) := by
  unfold execEnumerationEnd
  repeat' (first
    | with_reducible assumption | with_reducible apply next_keeps | with_reducible apply iteOut_keeps
    | with_reducible apply ite_keeps | with_reducible refine foldl_keeps ?_ (fun t x ht => ?_)
    | with_reducible apply modChain_keeps | with_reducible apply State.pickChain_keeps
    | with_reducible apply State.moduleTo_keeps | with_reducible apply State.bind_keeps
    | with_reducible apply State.takeRingDelay_keeps | with_reducible apply State.delayOf_keeps
    | with_reducible apply State.ringTo_keeps | with_reducible apply State.raiseIf_keeps
    | with_reducible apply State.raise_keeps | with_reducible apply State.takeType_keeps
    | with_reducible apply State.complete_keeps | split | dsimp only)

theorem execMarkSend_keeps {q : Fin 2} (h : Keeps s0 s) : KeepsOut s0 (execMarkSend q s) := by
  unfold execMarkSend
  repeat' (first
    | with_reducible assumption | with_reducible apply next_keeps | with_reducible apply iteOut_keeps
    | with_reducible apply ite_keeps | with_reducible apply State.atDevice_keeps
    | with_reducible apply State.modChainPort_keeps)

theorem execSampleInstant_keeps (h : Keeps s0 s) : KeepsOut s0 (execSampleInstant s) := by
  unfold execSampleInstant
  repeat' (first
    | with_reducible assumption | with_reducible apply next_keeps | with_reducible apply iteOut_keeps
    | with_reducible apply ite_keeps | with_reducible refine foldl_keeps ?_ (fun t x ht => ?_)
    | with_reducible apply State.atDevice_keeps | with_reducible apply modChain_keeps
    | with_reducible apply State.stippleMark_keeps | with_reducible apply State.pickChain_keeps
    | with_reducible apply State.trigger_keeps)

theorem State.sendRequest_keeps {q : Fin 2} {kind : ReadKind} {m : Nat} {cmd : Byte} {addr : Byte} {payload : List Byte} {tries : Nat} {re : Bool} {r : Option Req} (h : Keeps s0 s) : Keeps s0 (State.sendRequest q kind m cmd addr payload tries re r s) := by
  unfold State.sendRequest
  repeat' (first
    | with_reducible assumption | with_reducible apply State.modChainPort_keeps
    | with_reducible apply modChain_keeps)

theorem State.closeModule_keeps {sweepFlags : Nat} {m : Fin 64} (h : Keeps s0 s) : Keeps s0 (State.closeModule sweepFlags m s) := by
  unfold State.closeModule
  repeat' (first
    | with_reducible assumption | with_reducible apply ite_keeps | with_reducible apply State.modModule_keeps
    | with_reducible apply State.modMest_keeps | with_reducible apply State.moduleTo_keeps | split
    | dsimp only)

theorem State.closeSweep_keeps {overrun : Bool} (h : Keeps s0 s) : Keeps s0 (State.closeSweep overrun s) := by
  unfold State.closeSweep
  repeat' (first
    | with_reducible assumption | with_reducible apply ite_keeps
    | with_reducible refine foldl_keeps ?_ (fun t x ht => ?_) | with_reducible apply State.closeModule_keeps
    | with_reducible apply modChain_keeps | with_reducible apply State.portSweep_keeps
    | with_reducible apply State.stippleSample_keeps | with_reducible apply State.ringHeals_keeps
    | with_reducible apply State.raiseIf_keeps)

theorem execSweepReadsStart_keeps (h : Keeps s0 s) : KeepsOut s0 (execSweepReadsStart s) := by
  unfold execSweepReadsStart
  repeat' (first
    | with_reducible assumption | with_reducible apply next_keeps | with_reducible apply iteOut_keeps
    | with_reducible apply ite_keeps | with_reducible refine foldl_keeps ?_ (fun t x ht => ?_)
    | with_reducible apply State.atDevice_keeps | with_reducible apply State.closeSweep_keeps
    | with_reducible apply modChain_keeps | with_reducible apply State.sendRequest_keeps)

theorem State.failRead_keeps {x_ : ChainRequest} (h : Keeps s0 s) : Keeps s0 (State.failRead x_ s) := by
  unfold State.failRead
  repeat' (first
    | with_reducible assumption | with_reducible apply ite_keeps | with_reducible apply modChain_keeps
    | with_reducible apply State.sendRequest_keeps | with_reducible apply State.chainCount_keeps
    | with_reducible apply State.finish_keeps | split | dsimp only)

theorem State.balanceReply_keeps {x_ : ChainRequest} {d : List Byte} (h : Keeps s0 s) : Keeps s0 (State.balanceReply x_ d s) := by
  unfold State.balanceReply
  repeat' (first
    | with_reducible assumption | with_reducible apply ite_keeps | with_reducible apply State.modModule_keeps
    | with_reducible apply State.complete_keeps | with_reducible apply State.finish_keeps | split | dsimp only)

theorem State.takeReply_keeps {x_ : ChainRequest} {d : List Byte} (h : Keeps s0 s) : Keeps s0 (State.takeReply x_ d s) := by
  unfold State.takeReply
  repeat' (first
    | with_reducible assumption | with_reducible apply modChain_keeps
    | with_reducible apply State.modModule_keeps | with_reducible apply State.balanceReply_keeps
    | with_reducible apply State.complete_keeps | split | dsimp only)

theorem execChainReply_keeps {q : Fin 2} {frame : List Byte} (h : Keeps s0 s) : KeepsOut s0 (execChainReply q frame s) := by
  unfold execChainReply
  repeat' (first
    | with_reducible assumption | with_reducible apply next_keeps | with_reducible apply iteOut_keeps
    | with_reducible apply ite_keeps | with_reducible apply State.chainCount_keeps
    | with_reducible apply State.failRead_keeps | with_reducible apply State.ringSees_keeps
    | with_reducible apply State.takeReply_keeps | split | dsimp only)

theorem execChainReadTimeout_keeps {q : Fin 2} (h : Keeps s0 s) : KeepsOut s0 (execChainReadTimeout q s) := by
  unfold execChainReadTimeout
  repeat' (first
    | with_reducible assumption | with_reducible apply next_keeps | with_reducible apply State.failRead_keeps
    | with_reducible apply State.chainCount_keeps | with_reducible apply State.atDevice_keeps | split
    | dsimp only)

theorem execSweepComplete_keeps (h : Keeps s0 s) : KeepsOut s0 (execSweepComplete s) := by
  unfold execSweepComplete
  repeat' (first
    | with_reducible assumption | with_reducible apply next_keeps | with_reducible apply iteOut_keeps
    | with_reducible apply ite_keeps | with_reducible apply State.closeSweep_keeps)

theorem execSweepDeadline_keeps (h : Keeps s0 s) : KeepsOut s0 (execSweepDeadline s) := by
  unfold execSweepDeadline
  repeat' (first
    | with_reducible assumption | with_reducible apply next_keeps | with_reducible apply iteOut_keeps
    | with_reducible apply ite_keeps | with_reducible apply State.closeSweep_keeps
    | with_reducible apply State.atDevice_keeps)

theorem execModuleChainLost_keeps {m : Fin 64} (h : Keeps s0 s) : KeepsOut s0 (execModuleChainLost m s) := by
  unfold execModuleChainLost
  repeat' (first
    | with_reducible assumption | with_reducible apply next_keeps | with_reducible apply iteOut_keeps
    | with_reducible apply ite_keeps | with_reducible refine foldl_keeps ?_ (fun t x ht => ?_)
    | with_reducible apply State.moduleTo_keeps | with_reducible apply State.portChanged_keeps
    | with_reducible apply State.latchFaults_keeps)

theorem State.sendMask_keeps {q : Fin 2} {m : Fin 64} (h : Keeps s0 s) : Keeps s0 (State.sendMask q m s) := by
  unfold State.sendMask
  repeat' (first
    | with_reducible assumption | with_reducible apply ite_keeps | with_reducible apply State.modModule_keeps
    | with_reducible apply State.sendRequest_keeps)

theorem State.sendBalance_keeps {q : Fin 2} {r : Req} (h : Keeps s0 s) : Keeps s0 (State.sendBalance q r s) := by
  unfold State.sendBalance
  repeat' (first
    | with_reducible assumption | with_reducible apply ite_keeps | with_reducible apply modChain_keeps
    | with_reducible apply State.sendRequest_keeps)

theorem State.sendNodeCmd_keeps {q : Fin 2} {r : Req} (h : Keeps s0 s) : Keeps s0 (State.sendNodeCmd q r s) := by
  unfold State.sendNodeCmd
  repeat' (first
    | with_reducible assumption | with_reducible apply ite_keeps | with_reducible apply modChain_keeps
    | with_reducible apply State.sendRequest_keeps)

theorem execBalanceRequestSend_keeps {q : Fin 2} (h : Keeps s0 s) : KeepsOut s0 (execBalanceRequestSend q s) := by
  unfold execBalanceRequestSend
  repeat' (first
    | with_reducible assumption | with_reducible apply next_keeps | with_reducible apply iteOut_keeps
    | with_reducible apply ite_keeps | with_reducible refine foldl_keeps ?_ (fun t x ht => ?_)
    | with_reducible apply State.sendMask_keeps | with_reducible apply State.sendBalance_keeps
    | with_reducible apply State.sendNodeCmd_keeps)

theorem State.moveReads_keeps {q : Fin 2} (h : Keeps s0 s) : Keeps s0 (State.moveReads q s) := by
  unfold State.moveReads
  repeat' (first
    | with_reducible assumption | with_reducible apply ite_keeps
    | with_reducible refine foldl_keeps ?_ (fun t x ht => ?_) | with_reducible apply modChain_keeps
    | with_reducible apply State.modChainPort_keeps | with_reducible apply State.sendRequest_keeps)

theorem execChainPortStop_keeps {q : Fin 2} (h : Keeps s0 s) : KeepsOut s0 (execChainPortStop q s) := by
  unfold execChainPortStop
  repeat' (first
    | with_reducible assumption | with_reducible apply next_keeps | with_reducible apply iteOut_keeps
    | with_reducible apply ite_keeps | with_reducible apply State.modChainPort_keeps
    | with_reducible apply State.atDevice_keeps)

theorem execChainStatus_keeps {r : Req} (h : Keeps s0 s) : KeepsOut s0 (execChainStatus r s) := by
  unfold execChainStatus
  repeat' (first
    | with_reducible assumption | with_reducible apply ok_keeps | with_reducible apply next_keeps
    | with_reducible refine runOp_keeps ?_ (fun t ht => ?_))

theorem execChainEnumerate_keeps {r : Req} (h : Keeps s0 s) : KeepsOut s0 (execChainEnumerate r s) := by
  unfold execChainEnumerate
  repeat' (first
    | with_reducible assumption | with_reducible apply wait_keeps | with_reducible apply no_keeps
    | with_reducible apply iteRes_keeps | with_reducible apply next_keeps | with_reducible apply iteOut_keeps
    | with_reducible apply ite_keeps | with_reducible refine runOp_keeps ?_ (fun t ht => ?_)
    | with_reducible apply State.startEnumeration_keeps)

theorem execChainModuleRead_keeps {r : Req} (h : Keeps s0 s) : KeepsOut s0 (execChainModuleRead r s) := by
  unfold execChainModuleRead
  repeat' (first
    | with_reducible assumption | with_reducible apply ok_keeps | with_reducible apply no_keeps
    | with_reducible apply iteRes_keeps | with_reducible apply next_keeps | with_reducible apply iteOut_keeps
    | with_reducible apply ite_keeps | with_reducible refine runOp_keeps ?_ (fun t ht => ?_) | split
    | dsimp only)

theorem execChainBalance_keeps {r : Req} (h : Keeps s0 s) : KeepsOut s0 (execChainBalance r s) := by
  unfold execChainBalance
  repeat' (first
    | with_reducible assumption | with_reducible apply wait_keeps | with_reducible apply no_keeps
    | with_reducible apply iteRes_keeps | with_reducible apply next_keeps | with_reducible apply iteOut_keeps
    | with_reducible apply ite_keeps | with_reducible refine runOp_keeps ?_ (fun t ht => ?_)
    | with_reducible apply modChain_keeps | split | dsimp only)

theorem execChainNodeCmd_keeps {r : Req} (h : Keeps s0 s) : KeepsOut s0 (execChainNodeCmd r s) := by
  unfold execChainNodeCmd
  repeat' (first
    | with_reducible assumption | with_reducible apply wait_keeps | with_reducible apply no_keeps
    | with_reducible apply iteRes_keeps | with_reducible apply next_keeps | with_reducible apply iteOut_keeps
    | with_reducible apply ite_keeps | with_reducible refine runOp_keeps ?_ (fun t ht => ?_)
    | with_reducible apply modChain_keeps | split | dsimp only)

theorem execChainProbe_keeps {r : Req} (h : Keeps s0 s) : KeepsOut s0 (execChainProbe r s) := by
  unfold execChainProbe
  repeat' (first
    | with_reducible assumption | with_reducible apply wait_keeps | with_reducible apply no_keeps
    | with_reducible apply iteRes_keeps | with_reducible apply next_keeps | with_reducible apply iteOut_keeps
    | with_reducible apply ite_keeps | with_reducible refine runOp_keeps ?_ (fun t ht => ?_)
    | with_reducible apply modChain_keeps)

end Sys2Proof.Machine
end

