-- ==== Sys2Proof/Laws/KeepEst.lean ====
section
/-! SUPPORT. What the operations and meanings of `Machine/Est.lean` keep (`Keeps`). -/

namespace Sys2Proof.Machine

variable {s0 s : State}

theorem State.pickEst_keeps {m : Fin 64} (h : Keeps s0 s) : Keeps s0 (State.pickEst m s) := by
  unfold State.pickEst
  repeat' (first
    | with_reducible assumption | with_reducible refine foldl_keeps ?_ (fun t x ht => ?_)
    | with_reducible apply State.pickParam_keeps)

theorem State.journalModule_keeps {m : Fin 64} (h : Keeps s0 s) : Keeps s0 (State.journalModule m s) := by
  unfold State.journalModule
  repeat' (first
    | with_reducible assumption | with_reducible apply State.modMest_keeps
    | with_reducible apply State.store_keeps)

theorem State.journalEst_keeps {sel : Fin 64 → Bool} (h : Keeps s0 s) : Keeps s0 (State.journalEst sel s) := by
  unfold State.journalEst
  repeat' (first
    | with_reducible assumption | with_reducible refine foldl_keeps ?_ (fun t x ht => ?_)
    | with_reducible apply State.journalModule_keeps | with_reducible apply State.store_keeps)

theorem State.journalCounters_keeps (h : Keeps s0 s) : Keeps s0 (State.journalCounters s) := by
  unfold State.journalCounters
  repeat' (first
    | with_reducible assumption | with_reducible apply State.store_keeps)

theorem State.startCells_keeps {m : Fin 64} (h : Keeps s0 s) : Keeps s0 (State.startCells m s) := by
  unfold State.startCells
  repeat' (first
    | with_reducible assumption | with_reducible apply State.modMest_keeps)

theorem State.relearn_keeps {m : Fin 64} (h : Keeps s0 s) : Keeps s0 (State.relearn m s) := by
  unfold State.relearn
  repeat' (first
    | with_reducible assumption | with_reducible apply State.store_keeps
    | with_reducible apply State.journalModule_keeps | with_reducible apply State.startCells_keeps | split
    | dsimp only)

theorem State.auditReplaced_keeps {r : Req} {opcode : Nat} (h : Keeps s0 s) : Keeps s0 (State.auditReplaced r opcode s) := by
  unfold State.auditReplaced
  repeat' (first
    | with_reducible assumption | with_reducible apply State.audit_keeps | with_reducible apply freeCtr_keeps)

theorem State.takeSets_keeps {m : Fin 64} {f : FloatIn} (h : Keeps s0 s) : Keeps s0 (State.takeSets m f s) := by
  unfold State.takeSets
  repeat' (first
    | with_reducible assumption | with_reducible apply ite_keeps
    | with_reducible refine foldl_keeps ?_ (fun t x ht => ?_) | with_reducible apply State.modMest_keeps
    | with_reducible apply State.modSest_keeps | with_reducible apply modEst_keeps
    | with_reducible apply State.complete_keeps | with_reducible apply State.auditReplaced_keeps | split
    | dsimp only)

theorem State.anchorReports_keeps {m : Fin 64} {p : Fin 4} {outs : List (Bool × Option Bool)} (h : Keeps s0 s) : Keeps s0 (State.anchorReports m p outs s) := by
  unfold State.anchorReports
  repeat' (first
    | with_reducible assumption | with_reducible apply ite_keeps
    | with_reducible refine foldl_keeps ?_ (fun t x ht => ?_) | with_reducible apply State.modMest_keeps
    | with_reducible apply State.raise_keeps | with_reducible apply State.modSest_keeps
    | with_reducible apply State.journalModule_keeps | split | dsimp only)

theorem State.updateModule_keeps {m : Fin 64} {p : Fin 4} (h : Keeps s0 s) : Keeps s0 (State.updateModule m p s) := by
  unfold State.updateModule
  repeat' (first
    | with_reducible assumption | with_reducible apply ite_keeps | with_reducible apply State.modMest_keeps
    | with_reducible apply State.takeSets_keeps | with_reducible apply State.anchorReports_keeps | split
    | dsimp only)

theorem State.featherModule_keeps {m : Fin 64} {p : Fin 4} {x0 : Option Rat} (h : Keeps s0 s) : Keeps s0 (State.featherModule m p x0 s) := by
  unfold State.featherModule
  repeat' (first
    | with_reducible assumption | with_reducible apply State.modMest_keeps | split | dsimp only)

theorem State.updateString_keeps {p : Fin 4} (h : Keeps s0 s) : Keeps s0 (State.updateString p s) := by
  unfold State.updateString
  repeat' (first
    | with_reducible assumption | with_reducible apply ite_keeps | with_reducible apply State.modSest_keeps)

theorem State.floatOff_keeps {m : Fin 64} (h : Keeps s0 s) : Keeps s0 (State.floatOff m s) := by
  unfold State.floatOff
  repeat' (first
    | with_reducible assumption | with_reducible apply State.modMest_keeps
    | with_reducible apply State.takeSets_keeps)

theorem State.floatModule_keeps {m : Fin 64} {x0 : Option Rat} (h : Keeps s0 s) : Keeps s0 (State.floatModule m x0 s) := by
  unfold State.floatModule
  repeat' (first
    | with_reducible assumption | with_reducible apply ite_keeps
    | with_reducible apply State.featherModule_keeps | with_reducible apply State.updateModule_keeps
    | with_reducible apply State.floatOff_keeps | split | dsimp only)

theorem State.floatString_keeps {m : Fin 64} {t_ : Nat} (h : Keeps s0 s) : Keeps s0 (State.floatString m t_ s) := by
  unfold State.floatString
  repeat' (first
    | with_reducible assumption | with_reducible apply ite_keeps
    | with_reducible apply State.updateString_keeps | split | dsimp only)

theorem execFloatUpdate_keeps {m : Fin 64} (h : Keeps s0 s) : KeepsOut s0 (execFloatUpdate m s) := by
  unfold execFloatUpdate
  repeat' (first
    | with_reducible assumption | with_reducible apply next_keeps | with_reducible apply iteOut_keeps
    | with_reducible apply ite_keeps | with_reducible apply State.takeType_keeps
    | with_reducible apply State.applyFloat_keeps | with_reducible apply State.pickEst_keeps
    | with_reducible apply State.atDevice_keeps | with_reducible apply State.floatModule_keeps
    | with_reducible apply State.modMest_keeps | with_reducible apply State.floatString_keeps)

theorem execCellDiverged_keeps {m : Fin 64} {c : Fin 24} (h : Keeps s0 s) : KeepsOut s0 (execCellDiverged m c s) := by
  unfold execCellDiverged
  with_reducible exact iteOut_keeps (next_keeps h) (iteOut_keeps (next_keeps (State.raise_keeps (State.modMest_keeps h)))
    (iteOut_keeps (next_keeps (State.modMest_keeps h)) (next_keeps h)))

theorem execTempStale_keeps {m : Fin 64} (h : Keeps s0 s) : KeepsOut s0 (execTempStale m s) := by
  unfold execTempStale
  repeat' (first
    | with_reducible assumption | with_reducible apply next_keeps | with_reducible apply iteOut_keeps
    | with_reducible apply ite_keeps | with_reducible apply State.modMest_keeps
    | with_reducible apply atLeast_keeps)

theorem execBalancingDecision_keeps (h : Keeps s0 s) : KeepsOut s0 (execBalancingDecision s) := by
  unfold execBalancingDecision
  repeat' (first
    | with_reducible assumption | with_reducible apply next_keeps | with_reducible apply iteOut_keeps
    | with_reducible apply ite_keeps | with_reducible refine foldl_keeps ?_ (fun t x ht => ?_)
    | with_reducible apply atLeast_keeps | with_reducible apply State.modModule_keeps
    | with_reducible apply modEst_keeps | split | dsimp only)

theorem execLearningInterval_keeps (h : Keeps s0 s) : KeepsOut s0 (execLearningInterval s) := by
  unfold execLearningInterval
  repeat' (first
    | with_reducible assumption | with_reducible apply next_keeps | with_reducible apply iteOut_keeps
    | with_reducible apply ite_keeps | with_reducible apply atLeast_keeps
    | with_reducible apply State.journalCounters_keeps | with_reducible apply State.journalEst_keeps
    | with_reducible apply modEst_keeps)

theorem execReducedRateEntry_keeps (h : Keeps s0 s) : KeepsOut s0 (execReducedRateEntry s) := by
  unfold execReducedRateEntry
  repeat' (first
    | with_reducible assumption | with_reducible apply next_keeps | with_reducible apply iteOut_keeps
    | with_reducible apply ite_keeps | with_reducible apply atLeast_keeps
    | with_reducible apply State.raise_keeps | with_reducible apply modEst_keeps | split | dsimp only)

theorem execFullRateResume_keeps (h : Keeps s0 s) : KeepsOut s0 (execFullRateResume s) := by
  unfold execFullRateResume
  repeat' (first
    | with_reducible assumption | with_reducible apply next_keeps | with_reducible apply iteOut_keeps
    | with_reducible apply ite_keeps | with_reducible apply State.fullRate_keeps)

theorem execHibernateEntry_keeps (h : Keeps s0 s) : KeepsOut s0 (execHibernateEntry s) := by
  unfold execHibernateEntry
  repeat' (first
    | with_reducible assumption | with_reducible apply next_keeps | with_reducible apply iteOut_keeps
    | with_reducible apply ite_keeps | with_reducible apply atLeast_keeps
    | with_reducible apply modChain_keeps | with_reducible apply modEst_keeps
    | with_reducible apply State.raise_keeps | with_reducible apply State.hibernateRecords_keeps)

theorem execHibernateRecord_keeps (h : Keeps s0 s) : KeepsOut s0 (execHibernateRecord s) := by
  unfold execHibernateRecord
  repeat' (first
    | with_reducible assumption | with_reducible apply next_keeps | with_reducible apply iteOut_keeps
    | with_reducible apply ite_keeps | with_reducible apply atLeast_keeps
    | with_reducible apply State.hibernateRecords_keeps | with_reducible apply modEst_keeps)

theorem execEndOfLife_keeps {p : Fin 4} (h : Keeps s0 s) : KeepsOut s0 (execEndOfLife p s) := by
  unfold execEndOfLife
  repeat' (first
    | with_reducible assumption | with_reducible apply next_keeps | with_reducible apply iteOut_keeps
    | with_reducible apply ite_keeps | with_reducible apply State.modSest_keeps
    | with_reducible apply atLeast_keeps | with_reducible apply State.raise_keeps
    | with_reducible apply State.store_keeps | split | dsimp only)

theorem execEstStatusRead_keeps {r : Req} (h : Keeps s0 s) : KeepsOut s0 (execEstStatusRead r s) := by
  unfold execEstStatusRead
  repeat' (first
    | with_reducible assumption | with_reducible apply ok_keeps | with_reducible apply next_keeps
    | with_reducible refine runOp_keeps ?_ (fun t ht => ?_) | split | dsimp only)

theorem execEstCellRead_keeps {r : Req} (h : Keeps s0 s) : KeepsOut s0 (execEstCellRead r s) := by
  unfold execEstCellRead
  repeat' (first
    | with_reducible assumption | with_reducible apply ok_keeps | with_reducible apply no_keeps
    | with_reducible apply next_keeps | with_reducible refine runOp_keeps ?_ (fun t ht => ?_) | split
    | dsimp only)

theorem execEstLearnNow_keeps {r : Req} (h : Keeps s0 s) : KeepsOut s0 (execEstLearnNow r s) := by
  unfold execEstLearnNow
  repeat' (first
    | with_reducible assumption | with_reducible apply ok_keeps | with_reducible apply wait_keeps
    | with_reducible apply iteRes_keeps | with_reducible apply next_keeps | with_reducible apply iteOut_keeps
    | with_reducible apply ite_keeps | with_reducible refine runOp_keeps ?_ (fun t ht => ?_)
    | with_reducible apply State.journalEst_keeps | with_reducible apply modEst_keeps)

theorem execEstSetSoc_keeps {r : Req} (h : Keeps s0 s) : KeepsOut s0 (execEstSetSoc r s) := by
  unfold execEstSetSoc
  repeat' (first
    | with_reducible assumption | with_reducible apply ok_keeps | with_reducible apply wait_keeps
    | with_reducible apply no_keeps | with_reducible apply iteRes_keeps | with_reducible apply next_keeps
    | with_reducible apply iteOut_keeps | with_reducible apply ite_keeps
    | with_reducible refine runOp_keeps ?_ (fun t ht => ?_) | with_reducible apply State.auditReplaced_keeps
    | with_reducible apply modEst_keeps | split | dsimp only)

theorem execEstRelearn_keeps {r : Req} (h : Keeps s0 s) : KeepsOut s0 (execEstRelearn r s) := by
  unfold execEstRelearn
  repeat' (first
    | with_reducible assumption | with_reducible apply ok_keeps | with_reducible apply no_keeps
    | with_reducible apply next_keeps | with_reducible refine runOp_keeps ?_ (fun t ht => ?_)
    | with_reducible apply State.auditReplaced_keeps | with_reducible apply State.relearn_keeps | split
    | dsimp only)

theorem execModuleAccept_keeps {r : Req} (h : Keeps s0 s) : KeepsOut s0 (execModuleAccept r s) := by
  unfold execModuleAccept
  repeat' (first
    | with_reducible assumption | with_reducible apply ok_keeps | with_reducible apply no_keeps
    | with_reducible apply iteRes_keeps | with_reducible apply next_keeps | with_reducible apply iteOut_keeps
    | with_reducible apply ite_keeps | with_reducible refine runOp_keeps ?_ (fun t ht => ?_)
    | with_reducible apply State.setParam_keeps | with_reducible apply State.relearn_keeps
    | with_reducible apply State.modModule_keeps | with_reducible apply State.moduleTo_keeps | split
    | dsimp only)

end Sys2Proof.Machine
end

