-- ==== Sys2Proof/Laws/KeepTableInstall.lean ====
section
/-! SUPPORT. What the operations and meanings of `Machine/TableInstall.lean` keep (`Keeps`). -/

namespace Sys2Proof.Machine

variable {s0 s : State}

theorem State.storeSequencer_keeps (h : Keeps s0 s) : Keeps s0 (State.storeSequencer s) := by
  unfold State.storeSequencer
  repeat' (first
    | with_reducible assumption | with_reducible refine modPower_keeps ?_ (fun _ => ⟨rfl, id⟩)
    | with_reducible apply modPower_keeps | exact fun _ => ⟨rfl, id⟩ | split | dsimp only)

theorem State.holdCheck_keeps (h : Keeps s0 s) : Keeps s0 (State.holdCheck s) := by
  unfold State.holdCheck
  repeat' (first
    | with_reducible assumption | with_reducible apply State.raiseIf_keeps
    | with_reducible refine modPower_keeps ?_ (fun _ => ⟨rfl, id⟩) | with_reducible apply modPower_keeps
    | exact fun _ => ⟨rfl, id⟩)

theorem State.seqAtCommit_keeps (h : Keeps s0 s) : Keeps s0 (State.seqAtCommit s) := by
  unfold State.seqAtCommit
  repeat' (first
    | with_reducible assumption | with_reducible apply State.holdCheck_keeps
    | with_reducible refine modPower_keeps ?_ (fun _ => ⟨rfl, id⟩) | with_reducible apply modPower_keeps
    | exact fun _ => ⟨rfl, id⟩ | split | dsimp only)

theorem State.installTable_keeps {key : Nat} {t_ : Table} (h : Keeps s0 s) : Keeps s0 (State.installTable key t_ s) := by
  unfold State.installTable
  repeat' (first
    | with_reducible assumption | with_reducible apply ite_keeps
    | with_reducible refine modHost_keeps ?_ (fun _ hx => hx) | with_reducible apply modHost_keeps
    | exact fun _ hx => hx | with_reducible apply State.activate_keeps
    | with_reducible apply State.storeSequencer_keeps | with_reducible apply State.seqAtCommit_keeps
    | with_reducible refine modConv_keeps ?_ (fun _ hx => hx) | with_reducible apply modConv_keeps
    | exact fun _ hx => hx | with_reducible apply State.startEnumeration_keeps)

end Sys2Proof.Machine
end

