-- ==== Sys2Proof/Laws/KeepPurge.lean ====
section
/-! SUPPORT. What the operations and meanings of `Machine/Purge.lean` keep (`Keeps`). -/

namespace Sys2Proof.Machine

variable {s0 s : State}

theorem State.dropArriving_keeps {sel : Req → Bool} (h : Keeps s0 s) : Keeps s0 (State.dropArriving sel s) := by
  unfold State.dropArriving
  repeat' (first
    | with_reducible assumption | with_reducible apply ite_keeps
    | with_reducible refine foldl_keeps ?_ (fun t x ht => ?_)
    | with_reducible refine modHost_keeps ?_ (fun _ hx => hx) | with_reducible apply modHost_keeps
    | exact fun _ hx => hx | with_reducible apply State.store_keeps
    | with_reducible refine modNv_keeps ?_ (fun _ => SecState.same rfl rfl rfl rfl rfl)
    | with_reducible apply modNv_keeps | exact fun _ => SecState.same rfl rfl rfl rfl rfl | split | dsimp only
    | with_reducible apply freeCtr_keeps)

theorem State.forget_keeps {sel : Req → Bool} (h : Keeps s0 s) : Keeps s0 (State.forget sel s) := by
  unfold State.forget
  repeat' (first
    | exact fun _ hx => hx | exact fun c hc => map_safely (fun _ hx => hx) hc | with_reducible assumption
    | with_reducible refine modConv_keeps ?_ (fun _ hx => hx) | with_reducible apply modConv_keeps
    | exact fun _ hx => hx | with_reducible apply modBus_keeps | with_reducible apply modMeas_keeps
    | with_reducible apply modChain_keeps | with_reducible apply modEst_keeps
    | with_reducible apply modChg_keeps | with_reducible refine modHost_keeps ?_ (fun _ hx => hx)
    | with_reducible apply modHost_keeps | exact fun _ hx => hx
    | with_reducible refine modNv_keeps ?_ (fun _ => SecState.same rfl rfl rfl rfl rfl)
    | with_reducible apply modNv_keeps | exact fun _ => SecState.same rfl rfl rfl rfl rfl
    | with_reducible apply State.dropArriving_keeps | with_reducible apply modLink_keeps
    | with_reducible apply modSp_keeps | split | dsimp only)

theorem State.abandon_keeps {sel : Req → Bool} {status : Nat} (h : Keeps s0 s) : Keeps s0 (State.abandon sel status s) := by
  unfold State.abandon
  repeat' (first
    | with_reducible assumption | with_reducible refine foldl_keeps ?_ (fun t x ht => ?_)
    | with_reducible apply State.finish_keeps | with_reducible apply State.forget_keeps)

end Sys2Proof.Machine
end

