-- ==== Sys2Proof/Laws/KeepIrq.lean ====
section
/-! SUPPORT. What the operations and meanings of `Machine/Irq.lean` keep (`Keeps`). -/

namespace Sys2Proof.Machine

variable {s0 s : State}

theorem State.modIrq_keeps {f : IrqState → IrqState} (h : Keeps s0 s) : Keeps s0 (State.modIrq f s) := by
  unfold State.modIrq
  repeat' (first
    | with_reducible assumption | with_reducible refine modSys_keeps ?_ (fun _ hx => hx)
    | with_reducible apply modSys_keeps | exact fun _ hx => hx)

theorem State.withdrawStale_keeps (h : Keeps s0 s) : Keeps s0 (State.withdrawStale s) := by
  unfold State.withdrawStale
  repeat' (first
    | with_reducible assumption | with_reducible apply ite_keeps
    | with_reducible refine foldl_keeps ?_ (fun t x ht => ?_) | with_reducible apply State.modIrq_keeps
    | split | dsimp only)

theorem State.offer_keeps {n : Nat} (h : Keeps s0 s) : Keeps s0 (State.offer n s) := by
  unfold State.offer
  repeat' (first
    | with_reducible assumption | with_reducible apply State.modIrq_keeps | split | dsimp only)

theorem execInterruptRouting_keeps (h : Keeps s0 s) : KeepsOut s0 (execInterruptRouting s) := by
  unfold execInterruptRouting
  repeat' (first
    | with_reducible assumption | with_reducible apply next_keeps | with_reducible apply iteOut_keeps
    | with_reducible apply ite_keeps | with_reducible refine foldl_keeps ?_ (fun t x ht => ?_)
    | with_reducible apply State.withdrawStale_keeps | with_reducible apply State.offer_keeps)

theorem execInterruptRaise_keeps {n : Fin 384} (h : Keeps s0 s) : KeepsOut s0 (execInterruptRaise n s) := by
  unfold execInterruptRaise
  repeat' (first
    | with_reducible assumption | with_reducible apply next_keeps | with_reducible apply State.raise_keeps)

theorem execIrqCountFold_keeps (h : Keeps s0 s) : KeepsOut s0 (execIrqCountFold s) := by
  unfold execIrqCountFold
  repeat' (first
    | with_reducible assumption | with_reducible apply next_keeps | with_reducible apply iteOut_keeps
    | with_reducible apply ite_keeps | with_reducible refine foldl_keeps ?_ (fun t x ht => ?_)
    | with_reducible apply State.modIrq_keeps)

theorem execIrqCounts_keeps {r : Req} (h : Keeps s0 s) : KeepsOut s0 (execIrqCounts r s) := by
  unfold execIrqCounts
  repeat' (first
    | with_reducible assumption | with_reducible apply ok_keeps | with_reducible apply no_keeps
    | with_reducible apply iteRes_keeps | with_reducible apply next_keeps | with_reducible apply iteOut_keeps
    | with_reducible apply ite_keeps | with_reducible refine foldl_keeps ?_ (fun t x ht => ?_)
    | with_reducible refine runOp_keeps ?_ (fun t ht => ?_) | with_reducible apply State.modIrq_keeps)

theorem State.irqRead_keeps {v : Nat} (h : Keeps s0 s) : Keeps s0 (State.irqRead v s) := by
  unfold State.irqRead
  repeat' (first
    | with_reducible assumption | with_reducible apply State.modIrq_keeps)

theorem execIcClaimRead_keeps {k : Fin 4} (h : Keeps s0 s) : KeepsOut s0 (execIcClaimRead k s) := by
  unfold execIcClaimRead
  repeat' (first
    | with_reducible assumption | with_reducible apply next_keeps | with_reducible apply iteOut_keeps
    | with_reducible apply ite_keeps | with_reducible apply State.irqRead_keeps
    | with_reducible apply State.modIrq_keeps | split | dsimp only)

theorem execIcEoiWrite_keeps {k : Fin 4} {value : U32} (h : Keeps s0 s) : KeepsOut s0 (execIcEoiWrite k value s) := by
  unfold execIcEoiWrite
  repeat' (first
    | with_reducible assumption | with_reducible apply next_keeps | with_reducible apply iteOut_keeps
    | with_reducible apply ite_keeps | with_reducible apply State.modIrq_keeps | split | dsimp only)

theorem State.coreFault_keeps {core : Fin 4} {cause : MemCause} {addr : Nat} (h : Keeps s0 s) : Keeps s0 (State.coreFault core cause addr s) := by
  unfold State.coreFault
  repeat' (first
    | with_reducible assumption | with_reducible refine modSys_keeps ?_ (fun _ hx => hx)
    | with_reducible apply modSys_keeps | exact fun _ hx => hx)

theorem State.refuseWrite_keeps {core : Fin 4} {addr : Nat} (h : Keeps s0 s) : Keeps s0 (State.refuseWrite core addr s) := by
  unfold State.refuseWrite
  repeat' (first
    | with_reducible assumption | with_reducible apply State.coreFault_keeps
    | with_reducible apply State.modIrq_keeps)

theorem execIcSwsetWrite_keeps {core : Fin 4} {value : U32} (h : Keeps s0 s) : KeepsOut s0 (execIcSwsetWrite core value s) := by
  unfold execIcSwsetWrite
  repeat' (first
    | with_reducible assumption | with_reducible apply next_keeps | with_reducible apply iteOut_keeps
    | with_reducible apply ite_keeps | with_reducible apply State.refuseWrite_keeps
    | with_reducible apply State.raise_keeps | with_reducible apply State.modIrq_keeps
    | with_reducible refine modSys_keeps ?_ (fun _ hx => hx) | with_reducible apply modSys_keeps
    | exact fun _ hx => hx)

theorem execIcSwclrWrite_keeps {core : Fin 4} {value : U32} (h : Keeps s0 s) : KeepsOut s0 (execIcSwclrWrite core value s) := by
  unfold execIcSwclrWrite
  repeat' (first
    | with_reducible assumption | with_reducible apply next_keeps | with_reducible apply iteOut_keeps
    | with_reducible apply ite_keeps | with_reducible apply State.refuseWrite_keeps
    | with_reducible apply State.modIrq_keeps)

theorem execIcCfgWrite_keeps {core : Fin 4} {n : Fin 384} {value : U32} (h : Keeps s0 s) : KeepsOut s0 (execIcCfgWrite core n value s) := by
  unfold execIcCfgWrite
  repeat' (first
    | with_reducible assumption | with_reducible apply next_keeps | with_reducible apply iteOut_keeps
    | with_reducible apply ite_keeps | with_reducible apply State.refuseWrite_keeps
    | with_reducible apply State.coreFault_keeps | with_reducible apply State.modIrq_keeps)

theorem execIcStatRead_keeps {core : Fin 4} {n : Fin 384} (h : Keeps s0 s) : KeepsOut s0 (execIcStatRead core n s) := by
  unfold execIcStatRead
  repeat' (first
    | with_reducible assumption | with_reducible apply next_keeps | with_reducible apply iteOut_keeps
    | with_reducible apply ite_keeps | with_reducible apply State.coreFault_keeps
    | with_reducible apply State.irqRead_keeps | with_reducible apply State.modIrq_keeps)

theorem execIcThrWrite_keeps {core : Fin 4} {k : Fin 4} {value : U32} (h : Keeps s0 s) : KeepsOut s0 (execIcThrWrite core k value s) := by
  unfold execIcThrWrite
  repeat' (first
    | with_reducible assumption | with_reducible apply next_keeps | with_reducible apply iteOut_keeps
    | with_reducible apply ite_keeps | with_reducible apply State.refuseWrite_keeps
    | with_reducible apply State.withdrawStale_keeps | with_reducible apply State.modIrq_keeps)

end Sys2Proof.Machine
end

