-- ==== Sys2Proof/Laws/KeepWatchdog.lean ====
section
/-! SUPPORT. What the operations and meanings of `Machine/Watchdog.lean` keep (`Keeps`). -/

namespace Sys2Proof.Machine

variable {s0 s : State}

theorem State.modWd_keeps {f : Watchdog → Watchdog} (h : Keeps s0 s) : Keeps s0 (State.modWd f s) := by
  unfold State.modWd
  repeat' (first
    | with_reducible assumption | with_reducible refine modSys_keeps ?_ (fun _ hx => hx)
    | with_reducible apply modSys_keeps | exact fun _ hx => hx)

theorem State.wdRestart_keeps (h : Keeps s0 s) : Keeps s0 (State.wdRestart s) := by
  unfold State.wdRestart
  repeat' (first
    | with_reducible assumption | with_reducible apply ite_keeps | with_reducible apply State.modWd_keeps)

theorem State.rampSetpoints_keeps (h : Keeps s0 s) : Keeps s0 (State.rampSetpoints s) := by
  unfold State.rampSetpoints
  repeat' (first
    | with_reducible assumption | with_reducible apply ite_keeps
    | with_reducible refine eachGroup_keeps ?_ (fun x t ht => ?_) | with_reducible apply modGroup_keeps
    | with_reducible apply State.setParam_keeps)

theorem State.hawkReset_keeps {cause : Nat} {next : Hawk} (h : Keeps s0 s) : Keeps s0 (State.hawkReset cause next s) := by
  unfold State.hawkReset
  repeat' (first
    | with_reducible assumption | with_reducible refine foldl_keeps ?_ (fun t x ht => ?_)
    | with_reducible apply State.forget_keeps | with_reducible apply State.modIrq_keeps
    | with_reducible apply State.modWd_keeps | with_reducible refine modHost_keeps ?_ (fun _ hx => hx)
    | with_reducible apply modHost_keeps | exact fun _ hx => hx
    | with_reducible refine modNv_keeps ?_ (fun _ => SecState.same rfl rfl rfl rfl rfl)
    | with_reducible apply modNv_keeps | exact fun _ => SecState.same rfl rfl rfl rfl rfl
    | with_reducible apply modLink_keeps | with_reducible apply modSp_keeps
    | with_reducible apply State.wdRestart_keeps | with_reducible refine modSys_keeps ?_ (fun _ hx => hx)
    | with_reducible apply modSys_keeps | exact fun _ hx => hx)

theorem State.trialFails_keeps (h : Keeps s0 s) : Keeps s0 (State.trialFails s) := by
  unfold State.trialFails
  repeat' (first
    | with_reducible assumption
    | with_reducible refine modNv_keeps ?_ (fun _ => SecState.same rfl rfl rfl rfl rfl)
    | with_reducible apply modNv_keeps | exact fun _ => SecState.same rfl rfl rfl rfl rfl
    | with_reducible apply State.raise_keeps | with_reducible apply State.storeOpen_keeps)

theorem State.wdExpire_keeps {cause : Nat} (h : Keeps s0 s) : Keeps s0 (State.wdExpire cause s) := by
  unfold State.wdExpire
  repeat' (first
    | with_reducible assumption | with_reducible apply ite_keeps | with_reducible apply State.raise_keeps
    | with_reducible apply State.modWd_keeps | with_reducible apply State.rampSetpoints_keeps
    | with_reducible apply State.trialFails_keeps | with_reducible apply State.hawkReset_keeps
    | with_reducible apply State.safeState_keeps)

theorem execWatchdogKick_keeps {hc1 : Bool} (h : Keeps s0 s) : KeepsOut s0 (execWatchdogKick hc1 s) := by
  unfold execWatchdogKick
  repeat' (first
    | with_reducible assumption | with_reducible apply next_keeps | with_reducible apply iteOut_keeps
    | with_reducible apply ite_keeps | with_reducible apply State.modWd_keeps
    | with_reducible apply State.settle_keeps | with_reducible apply State.wdExpire_keeps
    | with_reducible apply State.wdRestart_keeps)

theorem execWatchdogWarning_keeps (h : Keeps s0 s) : KeepsOut s0 (execWatchdogWarning s) := by
  unfold execWatchdogWarning
  repeat' (first
    | with_reducible assumption | with_reducible apply next_keeps | with_reducible apply iteOut_keeps
    | with_reducible apply ite_keeps | with_reducible apply State.raise_keeps
    | with_reducible apply State.modWd_keeps | with_reducible apply atLeast_keeps)

theorem execWatchdogExpiry_keeps {drained : Bool} (h : Keeps s0 s) : KeepsOut s0 (execWatchdogExpiry drained s) := by
  unfold execWatchdogExpiry
  repeat' (first
    | with_reducible assumption | with_reducible apply next_keeps | with_reducible apply iteOut_keeps
    | with_reducible apply ite_keeps | with_reducible apply State.modWd_keeps
    | with_reducible apply atLeast_keeps | with_reducible apply State.settle_keeps
    | with_reducible apply State.wdExpire_keeps)

theorem execHawkResetHoldEnd_keeps (h : Keeps s0 s) : KeepsOut s0 (execHawkResetHoldEnd s) := by
  unfold execHawkResetHoldEnd
  repeat' (first
    | with_reducible assumption | with_reducible apply next_keeps | with_reducible apply iteOut_keeps
    | with_reducible apply ite_keeps | with_reducible apply atLeast_keeps
    | with_reducible refine modSafety_keeps ?_ (fun _ hx => hx) | with_reducible apply modSafety_keeps
    | exact fun _ hx => hx | with_reducible refine modSys_keeps ?_ (fun _ hx => hx)
    | with_reducible apply modSys_keeps | exact fun _ hx => hx | with_reducible apply State.modWd_keeps
    | with_reducible apply State.wdRestart_keeps)

theorem execWatchdogHoldTimeout_keeps (h : Keeps s0 s) : KeepsOut s0 (execWatchdogHoldTimeout s) := by
  unfold execWatchdogHoldTimeout
  repeat' (first
    | with_reducible assumption | with_reducible apply next_keeps | with_reducible apply iteOut_keeps
    | with_reducible apply ite_keeps | with_reducible apply State.modWd_keeps
    | with_reducible apply atLeast_keeps | with_reducible apply State.settle_keeps
    | with_reducible apply State.rampSetpoints_keeps)

theorem State.longOpStart_keeps (h : Keeps s0 s) : Keeps s0 (State.longOpStart s) := by
  unfold State.longOpStart
  repeat' (first
    | with_reducible assumption | with_reducible apply ite_keeps | with_reducible apply State.modWd_keeps)

theorem State.longOpEnd_keeps (h : Keeps s0 s) : Keeps s0 (State.longOpEnd s) := by
  unfold State.longOpEnd
  repeat' (first
    | with_reducible assumption | with_reducible apply ite_keeps | with_reducible apply State.modWd_keeps
    | with_reducible apply State.wdRestart_keeps)

theorem execLongOpStart_keeps (h : Keeps s0 s) : KeepsOut s0 (execLongOpStart s) := by
  unfold execLongOpStart
  repeat' (first
    | with_reducible assumption | with_reducible apply next_keeps
    | with_reducible apply State.longOpStart_keeps)

theorem execLongOpEnd_keeps (h : Keeps s0 s) : KeepsOut s0 (execLongOpEnd s) := by
  unfold execLongOpEnd
  repeat' (first
    | with_reducible assumption | with_reducible apply next_keeps | with_reducible apply State.longOpEnd_keeps)

theorem execLongOpSuspendTimeout_keeps (h : Keeps s0 s) : KeepsOut s0 (execLongOpSuspendTimeout s) := by
  unfold execLongOpSuspendTimeout
  repeat' (first
    | with_reducible assumption | with_reducible apply next_keeps | with_reducible apply iteOut_keeps
    | with_reducible apply ite_keeps | with_reducible apply atLeast_keeps
    | with_reducible apply State.modWd_keeps)

theorem State.resetCust_keeps (h : Keeps s0 s) : Keeps s0 (State.resetCust s) := by
  unfold State.resetCust
  repeat' (first
    | with_reducible assumption | with_reducible apply State.modIrq_keeps)

theorem execCustomerHeartbeatMissing_keeps (h : Keeps s0 s) : KeepsOut s0 (execCustomerHeartbeatMissing s) := by
  unfold execCustomerHeartbeatMissing
  repeat' (first
    | with_reducible assumption | with_reducible apply next_keeps | with_reducible apply iteOut_keeps
    | with_reducible apply ite_keeps | with_reducible apply atLeast_keeps
    | with_reducible apply State.raise_keeps | with_reducible apply State.modWd_keeps
    | with_reducible apply State.resetCust_keeps
    | with_reducible refine modNv_keeps ?_ (fun _ => SecState.same rfl rfl rfl rfl rfl)
    | with_reducible apply modNv_keeps | exact fun _ => SecState.same rfl rfl rfl rfl rfl)

theorem execWdStatusRead_keeps {r : Req} (h : Keeps s0 s) : KeepsOut s0 (execWdStatusRead r s) := by
  unfold execWdStatusRead
  repeat' (first
    | with_reducible assumption | with_reducible apply ok_keeps | with_reducible apply next_keeps
    | with_reducible refine runOp_keeps ?_ (fun t ht => ?_))

theorem execWdTest_keeps {r : Req} (h : Keeps s0 s) : KeepsOut s0 (execWdTest r s) := by
  unfold execWdTest
  repeat' (first
    | with_reducible assumption | with_reducible apply ok_keeps | with_reducible apply no_keeps
    | with_reducible apply iteRes_keeps | with_reducible apply next_keeps | with_reducible apply iteOut_keeps
    | with_reducible apply ite_keeps | with_reducible refine runOp_keeps ?_ (fun t ht => ?_)
    | with_reducible apply needLease_keeps | with_reducible apply State.modWd_keeps)

end Sys2Proof.Machine
end

