-- ==== Sys2Proof/Laws/KeepNvmOps.lean ====
section
/-! SUPPORT. What the operations and meanings of `Machine/NvmOps.lean` keep (`Keeps`). -/

namespace Sys2Proof.Machine

variable {s0 s : State}

theorem State.modNvm_keeps {f : NvmState → NvmState} (h : Keeps s0 s) : Keeps s0 (State.modNvm f s) := by
  unfold State.modNvm
  repeat' (first
    | with_reducible assumption
    | with_reducible refine modNv_keeps ?_ (fun _ => SecState.same rfl rfl rfl rfl rfl)
    | with_reducible apply modNv_keeps | exact fun _ => SecState.same rfl rfl rfl rfl rfl)

theorem State.modFw_keeps {f : FwState → FwState} (h : Keeps s0 s) : Keeps s0 (State.modFw f s) := by
  unfold State.modFw
  repeat' (first
    | with_reducible assumption
    | with_reducible refine modNv_keeps ?_ (fun _ => SecState.same rfl rfl rfl rfl rfl)
    | with_reducible apply modNv_keeps | exact fun _ => SecState.same rfl rfl rfl rfl rfl)

theorem modSec_keeps {f : SecState → SecState} (h : Keeps s0 s)
    (hf : ∀ c, c.within (f c) ∧ (c.honest → (f c).honest)) : Keeps s0 (s.modSec f) :=
  modNv_keeps h (fun k => hf k.sec)

theorem State.writeRecord_keeps {w : NvmWrite} (h : Keeps s0 s) : Keeps s0 (State.writeRecord w s) := by
  unfold State.writeRecord
  repeat' (first
    | with_reducible assumption | with_reducible apply State.modNvm_keeps)

theorem State.storeSecure_keeps {key : Nat} (h : Keeps s0 s) : Keeps s0 (State.storeSecure key s) := by
  unfold State.storeSecure
  repeat' (first
    | with_reducible assumption | with_reducible apply State.storeOpen_keeps)

theorem State.completeSaves_keeps {a : Reply} (h : Keeps s0 s) : Keeps s0 (State.completeSaves a s) := by
  unfold State.completeSaves
  repeat' (first
    | with_reducible assumption | with_reducible refine foldl_keeps ?_ (fun t x ht => ?_)
    | with_reducible refine modHost_keeps ?_ (fun _ hx => hx) | with_reducible apply modHost_keeps
    | exact fun _ hx => hx | with_reducible apply State.complete_keeps)

theorem State.completeLearns_keeps {a : Reply} (h : Keeps s0 s) : Keeps s0 (State.completeLearns a s) := by
  unfold State.completeLearns
  repeat' (first
    | with_reducible assumption | with_reducible refine foldl_keeps ?_ (fun t x ht => ?_)
    | with_reducible apply State.complete_keeps | with_reducible apply modEst_keeps)

theorem State.journalled_keeps (h : Keeps s0 s) : Keeps s0 (State.journalled s) := by
  unfold State.journalled
  repeat' (first
    | with_reducible assumption | with_reducible refine modPower_keeps ?_ (fun _ => ⟨rfl, id⟩)
    | with_reducible apply modPower_keeps | exact fun _ => ⟨rfl, id⟩)

theorem State.recordWritten_keeps {w : NvmWrite} (h : Keeps s0 s) : Keeps s0 (State.recordWritten w s) := by
  unfold State.recordWritten
  repeat' (first
    | exact fun _ hx => params_ite hx hx | with_reducible assumption | with_reducible apply ite_keeps
    | with_reducible apply State.journalled_keeps
    | with_reducible refine modPower_keeps ?_ (fun _ => ⟨rfl, id⟩) | with_reducible apply modPower_keeps
    | exact fun _ => ⟨rfl, id⟩ | with_reducible apply State.completeSaves_keeps
    | with_reducible refine modHost_keeps ?_ (fun _ hx => hx) | with_reducible apply modHost_keeps
    | exact fun _ hx => hx | with_reducible apply State.installTable_keeps
    | with_reducible apply State.storeSequencer_keeps
    | with_reducible refine modSec_keeps ?_ (fun _ => SecState.same rfl rfl rfl rfl rfl)
    | with_reducible apply modSec_keeps | exact fun _ => SecState.same rfl rfl rfl rfl rfl
    | with_reducible apply modEst_keeps | with_reducible apply State.completeLearns_keeps | split | dsimp only)

theorem State.writeLost_keeps {n : Nat} {a : Nat} {b : Nat} (h : Keeps s0 s) : Keeps s0 (State.writeLost n a b s) := by
  unfold State.writeLost
  repeat' (first
    | with_reducible assumption | with_reducible apply State.raise_keeps
    | with_reducible apply State.writeRecord_keeps | with_reducible apply State.modNvm_keeps)

end Sys2Proof.Machine
end

