-- ==== Sys2Proof/Laws/KeepNvm.lean ====
section
/-! SUPPORT. What the operations and meanings of `Machine/Nvm.lean` keep (`Keeps`). -/

namespace Sys2Proof.Machine

variable {s0 s : State}

theorem State.needSmu_keeps {loader : Bool} {r : Req} {b : Res} (h : KeepsRes s0 b) :
    KeepsRes s0 (s.needSmu loader r b) := by
  unfold State.needSmu
  repeat' (first | with_reducible assumption | with_reducible apply no_keeps | with_reducible apply iteRes_keeps)

theorem execNvmRecordWrite_keeps (h : Keeps s0 s) : KeepsOut s0 (execNvmRecordWrite s) := by
  unfold execNvmRecordWrite
  repeat' (first
    | with_reducible assumption | with_reducible apply next_keeps | with_reducible apply iteOut_keeps
    | with_reducible apply ite_keeps | with_reducible apply State.settle_keeps
    | with_reducible apply State.recordWritten_keeps | with_reducible apply State.writeRecord_keeps
    | with_reducible apply State.modNvm_keeps | with_reducible apply State.writeLost_keeps | split
    | dsimp only)

theorem State.nvmChanged_keeps {s0_ : State} (h : Keeps s0 s) : Keeps s0 (State.nvmChanged s s0_) := by
  unfold State.nvmChanged
  repeat' (first
    | with_reducible assumption | with_reducible apply State.raiseIf_keeps)

theorem State.migrate_keeps {sector : Nat} (h : Keeps s0 s) : Keeps s0 (State.migrate sector s) := by
  unfold State.migrate
  repeat' (first
    | with_reducible assumption | with_reducible apply ite_keeps
    | with_reducible apply State.longOpStart_keeps | with_reducible apply State.modNvm_keeps)

theorem execNvmScrub_keeps {sector : Nat} {corrected : Nat} {uncorrectable : List Nat} (h : Keeps s0 s) : KeepsOut s0 (execNvmScrub sector corrected uncorrectable s) := by
  unfold execNvmScrub
  repeat' (first
    | with_reducible assumption | with_reducible apply next_keeps | with_reducible apply iteOut_keeps
    | with_reducible apply ite_keeps | with_reducible apply atLeast_keeps
    | with_reducible apply State.modNvm_keeps | with_reducible apply State.nvmChanged_keeps
    | with_reducible apply State.migrate_keeps)

theorem execSectorMigrationComplete_keeps (h : Keeps s0 s) : KeepsOut s0 (execSectorMigrationComplete s) := by
  unfold execSectorMigrationComplete
  repeat' (first
    | with_reducible assumption | with_reducible apply next_keeps | with_reducible apply iteOut_keeps
    | with_reducible apply ite_keeps | with_reducible apply State.modNvm_keeps
    | with_reducible apply State.longOpEnd_keeps | with_reducible apply State.nvmChanged_keeps
    | with_reducible apply State.raise_keeps | split | dsimp only)

theorem execNvmWriteHold_keeps (h : Keeps s0 s) : KeepsOut s0 (execNvmWriteHold s) := by
  unfold execNvmWriteHold
  repeat' (first
    | with_reducible assumption | with_reducible apply next_keeps | with_reducible apply iteOut_keeps
    | with_reducible apply ite_keeps | with_reducible refine foldl_keeps ?_ (fun t x ht => ?_)
    | with_reducible apply State.raise_keeps | with_reducible apply modTh_keeps
    | with_reducible apply State.completeLearns_keeps | with_reducible apply State.completeSaves_keeps
    | with_reducible apply State.installTable_keeps | with_reducible refine modHost_keeps ?_ (fun _ hx => hx)
    | with_reducible apply modHost_keeps | exact fun _ hx => hx | with_reducible apply State.settle_keeps)

theorem execNvmWriteResume_keeps (h : Keeps s0 s) : KeepsOut s0 (execNvmWriteResume s) := by
  unfold execNvmWriteResume
  repeat' (first
    | with_reducible assumption | with_reducible apply next_keeps | with_reducible apply iteOut_keeps
    | with_reducible apply ite_keeps | with_reducible apply State.raise_keeps
    | with_reducible apply modTh_keeps)

theorem execNvmStatusRead_keeps {r : Req} (h : Keeps s0 s) : KeepsOut s0 (execNvmStatusRead r s) := by
  unfold execNvmStatusRead
  repeat' (first
    | with_reducible assumption | with_reducible apply ok_keeps | with_reducible apply next_keeps
    | with_reducible refine runOp_keeps ?_ (fun t ht => ?_))

theorem execLogRead_keeps {r : Req} (h : Keeps s0 s) : KeepsOut s0 (execLogRead r s) := by
  unfold execLogRead
  repeat' (first
    | with_reducible assumption | with_reducible apply ok_keeps | with_reducible apply no_keeps
    | with_reducible apply iteRes_keeps | with_reducible apply next_keeps | with_reducible apply iteOut_keeps
    | with_reducible apply ite_keeps | with_reducible refine runOp_keeps ?_ (fun t ht => ?_))

theorem execFuseRead_keeps {r : Req} (h : Keeps s0 s) : KeepsOut s0 (execFuseRead r s) := by
  unfold execFuseRead
  repeat' (first
    | with_reducible assumption | with_reducible apply ok_keeps | with_reducible apply next_keeps
    | with_reducible refine runOp_keeps ?_ (fun t ht => ?_))

theorem execFuseBlow_keeps {r : Req} {copyA : Bool} {copyB : Bool} (h : Keeps s0 s) : KeepsOut s0 (execFuseBlow r copyA copyB s) := by
  unfold execFuseBlow
  repeat' (first
    | exact SecState.modFuse_ok _ (Fuse.within_blow copyA copyB) (fun _ => Fuse.honest_blow copyA copyB)
    | with_reducible assumption | with_reducible apply ok_keeps | with_reducible apply no_keeps
    | with_reducible apply iteRes_keeps | with_reducible apply next_keeps | with_reducible apply iteOut_keeps
    | with_reducible apply ite_keeps | with_reducible refine runOp_keeps ?_ (fun t ht => ?_)
    | with_reducible apply State.needSmu_keeps
    | with_reducible refine modSec_keeps ?_ (fun _ => SecState.same rfl rfl rfl rfl rfl)
    | with_reducible apply modSec_keeps | exact fun _ => SecState.same rfl rfl rfl rfl rfl
    | with_reducible apply State.raise_keeps)

theorem State.custStart_keeps (h : Keeps s0 s) : Keeps s0 (State.custStart s) := by
  unfold State.custStart
  repeat' (first
    | with_reducible assumption | with_reducible apply State.modWd_keeps
    | with_reducible apply State.modFw_keeps | with_reducible apply State.resetCust_keeps
    | with_reducible apply State.raiseIf_keeps)

theorem execCustCommit_keeps {r : Req} (h : Keeps s0 s) : KeepsOut s0 (execCustCommit r s) := by
  unfold execCustCommit
  repeat' (first
    | with_reducible assumption | with_reducible apply ok_keeps | with_reducible apply no_keeps
    | with_reducible apply iteRes_keeps | with_reducible apply next_keeps | with_reducible apply iteOut_keeps
    | with_reducible apply ite_keeps | with_reducible refine runOp_keeps ?_ (fun t ht => ?_)
    | with_reducible apply State.needSmu_keeps | with_reducible apply State.modFw_keeps | split | dsimp only)

theorem execCustKeySet_keeps {r : Req} (h : Keeps s0 s) : KeepsOut s0 (execCustKeySet r s) := by
  unfold execCustKeySet
  repeat' (first
    | with_reducible assumption | with_reducible apply ok_keeps | with_reducible apply no_keeps
    | with_reducible apply iteRes_keeps | with_reducible apply next_keeps | with_reducible apply iteOut_keeps
    | with_reducible apply ite_keeps | with_reducible refine runOp_keeps ?_ (fun t ht => ?_)
    | with_reducible apply State.needSmu_keeps | with_reducible apply State.storeSecure_keeps
    | with_reducible refine modSec_keeps ?_ (fun _ => SecState.same rfl rfl rfl rfl rfl)
    | with_reducible apply modSec_keeps | exact fun _ => SecState.same rfl rfl rfl rfl rfl)

end Sys2Proof.Machine
end

