-- ==== Sys2Proof/Laws/KeepDieReset.lean ====
section
/-! SUPPORT. What the operations and meanings of `Machine/DieReset.lean` keep (`Keeps`). -/

namespace Sys2Proof.Machine

variable {s0 s : State}

theorem reset_gates (v : Vector Phase 64) (p : Fin 64) :
    ((v.map (fun x : Phase => { Phase.initial with dfltPin := x.dfltPin }))[p.val]).exclusive := by
  rw [Vector.getElem_map]
  exact low_exclusive rfl rfl

theorem dieReset_step {hawk : Hawk} {running : Bool} : Keeps s (State.dieReset hawk running s) := by
  refine ⟨rfl, Nat.le_refl _, ?_, fun _ => reset_gates _, fun _ => rfl, fun _ => ⟨rfl, ?_⟩,
    (SecState.same rfl rfl rfl rfl rfl).1, (SecState.same rfl rfl rfl rfl rfl).2⟩
  · cases running
    · exact Or.inr (Or.inl rfl)
    · exact Or.inr (Or.inr (Nat.le_refl _))
  · intro e he
    cases he

theorem State.dieReset_keeps {hawk : Hawk} {running : Bool} (h : Keeps s0 s) :
    Keeps s0 (State.dieReset hawk running s) := h.trans dieReset_step

theorem State.dieDown_keeps (h : Keeps s0 s) : Keeps s0 (State.dieDown s) := by
  unfold State.dieDown
  repeat' (first
    | with_reducible assumption | with_reducible apply ite_keeps | with_reducible apply State.dieReset_keeps)

end Sys2Proof.Machine
end

