-- ==== Sys2Proof/Laws/KeepPortOps.lean ====
section
/-! SUPPORT. What the operations and meanings of `Machine/PortOps.lean` keep (`Keeps`). -/

namespace Sys2Proof.Machine

variable {s0 s : State}

theorem State.pdSend_keeps {x_ : PdSent} (h : Keeps s0 s) : Keeps s0 (State.pdSend x_ s) := by
  unfold State.pdSend
  repeat' (first
    | with_reducible assumption | with_reducible apply modSp_keeps)

theorem State.failSends_keeps {detail : Nat} (h : Keeps s0 s) : Keeps s0 (State.failSends detail s) := by
  unfold State.failSends
  repeat' (first
    | with_reducible assumption | with_reducible refine foldl_keeps ?_ (fun t x ht => ?_)
    | with_reducible apply State.finish_keeps | with_reducible apply modSp_keeps)

theorem State.pdVoid_keeps (h : Keeps s0 s) : Keeps s0 (State.pdVoid s) := by
  unfold State.pdVoid
  repeat' (first
    | with_reducible assumption | with_reducible apply modSp_keeps | with_reducible apply State.raiseIf_keeps)

theorem State.portDetach_keeps {run : SpRun} (h : Keeps s0 s) : Keeps s0 (State.portDetach run s) := by
  unfold State.portDetach
  repeat' (first
    | with_reducible assumption | with_reducible apply modSp_keeps | with_reducible apply State.pdVoid_keeps
    | with_reducible apply State.raiseIf_keeps | with_reducible apply State.failSends_keeps)

theorem State.portSourceLost_keeps (h : Keeps s0 s) : Keeps s0 (State.portSourceLost s) := by
  unfold State.portSourceLost
  repeat' (first
    | with_reducible assumption | with_reducible apply ite_keeps | with_reducible apply State.portDetach_keeps
    | with_reducible apply modSp_keeps)

theorem State.portEnable_keeps (h : Keeps s0 s) : Keeps s0 (State.portEnable s) := by
  unfold State.portEnable
  repeat' (first
    | with_reducible assumption | with_reducible apply ite_keeps | with_reducible apply modSp_keeps
    | with_reducible apply State.portDetach_keeps | with_reducible apply State.raise_keeps)

theorem State.pickService_keeps (h : Keeps s0 s) : Keeps s0 (State.pickService s) := by
  unfold State.pickService
  repeat' (first
    | with_reducible assumption | with_reducible apply ite_keeps
    | with_reducible refine foldl_keeps ?_ (fun t x ht => ?_) | with_reducible apply State.pickParam_keeps)

theorem State.portWritten_keeps (h : Keeps s0 s) : Keeps s0 (State.portWritten s) := by
  unfold State.portWritten
  repeat' (first
    | with_reducible assumption | with_reducible apply ite_keeps | with_reducible apply State.portEnable_keeps
    | with_reducible apply State.pickService_keeps)

theorem State.pdBegin_keeps (h : Keeps s0 s) : Keeps s0 (State.pdBegin s) := by
  unfold State.pdBegin
  repeat' (first
    | with_reducible assumption | with_reducible apply ite_keeps | with_reducible apply State.portEnable_keeps
    | with_reducible apply State.pickService_keeps | with_reducible apply modSp_keeps | split | dsimp only)

theorem State.pdRx_keeps {sop : Nat} {header : Nat} {objects : List Byte} (h : Keeps s0 s) : Keeps s0 (State.pdRx sop header objects s) := by
  unfold State.pdRx
  repeat' (first
    | with_reducible assumption | with_reducible apply State.store_keeps
    | with_reducible apply State.emit_keeps | with_reducible apply State.raise_keeps | split | dsimp only)

theorem State.pdHardReset_keeps (h : Keeps s0 s) : Keeps s0 (State.pdHardReset s) := by
  unfold State.pdHardReset
  repeat' (first
    | with_reducible assumption | with_reducible apply State.raise_keeps | with_reducible apply modSp_keeps
    | with_reducible apply State.pdVoid_keeps)

theorem State.pdNextSend_keeps (h : Keeps s0 s) : Keeps s0 (State.pdNextSend s) := by
  unfold State.pdNextSend
  repeat' (first
    | with_reducible assumption | with_reducible apply ite_keeps | with_reducible apply State.complete_keeps
    | with_reducible apply State.pdHardReset_keeps | with_reducible apply State.pdSend_keeps
    | with_reducible apply modSp_keeps | with_reducible apply State.pdBegin_keeps | split | dsimp only)

end Sys2Proof.Machine
end

