-- ==== Sys2Proof/Laws/KeepRailOps.lean ====
section
/-! SUPPORT. What the operations and meanings of `Machine/RailOps.lean` keep (`Keeps`). -/

namespace Sys2Proof.Machine

variable {s0 s : State}

theorem State.modRail_keeps {i : Nat} {f : Rail → Rail} (h : Keeps s0 s) : Keeps s0 (State.modRail i f s) := by
  unfold State.modRail
  repeat' (first
   
    | exact fun _ => calmly_dite (fun _ => ⟨rfl, id⟩) (fun _ => calmly_dite (fun _ => ⟨rfl, id⟩) (fun _ => ⟨rfl, id⟩))
    | exact fun _ => calmly_dite (fun _ => ⟨rfl, id⟩) (fun _ => ⟨rfl, id⟩)
    | exact fun _ => calmly_ite ⟨rfl, id⟩ ⟨rfl, id⟩ | with_reducible assumption
    | with_reducible apply ite_keeps | with_reducible refine modPower_keeps ?_ (fun _ => ⟨rfl, id⟩)
    | with_reducible apply modPower_keeps | exact fun _ => ⟨rfl, id⟩
    | with_reducible apply State.raiseIf_keeps | with_reducible apply State.portSourceLost_keeps)

theorem State.modSqr_keeps {f : Sequencer → Sequencer} (h : Keeps s0 s) : Keeps s0 (State.modSqr f s) := by
  unfold State.modSqr
  repeat' (first
    | with_reducible assumption | with_reducible refine modPower_keeps ?_ (fun _ => ⟨rfl, id⟩)
    | with_reducible apply modPower_keeps | exact fun _ => ⟨rfl, id⟩)

theorem State.moveSet_keeps {s0_ : State} {i : Nat} (h : Keeps s0 s) : Keeps s0 (State.moveSet s0_ i s) := by
  unfold State.moveSet
  repeat' (first
    | with_reducible assumption | with_reducible apply State.modRail_keeps)

theorem State.enableRail_keeps {i : Nat} {at_ : Nanos} (h : Keeps s0 s) : Keeps s0 (State.enableRail i at_ s) := by
  unfold State.enableRail
  repeat' (first
    | with_reducible assumption | with_reducible apply State.modRail_keeps)

theorem State.recordRail_keeps {i : Nat} {cause : Nat} {mv : U16} (h : Keeps s0 s) : Keeps s0 (State.recordRail i cause mv s) := by
  unfold State.recordRail
  repeat' (first
    | with_reducible assumption | with_reducible apply ite_keeps
    | with_reducible refine modPower_keeps ?_ (fun _ => ⟨rfl, id⟩) | with_reducible apply modPower_keeps
    | exact fun _ => ⟨rfl, id⟩)

theorem State.stageCheck_keeps (h : Keeps s0 s) : Keeps s0 (State.stageCheck s) := by
  unfold State.stageCheck
  repeat' (first
    | with_reducible assumption | with_reducible apply ite_keeps | with_reducible apply State.modSqr_keeps
    | with_reducible apply State.raise_keeps | with_reducible refine modSafety_keeps ?_ (fun _ hx => hx)
    | with_reducible apply modSafety_keeps | exact fun _ hx => hx)

theorem State.beginStage_keeps {k : Nat} (h : Keeps s0 s) : Keeps s0 (State.beginStage k s) := by
  unfold State.beginStage
  repeat' (first
    | with_reducible assumption | with_reducible apply ite_keeps
    | with_reducible refine foldl_keeps ?_ (fun t x ht => ?_) | with_reducible apply State.modSqr_keeps
    | with_reducible apply State.modRail_keeps | with_reducible apply State.recordRail_keeps
    | with_reducible apply State.enableRail_keeps | with_reducible apply State.stageCheck_keeps | split
    | dsimp only)

theorem State.startUp_keeps {sleepOnly : Bool} (h : Keeps s0 s) : Keeps s0 (State.startUp sleepOnly s) := by
  unfold State.startUp
  repeat' (first
    | with_reducible assumption | with_reducible apply ite_keeps | with_reducible apply State.modSqr_keeps
    | with_reducible apply State.beginStage_keeps | with_reducible apply State.raise_keeps | split
    | dsimp only)

theorem State.lowerStage_keeps {k : Nat} (h : Keeps s0 s) : Keeps s0 (State.lowerStage k s) := by
  unfold State.lowerStage
  repeat' (first
    | with_reducible assumption | with_reducible apply ite_keeps
    | with_reducible refine foldl_keeps ?_ (fun t x ht => ?_) | with_reducible apply State.modRail_keeps
    | with_reducible apply State.modSqr_keeps | with_reducible apply State.dieDown_keeps)

theorem State.downEnds_keeps (h : Keeps s0 s) : Keeps s0 (State.downEnds s) := by
  unfold State.downEnds
  repeat' (first
    | with_reducible assumption | with_reducible apply ite_keeps | with_reducible apply State.modSqr_keeps
    | with_reducible refine modSafety_keeps ?_ (fun _ hx => hx) | with_reducible apply modSafety_keeps
    | exact fun _ hx => hx)

theorem State.startDown_keeps {sleepOnly : Bool} {after : SeqRun} (h : Keeps s0 s) : Keeps s0 (State.startDown sleepOnly after s) := by
  unfold State.startDown
  repeat' (first
    | with_reducible assumption | with_reducible apply ite_keeps
    | with_reducible refine foldl_keeps ?_ (fun t x ht => ?_) | with_reducible apply State.modSqr_keeps
    | with_reducible apply State.modRail_keeps | with_reducible apply State.lowerStage_keeps
    | with_reducible apply State.downEnds_keeps | split | dsimp only)

theorem State.sequenceFails_keeps (h : Keeps s0 s) : Keeps s0 (State.sequenceFails s) := by
  unfold State.sequenceFails
  repeat' (first
    | with_reducible assumption | with_reducible apply ite_keeps | with_reducible apply State.startDown_keeps
    | with_reducible apply State.modSqr_keeps)

theorem State.dropDependents_keeps {i : Nat} (h : Keeps s0 s) : Keeps s0 (State.dropDependents i s) := by
  unfold State.dropDependents
  repeat' (first
    | with_reducible assumption | with_reducible refine foldl_keeps ?_ (fun t x ht => ?_)
    | with_reducible apply State.modRail_keeps | with_reducible apply State.recordRail_keeps)

end Sys2Proof.Machine
end

