-- ==== Sys2Proof/Laws/KeepWakeOps.lean ====
section
/-! SUPPORT. What the operations and meanings of `Machine/WakeOps.lean` keep (`Keeps`). -/

namespace Sys2Proof.Machine

variable {s0 s : State}

theorem State.modLow_keeps {f : LowPower → LowPower} (h : Keeps s0 s) : Keeps s0 (State.modLow f s) := by
  unfold State.modLow
  repeat' (first
    | with_reducible assumption | with_reducible apply modChg_keeps)

theorem State.beginWake_keeps (h : Keeps s0 s) : Keeps s0 (State.beginWake s) := by
  unfold State.beginWake
  repeat' (first
    | exact SecState.latchFuses_ok | with_reducible assumption | with_reducible apply ite_keeps
    | with_reducible apply State.modLow_keeps | with_reducible apply State.startUp_keeps
    | with_reducible apply State.portEnable_keeps
    | with_reducible refine modSec_keeps ?_ (fun _ => SecState.same rfl rfl rfl rfl rfl)
    | with_reducible apply modSec_keeps | exact fun _ => SecState.same rfl rfl rfl rfl rfl)

theorem State.wakeBy_keeps {code : Nat} (h : Keeps s0 s) : Keeps s0 (State.wakeBy code s) := by
  unfold State.wakeBy
  repeat' (first
    | with_reducible assumption | with_reducible apply ite_keeps | with_reducible apply State.modLow_keeps
    | with_reducible apply State.beginWake_keeps | split | dsimp only)

end Sys2Proof.Machine
end

