-- ==== Sys2Proof/Laws/KeepRails.lean ====
section
/-! SUPPORT. What the operations and meanings of `Machine/Rails.lean` keep (`Keeps`). -/

namespace Sys2Proof.Machine

variable {s0 s : State}

theorem execRailPowerGood_keeps {rail : Fin 32} {mv : U16} (h : Keeps s0 s) : KeepsOut s0 (execRailPowerGood rail mv s) := by
  unfold execRailPowerGood
  repeat' (first
    | with_reducible assumption | with_reducible apply next_keeps | with_reducible apply iteOut_keeps
    | with_reducible apply ite_keeps | with_reducible apply atLeast_keeps
    | with_reducible apply State.stageCheck_keeps | with_reducible apply State.modRail_keeps)

theorem execRailRiseTimeout_keeps {rail : Fin 32} {cause : Fin 9} {mv : U16} (h : Keeps s0 s) : KeepsOut s0 (execRailRiseTimeout rail cause mv s) := by
  unfold execRailRiseTimeout
  repeat' (first
    | with_reducible assumption | with_reducible apply next_keeps | with_reducible apply iteOut_keeps
    | with_reducible apply ite_keeps | with_reducible apply atLeast_keeps
    | with_reducible refine modSafety_keeps ?_ (fun _ hx => hx) | with_reducible apply modSafety_keeps
    | exact fun _ hx => hx | with_reducible apply State.modRail_keeps
    | with_reducible apply State.recordRail_keeps | with_reducible apply State.stageCheck_keeps
    | with_reducible apply State.settle_keeps | with_reducible apply State.sequenceFails_keeps | split
    | dsimp only)

theorem execCriticalRailFault_keeps {rail : Fin 32} {cause : Fin 9} {mv : U16} (h : Keeps s0 s) : KeepsOut s0 (execCriticalRailFault rail cause mv s) := by
  unfold execCriticalRailFault
  repeat' (first
    | with_reducible assumption | with_reducible apply next_keeps | with_reducible apply iteOut_keeps
    | with_reducible apply ite_keeps | with_reducible apply State.recordRail_keeps
    | with_reducible refine modSafety_keeps ?_ (fun _ hx => hx) | with_reducible apply modSafety_keeps
    | exact fun _ hx => hx | with_reducible apply State.modRail_keeps
    | with_reducible apply State.settle_keeps | with_reducible apply State.sequenceFails_keeps
    | with_reducible apply State.safeState_keeps)

theorem execNoncriticalRailFault_keeps {rail : Fin 32} {cause : Fin 9} {mv : U16} (h : Keeps s0 s) : KeepsOut s0 (execNoncriticalRailFault rail cause mv s) := by
  unfold execNoncriticalRailFault
  repeat' (first
    | with_reducible assumption | with_reducible apply next_keeps | with_reducible apply iteOut_keeps
    | with_reducible apply ite_keeps | with_reducible apply State.dropDependents_keeps
    | with_reducible apply State.recordRail_keeps | with_reducible apply State.stageCheck_keeps
    | with_reducible apply State.modRail_keeps)

theorem execSequencerStageStart_keeps (h : Keeps s0 s) : KeepsOut s0 (execSequencerStageStart s) := by
  unfold execSequencerStageStart
  repeat' (first
    | with_reducible assumption | with_reducible apply next_keeps | with_reducible apply iteOut_keeps
    | with_reducible apply ite_keeps | with_reducible apply State.beginStage_keeps
    | with_reducible apply atLeast_keeps | split | dsimp only)

theorem execStepNAdvance_keeps (h : Keeps s0 s) : KeepsOut s0 (execStepNAdvance s) := by
  unfold execStepNAdvance
  repeat' (first
    | with_reducible assumption | with_reducible apply next_keeps | with_reducible apply iteOut_keeps
    | with_reducible apply ite_keeps | with_reducible apply State.modSqr_keeps
    | with_reducible apply atLeast_keeps)

theorem execStepNTimeout_keeps (h : Keeps s0 s) : KeepsOut s0 (execStepNTimeout s) := by
  unfold execStepNTimeout
  repeat' (first
    | with_reducible assumption | with_reducible apply next_keeps | with_reducible apply iteOut_keeps
    | with_reducible apply ite_keeps | with_reducible apply State.raise_keeps
    | with_reducible apply State.modSqr_keeps | with_reducible apply atLeast_keeps)

theorem execDownSequenceStage_keeps (h : Keeps s0 s) : KeepsOut s0 (execDownSequenceStage s) := by
  unfold execDownSequenceStage
  repeat' (first
    | with_reducible assumption | with_reducible apply next_keeps | with_reducible apply iteOut_keeps
    | with_reducible apply ite_keeps | with_reducible refine foldl_keeps ?_ (fun t x ht => ?_)
    | with_reducible apply State.modRail_keeps | with_reducible apply State.settle_keeps
    | with_reducible apply State.lowerStage_keeps | with_reducible apply atLeast_keeps
    | with_reducible apply State.downEnds_keeps | split | dsimp only)

theorem execSequenceRetryWaitEnd_keeps (h : Keeps s0 s) : KeepsOut s0 (execSequenceRetryWaitEnd s) := by
  unfold execSequenceRetryWaitEnd
  repeat' (first
    | with_reducible assumption | with_reducible apply next_keeps | with_reducible apply iteOut_keeps
    | with_reducible apply ite_keeps | with_reducible apply State.startUp_keeps
    | with_reducible apply atLeast_keeps)

theorem execLockoutExit_keeps (h : Keeps s0 s) : KeepsOut s0 (execLockoutExit s) := by
  unfold execLockoutExit
  repeat' (first
    | with_reducible assumption | with_reducible apply next_keeps | with_reducible apply iteOut_keeps
    | with_reducible apply ite_keeps | with_reducible apply State.startUp_keeps
    | with_reducible apply State.modSqr_keeps)

theorem execSequenceRetryReset_keeps (h : Keeps s0 s) : KeepsOut s0 (execSequenceRetryReset s) := by
  unfold execSequenceRetryReset
  repeat' (first
    | with_reducible assumption | with_reducible apply next_keeps | with_reducible apply iteOut_keeps
    | with_reducible apply ite_keeps | with_reducible apply State.modSqr_keeps
    | with_reducible apply atLeast_keeps)

theorem State.modSupply_keeps {f : Supplies → Supplies} (h : Keeps s0 s) : Keeps s0 (State.modSupply f s) := by
  unfold State.modSupply
  repeat' (first
    | with_reducible assumption | with_reducible refine modPower_keeps ?_ (fun _ => ⟨rfl, id⟩)
    | with_reducible apply modPower_keeps | exact fun _ => ⟨rfl, id⟩)

theorem execAuxRise_keeps {aux : U16} (h : Keeps s0 s) : KeepsOut s0 (execAuxRise aux s) := by
  unfold execAuxRise
  repeat' (first
    | exact SecState.latchFuses_ok | with_reducible assumption | with_reducible apply next_keeps
    | with_reducible apply iteOut_keeps | with_reducible apply ite_keeps
    | with_reducible apply State.modSupply_keeps | with_reducible apply State.beginWake_keeps
    | with_reducible apply State.portEnable_keeps
    | with_reducible refine modSec_keeps ?_ (fun _ => SecState.same rfl rfl rfl rfl rfl)
    | with_reducible apply modSec_keeps | exact fun _ => SecState.same rfl rfl rfl rfl rfl
    | with_reducible refine modSafety_keeps ?_ (fun _ hx => hx) | with_reducible apply modSafety_keeps
    | exact fun _ hx => hx | with_reducible apply State.startUp_keeps)

theorem execAuxBrownOut_keeps {aux : U16} (h : Keeps s0 s) : KeepsOut s0 (execAuxBrownOut aux s) := by
  unfold execAuxBrownOut
  repeat' (first
    | with_reducible assumption | with_reducible apply next_keeps | with_reducible apply iteOut_keeps
    | with_reducible apply ite_keeps | with_reducible apply State.raise_keeps
    | with_reducible apply State.modSupply_keeps | with_reducible apply State.settle_keeps
    | with_reducible apply State.startDown_keeps)

theorem execAuxReturn_keeps {aux : U16} (h : Keeps s0 s) : KeepsOut s0 (execAuxReturn aux s) := by
  unfold execAuxReturn
  repeat' (first
    | with_reducible assumption | with_reducible apply next_keeps | with_reducible apply iteOut_keeps
    | with_reducible apply ite_keeps | with_reducible apply atLeast_keeps
    | with_reducible apply State.raise_keeps | with_reducible apply State.modSupply_keeps
    | with_reducible apply State.openEvent_keeps)

theorem State.spend_keeps {b : Nat} {ws : List NvmWrite} (h : Keeps s0 s) : Keeps s0 (State.spend b ws s).1 := by
  induction ws generalizing b s with
  | nil => exact h
  | cons w ws ih =>
    unfold State.spend
    split
    · exact ih (State.writeRecord_keeps h)
    · exact h

theorem keepLost_keeps {k now : Nat} {t : State} (h : Keeps s0 t) :
    Keeps s0 (if k = 0 then t
      else t.modPower (fun p => { p with keep := { p.keep with evtLost := some (match t.nv.nvm.lost with
        | some (m, a, b) => (m + k, a, b)
        | none => (k, now, now)) } })) :=
  ite_keeps h (modPower_keeps h (fun _ => ⟨rfl, id⟩))

theorem State.flush_keeps (h : Keeps s0 s) : Keeps s0 (State.flush s) := by
  have h0 : Keeps s0 (s.modNvm (fun x => { x with waiting := [], queue := [] })) := State.modNvm_keeps h
  unfold State.flush
  dsimp only
  exact ite_keeps (keepLost_keeps h0) (keepLost_keeps (State.spend_keeps (State.spend_keeps
    (foldl_keeps h0 (fun _ _ ht => State.writeRecord_keeps ht)))))

theorem execRideThroughExpiry_keeps (h : Keeps s0 s) : KeepsOut s0 (execRideThroughExpiry s) := by
  unfold execRideThroughExpiry
  repeat' (first
    | with_reducible assumption | with_reducible apply next_keeps | with_reducible apply iteOut_keeps
    | with_reducible apply ite_keeps | with_reducible apply atLeast_keeps
    | with_reducible apply State.flush_keeps | with_reducible apply State.safeState_keeps
    | with_reducible refine modPower_keeps ?_ (fun _ => ⟨rfl, id⟩) | with_reducible apply modPower_keeps
    | exact fun _ => ⟨rfl, id⟩ | with_reducible apply State.settle_keeps
    | with_reducible apply State.modSqr_keeps)

theorem execHoldUpFlushComplete_keeps (h : Keeps s0 s) : KeepsOut s0 (execHoldUpFlushComplete s) := by
  unfold execHoldUpFlushComplete
  repeat' (first
    | with_reducible assumption | with_reducible apply next_keeps | with_reducible apply iteOut_keeps
    | with_reducible apply ite_keeps | with_reducible apply State.journalled_keeps
    | with_reducible apply State.settle_keeps | with_reducible apply State.startDown_keeps)

theorem execHoldReadyChange_keeps {hold : U16} (h : Keeps s0 s) : KeepsOut s0 (execHoldReadyChange hold s) := by
  unfold execHoldReadyChange
  repeat' (first
    | with_reducible assumption | with_reducible apply next_keeps | with_reducible apply State.holdCheck_keeps
    | with_reducible apply State.modSupply_keeps)

theorem execRetentionLoss_keeps (h : Keeps s0 s) : KeepsOut s0 (execRetentionLoss s) := by
  unfold execRetentionLoss
  repeat' (first
   
    | exact fun c => ⟨⟨⟨id, id⟩, ⟨id, id⟩, ⟨id, id⟩, ⟨id, id⟩, Nat.le_refl _⟩, fun _ j => match j with | 0 => Bool.noConfusion | 1 => Bool.noConfusion | 2 => Bool.noConfusion | 3 => Bool.noConfusion⟩
    | with_reducible assumption | with_reducible apply next_keeps
    | with_reducible refine foldl_keeps ?_ (fun t x ht => ?_) | with_reducible apply State.modRail_keeps
    | with_reducible apply State.dieDown_keeps | with_reducible refine modPower_keeps ?_ (fun _ => ⟨rfl, id⟩)
    | with_reducible apply modPower_keeps | exact fun _ => ⟨rfl, id⟩
    | with_reducible refine modSec_keeps ?_ (fun _ => SecState.same rfl rfl rfl rfl rfl)
    | with_reducible apply modSec_keeps | exact fun _ => SecState.same rfl rfl rfl rfl rfl
    | with_reducible apply modChg_keeps | with_reducible apply State.settle_keeps
    | with_reducible apply State.portEnable_keeps)

theorem execDDieResetRelease_keeps {pairRole : BitVec 8} {bootSel0 : BitVec 8} {banks : List Nat} (h : Keeps s0 s) : KeepsOut s0 (execDDieResetRelease pairRole bootSel0 banks s) := by
  unfold execDDieResetRelease
  repeat' (first
    | with_reducible assumption | with_reducible apply next_keeps | with_reducible apply iteOut_keeps
    | with_reducible apply ite_keeps | with_reducible apply State.dieReset_keeps
    | with_reducible refine modSafety_keeps ?_ (fun _ hx => hx) | with_reducible apply modSafety_keeps
    | exact fun _ hx => hx | with_reducible refine modConv_keeps ?_ (fun _ hx => hx)
    | with_reducible apply modConv_keeps | exact fun _ hx => hx
    | with_reducible refine modTb_keeps ?_ (fun _ => Int.le_refl _) | with_reducible apply modTb_keeps
    | exact fun _ => Int.le_refl _ | with_reducible apply State.modWd_keeps | split | dsimp only)

theorem execRailStatus_keeps {r : Req} (h : Keeps s0 s) : KeepsOut s0 (execRailStatus r s) := by
  unfold execRailStatus
  repeat' (first
    | with_reducible assumption | with_reducible apply ok_keeps | with_reducible apply iteRes_keeps
    | with_reducible apply next_keeps | with_reducible apply iteOut_keeps | with_reducible apply ite_keeps
    | with_reducible refine runOp_keeps ?_ (fun t ht => ?_)
    | with_reducible refine modPower_keeps ?_ (fun _ => ⟨rfl, id⟩) | with_reducible apply modPower_keeps
    | exact fun _ => ⟨rfl, id⟩)

theorem execRailOn_keeps {r : Req} (h : Keeps s0 s) : KeepsOut s0 (execRailOn r s) := by
  unfold execRailOn
  repeat' (first
    | with_reducible assumption | with_reducible apply ok_keeps | with_reducible apply no_keeps
    | with_reducible apply iteRes_keeps | with_reducible apply next_keeps | with_reducible apply iteOut_keeps
    | with_reducible apply ite_keeps | with_reducible refine runOp_keeps ?_ (fun t ht => ?_)
    | with_reducible apply State.modSqr_keeps | with_reducible apply State.enableRail_keeps | split
    | dsimp only)

theorem execRailOff_keeps {r : Req} (h : Keeps s0 s) : KeepsOut s0 (execRailOff r s) := by
  unfold execRailOff
  repeat' (first
    | with_reducible assumption | with_reducible apply ok_keeps | with_reducible apply no_keeps
    | with_reducible apply iteRes_keeps | with_reducible apply next_keeps | with_reducible apply iteOut_keeps
    | with_reducible apply ite_keeps | with_reducible refine runOp_keeps ?_ (fun t ht => ?_)
    | with_reducible apply State.modRail_keeps | with_reducible apply State.dropDependents_keeps | split
    | dsimp only)

theorem execRailHistory_keeps {r : Req} (h : Keeps s0 s) : KeepsOut s0 (execRailHistory r s) := by
  unfold execRailHistory
  repeat' (first
    | with_reducible assumption | with_reducible apply ok_keeps | with_reducible apply next_keeps
    | with_reducible refine runOp_keeps ?_ (fun t ht => ?_))

end Sys2Proof.Machine
end

