-- ==== Sys2Proof/Laws/KeepMemOps.lean ====
section
/-! SUPPORT. What the operations and meanings of `Machine/MemOps.lean` keep (`Keeps`). -/

namespace Sys2Proof.Machine

variable {s0 s : State}

theorem modMem_keeps {f : MemState → MemState} (h : Keeps s0 s) (hf : ∀ m : MemState, m.wf → (f m).wf) :
    Keeps s0 (s.modMem f) :=
  modSys_keeps h (fun y => hf y.mem)

theorem State.integrity_keeps {a : Nat} (h : Keeps s0 s) : Keeps s0 (State.integrity a s) := by
  unfold State.integrity
  repeat' (first
    | with_reducible assumption | with_reducible apply ite_keeps
    | with_reducible refine modMem_keeps ?_ (fun _ hx => hx) | with_reducible apply modMem_keeps
    | exact fun _ hx => hx | with_reducible apply State.openEvent_keeps)

theorem State.countUnwritten_keeps (h : Keeps s0 s) : Keeps s0 (State.countUnwritten s) := by
  unfold State.countUnwritten
  repeat' (first
    | with_reducible assumption | with_reducible refine modMem_keeps ?_ (fun _ hx => hx)
    | with_reducible apply modMem_keeps | exact fun _ hx => hx)

theorem State.coreDone_keeps {core : Fin 4} {data : List Byte} (h : Keeps s0 s) : Keeps s0 (State.coreDone core data s) := by
  unfold State.coreDone
  repeat' (first
    | with_reducible assumption | with_reducible refine modMem_keeps ?_ (fun _ hx => hx)
    | with_reducible apply modMem_keeps | exact fun _ hx => hx)

end Sys2Proof.Machine
end

