-- ==== Sys2Proof/Laws/KeepDma.lean ====
section
/-! SUPPORT. What the operations and meanings of `Machine/Dma.lean` keep (`Keeps`). -/

namespace Sys2Proof.Machine

variable {s0 s : State}

theorem State.modDma_keeps {c : Fin 32} {f : DmaChannel → DmaChannel} (h : Keeps s0 s) : Keeps s0 (State.modDma c f s) := by
  unfold State.modDma
  repeat' (first
    | with_reducible assumption | with_reducible refine modSys_keeps ?_ (fun _ hx => hx)
    | with_reducible apply modSys_keeps | exact fun _ hx => hx)

theorem State.eachDma_keeps {f : Fin 32 → State → State} (hs : Keeps s0 s)
    (hf : ∀ c t, Keeps s0 t → Keeps s0 (f c t)) : Keeps s0 (s.eachDma f) :=
  foldl_keeps hs (fun t x h => hf x t h)

theorem State.stopDma_keeps {c : Fin 32} {status : Nat} {addr : Nat} (h : Keeps s0 s) : Keeps s0 (State.stopDma c status addr s) := by
  unfold State.stopDma
  repeat' (first
    | with_reducible assumption | with_reducible apply State.modDma_keeps
    | with_reducible apply State.raiseIf_keeps)

theorem State.dmaOwnerReset_keeps {o : Fin 16} (h : Keeps s0 s) : Keeps s0 (State.dmaOwnerReset o s) := by
  unfold State.dmaOwnerReset
  repeat' (first
    | with_reducible assumption | with_reducible apply ite_keeps
    | with_reducible refine State.eachDma_keeps ?_ (fun x t ht => ?_)
    | with_reducible apply State.stopDma_keeps | split | dsimp only)

theorem State.spoil_keeps {failing : Option Nat} {as : List Nat} (h : Keeps s0 s) : Keeps s0 (State.spoil failing as s) := by
  unfold State.spoil
  repeat' (first
    | with_reducible assumption | with_reducible apply ite_keeps
    | with_reducible refine modMem_keeps ?_ (fun _ hx => hx) | with_reducible apply modMem_keeps
    | exact fun _ hx => hx | split | dsimp only)

theorem State.fetchDesc_keeps {failing : Option Nat} {c : Fin 32} (h : Keeps s0 s) : Keeps s0 (State.fetchDesc failing c s) := by
  unfold State.fetchDesc
  repeat' (first
    | with_reducible assumption | with_reducible apply ite_keeps | with_reducible apply State.modDma_keeps
    | with_reducible apply State.stopDma_keeps | with_reducible apply State.spoil_keeps
    | with_reducible apply State.integrity_keeps | split | dsimp only)

theorem State.correct_keeps {corrected : Option Nat} {as : List Nat} (h : Keeps s0 s) : Keeps s0 (State.correct corrected as s) := by
  unfold State.correct
  repeat' (first
    | with_reducible assumption | with_reducible apply ite_keeps
    | with_reducible refine modMem_keeps ?_ (fun _ hx => hx) | with_reducible apply modMem_keeps
    | exact fun _ hx => hx | split | dsimp only)

theorem State.burst_keeps {failing : Option Nat} {corrected : Option Nat} {c : Fin 32} {d : DmaDesc} (h : Keeps s0 s) : Keeps s0 (State.burst failing corrected c d s) := by
  unfold State.burst
  repeat' (first
    | exact fun _ hx => MemState.putBytes_wf _ _ hx | with_reducible assumption
    | with_reducible apply ite_keeps | with_reducible apply State.stopDma_keeps
    | with_reducible apply State.spoil_keeps | with_reducible apply State.integrity_keeps
    | with_reducible apply State.correct_keeps | with_reducible refine modMem_keeps ?_ (fun _ hx => hx)
    | with_reducible apply modMem_keeps | exact fun _ hx => hx | with_reducible apply State.modDma_keeps
    | split | dsimp only | with_reducible apply freeCtr_keeps)

theorem State.chooseDma_keeps {n : Nat} {x : Fin 32 × DmaDesc × State} (h : Keeps s0 s)
    (hx : s.chooseDma n = some x) : Keeps s0 x.2.2 := by
  induction n generalizing s with
  | zero => cases hx
  | succ n ih =>
    unfold State.chooseDma at hx
    dsimp only at hx
    split at hx
    · split at hx
      · cases hx
        exact h
      · refine ih ?_ hx
        with_reducible apply State.modDma_keeps
        with_reducible exact modSys_keeps h (fun _ hm => hm)
    · refine ih ?_ hx
      with_reducible apply State.modDma_keeps
      with_reducible exact modSys_keeps h (fun _ hm => hm)

theorem execDmaBurst_keeps {failing corrected : Option Nat} (h : Keeps s0 s) :
    KeepsOut s0 (execDmaBurst failing corrected s) := by
  have h1 : Keeps s0 (s.eachDma (State.fetchDesc failing)) :=
    State.eachDma_keeps h (fun _ _ ht => State.fetchDesc_keeps ht)
  unfold execDmaBurst
  dsimp only
  refine iteOut_keeps (next_keeps h1) ?_
  split
  · exact next_keeps h1
  · rename_i hc
    exact next_keeps (State.burst_keeps (State.chooseDma_keeps h1 hc))

theorem execDmaDescriptorComplete_keeps {c : Fin 32} (h : Keeps s0 s) : KeepsOut s0 (execDmaDescriptorComplete c s) := by
  unfold execDmaDescriptorComplete
  repeat' (first
    | exact fun _ hx => MemState.putBytes_wf _ _ hx | with_reducible assumption
    | with_reducible apply next_keeps | with_reducible apply iteOut_keeps | with_reducible apply ite_keeps
    | with_reducible apply State.raiseIf_keeps | with_reducible apply State.modDma_keeps
    | with_reducible apply State.raise_keeps | with_reducible apply State.countUnwritten_keeps
    | with_reducible refine modMem_keeps ?_ (fun _ hx => hx) | with_reducible apply modMem_keeps
    | exact fun _ hx => hx | split | dsimp only)

theorem execDmaKick_keeps {core : Fin 4} {value : U32} (h : Keeps s0 s) : KeepsOut s0 (execDmaKick core value s) := by
  unfold execDmaKick
  repeat' (first
    | with_reducible assumption | with_reducible apply next_keeps | with_reducible apply iteOut_keeps
    | with_reducible apply ite_keeps | with_reducible apply State.coreFault_keeps
    | with_reducible refine State.eachDma_keeps ?_ (fun x t ht => ?_)
    | with_reducible apply State.modDma_keeps)

theorem execDmaHaltWrite_keeps {core : Fin 4} {value : U32} (h : Keeps s0 s) : KeepsOut s0 (execDmaHaltWrite core value s) := by
  unfold execDmaHaltWrite
  repeat' (first
    | with_reducible assumption | with_reducible apply next_keeps | with_reducible apply iteOut_keeps
    | with_reducible apply ite_keeps | with_reducible apply State.coreFault_keeps
    | with_reducible refine State.eachDma_keeps ?_ (fun x t ht => ?_)
    | with_reducible apply State.stopDma_keeps | with_reducible apply State.modDma_keeps)

theorem execDmaChannelDisable_keeps {c : Fin 32} (h : Keeps s0 s) : KeepsOut s0 (execDmaChannelDisable c s) := by
  unfold execDmaChannelDisable
  repeat' (first
    | with_reducible assumption | with_reducible apply next_keeps | with_reducible apply State.modDma_keeps
    | with_reducible apply State.stopDma_keeps)

theorem execDmaGlobalDisable_keeps (h : Keeps s0 s) : KeepsOut s0 (execDmaGlobalDisable s) := by
  unfold execDmaGlobalDisable
  repeat' (first
    | with_reducible assumption | with_reducible apply next_keeps
    | with_reducible refine modSys_keeps ?_ (fun _ hx => hx) | with_reducible apply modSys_keeps
    | exact fun _ hx => hx | with_reducible refine State.eachDma_keeps ?_ (fun x t ht => ?_)
    | with_reducible apply State.stopDma_keeps)

theorem execDmaResume_keeps {c : Fin 32} (h : Keeps s0 s) : KeepsOut s0 (execDmaResume c s) := by
  unfold execDmaResume
  repeat' (first
    | with_reducible assumption | with_reducible apply next_keeps | with_reducible apply iteOut_keeps
    | with_reducible apply ite_keeps | with_reducible apply State.modDma_keeps | split | dsimp only)

theorem execDmaCringRdWrite_keeps {c : Fin 32} {value : U32} (h : Keeps s0 s) : KeepsOut s0 (execDmaCringRdWrite c value s) := by
  unfold execDmaCringRdWrite
  repeat' (first
    | with_reducible assumption | with_reducible apply next_keeps | with_reducible apply iteOut_keeps
    | with_reducible apply ite_keeps | with_reducible apply State.modDma_keeps)

end Sys2Proof.Machine
end

