-- ==== Sys2Proof/Laws/KeepMemory.lean ====
section
/-! SUPPORT. What the operations and meanings of `Machine/Memory.lean` keep (`Keeps`). -/

namespace Sys2Proof.Machine

variable {s0 s : State}

theorem stateOf_keeps {o : Out} (h : Keeps s0 s) (ho : KeepsOut s0 o) : Keeps s0 (stateOf s o) := by
  unfold stateOf
  split
  · exact ho _ rfl
  · exact h

theorem MemState.discard_wf (a n : Nat) {m : MemState} (h : m.wf) : (MemState.discard a n m).wf := by
  unfold MemState.discard
  exact bankWf_filter 0#8 _ h

theorem execMemDiscard_keeps {count : U32} (h : Keeps s0 s) : KeepsOut s0 (execMemDiscard count s) := by
  unfold execMemDiscard
  repeat' (first
    | exact fun _ hx => MemState.discard_wf _ _ hx | with_reducible assumption
    | with_reducible apply next_keeps | with_reducible apply iteOut_keeps | with_reducible apply ite_keeps
    | with_reducible refine modMem_keeps ?_ (fun _ hx => hx) | with_reducible apply modMem_keeps
    | exact fun _ hx => hx)

theorem execMemFirstErrClear_keeps {value : U32} (h : Keeps s0 s) : KeepsOut s0 (execMemFirstErrClear value s) := by
  unfold execMemFirstErrClear
  repeat' (first
    | with_reducible assumption | with_reducible apply next_keeps | with_reducible apply iteOut_keeps
    | with_reducible apply ite_keeps | with_reducible refine modMem_keeps ?_ (fun _ hx => hx)
    | with_reducible apply modMem_keeps | exact fun _ hx => hx)

theorem execRecordAck_keeps (h : Keeps s0 s) : KeepsOut s0 (execRecordAck s) := by
  unfold execRecordAck
  repeat' (first
    | with_reducible assumption | with_reducible apply next_keeps
    | with_reducible refine modHost_keeps ?_ (fun _ hx => hx) | with_reducible apply modHost_keeps
    | exact fun _ hx => hx)

theorem State.writeDma_keeps {c : Fin 32} {r : Nat} {v : Nat} (h : Keeps s0 s) : Keeps s0 ((State.writeDma c r v s).1) := by
  unfold State.writeDma
  repeat' (first
    | with_reducible assumption | with_reducible apply ite_keeps | with_reducible apply State.modDma_keeps
    | with_reducible apply stateOf_keeps | with_reducible apply execDmaChannelDisable_keeps
    | with_reducible apply execDmaCringRdWrite_keeps | with_reducible apply execDmaResume_keeps | split
    | dsimp only)

theorem State.writeDmaG_keeps {core : Fin 4} {i : Nat} {v : U32} (h : Keeps s0 s) : Keeps s0 (State.writeDmaG core i v s) := by
  unfold State.writeDmaG
  repeat' (first
    | with_reducible assumption | with_reducible apply ite_keeps
    | with_reducible refine modSys_keeps ?_ (fun _ hx => hx) | with_reducible apply modSys_keeps
    | exact fun _ hx => hx | with_reducible apply stateOf_keeps
    | with_reducible apply execDmaGlobalDisable_keeps | with_reducible apply execDmaKick_keeps
    | with_reducible apply execDmaHaltWrite_keeps | with_reducible refine modMem_keeps ?_ (fun _ hx => hx)
    | with_reducible apply modMem_keeps | exact fun _ hx => hx | with_reducible apply execMemDiscard_keeps
    | with_reducible apply execMemFirstErrClear_keeps | split | dsimp only)

theorem State.writeReg_keeps {core : Fin 4} {a : Nat} {v : U32} (h : Keeps s0 s) : Keeps s0 (State.writeReg core a v s) := by
  unfold State.writeReg
  repeat' (first
    | with_reducible assumption | with_reducible apply ite_keeps | with_reducible apply State.coreDone_keeps
    | with_reducible apply State.coreFault_keeps | with_reducible apply stateOf_keeps
    | with_reducible apply execRecordAck_keeps | with_reducible apply execIcCfgWrite_keeps
    | with_reducible apply execIcSwsetWrite_keeps | with_reducible apply execIcSwclrWrite_keeps
    | with_reducible apply State.refuseWrite_keeps | with_reducible apply execIcEoiWrite_keeps
    | with_reducible apply execIcThrWrite_keeps | with_reducible apply State.modIrq_keeps
    | with_reducible apply State.writeDma_keeps | with_reducible apply State.writeDmaG_keeps | split
    | dsimp only)

theorem execRegisterWrite_keeps {core : Fin 4} {address : Nat} {value : U32} (h : Keeps s0 s) : KeepsOut s0 (execRegisterWrite core address value s) := by
  unfold execRegisterWrite
  repeat' (first
    | with_reducible assumption | with_reducible apply next_keeps | with_reducible apply State.writeReg_keeps)

theorem State.readReg_keeps {core : Fin 4} {a : Nat} (h : Keeps s0 s) : Keeps s0 (State.readReg core a s) := by
  unfold State.readReg
  repeat' (first
    | with_reducible assumption | with_reducible apply ite_keeps | with_reducible apply State.coreFault_keeps
    | with_reducible apply stateOf_keeps | with_reducible apply execIcStatRead_keeps
    | with_reducible apply State.coreDone_keeps | with_reducible apply execIcClaimRead_keeps | split
    | dsimp only)

theorem State.load_keeps {core : Fin 4} {a : Nat} {n : Nat} {bad : Option Bool} (h : Keeps s0 s) : Keeps s0 (State.load core a n bad s) := by
  unfold State.load
  repeat' (first
    | with_reducible assumption | with_reducible apply ite_keeps | with_reducible apply State.coreFault_keeps
    | with_reducible apply State.readReg_keeps | with_reducible apply State.spoil_keeps
    | with_reducible refine modMem_keeps ?_ (fun _ hx => hx) | with_reducible apply modMem_keeps
    | exact fun _ hx => hx | with_reducible apply State.integrity_keeps
    | with_reducible apply State.countUnwritten_keeps | with_reducible apply State.coreDone_keeps | split
    | dsimp only)

theorem State.storeMem_keeps {core : Fin 4} {a : Nat} {data : List Byte} (h : Keeps s0 s) : Keeps s0 (State.storeMem core a data s) := by
  unfold State.storeMem
  repeat' (first
    | exact fun _ hx => MemState.putBytes_wf _ _ hx | with_reducible assumption
    | with_reducible apply ite_keeps | with_reducible apply State.coreFault_keeps
    | with_reducible apply State.writeReg_keeps | with_reducible apply State.coreDone_keeps
    | with_reducible refine modMem_keeps ?_ (fun _ hx => hx) | with_reducible apply modMem_keeps
    | exact fun _ hx => hx | split | dsimp only)

theorem execCoreMemoryAccess_keeps {core : Fin 4} {address : Nat} {write : Option (List Byte)} {length : Nat} {bad : Option Bool} (h : Keeps s0 s) : KeepsOut s0 (execCoreMemoryAccess core address write length bad s) := by
  unfold execCoreMemoryAccess
  repeat' (first
    | with_reducible assumption | with_reducible apply next_keeps | with_reducible apply State.storeMem_keeps
    | with_reducible apply State.load_keeps | split | dsimp only)

end Sys2Proof.Machine
end

