-- ==== Sys2Proof/Laws/KeepRings.lean ====
section
/-! SUPPORT. What the operations and meanings of `Machine/Rings.lean` keep (`Keeps`). -/

namespace Sys2Proof.Machine

variable {s0 s : State}

theorem State.modRing_keeps {id : Nat} {f : Ring → Ring} (h : Keeps s0 s) : Keeps s0 (State.modRing id f s) := by
  unfold State.modRing
  repeat' (first
    | with_reducible assumption | with_reducible apply ite_keeps
    | with_reducible refine modSys_keeps ?_ (fun _ hx => hx) | with_reducible apply modSys_keeps
    | exact fun _ hx => hx)

theorem State.ringNotice_keeps {id : Nat} {x_ : Ring} (h : Keeps s0 s) : Keeps s0 (State.ringNotice id x_ s) := by
  unfold State.ringNotice
  repeat' (first
    | with_reducible assumption | with_reducible apply ite_keeps | with_reducible apply State.send_keeps
    | with_reducible apply modOwner_keeps | split | dsimp only)

theorem State.ringNotify_keeps {id : Nat} (h : Keeps s0 s) : Keeps s0 (State.ringNotify id s) := by
  unfold State.ringNotify
  repeat' (first
    | with_reducible assumption | with_reducible apply ite_keeps | with_reducible apply State.modRing_keeps
    | with_reducible apply State.ringNotice_keeps | with_reducible apply State.raise_keeps | split
    | dsimp only)

theorem State.modStream_keeps {i : Fin 32} {f : Stream → Stream} (h : Keeps s0 s) : Keeps s0 (State.modStream i f s) := by
  unfold State.modStream
  repeat' (first
    | with_reducible assumption | with_reducible apply modLink_keeps)

theorem State.rdMoved_keeps {id : Nat} (h : Keeps s0 s) : Keeps s0 (State.rdMoved id s) := by
  unfold State.rdMoved
  repeat' (first
    | with_reducible assumption | with_reducible apply ite_keeps | with_reducible apply modLink_keeps
    | with_reducible apply State.ringNotify_keeps | split | dsimp only)

theorem State.streamSend_keeps {i : Fin 32} (h : Keeps s0 s) : Keeps s0 (State.streamSend i s) := by
  unfold State.streamSend
  repeat' (first
    | with_reducible assumption | with_reducible apply ite_keeps | with_reducible apply modLink_keeps
    | with_reducible apply State.raise_keeps | with_reducible apply State.modStream_keeps
    | with_reducible apply State.modRing_keeps | with_reducible apply State.ringNotify_keeps | split
    | dsimp only)

theorem State.streamsOf_keeps {id : Nat} (h : Keeps s0 s) : Keeps s0 (State.streamsOf id s) := by
  unfold State.streamsOf
  repeat' (first
    | with_reducible assumption | with_reducible apply ite_keeps
    | with_reducible refine foldl_keeps ?_ (fun t x ht => ?_) | with_reducible apply State.modStream_keeps
    | with_reducible apply State.streamSend_keeps | split | dsimp only)

theorem execStreamFlushTimeout_keeps {slot : Fin 32} (h : Keeps s0 s) : KeepsOut s0 (execStreamFlushTimeout slot s) := by
  unfold execStreamFlushTimeout
  repeat' (first
    | with_reducible assumption | with_reducible apply next_keeps
    | with_reducible apply State.streamSend_keeps | with_reducible apply atLeast_keeps | split | dsimp only)

theorem State.ringMemory_keeps {as : List Nat} (h : Keeps s0 s) : Keeps s0 (State.ringMemory as s) := by
  unfold State.ringMemory
  repeat' (first
    | exact fun _ hx => MemState.foldl_wf hx (fun _ _ hm => MemState.touch_wf _ hm)
    | with_reducible assumption | with_reducible refine foldl_keeps ?_ (fun t x ht => ?_)
    | with_reducible refine modMem_keeps ?_ (fun _ hx => hx) | with_reducible apply modMem_keeps
    | exact fun _ hx => hx)

theorem State.appendTo_keeps {id : Nat} {bytes : List Byte} (h : Keeps s0 s) : Keeps s0 (State.appendTo id bytes s) := by
  unfold State.appendTo
  repeat' (first
    | with_reducible assumption | with_reducible apply ite_keeps | with_reducible apply State.modRing_keeps
    | with_reducible apply State.ringMemory_keeps | with_reducible apply State.streamsOf_keeps
    | with_reducible apply State.ringNotify_keeps | split | dsimp only)

theorem execRingRecordAppend_keeps {source : RingSource} (h : Keeps s0 s) : KeepsOut s0 (execRingRecordAppend source s) := by
  unfold execRingRecordAppend
  repeat' (first
    | with_reducible assumption | with_reducible apply next_keeps
    | with_reducible refine foldl_keeps ?_ (fun t x ht => ?_)
    | with_reducible refine modSys_keeps ?_ (fun _ hx => hx) | with_reducible apply modSys_keeps
    | exact fun _ hx => hx | with_reducible apply State.appendTo_keeps | split | dsimp only)

theorem State.ringOwnerReset_keeps {o : Fin 16} (h : Keeps s0 s) : Keeps s0 (State.ringOwnerReset o s) := by
  unfold State.ringOwnerReset
  repeat' (first
    | with_reducible assumption | with_reducible apply ite_keeps
    | with_reducible refine modSys_keeps ?_ (fun _ hx => hx) | with_reducible apply modSys_keeps
    | exact fun _ hx => hx | with_reducible apply modLink_keeps | split | dsimp only)

theorem execRingCreate_keeps {r : Req} (h : Keeps s0 s) : KeepsOut s0 (execRingCreate r s) := by
  unfold execRingCreate
  repeat' (first
    | with_reducible assumption | with_reducible apply ok_keeps | with_reducible apply no_keeps
    | with_reducible apply iteRes_keeps | with_reducible apply next_keeps | with_reducible apply iteOut_keeps
    | with_reducible apply ite_keeps | with_reducible refine runOp_keeps ?_ (fun t ht => ?_)
    | with_reducible refine modSys_keeps ?_ (fun _ hx => hx) | with_reducible apply modSys_keeps
    | exact fun _ hx => hx | with_reducible apply State.storeSecure_keeps | split | dsimp only)

theorem execRingDelete_keeps {r : Req} (h : Keeps s0 s) : KeepsOut s0 (execRingDelete r s) := by
  unfold execRingDelete
  repeat' (first
    | exact fun _ hx => MemState.discard_wf _ _ hx | with_reducible assumption | with_reducible apply ok_keeps
    | with_reducible apply no_keeps | with_reducible apply iteRes_keeps | with_reducible apply next_keeps
    | with_reducible apply iteOut_keeps | with_reducible apply ite_keeps
    | with_reducible refine runOp_keeps ?_ (fun t ht => ?_)
    | with_reducible refine modSys_keeps ?_ (fun _ hx => hx) | with_reducible apply modSys_keeps
    | exact fun _ hx => hx | with_reducible refine modMem_keeps ?_ (fun _ hx => hx)
    | with_reducible apply modMem_keeps | exact fun _ hx => hx | with_reducible apply modLink_keeps
    | with_reducible apply State.storeSecure_keeps | split | dsimp only)

theorem execRingStatus_keeps {r : Req} (h : Keeps s0 s) : KeepsOut s0 (execRingStatus r s) := by
  unfold execRingStatus
  repeat' (first
    | with_reducible assumption | with_reducible apply ok_keeps | with_reducible apply no_keeps
    | with_reducible apply iteRes_keeps | with_reducible apply next_keeps | with_reducible apply iteOut_keeps
    | with_reducible apply ite_keeps | with_reducible refine runOp_keeps ?_ (fun t ht => ?_) | split
    | dsimp only)

theorem execRingRead_keeps {r : Req} (h : Keeps s0 s) : KeepsOut s0 (execRingRead r s) := by
  unfold execRingRead
  repeat' (first
    | with_reducible assumption | with_reducible apply ok_keeps | with_reducible apply no_keeps
    | with_reducible apply iteRes_keeps | with_reducible apply next_keeps | with_reducible apply iteOut_keeps
    | with_reducible apply ite_keeps | with_reducible refine runOp_keeps ?_ (fun t ht => ?_)
    | with_reducible apply State.modRing_keeps | with_reducible apply State.rdMoved_keeps
    | with_reducible apply State.integrity_keeps | split | dsimp only)

theorem execRingAck_keeps {r : Req} (h : Keeps s0 s) : KeepsOut s0 (execRingAck r s) := by
  unfold execRingAck
  repeat' (first
    | with_reducible assumption | with_reducible apply ok_keeps | with_reducible apply no_keeps
    | with_reducible apply iteRes_keeps | with_reducible apply next_keeps | with_reducible apply iteOut_keeps
    | with_reducible apply ite_keeps | with_reducible refine runOp_keeps ?_ (fun t ht => ?_)
    | with_reducible apply State.rdMoved_keeps | with_reducible apply State.modRing_keeps | split | dsimp only)

theorem execRingList_keeps {r : Req} (h : Keeps s0 s) : KeepsOut s0 (execRingList r s) := by
  unfold execRingList
  repeat' (first
    | with_reducible assumption | with_reducible apply ok_keeps | with_reducible apply iteRes_keeps
    | with_reducible apply next_keeps | with_reducible apply iteOut_keeps | with_reducible apply ite_keeps
    | with_reducible refine runOp_keeps ?_ (fun t ht => ?_))

theorem execMemStatus_keeps {r : Req} (h : Keeps s0 s) : KeepsOut s0 (execMemStatus r s) := by
  unfold execMemStatus
  repeat' (first
    | with_reducible assumption | with_reducible apply ok_keeps | with_reducible apply next_keeps
    | with_reducible refine runOp_keeps ?_ (fun t ht => ?_))

theorem execStreamCreate_keeps {r : Req} (h : Keeps s0 s) : KeepsOut s0 (execStreamCreate r s) := by
  unfold execStreamCreate
  repeat' (first
    | with_reducible assumption | with_reducible apply ok_keeps | with_reducible apply no_keeps
    | with_reducible apply iteRes_keeps | with_reducible apply next_keeps | with_reducible apply iteOut_keeps
    | with_reducible apply ite_keeps | with_reducible refine runOp_keeps ?_ (fun t ht => ?_)
    | with_reducible apply modOwner_keeps | with_reducible apply modLink_keeps
    | with_reducible apply State.streamSend_keeps | with_reducible apply State.storeSecure_keeps | split
    | dsimp only)

theorem execStreamDelete_keeps {r : Req} (h : Keeps s0 s) : KeepsOut s0 (execStreamDelete r s) := by
  unfold execStreamDelete
  repeat' (first
    | with_reducible assumption | with_reducible apply ok_keeps | with_reducible apply no_keeps
    | with_reducible apply iteRes_keeps | with_reducible refine diteRes_keeps (fun _ => ?_) (fun _ => ?_)
    | with_reducible apply next_keeps | with_reducible apply iteOut_keeps | with_reducible apply ite_keeps
    | with_reducible refine dite_keeps (fun _ => ?_) (fun _ => ?_)
    | with_reducible refine runOp_keeps ?_ (fun t ht => ?_) | with_reducible apply State.storeSecure_keeps
    | with_reducible apply modLink_keeps | split | dsimp only)

theorem execStreamStatus_keeps {r : Req} (h : Keeps s0 s) : KeepsOut s0 (execStreamStatus r s) := by
  unfold execStreamStatus
  repeat' (first
    | with_reducible assumption | with_reducible apply ok_keeps | with_reducible apply no_keeps
    | with_reducible refine diteRes_keeps (fun _ => ?_) (fun _ => ?_) | with_reducible apply next_keeps
    | with_reducible refine dite_keeps (fun _ => ?_) (fun _ => ?_)
    | with_reducible refine runOp_keeps ?_ (fun t ht => ?_) | split | dsimp only)

end Sys2Proof.Machine
end

