-- ==== Sys2Proof/Laws/KeepTime.lean ====
section
/-! SUPPORT. What the operations and meanings of `Machine/Time.lean` keep (`Keeps`). -/

namespace Sys2Proof.Machine

variable {s0 s : State}

theorem State.tbTo_keeps {run : TbRun} {src : Nat} (h : Keeps s0 s) : Keeps s0 (State.tbTo run src s) := by
  unfold State.tbTo
  repeat' (first
    | with_reducible assumption | with_reducible apply State.raiseIf_keeps
    | with_reducible refine modTb_keeps ?_ (fun _ => Int.le_refl _) | with_reducible apply modTb_keeps
    | exact fun _ => Int.le_refl _)

theorem State.followSources_keeps (h : Keeps s0 s) : Keeps s0 (State.followSources s) := by
  unfold State.followSources
  repeat' (first
    | exact fun _ => step_ite (Int.le_refl _) (Int.le_refl _) | with_reducible assumption
    | with_reducible apply ite_keeps | with_reducible refine modTb_keeps ?_ (fun _ => Int.le_refl _)
    | with_reducible apply modTb_keeps | exact fun _ => Int.le_refl _ | with_reducible apply State.tbTo_keeps
    | split | dsimp only)

theorem State.pickTime_keeps (h : Keeps s0 s) : Keeps s0 (State.pickTime s) := by
  unfold State.pickTime
  repeat' (first
    | exact fun _ => step_ite (Int.le_refl _) (Int.le_refl _) | with_reducible assumption
    | with_reducible apply ite_keeps | with_reducible refine foldl_keeps ?_ (fun t x ht => ?_)
    | with_reducible refine modTb_keeps ?_ (fun _ => Int.le_refl _) | with_reducible apply modTb_keeps
    | exact fun _ => Int.le_refl _ | with_reducible apply State.pickParam_keeps)

theorem State.timeStep_keeps {d : Nat} (h : Keeps s0 s) : Keeps s0 (State.timeStep d s) := by
  unfold State.timeStep
  repeat' (first
    | exact fun _ => Int.le_add_of_nonneg_right (Int.natCast_nonneg _) | with_reducible assumption
    | with_reducible apply ite_keeps | with_reducible refine modTb_keeps ?_ (fun _ => Int.le_refl _)
    | with_reducible apply modTb_keeps | exact fun _ => Int.le_refl _ | with_reducible apply State.raise_keeps
    | with_reducible apply State.event_keeps | with_reducible apply modChain_keeps
    | with_reducible refine eachGroup_keeps ?_ (fun x t ht => ?_)
    | with_reducible apply State.restartTimer_keeps)

theorem State.measureOffset_keeps {theta : Int} (h : Keeps s0 s) : Keeps s0 (State.measureOffset theta s) := by
  unfold State.measureOffset
  repeat' (first
    | with_reducible assumption | with_reducible apply ite_keeps
    | with_reducible refine modTb_keeps ?_ (fun _ => Int.le_refl _) | with_reducible apply modTb_keeps
    | exact fun _ => Int.le_refl _ | with_reducible apply State.timeStep_keeps
    | with_reducible apply State.raise_keeps)

theorem execPpsInEdge_keeps {time : Nat} {falling : Bool} (h : Keeps s0 s) : KeepsOut s0 (execPpsInEdge time falling s) := by
  unfold execPpsInEdge
  repeat' (first
    | with_reducible assumption | with_reducible apply next_keeps | with_reducible apply iteOut_keeps
    | with_reducible apply ite_keeps | with_reducible apply State.triggerKind_keeps
    | with_reducible apply State.pickTime_keeps | with_reducible apply State.atDevice_keeps
    | with_reducible apply State.raise_keeps | with_reducible refine modTb_keeps ?_ (fun _ => Int.le_refl _)
    | with_reducible apply modTb_keeps | exact fun _ => Int.le_refl _
    | with_reducible apply State.followSources_keeps | with_reducible apply State.measureOffset_keeps | split
    | dsimp only)

theorem execPpsSourceLoss_keeps (h : Keeps s0 s) : KeepsOut s0 (execPpsSourceLoss s) := by
  unfold execPpsSourceLoss
  repeat' (first
    | with_reducible assumption | with_reducible apply next_keeps | with_reducible apply iteOut_keeps
    | with_reducible apply ite_keeps | with_reducible apply atLeast_keeps
    | with_reducible apply State.followSources_keeps
    | with_reducible refine modTb_keeps ?_ (fun _ => Int.le_refl _) | with_reducible apply modTb_keeps
    | exact fun _ => Int.le_refl _ | split | dsimp only)

theorem execHoldoverTimeout_keeps (h : Keeps s0 s) : KeepsOut s0 (execHoldoverTimeout s) := by
  unfold execHoldoverTimeout
  repeat' (first
    | with_reducible assumption | with_reducible apply next_keeps | with_reducible apply iteOut_keeps
    | with_reducible apply ite_keeps | with_reducible apply atLeast_keeps
    | with_reducible refine modTb_keeps ?_ (fun _ => Int.le_refl _) | with_reducible apply modTb_keeps
    | exact fun _ => Int.le_refl _ | with_reducible apply State.tbTo_keeps)

theorem execPrimarySourceReturn_keeps (h : Keeps s0 s) : KeepsOut s0 (execPrimarySourceReturn s) := by
  unfold execPrimarySourceReturn
  repeat' (first
    | with_reducible assumption | with_reducible apply next_keeps | with_reducible apply iteOut_keeps
    | with_reducible apply ite_keeps | with_reducible apply State.tbTo_keeps
    | with_reducible apply atLeast_keeps | split | dsimp only)

theorem execPpsOutPulse_keeps (h : Keeps s0 s) : KeepsOut s0 (execPpsOutPulse s) := by
  unfold execPpsOutPulse
  repeat' (first
    | with_reducible assumption | with_reducible apply next_keeps | with_reducible apply iteOut_keeps
    | with_reducible apply ite_keeps | with_reducible refine modTb_keeps ?_ (fun _ => Int.le_refl _)
    | with_reducible apply modTb_keeps | exact fun _ => Int.le_refl _ | with_reducible apply atLeast_keeps
    | with_reducible apply State.atDevice_keeps)

theorem State.switchRef_keeps {k : Bool} (h : Keeps s0 s) : Keeps s0 (State.switchRef k s) := by
  unfold State.switchRef
  repeat' (first
    | with_reducible assumption | with_reducible apply State.raise_keeps
    | with_reducible refine modTb_keeps ?_ (fun _ => Int.le_refl _) | with_reducible apply modTb_keeps
    | exact fun _ => Int.le_refl _)

theorem execReferenceFailure_keeps {refclk : Bool} (h : Keeps s0 s) : KeepsOut s0 (execReferenceFailure refclk s) := by
  unfold execReferenceFailure
  repeat' (first
    | exact fun _ => step_ite (Int.le_refl _) (Int.le_refl _) | with_reducible assumption
    | with_reducible apply next_keeps | with_reducible apply iteOut_keeps | with_reducible apply ite_keeps
    | with_reducible apply State.raise_keeps | with_reducible refine modTb_keeps ?_ (fun _ => Int.le_refl _)
    | with_reducible apply modTb_keeps | exact fun _ => Int.le_refl _
    | with_reducible apply State.settle_keeps | with_reducible apply State.safeState_keeps
    | with_reducible apply State.switchRef_keeps)

theorem execReferenceRestored_keeps {refclk : Bool} (h : Keeps s0 s) : KeepsOut s0 (execReferenceRestored refclk s) := by
  unfold execReferenceRestored
  repeat' (first
    | exact fun _ => step_ite (Int.le_refl _) (Int.le_refl _) | with_reducible assumption
    | with_reducible apply next_keeps | with_reducible apply iteOut_keeps | with_reducible apply ite_keeps
    | with_reducible refine modTb_keeps ?_ (fun _ => Int.le_refl _) | with_reducible apply modTb_keeps
    | exact fun _ => Int.le_refl _ | with_reducible refine modSafety_keeps ?_ (fun _ hx => hx)
    | with_reducible apply modSafety_keeps | exact fun _ hx => hx | with_reducible apply State.switchRef_keeps)

theorem execPllLockChange_keeps {lock : Bool} (h : Keeps s0 s) : KeepsOut s0 (execPllLockChange lock s) := by
  unfold execPllLockChange
  repeat' (first
    | with_reducible assumption | with_reducible apply next_keeps | with_reducible apply State.raiseIf_keeps
    | with_reducible refine modTb_keeps ?_ (fun _ => Int.le_refl _) | with_reducible apply modTb_keeps
    | exact fun _ => Int.le_refl _)

theorem execTbStatusRead_keeps {r : Req} (h : Keeps s0 s) : KeepsOut s0 (execTbStatusRead r s) := by
  unfold execTbStatusRead
  repeat' (first
    | with_reducible assumption | with_reducible apply ok_keeps | with_reducible apply next_keeps
    | with_reducible refine runOp_keeps ?_ (fun t ht => ?_))

theorem execTbAlignNow_keeps {r : Req} (h : Keeps s0 s) : KeepsOut s0 (execTbAlignNow r s) := by
  unfold execTbAlignNow
  repeat' (first
    | with_reducible assumption | with_reducible apply ok_keeps | with_reducible apply no_keeps
    | with_reducible apply iteRes_keeps | with_reducible apply next_keeps | with_reducible apply iteOut_keeps
    | with_reducible apply ite_keeps | with_reducible refine runOp_keeps ?_ (fun t ht => ?_)
    | with_reducible apply State.timeStep_keeps)

theorem execTbSetTod_keeps {r : Req} (h : Keeps s0 s) : KeepsOut s0 (execTbSetTod r s) := by
  unfold execTbSetTod
  repeat' (first
    | with_reducible assumption | with_reducible apply ok_keeps | with_reducible apply no_keeps
    | with_reducible apply iteRes_keeps | with_reducible apply next_keeps | with_reducible apply iteOut_keeps
    | with_reducible apply ite_keeps | with_reducible refine runOp_keeps ?_ (fun t ht => ?_)
    | with_reducible apply State.timeStep_keeps)

end Sys2Proof.Machine
end

