-- ==== Sys2Proof/Laws/KeepLinks.lean ====
section
/-! SUPPORT. What the operations and meanings of `Machine/Links.lean` keep (`Keeps`). -/

namespace Sys2Proof.Machine

variable {s0 s : State}

theorem State.modEth_keeps {q : Fin 2} {f : EthPort → EthPort} (h : Keeps s0 s) : Keeps s0 (State.modEth q f s) := by
  unfold State.modEth
  repeat' (first
    | with_reducible assumption | with_reducible apply modLink_keeps)

theorem State.ethError_keeps {q : Fin 2} (h : Keeps s0 s) : Keeps s0 (State.ethError q s) := by
  unfold State.ethError
  repeat' (first
    | with_reducible assumption | with_reducible apply State.raiseIf_keeps
    | with_reducible apply State.modEth_keeps)

theorem State.ptpDecide_keeps (h : Keeps s0 s) : Keeps s0 (State.ptpDecide s) := by
  unfold State.ptpDecide
  repeat' (first
    | with_reducible assumption | with_reducible apply State.modEth_keeps
    | with_reducible apply State.raiseIf_keeps | with_reducible apply State.followSources_keeps
    | with_reducible refine modTb_keeps ?_ (fun _ => Int.le_refl _) | with_reducible apply modTb_keeps
    | exact fun _ => Int.le_refl _)

theorem State.announce_keeps {q : Fin 2} {p : PtpParent} (h : Keeps s0 s) : Keeps s0 (State.announce q p s) := by
  unfold State.announce
  repeat' (first
    | with_reducible assumption | with_reducible apply ite_keeps | with_reducible apply State.ptpDecide_keeps
    | with_reducible apply State.modEth_keeps | split | dsimp only)

theorem execPtpSyncReceived_keeps {q : Fin 2} {offset : Reading} {logSync : Reading} (h : Keeps s0 s) : KeepsOut s0 (execPtpSyncReceived q offset logSync s) := by
  unfold execPtpSyncReceived
  repeat' (first
    | with_reducible assumption | with_reducible apply next_keeps | with_reducible apply iteOut_keeps
    | with_reducible apply ite_keeps | with_reducible apply State.modEth_keeps
    | with_reducible apply State.pickTime_keeps | with_reducible apply State.raise_keeps
    | with_reducible apply State.ptpDecide_keeps
    | with_reducible refine modTb_keeps ?_ (fun _ => Int.le_refl _) | with_reducible apply modTb_keeps
    | exact fun _ => Int.le_refl _ | with_reducible apply State.measureOffset_keeps | split | dsimp only)

theorem execPtpDelayReqSend_keeps {q : Fin 2} (h : Keeps s0 s) : KeepsOut s0 (execPtpDelayReqSend q s) := by
  unfold execPtpDelayReqSend
  repeat' (first
    | with_reducible assumption | with_reducible apply next_keeps | with_reducible apply iteOut_keeps
    | with_reducible apply ite_keeps | with_reducible apply atLeast_keeps | with_reducible apply modLink_keeps
    | split | dsimp only)

theorem execPtpMasterSend_keeps {q : Fin 2} (h : Keeps s0 s) : KeepsOut s0 (execPtpMasterSend q s) := by
  unfold execPtpMasterSend
  repeat' (first
    | with_reducible assumption | with_reducible apply next_keeps | with_reducible apply iteOut_keeps
    | with_reducible apply ite_keeps | with_reducible apply State.raise_keeps
    | with_reducible apply State.modEth_keeps | with_reducible apply atLeast_keeps
    | with_reducible apply modLink_keeps | split | dsimp only | with_reducible apply freeCtr_keeps)

theorem execPtpSourceLoss_keeps {q : Fin 2} (h : Keeps s0 s) : KeepsOut s0 (execPtpSourceLoss q s) := by
  unfold execPtpSourceLoss
  repeat' (first
    | with_reducible assumption | with_reducible apply next_keeps | with_reducible apply State.ptpDecide_keeps
    | with_reducible apply State.modEth_keeps | with_reducible apply atLeast_keeps | split | dsimp only)

theorem execEthLinkChange_keeps {q : Fin 2} {up : Bool} {speed : Fin 3} {duplex : Bool} (h : Keeps s0 s) : KeepsOut s0 (execEthLinkChange q up speed duplex s) := by
  unfold execEthLinkChange
  repeat' (first
    | with_reducible assumption | with_reducible apply next_keeps | with_reducible apply iteOut_keeps
    | with_reducible apply ite_keeps | with_reducible apply State.modEth_keeps
    | with_reducible apply State.ptpDecide_keeps | with_reducible apply State.raiseIf_keeps)

theorem State.ethRestart_keeps {q : Fin 2} (h : Keeps s0 s) : Keeps s0 (State.ethRestart q s) := by
  unfold State.ethRestart
  repeat' (first
    | with_reducible assumption | with_reducible apply State.modEth_keeps
    | with_reducible apply State.ptpDecide_keeps | with_reducible apply State.raiseIf_keeps)

theorem execEthPortRestart_keeps {q : Fin 2} (h : Keeps s0 s) : KeepsOut s0 (execEthPortRestart q s) := by
  unfold execEthPortRestart
  repeat' (first
    | with_reducible assumption | with_reducible apply next_keeps | with_reducible apply iteOut_keeps
    | with_reducible apply ite_keeps | with_reducible apply State.ethRestart_keeps)

theorem execEthRestart_keeps {r : Req} (h : Keeps s0 s) : KeepsOut s0 (execEthRestart r s) := by
  unfold execEthRestart
  repeat' (first
    | with_reducible assumption | with_reducible apply ok_keeps | with_reducible apply no_keeps
    | with_reducible apply iteRes_keeps | with_reducible apply next_keeps | with_reducible apply iteOut_keeps
    | with_reducible apply ite_keeps | with_reducible refine foldl_keeps ?_ (fun t x ht => ?_)
    | with_reducible refine runOp_keeps ?_ (fun t ht => ?_) | with_reducible apply State.modEth_keeps)

theorem State.lanHeard_keeps {q : Fin 2} {src : U64} (h : Keeps s0 s) : Keeps s0 (State.lanHeard q src s) := by
  unfold State.lanHeard
  repeat' (first
    | with_reducible assumption | with_reducible apply ite_keeps | with_reducible apply State.raiseIf_keeps
    | with_reducible apply State.modEth_keeps)

theorem State.prpRemember_keeps {f : EthFrame} (h : Keeps s0 s) : Keeps s0 (State.prpRemember f s) := by
  unfold State.prpRemember
  repeat' (first
    | with_reducible assumption | with_reducible apply ite_keeps | with_reducible apply modLink_keeps | split
    | dsimp only)

theorem State.frameContent_keeps {q : Fin 2} {f : EthFrame} (h : Keeps s0 s) : Keeps s0 (State.frameContent q f s) := by
  unfold State.frameContent
  repeat' (first
    | with_reducible assumption | with_reducible apply ite_keeps | with_reducible apply modLink_keeps
    | with_reducible apply State.raiseIf_keeps | with_reducible apply State.modEth_keeps
    | with_reducible apply State.announce_keeps | with_reducible apply State.lanHeard_keeps | split
    | dsimp only)

theorem execEthFrameReceived_keeps {q : Fin 2} {frame : EthFrame} (h : Keeps s0 s) : KeepsOut s0 (execEthFrameReceived q frame s) := by
  unfold execEthFrameReceived
  repeat' (first
    | with_reducible assumption | with_reducible apply next_keeps | with_reducible apply iteOut_keeps
    | with_reducible apply ite_keeps | with_reducible apply State.raiseIf_keeps
    | with_reducible apply State.modEth_keeps | with_reducible apply State.lanHeard_keeps
    | with_reducible apply State.frameContent_keeps | with_reducible apply State.prpRemember_keeps)

theorem execPrpSupervisionSend_keeps (h : Keeps s0 s) : KeepsOut s0 (execPrpSupervisionSend s) := by
  unfold execPrpSupervisionSend
  repeat' (first
    | with_reducible assumption | with_reducible apply next_keeps | with_reducible apply iteOut_keeps
    | with_reducible apply ite_keeps | with_reducible apply atLeast_keeps | with_reducible apply modLink_keeps)

theorem execPrpLanTimeout_keeps {q : Fin 2} (h : Keeps s0 s) : KeepsOut s0 (execPrpLanTimeout q s) := by
  unfold execPrpLanTimeout
  repeat' (first
    | with_reducible assumption | with_reducible apply next_keeps | with_reducible apply iteOut_keeps
    | with_reducible apply ite_keeps | with_reducible apply State.raise_keeps
    | with_reducible apply State.modEth_keeps | with_reducible apply atLeast_keeps)

theorem State.modTw_keeps {f : TwoWire → TwoWire} (h : Keeps s0 s) : Keeps s0 (State.modTw f s) := by
  unfold State.modTw
  repeat' (first
    | with_reducible assumption | with_reducible apply modLink_keeps)

theorem State.twStart_keeps {pointer : U16} (h : Keeps s0 s) : Keeps s0 (State.twStart pointer s) := by
  unfold State.twStart
  repeat' (first
    | with_reducible assumption | with_reducible apply State.modTw_keeps
    | with_reducible apply State.pickParam_keeps)

theorem execTw0ReleaseResponse_keeps (h : Keeps s0 s) : KeepsOut s0 (execTw0ReleaseResponse s) := by
  unfold execTw0ReleaseResponse
  repeat' (first
    | with_reducible assumption | with_reducible apply next_keeps | with_reducible apply iteOut_keeps
    | with_reducible apply ite_keeps | with_reducible apply State.modTw_keeps
    | with_reducible apply State.twStart_keeps)

theorem execTw0StatusRead_keeps (h : Keeps s0 s) : KeepsOut s0 (execTw0StatusRead s) := by
  unfold execTw0StatusRead
  repeat' (first
    | with_reducible assumption | with_reducible apply next_keeps | with_reducible apply iteOut_keeps
    | with_reducible apply ite_keeps | with_reducible apply State.modTw_keeps
    | with_reducible apply State.twStart_keeps)

theorem execTw0AttnCauseRead_keeps (h : Keeps s0 s) : KeepsOut s0 (execTw0AttnCauseRead s) := by
  unfold execTw0AttnCauseRead
  repeat' (first
    | with_reducible assumption | with_reducible apply next_keeps | with_reducible apply iteOut_keeps
    | with_reducible apply ite_keeps | with_reducible apply State.modTw_keeps
    | with_reducible apply State.twStart_keeps)

theorem execAttentionWrite_keeps {outcome : AttnOutcome} (h : Keeps s0 s) : KeepsOut s0 (execAttentionWrite outcome s) := by
  unfold execAttentionWrite
  repeat' (first
    | with_reducible assumption | with_reducible apply next_keeps | with_reducible apply iteOut_keeps
    | with_reducible apply ite_keeps | with_reducible apply atLeast_keeps
    | with_reducible apply State.pickParam_keeps | with_reducible apply State.raise_keeps
    | with_reducible apply State.modTw_keeps | split | dsimp only)

theorem execTw0IslandResetRelease_keeps {addr0 : BitVec 8} {addr1 : BitVec 8} (h : Keeps s0 s) : KeepsOut s0 (execTw0IslandResetRelease addr0 addr1 s) := by
  unfold execTw0IslandResetRelease
  repeat' (first
    | with_reducible assumption | with_reducible apply next_keeps | with_reducible apply iteOut_keeps
    | with_reducible apply ite_keeps | with_reducible apply atLeast_keeps
    | with_reducible apply State.modTw_keeps)

theorem State.twCycle_keeps {wait : Nanos} (h : Keeps s0 s) : Keeps s0 (State.twCycle wait s) := by
  unfold State.twCycle
  repeat' (first
    | with_reducible assumption | with_reducible refine foldl_keeps ?_ (fun t x ht => ?_)
    | with_reducible apply State.raise_keeps | with_reducible apply State.modTw_keeps
    | with_reducible apply State.send_keeps)

theorem execTw0IslandCycle_keeps (h : Keeps s0 s) : KeepsOut s0 (execTw0IslandCycle s) := by
  unfold execTw0IslandCycle
  repeat' (first
    | with_reducible assumption | with_reducible apply next_keeps | with_reducible apply State.modTw_keeps
    | with_reducible apply State.twCycle_keeps)

theorem execTwCycle_keeps {r : Req} (h : Keeps s0 s) : KeepsOut s0 (execTwCycle r s) := by
  unfold execTwCycle
  repeat' (first
    | with_reducible assumption | with_reducible apply ok_keeps | with_reducible apply no_keeps
    | with_reducible apply iteRes_keeps | with_reducible apply next_keeps | with_reducible apply iteOut_keeps
    | with_reducible apply ite_keeps | with_reducible refine runOp_keeps ?_ (fun t ht => ?_)
    | with_reducible apply State.twCycle_keeps)

theorem State.tw1End_keeps {r : Req} {a : Reply} (h : Keeps s0 s) : Keeps s0 (State.tw1End r a s) := by
  unfold State.tw1End
  repeat' (first
    | with_reducible assumption | with_reducible apply State.complete_keeps
    | with_reducible apply State.modTw_keeps)

theorem execTw1Xfer_keeps {r : Req} {outcome : Tw1Outcome} (h : Keeps s0 s) : KeepsOut s0 (execTw1Xfer r outcome s) := by
  unfold execTw1Xfer
  repeat' (first
    | with_reducible assumption | with_reducible apply ok_keeps | with_reducible apply wait_keeps
    | with_reducible apply no_keeps | with_reducible apply iteRes_keeps | with_reducible apply next_keeps
    | with_reducible apply iteOut_keeps | with_reducible apply ite_keeps
    | with_reducible refine runOp_keeps ?_ (fun t ht => ?_) | with_reducible apply State.modTw_keeps
    | with_reducible apply State.raise_keeps | split | dsimp only)

theorem execTw1StretchTimeout_keeps {lost : Bool} (h : Keeps s0 s) : KeepsOut s0 (execTw1StretchTimeout lost s) := by
  unfold execTw1StretchTimeout
  repeat' (first
    | with_reducible assumption | with_reducible apply next_keeps | with_reducible apply iteOut_keeps
    | with_reducible apply ite_keeps | with_reducible apply atLeast_keeps
    | with_reducible apply State.raise_keeps | with_reducible apply State.tw1End_keeps | split | dsimp only)

theorem execLinkStatus_keeps {r : Req} (h : Keeps s0 s) : KeepsOut s0 (execLinkStatus r s) := by
  unfold execLinkStatus
  repeat' (first
    | with_reducible assumption | with_reducible apply ok_keeps | with_reducible apply next_keeps
    | with_reducible refine runOp_keeps ?_ (fun t ht => ?_))

end Sys2Proof.Machine
end

