-- ==== Sys2Proof/Laws/KeepMailbox.lean ====
section
/-! SUPPORT. What the operations and meanings of `Machine/Mailbox.lean` keep (`Keeps`). -/

namespace Sys2Proof.Machine

variable {s0 s : State}

theorem State.frameError_keeps {v : Via} (h : Keeps s0 s) : Keeps s0 (State.frameError v s) := by
  unfold State.frameError
  repeat' (first
    | with_reducible assumption | with_reducible apply State.ethError_keeps
    | with_reducible apply State.raise_keeps | with_reducible apply State.modTw_keeps
    | with_reducible apply modSp_keeps | split | dsimp only)

theorem State.enterRecord_keeps {op : Nat} {r : Req} (h : Keeps s0 s) : Keeps s0 (State.enterRecord op r s) := by
  unfold State.enterRecord
  repeat' (first
    | with_reducible assumption | with_reducible apply ite_keeps | with_reducible apply State.record_keeps
    | with_reducible apply State.storeSecure_keeps | with_reducible apply modOwner_keeps)

theorem State.accept_keeps {v : Via} {b : List Byte} (h : Keeps s0 s) : Keeps s0 (State.accept v b s) := by
  unfold State.accept
  repeat' (first
    | with_reducible assumption | with_reducible apply ite_keeps | with_reducible apply State.frameError_keeps
    | with_reducible apply State.answer_keeps | with_reducible apply State.audit_keeps
    | with_reducible apply modOwner_keeps | with_reducible apply State.enterRecord_keeps | split | dsimp only)

theorem State.holdFrame_keeps {v : Via} {b : List Byte} (h : Keeps s0 s) : Keeps s0 (State.holdFrame v b s) := by
  unfold State.holdFrame
  repeat' (first
    | with_reducible assumption | with_reducible apply ite_keeps | with_reducible apply State.frameError_keeps
    | with_reducible apply State.modLow_keeps)

theorem State.receive_keeps {v : Via} {b : List Byte} (h : Keeps s0 s) : Keeps s0 (State.receive v b s) := by
  unfold State.receive
  repeat' (first
    | with_reducible assumption | with_reducible apply ite_keeps | with_reducible apply State.holdFrame_keeps
    | with_reducible apply State.wakeBy_keeps | with_reducible apply State.accept_keeps | split | dsimp only)

theorem State.dropReassembly_keeps {q : Fin 2} {addr : U32} {udp : U16} {id : U16} (h : Keeps s0 s) : Keeps s0 (State.dropReassembly q addr udp id s) := by
  unfold State.dropReassembly
  repeat' (first
    | with_reducible assumption | with_reducible apply modLink_keeps)

theorem State.makeReassembly_keeps {q : Fin 2} (h : Keeps s0 s) : Keeps s0 (State.makeReassembly q s) := by
  unfold State.makeReassembly
  repeat' (first
    | with_reducible assumption | with_reducible apply ite_keeps | with_reducible apply State.ethError_keeps
    | with_reducible apply State.dropReassembly_keeps | split | dsimp only)

theorem State.segment_keeps {q : Fin 2} {addr : U32} {udp : U16} {b : List Byte} (h : Keeps s0 s) : Keeps s0 (State.segment q addr udp b s) := by
  unfold State.segment
  repeat' (first
    | with_reducible assumption | with_reducible apply ite_keeps | with_reducible apply State.ethError_keeps
    | with_reducible apply State.dropReassembly_keeps | with_reducible apply State.receive_keeps
    | with_reducible apply modLink_keeps | with_reducible apply State.makeReassembly_keeps)

theorem execSmuDatagram_keeps {port : Fin 2} {addr : U32} {udp : U16} {frame : List Byte} (h : Keeps s0 s) : KeepsOut s0 (execSmuDatagram port addr udp frame s) := by
  unfold execSmuDatagram
  repeat' (first
    | with_reducible assumption | with_reducible apply next_keeps | with_reducible apply iteOut_keeps
    | with_reducible apply ite_keeps | with_reducible apply modLink_keeps
    | with_reducible apply State.receive_keeps | with_reducible apply State.segment_keeps
    | with_reducible apply State.ethError_keeps)

theorem execSmuSegmentReassemblyTimeout_keeps {port : Fin 2} {addr : U32} {udp : U16} {id : U16} (h : Keeps s0 s) : KeepsOut s0 (execSmuSegmentReassemblyTimeout port addr udp id s) := by
  unfold execSmuSegmentReassemblyTimeout
  repeat' (first
    | with_reducible assumption | with_reducible apply next_keeps | with_reducible apply State.ethError_keeps
    | with_reducible apply State.dropReassembly_keeps | with_reducible apply atLeast_keeps | split
    | dsimp only)

theorem execTw0SubmitRequest_keeps {buffer : List Byte} (h : Keeps s0 s) : KeepsOut s0 (execTw0SubmitRequest buffer s) := by
  unfold execTw0SubmitRequest
  repeat' (first
    | with_reducible assumption | with_reducible apply next_keeps | with_reducible apply iteOut_keeps
    | with_reducible apply ite_keeps | with_reducible apply State.modTw_keeps
    | with_reducible apply State.twStart_keeps | with_reducible apply State.frameError_keeps
    | with_reducible apply State.receive_keeps)

theorem State.uartFrame_keeps {b : List Byte} (h : Keeps s0 s) : Keeps s0 (State.uartFrame b s) := by
  unfold State.uartFrame
  repeat' (first
    | with_reducible assumption | with_reducible apply ite_keeps | with_reducible apply State.accept_keeps
    | with_reducible apply State.frameError_keeps | with_reducible apply modSp_keeps)

theorem State.framingErrors_keeps {fe : Nat} (h : Keeps s0 s) : Keeps s0 (State.framingErrors fe s) := by
  unfold State.framingErrors
  repeat' (first
    | with_reducible assumption | with_reducible apply ite_keeps | with_reducible apply State.raiseIf_keeps
    | with_reducible apply modSp_keeps)

theorem execServiceUartFrame_keeps {coded : List Byte} {fe : Nat} (h : Keeps s0 s) : KeepsOut s0 (execServiceUartFrame coded fe s) := by
  unfold execServiceUartFrame
  repeat' (first
    | with_reducible assumption | with_reducible apply next_keeps | with_reducible apply iteOut_keeps
    | with_reducible apply ite_keeps | with_reducible apply State.framingErrors_keeps
    | with_reducible apply State.pickParam_keeps | with_reducible apply State.frameError_keeps
    | with_reducible apply State.uartFrame_keeps | split | dsimp only)

theorem execUartInterByteTimeout_keeps {part : List Byte} (h : Keeps s0 s) : KeepsOut s0 (execUartInterByteTimeout part s) := by
  unfold execUartInterByteTimeout
  repeat' (first
    | with_reducible assumption | with_reducible apply next_keeps | with_reducible apply iteOut_keeps
    | with_reducible apply ite_keeps | with_reducible apply State.frameError_keeps)

theorem State.serveHeld_keeps (h : Keeps s0 s) : Keeps s0 (State.serveHeld s) := by
  unfold State.serveHeld
  repeat' (first
    | with_reducible assumption | with_reducible refine foldl_keeps ?_ (fun t x ht => ?_)
    | with_reducible apply modSp_keeps | with_reducible apply State.modLow_keeps
    | with_reducible apply State.accept_keeps)

end Sys2Proof.Machine
end

