-- ==== Sys2Proof/Laws/KeepOwners.lean ====
section
/-! SUPPORT. What the operations and meanings of `Machine/Owners.lean` keep (`Keeps`). -/

namespace Sys2Proof.Machine

variable {s0 s : State}

theorem State.drawn_keeps (h : Keeps s0 s) : Keeps s0 (State.drawn s) := by
  unfold State.drawn
  repeat' (first
    | with_reducible assumption | with_reducible apply freeCtr_keeps)

theorem State.wakeEvent_keeps {o : Fin 16} (h : Keeps s0 s) : Keeps s0 (State.wakeEvent o s) := by
  unfold State.wakeEvent
  repeat' (first
    | with_reducible assumption | with_reducible apply State.store_keeps
    | with_reducible apply State.emit_keeps)

theorem execOwnerAttach_keeps {r : Req} (h : Keeps s0 s) : KeepsOut s0 (execOwnerAttach r s) := by
  unfold execOwnerAttach
  repeat' (first
    | with_reducible assumption | with_reducible apply ok_keeps | with_reducible apply fail_keeps
    | with_reducible apply iteRes_keeps | with_reducible apply next_keeps | with_reducible apply iteOut_keeps
    | with_reducible apply ite_keeps | with_reducible refine runOp_keeps ?_ (fun t ht => ?_)
    | with_reducible apply modOwner_keeps | with_reducible apply State.drawn_keeps
    | with_reducible apply State.wakeEvent_keeps)

theorem State.leaseLeaves_keeps {o : Fin 16} {cause : LeaseLoss} (h : Keeps s0 s) : Keeps s0 (State.leaseLeaves o cause s) := by
  unfold State.leaseLeaves
  repeat' (first
    | with_reducible assumption | with_reducible apply ite_keeps | with_reducible apply State.leaseLost_keeps)

theorem State.claimLeaves_keeps {o : Fin 16} (h : Keeps s0 s) : Keeps s0 (State.claimLeaves o s) := by
  unfold State.claimLeaves
  repeat' (first
    | with_reducible assumption | with_reducible apply ite_keeps | with_reducible apply modSp_keeps)

theorem execOwnerDetach_keeps {r : Req} (h : Keeps s0 s) : KeepsOut s0 (execOwnerDetach r s) := by
  unfold execOwnerDetach
  repeat' (first
    | with_reducible assumption | with_reducible apply ok_keeps | with_reducible apply next_keeps
    | with_reducible apply State.settle_keeps | with_reducible refine runOp_keeps ?_ (fun t ht => ?_)
    | with_reducible apply modOwner_keeps | with_reducible apply State.claimLeaves_keeps
    | with_reducible apply State.leaseLeaves_keeps)

theorem State.dropUpload_keeps {o : Fin 16} (h : Keeps s0 s) : Keeps s0 (State.dropUpload o s) := by
  unfold State.dropUpload
  repeat' (first
    | with_reducible assumption | with_reducible apply ite_keeps | with_reducible apply State.modFw_keeps
    | split | dsimp only)

theorem State.abortOwner_keeps {sel : Req → Bool} (h : Keeps s0 s) : Keeps s0 (State.abortOwner sel s) := by
  unfold State.abortOwner
  repeat' (first
    | with_reducible assumption | with_reducible refine foldl_keeps ?_ (fun t x ht => ?_)
    | with_reducible apply State.auditReq_keeps | with_reducible apply State.abandon_keeps)

theorem State.ownerReset_keeps {o : Fin 16} {r : Req} (h : Keeps s0 s) : Keeps s0 (State.ownerReset o r s) := by
  unfold State.ownerReset
  repeat' (first
    | with_reducible assumption | with_reducible apply modOwner_keeps
    | with_reducible apply State.dmaOwnerReset_keeps | with_reducible apply State.claimLeaves_keeps
    | with_reducible apply State.leaseLeaves_keeps | with_reducible apply State.dropUpload_keeps
    | with_reducible apply State.abortOwner_keeps | with_reducible apply State.ringOwnerReset_keeps
    | with_reducible apply State.drawn_keeps | with_reducible apply State.storeSecure_keeps)

theorem execOwnerReset_keeps {r : Req} (h : Keeps s0 s) : KeepsOut s0 (execOwnerReset r s) := by
  unfold execOwnerReset
  repeat' (first
    | with_reducible assumption | with_reducible apply ok_keeps | with_reducible apply no_keeps
    | with_reducible apply iteRes_keeps | with_reducible refine diteRes_keeps (fun _ => ?_) (fun _ => ?_)
    | with_reducible apply next_keeps | with_reducible apply iteOut_keeps | with_reducible apply ite_keeps
    | with_reducible refine dite_keeps (fun _ => ?_) (fun _ => ?_) | with_reducible apply State.settle_keeps
    | with_reducible refine runOp_keeps ?_ (fun t ht => ?_) | with_reducible apply State.ownerReset_keeps)

theorem execOwnerProvision_keeps {r : Req} (h : Keeps s0 s) : KeepsOut s0 (execOwnerProvision r s) := by
  unfold execOwnerProvision
  with_reducible refine next_keeps (State.settle_keeps (runOp_keeps h (fun t ht => ?_)))
  with_reducible refine diteRes_keeps (fun _ => ?_) (fun _ => no_keeps)
  with_reducible refine iteRes_keeps no_keeps (iteRes_keeps no_keeps (iteRes_keeps no_keeps (iteRes_keeps no_keeps ?_)))
  with_reducible refine iteRes_keeps (ok_keeps ?_) (ok_keeps ?_)
  · with_reducible exact State.storeSecure_keeps (modOwner_keeps (State.drawn_keeps (modOwner_keeps ht)))
  · with_reducible exact State.ownerReset_keeps (modOwner_keeps ht)

theorem State.leaseTo_keeps {o : Fin 16} (h : Keeps s0 s) : Keeps s0 (State.leaseTo o s) := by
  unfold State.leaseTo
  repeat' (first
    | with_reducible assumption | with_reducible refine modHost_keeps ?_ (fun _ hx => hx)
    | with_reducible apply modHost_keeps | exact fun _ hx => hx)

theorem State.endSetpoints_keeps {o : Fin 16} (h : Keeps s0 s) : Keeps s0 (State.endSetpoints o s) := by
  unfold State.endSetpoints
  repeat' (first
    | with_reducible assumption | with_reducible apply ite_keeps
    | with_reducible refine foldl_keeps ?_ (fun t x ht => ?_)
    | with_reducible refine eachGroup_keeps ?_ (fun x t ht => ?_) | with_reducible apply modGroup_keeps
    | with_reducible apply State.endScheduled_keeps | with_reducible apply State.finish_keeps)

theorem execLeaseAcquire_keeps {r : Req} (h : Keeps s0 s) : KeepsOut s0 (execLeaseAcquire r s) := by
  unfold execLeaseAcquire
  repeat' (first
    | with_reducible assumption | with_reducible apply ok_keeps | with_reducible apply no_keeps
    | with_reducible apply iteRes_keeps | with_reducible apply next_keeps | with_reducible apply iteOut_keeps
    | with_reducible apply ite_keeps | with_reducible apply State.settle_keeps
    | with_reducible refine runOp_keeps ?_ (fun t ht => ?_) | with_reducible apply State.leaseTo_keeps
    | with_reducible apply State.stippleAbortAll_keeps | with_reducible apply State.endSetpoints_keeps | split
    | dsimp only)

theorem execLeaseRenew_keeps {r : Req} (h : Keeps s0 s) : KeepsOut s0 (execLeaseRenew r s) := by
  unfold execLeaseRenew
  repeat' (first
    | with_reducible assumption | with_reducible apply ok_keeps | with_reducible apply no_keeps
    | with_reducible apply iteRes_keeps | with_reducible apply next_keeps | with_reducible apply iteOut_keeps
    | with_reducible apply ite_keeps | with_reducible refine runOp_keeps ?_ (fun t ht => ?_)
    | with_reducible refine modHost_keeps ?_ (fun _ hx => hx) | with_reducible apply modHost_keeps
    | exact fun _ hx => hx | split | dsimp only)

theorem execLeaseRelease_keeps {r : Req} (h : Keeps s0 s) : KeepsOut s0 (execLeaseRelease r s) := by
  unfold execLeaseRelease
  repeat' (first
    | with_reducible assumption | with_reducible apply ok_keeps | with_reducible apply next_keeps
    | with_reducible apply State.settle_keeps | with_reducible refine runOp_keeps ?_ (fun t ht => ?_)
    | with_reducible apply State.leaseLeaves_keeps)

theorem execLeaseLapse_keeps (h : Keeps s0 s) : KeepsOut s0 (execLeaseLapse s) := by
  unfold execLeaseLapse
  repeat' (first
    | with_reducible assumption | with_reducible apply next_keeps | with_reducible apply State.settle_keeps
    | with_reducible apply State.leaseLost_keeps | with_reducible apply atLeast_keeps | split | dsimp only)

end Sys2Proof.Machine
end

