-- ==== Sys2Proof/Laws/KeepPair.lean ====
section
/-! SUPPORT. What the operations and meanings of `Machine/Pair.lean` keep (`Keeps`). -/

namespace Sys2Proof.Machine

variable {s0 s : State}

theorem State.modPair_keeps {g : Fin 8} {f : PairGroup → PairGroup} (h : Keeps s0 s) : Keeps s0 (State.modPair g f s) := by
  unfold State.modPair
  repeat' (first
    | with_reducible assumption | with_reducible apply modGroup_keeps)

theorem State.modPairLink_keeps {f : PairLink → PairLink} (h : Keeps s0 s) : Keeps s0 (State.modPairLink f s) := by
  unfold State.modPairLink
  repeat' (first
    | with_reducible assumption | with_reducible refine modConv_keeps ?_ (fun _ hx => hx)
    | with_reducible apply modConv_keeps | exact fun _ hx => hx)

theorem State.handshake_keeps (h : Keeps s0 s) : Keeps s0 (State.handshake s) := by
  unfold State.handshake
  repeat' (first
    | with_reducible assumption | with_reducible apply State.modPairLink_keeps
    | with_reducible apply freeCtr_keeps)

theorem execPairFrameSend_keeps (h : Keeps s0 s) : KeepsOut s0 (execPairFrameSend s) := by
  unfold execPairFrameSend
  repeat' (first
    | with_reducible assumption | with_reducible apply next_keeps | with_reducible apply iteOut_keeps
    | with_reducible apply ite_keeps | with_reducible apply atLeast_keeps
    | with_reducible apply State.modPairLink_keeps
    | with_reducible refine eachPhase_keeps ?_ (fun x t ht => ?_)
    | with_reducible refine modPhase_keeps ?_ (fun _ hx => hx) | with_reducible apply modPhase_keeps
    | exact fun _ hx => hx | exact fun _ hx => Phase.stop_exclusive hx
    | exact fun _ hx => Phase.low_exclusive hx | exact fun _ hx => exclusive_ite hx hx)

theorem State.serveRequest_keeps {b : List Byte} (h : Keeps s0 s) : Keeps s0 (State.serveRequest b s) := by
  unfold State.serveRequest
  repeat' (first
    | exact fun _ hx => MemState.storeBytes_wf _ _ hx | with_reducible assumption
    | with_reducible apply ite_keeps | with_reducible apply State.modPairLink_keeps
    | with_reducible refine modSys_keeps ?_ (fun _ hx => hx) | with_reducible apply modSys_keeps
    | exact fun _ hx => hx)

theorem State.takeResponse_keeps {b : List Byte} (h : Keeps s0 s) : Keeps s0 (State.takeResponse b s) := by
  unfold State.takeResponse
  repeat' (first
    | with_reducible assumption | with_reducible apply ite_keeps
    | with_reducible apply State.modPairLink_keeps)

theorem State.mirror_keeps {g : Fin 8} {c : List Byte} (h : Keeps s0 s) : Keeps s0 (State.mirror g c s) := by
  unfold State.mirror
  repeat' (first
    | with_reducible assumption | with_reducible apply ite_keeps | with_reducible apply State.setParam_keeps
    | with_reducible apply State.startMode_keeps | with_reducible apply State.enterMode_keeps)

theorem State.takeControl_keeps {b : List Byte} (h : Keeps s0 s) : Keeps s0 (State.takeControl b s) := by
  unfold State.takeControl
  repeat' (first
    | with_reducible assumption | with_reducible apply ite_keeps | with_reducible apply State.modPair_keeps
    | with_reducible apply State.bumpEpoch_keeps | with_reducible apply State.mirror_keeps | split
    | dsimp only)

theorem State.dropFrame_keeps (h : Keeps s0 s) : Keeps s0 (State.dropFrame s) := by
  unfold State.dropFrame
  repeat' (first
    | with_reducible assumption | with_reducible apply State.raise_keeps
    | with_reducible apply State.modPairLink_keeps)

theorem State.linkComesUp_keeps (h : Keeps s0 s) : Keeps s0 (State.linkComesUp s) := by
  unfold State.linkComesUp
  repeat' (first
    | with_reducible assumption | with_reducible apply ite_keeps | with_reducible apply State.raise_keeps
    | with_reducible apply State.modPairLink_keeps)

theorem State.takePeer_keeps {e : PeerEnable} (h : Keeps s0 s) : Keeps s0 (State.takePeer e s) := by
  unfold State.takePeer
  repeat' (first
    | with_reducible assumption | with_reducible apply State.modPair_keeps
    | with_reducible apply State.finish_keeps | split | dsimp only)

theorem State.askHandover_keeps {asked : Bool} (h : Keeps s0 s) : Keeps s0 (State.askHandover asked s) := by
  unfold State.askHandover
  repeat' (first
    | with_reducible assumption | with_reducible apply ite_keeps | with_reducible apply State.modPair_keeps
    | split | dsimp only)

theorem execPairFrameReceive_keeps {bytes : List Byte} {good : Bool} {peer : Option PeerEnable} {handover : Bool} (h : Keeps s0 s) : KeepsOut s0 (execPairFrameReceive bytes good peer handover s) := by
  unfold execPairFrameReceive
  repeat' (first
    | with_reducible assumption | with_reducible apply next_keeps | with_reducible apply iteOut_keeps
    | with_reducible apply ite_keeps | with_reducible apply State.dropFrame_keeps
    | with_reducible apply State.modPairLink_keeps | with_reducible apply State.linkComesUp_keeps
    | with_reducible apply State.takeControl_keeps | with_reducible apply State.takeResponse_keeps
    | with_reducible apply State.serveRequest_keeps | with_reducible apply State.settle_keeps
    | with_reducible apply State.askHandover_keeps | with_reducible apply State.takePeer_keeps | split
    | dsimp only)

theorem State.failRequests_keeps {sel : PairRequest → Bool} (h : Keeps s0 s) : Keeps s0 (State.failRequests sel s) := by
  unfold State.failRequests
  repeat' (first
    | with_reducible assumption | with_reducible refine foldl_keeps ?_ (fun t x ht => ?_)
    | with_reducible apply State.modPairLink_keeps | with_reducible apply State.raise_keeps)

theorem execPairTransactionTimeout_keeps {tag : Byte} (h : Keeps s0 s) : KeepsOut s0 (execPairTransactionTimeout tag s) := by
  unfold execPairTransactionTimeout
  repeat' (first
    | with_reducible assumption | with_reducible apply next_keeps
    | with_reducible apply State.failRequests_keeps)

theorem State.unpair_keeps {g : Fin 8} (h : Keeps s0 s) : Keeps s0 (State.unpair g s) := by
  unfold State.unpair
  repeat' (first
    | with_reducible assumption | with_reducible apply State.modPair_keeps)

theorem State.loseTiming_keeps {g : Fin 8} (h : Keeps s0 s) : Keeps s0 (State.loseTiming g s) := by
  unfold State.loseTiming
  repeat' (first
    | with_reducible assumption | with_reducible apply ite_keeps | with_reducible apply modGroup_keeps)

theorem State.loseGroup_keeps {g : Fin 8} (h : Keeps s0 s) : Keeps s0 (State.loseGroup g s) := by
  unfold State.loseGroup
  repeat' (first
    | with_reducible assumption | with_reducible apply ite_keeps | with_reducible apply State.modPair_keeps
    | with_reducible apply State.unpair_keeps | with_reducible apply State.loseTiming_keeps
    | with_reducible apply State.raise_keeps | with_reducible apply State.bumpEpoch_keeps
    | with_reducible apply State.finish_keeps | with_reducible apply State.applyEngines_keeps | split
    | dsimp only)

theorem execPairLost_keeps (h : Keeps s0 s) : KeepsOut s0 (execPairLost s) := by
  unfold execPairLost
  repeat' (first
    | with_reducible assumption | with_reducible apply next_keeps | with_reducible apply iteOut_keeps
    | with_reducible apply ite_keeps | with_reducible apply atLeast_keeps
    | with_reducible refine eachGroup_keeps ?_ (fun x t ht => ?_) | with_reducible apply State.loseGroup_keeps
    | with_reducible apply State.failRequests_keeps | with_reducible apply State.raiseIf_keeps
    | with_reducible apply State.modPairLink_keeps | with_reducible apply State.settle_keeps)

theorem execPairStatus_keeps {r : Req} (h : Keeps s0 s) : KeepsOut s0 (execPairStatus r s) := by
  unfold execPairStatus
  repeat' (first
    | with_reducible assumption | with_reducible apply ok_keeps | with_reducible apply no_keeps
    | with_reducible apply next_keeps | with_reducible refine runOp_keeps ?_ (fun t ht => ?_) | split
    | dsimp only)

theorem execPairEnable_keeps {r : Req} (h : Keeps s0 s) : KeepsOut s0 (execPairEnable r s) := by
  unfold execPairEnable
  repeat' (first
    | with_reducible assumption | with_reducible apply wait_keeps | with_reducible apply no_keeps
    | with_reducible apply iteRes_keeps | with_reducible apply next_keeps | with_reducible apply iteOut_keeps
    | with_reducible apply ite_keeps | with_reducible refine runOp_keeps ?_ (fun t ht => ?_)
    | with_reducible apply needLease_keeps | with_reducible apply State.handshake_keeps
    | with_reducible apply State.modPair_keeps | split | dsimp only)

theorem execPairTakeEffect_keeps {g : Fin 8} (h : Keeps s0 s) : KeepsOut s0 (execPairTakeEffect g s) := by
  unfold execPairTakeEffect
  repeat' (first
    | with_reducible assumption | with_reducible apply next_keeps | with_reducible apply iteOut_keeps
    | with_reducible apply ite_keeps | with_reducible apply State.modPair_keeps
    | with_reducible apply State.atDevice_keeps | with_reducible apply State.raise_keeps
    | with_reducible apply State.bumpEpoch_keeps | with_reducible apply State.modPairLink_keeps
    | with_reducible apply State.stippleAbort_keeps | with_reducible apply State.settle_keeps
    | with_reducible apply State.complete_keeps | split | dsimp only)

theorem execPairEnableTimeout_keeps {g : Fin 8} (h : Keeps s0 s) : KeepsOut s0 (execPairEnableTimeout g s) := by
  unfold execPairEnableTimeout
  repeat' (first
    | with_reducible assumption | with_reducible apply next_keeps | with_reducible apply State.finish_keeps
    | with_reducible apply State.modPair_keeps | with_reducible apply atLeast_keeps | split | dsimp only)

theorem execPairDisable_keeps {r : Req} (h : Keeps s0 s) : KeepsOut s0 (execPairDisable r s) := by
  unfold execPairDisable
  repeat' (first
    | with_reducible assumption | with_reducible apply wait_keeps | with_reducible apply no_keeps
    | with_reducible apply iteRes_keeps | with_reducible apply next_keeps | with_reducible apply iteOut_keeps
    | with_reducible apply ite_keeps | with_reducible refine runOp_keeps ?_ (fun t ht => ?_)
    | with_reducible apply needLease_keeps | with_reducible apply State.handshake_keeps
    | with_reducible apply State.modPair_keeps | split | dsimp only)

theorem execPairDisableEffect_keeps {g : Fin 8} (h : Keeps s0 s) : KeepsOut s0 (execPairDisableEffect g s) := by
  unfold execPairDisableEffect
  repeat' (first
    | with_reducible assumption | with_reducible apply next_keeps | with_reducible apply iteOut_keeps
    | with_reducible apply ite_keeps | with_reducible apply State.applyEngines_keeps
    | with_reducible apply State.modPair_keeps | with_reducible apply State.unpair_keeps
    | with_reducible apply State.loseTiming_keeps | with_reducible apply State.atDevice_keeps
    | with_reducible apply State.finish_keeps | with_reducible apply State.settle_keeps
    | with_reducible apply State.complete_keeps | split | dsimp only)

theorem execPairHandover_keeps {r : Req} (h : Keeps s0 s) : KeepsOut s0 (execPairHandover r s) := by
  unfold execPairHandover
  repeat' (first
    | with_reducible assumption | with_reducible apply wait_keeps | with_reducible apply no_keeps
    | with_reducible apply iteRes_keeps | with_reducible apply next_keeps | with_reducible apply iteOut_keeps
    | with_reducible apply ite_keeps | with_reducible refine runOp_keeps ?_ (fun t ht => ?_)
    | with_reducible apply needLease_keeps | with_reducible apply State.handshake_keeps
    | with_reducible apply State.modPair_keeps | split | dsimp only)

theorem execPairHandoverEffect_keeps {g : Fin 8} (h : Keeps s0 s) : KeepsOut s0 (execPairHandoverEffect g s) := by
  unfold execPairHandoverEffect
  repeat' (first
    | with_reducible assumption | with_reducible apply next_keeps | with_reducible apply iteOut_keeps
    | with_reducible apply ite_keeps | with_reducible apply State.atDevice_keeps
    | with_reducible apply State.raise_keeps | with_reducible apply State.modPair_keeps
    | with_reducible apply State.settle_keeps | with_reducible apply State.complete_keeps
    | with_reducible apply modGroup_keeps | split | dsimp only)

end Sys2Proof.Machine
end

