-- ==== Sys2Proof/Laws/KeepPort.lean ====
section
/-! SUPPORT. What the operations and meanings of `Machine/Port.lean` keep (`Keeps`). -/

namespace Sys2Proof.Machine

variable {s0 s : State}

theorem execCcAttach_keeps {source : Bool} {orient : Bool} {vbus : U16} (h : Keeps s0 s) : KeepsOut s0 (execCcAttach source orient vbus s) := by
  unfold execCcAttach
  repeat' (first
    | with_reducible assumption | with_reducible apply next_keeps | with_reducible apply iteOut_keeps
    | with_reducible apply ite_keeps | with_reducible apply modSp_keeps
    | with_reducible apply State.wakeBy_keeps | with_reducible apply State.raiseIf_keeps
    | with_reducible apply State.raise_keeps | with_reducible apply State.pdBegin_keeps
    | with_reducible apply State.pdSend_keeps)

theorem execCcDetach_keeps {vbus : U16} (h : Keeps s0 s) : KeepsOut s0 (execCcDetach vbus s) := by
  unfold execCcDetach
  repeat' (first
    | with_reducible assumption | with_reducible apply next_keeps | with_reducible apply iteOut_keeps
    | with_reducible apply ite_keeps | with_reducible apply modSp_keeps
    | with_reducible apply State.portDetach_keeps)

theorem execDrpToggle_keeps (h : Keeps s0 s) : KeepsOut s0 (execDrpToggle s) := by
  unfold execDrpToggle
  repeat' (first
    | with_reducible assumption | with_reducible apply next_keeps | with_reducible apply iteOut_keeps
    | with_reducible apply ite_keeps | with_reducible apply modSp_keeps | with_reducible apply atLeast_keeps)

theorem execPdSourceCapabilities_keeps {objects : List U32} (h : Keeps s0 s) : KeepsOut s0 (execPdSourceCapabilities objects s) := by
  unfold execPdSourceCapabilities
  repeat' (first
    | with_reducible assumption | with_reducible apply next_keeps | with_reducible apply iteOut_keeps
    | with_reducible apply ite_keeps | with_reducible apply State.pdBegin_keeps
    | with_reducible apply State.pdSend_keeps | with_reducible apply modSp_keeps | split | dsimp only)

theorem State.pdAccepted_keeps (h : Keeps s0 s) : Keeps s0 (State.pdAccepted s) := by
  unfold State.pdAccepted
  repeat' (first
    | with_reducible assumption | with_reducible apply ite_keeps | with_reducible apply modSp_keeps)

theorem execPdPsRdy_keeps {vbus : U16} (h : Keeps s0 s) : KeepsOut s0 (execPdPsRdy vbus s) := by
  unfold execPdPsRdy
  repeat' (first
    | with_reducible assumption | with_reducible apply next_keeps | with_reducible apply iteOut_keeps
    | with_reducible apply ite_keeps | with_reducible apply modSp_keeps
    | with_reducible apply State.pdNextSend_keeps | with_reducible apply State.raiseIf_keeps)

theorem State.pdDiscard_keeps (h : Keeps s0 s) : Keeps s0 (State.pdDiscard s) := by
  unfold State.pdDiscard
  repeat' (first
    | with_reducible assumption | with_reducible apply ite_keeps | with_reducible apply State.finish_keeps
    | with_reducible apply modSp_keeps | split | dsimp only)

theorem State.pdGoodCrc_keeps (h : Keeps s0 s) : Keeps s0 (State.pdGoodCrc s) := by
  unfold State.pdGoodCrc
  repeat' (first
    | with_reducible assumption | with_reducible apply ite_keeps | with_reducible apply modSp_keeps
    | with_reducible apply State.pdNextSend_keeps | with_reducible apply State.complete_keeps | split
    | dsimp only)

theorem State.pdPrSwap_keeps (h : Keeps s0 s) : Keeps s0 (State.pdPrSwap s) := by
  unfold State.pdPrSwap
  repeat' (first
    | with_reducible assumption | with_reducible apply ite_keeps | with_reducible apply State.pdSend_keeps
    | with_reducible apply State.pdVoid_keeps | with_reducible apply State.raise_keeps
    | with_reducible apply modSp_keeps)

theorem State.pdRequested_keeps {w : Nat} (h : Keeps s0 s) : Keeps s0 (State.pdRequested w s) := by
  unfold State.pdRequested
  repeat' (first
    | with_reducible assumption | with_reducible apply ite_keeps | with_reducible apply State.pdSend_keeps
    | with_reducible apply State.raiseIf_keeps | with_reducible apply modSp_keeps)

theorem State.pdVdm_keeps {w : Nat} (h : Keeps s0 s) : Keeps s0 (State.pdVdm w s) := by
  unfold State.pdVdm
  repeat' (first
    | with_reducible assumption | with_reducible apply ite_keeps | with_reducible apply State.pdSend_keeps
    | split | dsimp only)

theorem State.pdReact_keeps {header : Nat} {objects : List Byte} (h : Keeps s0 s) : Keeps s0 (State.pdReact header objects s) := by
  unfold State.pdReact
  repeat' (first
    | with_reducible assumption | with_reducible apply ite_keeps | with_reducible apply State.pdSend_keeps
    | with_reducible apply State.pdAccepted_keeps | with_reducible apply State.pdNextSend_keeps
    | with_reducible apply modSp_keeps | with_reducible apply State.pdPrSwap_keeps
    | with_reducible apply State.pdRequested_keeps | with_reducible apply State.pdVdm_keeps | split
    | dsimp only)

theorem execPdMessageReceived_keeps {bytes : List Byte} {crcOk : Bool} (h : Keeps s0 s) : KeepsOut s0 (execPdMessageReceived bytes crcOk s) := by
  unfold execPdMessageReceived
  repeat' (first
    | with_reducible assumption | with_reducible apply next_keeps | with_reducible apply iteOut_keeps
    | with_reducible apply ite_keeps | with_reducible apply modSp_keeps
    | with_reducible apply State.pdGoodCrc_keeps | with_reducible apply State.pdRx_keeps
    | with_reducible apply State.pdBegin_keeps | with_reducible apply State.pdDiscard_keeps
    | with_reducible apply State.pdReact_keeps)

theorem execPdHardResetReceived_keeps (h : Keeps s0 s) : KeepsOut s0 (execPdHardResetReceived s) := by
  unfold execPdHardResetReceived
  repeat' (first
    | with_reducible assumption | with_reducible apply next_keeps | with_reducible apply iteOut_keeps
    | with_reducible apply ite_keeps | with_reducible apply State.pdHardReset_keeps
    | with_reducible apply State.pdDiscard_keeps | with_reducible apply State.pdRx_keeps)

theorem execPdRetriesExhausted_keeps (h : Keeps s0 s) : KeepsOut s0 (execPdRetriesExhausted s) := by
  unfold execPdRetriesExhausted
  repeat' (first
    | with_reducible assumption | with_reducible apply next_keeps | with_reducible apply iteOut_keeps
    | with_reducible apply ite_keeps | with_reducible apply modSp_keeps
    | with_reducible apply State.finish_keeps | with_reducible apply State.pdNextSend_keeps
    | with_reducible apply State.pdSend_keeps | split | dsimp only)

theorem execVbusMonitorBreach_keeps {vbus : U16} {ns : Nat} (h : Keeps s0 s) : KeepsOut s0 (execVbusMonitorBreach vbus ns s) := by
  unfold execVbusMonitorBreach
  repeat' (first
    | with_reducible assumption | with_reducible apply next_keeps | with_reducible apply iteOut_keeps
    | with_reducible apply ite_keeps | with_reducible apply modSp_keeps | with_reducible apply atLeast_keeps
    | with_reducible apply State.raise_keeps | with_reducible apply State.pdHardReset_keeps
    | with_reducible apply State.pdSend_keeps)

theorem execPdEnterMode_keeps {position : Nat} (h : Keeps s0 s) : KeepsOut s0 (execPdEnterMode position s) := by
  unfold execPdEnterMode
  repeat' (first
    | with_reducible assumption | with_reducible apply next_keeps | with_reducible apply iteOut_keeps
    | with_reducible apply ite_keeps | with_reducible apply State.pdBegin_keeps
    | with_reducible apply State.pdSend_keeps | with_reducible apply State.raise_keeps
    | with_reducible apply modSp_keeps)

theorem execPdExitMode_keeps (h : Keeps s0 s) : KeepsOut s0 (execPdExitMode s) := by
  unfold execPdExitMode
  repeat' (first
    | with_reducible assumption | with_reducible apply next_keeps | with_reducible apply iteOut_keeps
    | with_reducible apply ite_keeps | with_reducible apply State.raise_keeps
    | with_reducible apply modSp_keeps | with_reducible apply State.pdSend_keeps)

theorem execMoistureCheck_keeps {ohms : Nat} (h : Keeps s0 s) : KeepsOut s0 (execMoistureCheck ohms s) := by
  unfold execMoistureCheck
  repeat' (first
    | with_reducible assumption | with_reducible apply next_keeps | with_reducible apply iteOut_keeps
    | with_reducible apply ite_keeps | with_reducible apply State.portEnable_keeps
    | with_reducible apply State.pickService_keeps | with_reducible apply atLeast_keeps
    | with_reducible apply modSp_keeps | with_reducible apply State.raise_keeps)

theorem execSbuCorrosion_keeps {volts : Reading} (h : Keeps s0 s) : KeepsOut s0 (execSbuCorrosion volts s) := by
  unfold execSbuCorrosion
  repeat' (first
    | with_reducible assumption | with_reducible apply next_keeps | with_reducible apply iteOut_keeps
    | with_reducible apply ite_keeps | with_reducible apply State.raise_keeps
    | with_reducible apply modSp_keeps)

theorem execSpStatusRead_keeps {r : Req} (h : Keeps s0 s) : KeepsOut s0 (execSpStatusRead r s) := by
  unfold execSpStatusRead
  repeat' (first
    | with_reducible assumption | with_reducible apply ok_keeps | with_reducible apply next_keeps
    | with_reducible refine runOp_keeps ?_ (fun t ht => ?_))

theorem State.needPort_keeps {b : Res} (h : KeepsRes s0 b) : KeepsRes s0 (s.needPort b) := by
  unfold State.needPort
  repeat' (first | with_reducible assumption | with_reducible apply no_keeps | with_reducible apply iteRes_keeps)

theorem State.needClaim_keeps {r : Req} {b : Res} (h : KeepsRes s0 b) : KeepsRes s0 (s.needClaim r b) := by
  unfold State.needClaim
  repeat' (first
    | with_reducible assumption | with_reducible apply no_keeps | with_reducible apply iteRes_keeps
    | with_reducible apply State.needPort_keeps)

theorem execSpPolicyClaim_keeps {r : Req} (h : Keeps s0 s) : KeepsOut s0 (execSpPolicyClaim r s) := by
  unfold execSpPolicyClaim
  repeat' (first
    | with_reducible assumption | with_reducible apply ok_keeps | with_reducible apply no_keeps
    | with_reducible apply iteRes_keeps | with_reducible apply next_keeps | with_reducible apply iteOut_keeps
    | with_reducible apply ite_keeps | with_reducible refine runOp_keeps ?_ (fun t ht => ?_)
    | with_reducible apply State.needPort_keeps | with_reducible apply modSp_keeps)

theorem execSpPolicyRelease_keeps {r : Req} (h : Keeps s0 s) : KeepsOut s0 (execSpPolicyRelease r s) := by
  unfold execSpPolicyRelease
  repeat' (first
    | with_reducible assumption | with_reducible apply ok_keeps | with_reducible apply next_keeps
    | with_reducible refine runOp_keeps ?_ (fun t ht => ?_) | with_reducible apply State.needPort_keeps
    | with_reducible apply State.needClaim_keeps | with_reducible apply modSp_keeps)

theorem execSpPdPolicy_keeps {r : Req} (h : Keeps s0 s) : KeepsOut s0 (execSpPdPolicy r s) := by
  unfold execSpPdPolicy
  repeat' (first
    | with_reducible assumption | with_reducible apply ok_keeps | with_reducible apply no_keeps
    | with_reducible apply iteRes_keeps | with_reducible apply next_keeps | with_reducible apply iteOut_keeps
    | with_reducible apply ite_keeps | with_reducible refine runOp_keeps ?_ (fun t ht => ?_)
    | with_reducible apply State.needPort_keeps | with_reducible apply State.needClaim_keeps
    | with_reducible apply modSp_keeps)

theorem execSpPdSend_keeps {r : Req} (h : Keeps s0 s) : KeepsOut s0 (execSpPdSend r s) := by
  unfold execSpPdSend
  repeat' (first
    | with_reducible assumption | with_reducible apply ok_keeps | with_reducible apply wait_keeps
    | with_reducible apply no_keeps | with_reducible apply iteRes_keeps | with_reducible apply next_keeps
    | with_reducible apply iteOut_keeps | with_reducible apply ite_keeps
    | with_reducible refine runOp_keeps ?_ (fun t ht => ?_) | with_reducible apply State.needPort_keeps
    | with_reducible apply State.needClaim_keeps | with_reducible apply State.pdHardReset_keeps
    | with_reducible apply State.pdSend_keeps | with_reducible apply State.pdNextSend_keeps
    | with_reducible apply modSp_keeps)

end Sys2Proof.Machine
end

