-- ==== Sys2Proof/Laws/KeepStipple.lean ====
section
/-! SUPPORT. What the operations and meanings of `Machine/Stipple.lean` keep (`Keeps`). -/

namespace Sys2Proof.Machine

variable {s0 s : State}

theorem State.toCcm_keeps {p : Fin 4} (h : Keeps s0 s) : Keeps s0 (State.toCcm p s) := by
  unfold State.toCcm
  repeat' (first
    | with_reducible assumption | with_reducible apply ite_keeps
    | with_reducible refine foldl_keeps ?_ (fun t x ht => ?_) | with_reducible apply State.applyShed_keeps
    | with_reducible apply modGroup_keeps)

theorem execStippleSweepStart_keeps {p : Fin 4} (h : Keeps s0 s) : KeepsOut s0 (execStippleSweepStart p s) := by
  unfold execStippleSweepStart
  repeat' (first
    | with_reducible assumption | with_reducible apply next_keeps | with_reducible apply iteOut_keeps
    | with_reducible apply ite_keeps | with_reducible apply State.atDevice_keeps
    | with_reducible apply State.modSweep_keeps | with_reducible apply State.fullRate_keeps
    | with_reducible apply State.toCcm_keeps)

theorem State.nextPoint_keeps {p : Fin 4} (h : Keeps s0 s) : Keeps s0 (State.nextPoint p s) := by
  unfold State.nextPoint
  repeat' (first
    | with_reducible assumption | with_reducible apply ite_keeps | with_reducible apply State.modSweep_keeps)

theorem execStipplePointStart_keeps {p : Fin 4} (h : Keeps s0 s) : KeepsOut s0 (execStipplePointStart p s) := by
  unfold execStipplePointStart
  repeat' (first
    | with_reducible assumption | with_reducible apply next_keeps | with_reducible apply iteOut_keeps
    | with_reducible apply ite_keeps | with_reducible apply State.atDevice_keeps
    | with_reducible apply State.modSweep_keeps | with_reducible apply State.stippleAbort_keeps
    | with_reducible apply State.raise_keeps | with_reducible apply State.nextPoint_keeps | split | dsimp only)

theorem execStippleDeferTimeout_keeps {p : Fin 4} (h : Keeps s0 s) : KeepsOut s0 (execStippleDeferTimeout p s) := by
  unfold execStippleDeferTimeout
  repeat' (first
    | with_reducible assumption | with_reducible apply next_keeps | with_reducible apply iteOut_keeps
    | with_reducible apply ite_keeps | with_reducible apply State.stippleAbort_keeps
    | with_reducible apply atLeast_keeps | split | dsimp only)

theorem execStipplePointEnd_keeps {p : Fin 4} {amps : List (List Capture × List Capture × Nat)} (h : Keeps s0 s) : KeepsOut s0 (execStipplePointEnd p amps s) := by
  unfold execStipplePointEnd
  repeat' (first
    | with_reducible assumption | with_reducible apply next_keeps | with_reducible apply iteOut_keeps
    | with_reducible apply ite_keeps | with_reducible apply State.atDevice_keeps
    | with_reducible apply State.modSweep_keeps | with_reducible apply State.raise_keeps
    | with_reducible apply State.nextPoint_keeps | with_reducible apply State.writePoints_keeps | split
    | dsimp only)

theorem State.learnModule_keeps {p : Fin 4} {m : Fin 64} (h : Keeps s0 s) : Keeps s0 ((State.learnModule p m s).1) := by
  unfold State.learnModule
  repeat' (first
    | with_reducible assumption | with_reducible apply State.modMest_keeps
    | with_reducible apply State.store_keeps | split | dsimp only)

theorem execStippleSweepEnd_keeps {p : Fin 4} (h : Keeps s0 s) : KeepsOut s0 (execStippleSweepEnd p s) := by
  unfold execStippleSweepEnd
  repeat' (first
    | with_reducible assumption | with_reducible apply next_keeps | with_reducible apply iteOut_keeps
    | with_reducible apply ite_keeps | with_reducible refine foldl_keeps ?_ (fun t x ht => ?_)
    | with_reducible apply State.atDevice_keeps | with_reducible apply State.writePoints_keeps
    | with_reducible refine foldlPair_keeps ?_ (fun t x ht => State.learnModule_keeps ht)
    | with_reducible apply State.event_keeps | with_reducible apply State.modSweep_keeps
    | with_reducible apply modStp_keeps | with_reducible apply State.raiseIf_keeps | split | dsimp only)

theorem execStippleStart_keeps {r : Req} (h : Keeps s0 s) : KeepsOut s0 (execStippleStart r s) := by
  unfold execStippleStart
  repeat' (first
    | with_reducible assumption | with_reducible apply ok_keeps | with_reducible apply no_keeps
    | with_reducible apply iteRes_keeps | with_reducible apply next_keeps | with_reducible apply iteOut_keeps
    | with_reducible apply ite_keeps | with_reducible refine runOp_keeps ?_ (fun t ht => ?_)
    | with_reducible apply needLease_keeps | with_reducible apply State.modSweep_keeps | split | dsimp only)

theorem execStippleAbort_keeps {r : Req} (h : Keeps s0 s) : KeepsOut s0 (execStippleAbort r s) := by
  unfold execStippleAbort
  repeat' (first
    | with_reducible assumption | with_reducible apply ok_keeps | with_reducible apply no_keeps
    | with_reducible apply iteRes_keeps | with_reducible apply next_keeps | with_reducible apply iteOut_keeps
    | with_reducible apply ite_keeps | with_reducible refine runOp_keeps ?_ (fun t ht => ?_)
    | with_reducible apply needLease_keeps | with_reducible apply State.stippleAbort_keeps | split
    | dsimp only)

theorem execStippleStatus_keeps {r : Req} (h : Keeps s0 s) : KeepsOut s0 (execStippleStatus r s) := by
  unfold execStippleStatus
  repeat' (first
    | with_reducible assumption | with_reducible apply ok_keeps | with_reducible apply no_keeps
    | with_reducible apply iteRes_keeps | with_reducible apply next_keeps | with_reducible apply iteOut_keeps
    | with_reducible apply ite_keeps | with_reducible refine runOp_keeps ?_ (fun t ht => ?_))

theorem execStippleResult_keeps {r : Req} (h : Keeps s0 s) : KeepsOut s0 (execStippleResult r s) := by
  unfold execStippleResult
  repeat' (first
    | with_reducible assumption | with_reducible apply ok_keeps | with_reducible apply fail_keeps
    | with_reducible apply no_keeps | with_reducible apply next_keeps
    | with_reducible refine runOp_keeps ?_ (fun t ht => ?_) | split | dsimp only)

end Sys2Proof.Machine
end

