-- ==== Sys2Proof/Laws/KeepThermal.lean ====
section
/-! SUPPORT. What the operations and meanings of `Machine/Thermal.lean` keep (`Keeps`). -/

namespace Sys2Proof.Machine

variable {s0 s : State}

theorem State.thTo_keeps {run : ThRun} (h : Keeps s0 s) : Keeps s0 (State.thTo run s) := by
  unfold State.thTo
  repeat' (first
    | with_reducible assumption | with_reducible apply ite_keeps | with_reducible apply modTh_keeps
    | with_reducible apply State.event_keeps | with_reducible apply State.raise_keeps | split | dsimp only)

theorem State.thermalRows_keeps (h : Keeps s0 s) : Keeps s0 (State.thermalRows s) := by
  unfold State.thermalRows
  repeat' (first
    | with_reducible assumption | with_reducible apply ite_keeps | with_reducible apply State.thTo_keeps
    | split | dsimp only)

theorem State.pickThermal_keeps (h : Keeps s0 s) : Keeps s0 (State.pickThermal s) := by
  unfold State.pickThermal
  repeat' (first
    | with_reducible assumption | with_reducible refine foldl_keeps ?_ (fun t x ht => ?_)
    | with_reducible apply State.pickParam_keeps)

theorem execThermalEvaluation_keeps {samples : List Reading} (h : Keeps s0 s) : KeepsOut s0 (execThermalEvaluation samples s) := by
  unfold execThermalEvaluation
  repeat' (first
    | with_reducible assumption | with_reducible apply next_keeps | with_reducible apply iteOut_keeps
    | with_reducible apply ite_keeps | with_reducible apply State.pickThermal_keeps
    | with_reducible apply atLeast_keeps | with_reducible apply modTh_keeps
    | with_reducible apply State.thermalRows_keeps)

theorem execThermalGraceExpiry_keeps (h : Keeps s0 s) : KeepsOut s0 (execThermalGraceExpiry s) := by
  unfold execThermalGraceExpiry
  repeat' (first
    | with_reducible assumption | with_reducible apply next_keeps | with_reducible apply iteOut_keeps
    | with_reducible apply ite_keeps | with_reducible apply State.thTo_keeps
    | with_reducible apply atLeast_keeps | split | dsimp only)

theorem execThermalRelease_keeps (h : Keeps s0 s) : KeepsOut s0 (execThermalRelease s) := by
  unfold execThermalRelease
  repeat' (first
    | with_reducible assumption | with_reducible apply next_keeps | with_reducible apply State.thTo_keeps
    | with_reducible apply atLeast_keeps | split | dsimp only)

theorem execHardwareThermalTrip_keeps {dDie : Bool} {first : Reading} {second : Reading} (h : Keeps s0 s) : KeepsOut s0 (execHardwareThermalTrip dDie first second s) := by
  unfold execHardwareThermalTrip
  repeat' (first
    | with_reducible assumption | with_reducible apply next_keeps | with_reducible apply iteOut_keeps
    | with_reducible apply ite_keeps | with_reducible apply State.raise_keeps
    | with_reducible apply modTh_keeps | with_reducible refine modSafety_keeps ?_ (fun _ hx => hx)
    | with_reducible apply modSafety_keeps | exact fun _ hx => hx | with_reducible apply State.thTo_keeps
    | with_reducible apply State.settle_keeps | with_reducible apply State.safeState_keeps)

theorem execThermalTripRelease_keeps (h : Keeps s0 s) : KeepsOut s0 (execThermalTripRelease s) := by
  unfold execThermalTripRelease
  repeat' (first
    | with_reducible assumption | with_reducible apply next_keeps | with_reducible apply iteOut_keeps
    | with_reducible apply ite_keeps | with_reducible refine modSafety_keeps ?_ (fun _ hx => hx)
    | with_reducible apply modSafety_keeps | exact fun _ hx => hx | with_reducible apply atLeast_keeps
    | with_reducible apply State.thTo_keeps | split | dsimp only)

theorem execDiodeBroken_keeps {dDie : Bool} {mv : U16} (h : Keeps s0 s) : KeepsOut s0 (execDiodeBroken dDie mv s) := by
  unfold execDiodeBroken
  repeat' (first
    | with_reducible assumption | with_reducible apply next_keeps | with_reducible apply iteOut_keeps
    | with_reducible apply ite_keeps | with_reducible apply modTh_keeps
    | with_reducible apply State.raiseIf_keeps)

theorem execPvtMeasurement_keeps {readings : List Reading} {counts : List Nat} (h : Keeps s0 s) : KeepsOut s0 (execPvtMeasurement readings counts s) := by
  unfold execPvtMeasurement
  repeat' (first
    | with_reducible assumption | with_reducible apply next_keeps | with_reducible apply iteOut_keeps
    | with_reducible apply ite_keeps | with_reducible refine foldl_keeps ?_ (fun t x ht => ?_)
    | with_reducible apply atLeast_keeps | with_reducible apply modTh_keeps
    | with_reducible apply State.raiseIf_keeps | with_reducible apply State.openEvent_keeps
    | with_reducible apply State.raise_keeps | with_reducible apply State.moveSet_keeps)

theorem execDroopEvent_keeps {mv : Nat} {ns : Nat} (h : Keeps s0 s) : KeepsOut s0 (execDroopEvent mv ns s) := by
  unfold execDroopEvent
  repeat' (first
    | with_reducible assumption | with_reducible apply next_keeps | with_reducible apply iteOut_keeps
    | with_reducible apply ite_keeps | with_reducible apply modTh_keeps
    | with_reducible apply State.raiseIf_keeps)

theorem execHotHourCount_keeps (h : Keeps s0 s) : KeepsOut s0 (execHotHourCount s) := by
  unfold execHotHourCount
  repeat' (first
    | with_reducible assumption | with_reducible apply next_keeps | with_reducible apply atLeast_keeps
    | with_reducible apply modTh_keeps | split | dsimp only)

theorem execThStatusRead_keeps {r : Req} (h : Keeps s0 s) : KeepsOut s0 (execThStatusRead r s) := by
  unfold execThStatusRead
  repeat' (first
    | with_reducible assumption | with_reducible apply ok_keeps | with_reducible apply next_keeps
    | with_reducible refine runOp_keeps ?_ (fun t ht => ?_))

theorem execThPvtRead_keeps {r : Req} (h : Keeps s0 s) : KeepsOut s0 (execThPvtRead r s) := by
  unfold execThPvtRead
  repeat' (first
    | with_reducible assumption | with_reducible apply ok_keeps | with_reducible apply next_keeps
    | with_reducible refine runOp_keeps ?_ (fun t ht => ?_))

end Sys2Proof.Machine
end

