-- ==== Sys2Proof/Laws/KeepParams.lean ====
section
/-! SUPPORT. What the operations and meanings of `Machine/Params.lean` keep (`Keeps`). -/

namespace Sys2Proof.Machine

variable {s0 s : State}

theorem State.recheckModule_keeps {m : Fin 64} (h : Keeps s0 s) : Keeps s0 (State.recheckModule m s) := by
  unfold State.recheckModule
  repeat' (first
    | with_reducible assumption | with_reducible apply ite_keeps | with_reducible apply State.moduleTo_keeps)

theorem State.cmpChanged_keeps {s0_ : State} {n : Fin 12} (h : Keeps s0 s) : Keeps s0 (State.cmpChanged s0_ n s) := by
  unfold State.cmpChanged
  repeat' (first
    | with_reducible assumption | with_reducible apply ite_keeps | with_reducible apply State.modCmp_keeps
    | with_reducible apply State.scrimLevel_keeps | with_reducible apply State.cmpRelease_keeps)

theorem State.scaleChanged_keeps {s0_ : State} {id : Nat} (h : Keeps s0 s) : Keeps s0 (State.scaleChanged s0_ id s) := by
  unfold State.scaleChanged
  repeat' (first
    | with_reducible assumption | with_reducible apply ite_keeps | with_reducible apply modMeas_keeps)

theorem State.chainPortsChanged_keeps {s0_ : State} (h : Keeps s0 s) : Keeps s0 (State.chainPortsChanged s0_ s) := by
  unfold State.chainPortsChanged
  repeat' (first
    | with_reducible assumption | with_reducible apply ite_keeps
    | with_reducible refine foldl_keeps ?_ (fun t x ht => ?_) | with_reducible apply State.modChainPort_keeps
    | with_reducible apply State.moveReads_keeps)

theorem State.paramHook_keeps {s0_ : State} {r : Req} {id : Nat} (h : Keeps s0 s) : Keeps s0 (State.paramHook s0_ r id s) := by
  unfold State.paramHook
  repeat' (first
    | with_reducible assumption | with_reducible apply ite_keeps
    | with_reducible apply State.storeSecure_keeps | with_reducible apply State.scaleChanged_keeps
    | with_reducible apply State.cmpChanged_keeps | with_reducible apply State.audit_keeps
    | with_reducible apply State.recheckModule_keeps | with_reducible apply State.chainPortsChanged_keeps
    | with_reducible apply State.moveSet_keeps | with_reducible apply State.ptpDecide_keeps
    | with_reducible apply State.portWritten_keeps | with_reducible apply State.custStart_keeps
    | with_reducible apply State.checkInputs_keeps)

theorem State.paramHooks_keeps {s0_ : State} {r : Req} {ids : List Nat} (h : Keeps s0 s) : Keeps s0 (State.paramHooks s0_ r ids s) := by
  unfold State.paramHooks
  repeat' (first
    | with_reducible assumption | with_reducible apply ite_keeps
    | with_reducible refine foldl_keeps ?_ (fun t x ht => ?_) | with_reducible apply State.paramHook_keeps)

theorem State.applyItems_keeps {r : Req} {items : List (Nat × U64)} (h : Keeps s0 s) : Keeps s0 (State.applyItems r items s) := by
  unfold State.applyItems
  repeat' (first
    | with_reducible assumption | with_reducible refine foldl_keeps ?_ (fun t x ht => ?_)
    | with_reducible apply State.storeItem_keeps | with_reducible refine modHost_keeps ?_ (fun _ hx => hx)
    | with_reducible apply modHost_keeps | exact fun _ hx => hx | with_reducible apply State.paramHooks_keeps)

theorem setFailure_keeps {x : Nat × Nat × Nat} : KeepsRes s0 (setFailure x) := by
  unfold setFailure
  repeat' (first | trivial | split)

theorem State.waitInGroup_keeps {g : Fin 8} {r : Req} {items : List (Nat × U64)} (h : Keeps s0 s) : Keeps s0 (State.waitInGroup g r items s) := by
  unfold State.waitInGroup
  repeat' (first
    | with_reducible assumption | with_reducible apply ite_keeps | with_reducible apply modGroup_keeps)

theorem execParamSet_keeps {r : Req} (h : Keeps s0 s) : KeepsOut s0 (execParamSet r s) := by
  unfold execParamSet
  repeat' (first
    | with_reducible assumption | with_reducible apply ok_keeps | with_reducible apply wait_keeps
    | with_reducible apply next_keeps | with_reducible refine runOp_keeps ?_ (fun t ht => ?_)
    | with_reducible apply setFailure_keeps | with_reducible apply State.applyItems_keeps
    | with_reducible apply State.waitInGroup_keeps | with_reducible apply State.settle_keeps | split
    | dsimp only | with_reducible apply freeCtr_keeps)

theorem State.applyWaiting_keeps {g : Fin 8} {w : WaitingSet} (h : Keeps s0 s) : Keeps s0 (State.applyWaiting g w s) := by
  unfold State.applyWaiting
  repeat' (first
    | with_reducible assumption | with_reducible apply ite_keeps | with_reducible apply modGroup_keeps
    | with_reducible apply State.finish_keeps | with_reducible apply State.applyItems_keeps
    | with_reducible apply State.complete_keeps | split | dsimp only)

theorem execCommitBoundary_keeps {g : Fin 8} {half : Bool} (h : Keeps s0 s) : KeepsOut s0 (execCommitBoundary g half s) := by
  unfold execCommitBoundary
  repeat' (first
    | with_reducible assumption | with_reducible apply next_keeps | with_reducible apply iteOut_keeps
    | with_reducible apply ite_keeps | with_reducible refine foldl_keeps ?_ (fun t x ht => ?_)
    | with_reducible apply State.atDevice_keeps | with_reducible apply modGroup_keeps
    | with_reducible apply State.commitHead_keeps | with_reducible apply State.commitTail_keeps
    | with_reducible apply State.applyWaiting_keeps)

theorem execParamGet_keeps {r : Req} (h : Keeps s0 s) : KeepsOut s0 (execParamGet r s) := by
  unfold execParamGet
  repeat' (first
    | with_reducible assumption | with_reducible apply ok_keeps | with_reducible apply iteRes_keeps
    | with_reducible apply next_keeps | with_reducible apply iteOut_keeps | with_reducible apply ite_keeps
    | with_reducible refine runOp_keeps ?_ (fun t ht => ?_))

theorem execParamGetBlock_keeps {r : Req} (h : Keeps s0 s) : KeepsOut s0 (execParamGetBlock r s) := by
  unfold execParamGetBlock
  repeat' (first
    | with_reducible assumption | with_reducible apply ok_keeps | with_reducible apply no_keeps
    | with_reducible apply iteRes_keeps | with_reducible apply next_keeps | with_reducible apply iteOut_keeps
    | with_reducible apply ite_keeps | with_reducible refine runOp_keeps ?_ (fun t ht => ?_))

theorem execParamSave_keeps {r : Req} (h : Keeps s0 s) : KeepsOut s0 (execParamSave r s) := by
  unfold execParamSave
  repeat' (first
    | with_reducible assumption | with_reducible apply ok_keeps | with_reducible apply wait_keeps
    | with_reducible apply iteRes_keeps | with_reducible apply next_keeps | with_reducible apply iteOut_keeps
    | with_reducible apply ite_keeps | with_reducible refine runOp_keeps ?_ (fun t ht => ?_)
    | with_reducible apply State.store_keeps | with_reducible refine modHost_keeps ?_ (fun _ hx => hx)
    | with_reducible apply modHost_keeps | exact fun _ hx => hx)

theorem execParamDefaults_keeps {r : Req} (h : Keeps s0 s) : KeepsOut s0 (execParamDefaults r s) := by
  unfold execParamDefaults
  repeat' (first
    | with_reducible assumption | with_reducible apply ok_keeps | with_reducible apply no_keeps
    | with_reducible apply iteRes_keeps | with_reducible apply next_keeps | with_reducible apply iteOut_keeps
    | with_reducible apply ite_keeps | with_reducible refine foldl_keeps ?_ (fun t x ht => ?_)
    | with_reducible apply State.settle_keeps | with_reducible refine runOp_keeps ?_ (fun t ht => ?_)
    | with_reducible apply State.paramHooks_keeps | with_reducible apply State.storeItem_keeps)

theorem execParamDescribe_keeps {r : Req} (h : Keeps s0 s) : KeepsOut s0 (execParamDescribe r s) := by
  unfold execParamDescribe
  repeat' (first
    | with_reducible assumption | with_reducible apply ok_keeps | with_reducible apply no_keeps
    | with_reducible apply next_keeps | with_reducible refine runOp_keeps ?_ (fun t ht => ?_) | split
    | dsimp only)

end Sys2Proof.Machine
end

