-- ==== Sys2Proof/Laws/KeepBoardCal.lean ====
section
/-! SUPPORT. What the operations and meanings of `Machine/BoardCal.lean` keep (`Keeps`). -/

namespace Sys2Proof.Machine

variable {s0 s : State}

theorem execBoardCalibrationComplete_keeps {sum : Nat} {least : U16} {most : U16} (h : Keeps s0 s) : KeepsOut s0 (execBoardCalibrationComplete sum least most s) := by
  unfold execBoardCalibrationComplete
  repeat' (first
    | with_reducible assumption | with_reducible apply next_keeps | with_reducible apply iteOut_keeps
    | with_reducible apply ite_keeps | with_reducible apply modMeas_keeps
    | with_reducible apply State.finish_keeps | with_reducible apply State.complete_keeps
    | with_reducible apply State.applyItems_keeps | split | dsimp only)

end Sys2Proof.Machine
end

