-- ==== Sys2Proof/Laws/KeepContactors.lean ====
section
/-! SUPPORT. What the operations and meanings of `Machine/Contactors.lean` keep (`Keeps`). -/

namespace Sys2Proof.Machine

variable {s0 s : State}

theorem execContactorAutoPrecharge_keeps {p : Fin 4} (h : Keeps s0 s) : KeepsOut s0 (execContactorAutoPrecharge p s) := by
  unfold execContactorAutoPrecharge
  repeat' (first
    | with_reducible assumption | with_reducible apply next_keeps | with_reducible apply iteOut_keeps
    | with_reducible apply ite_keeps | with_reducible apply State.settle_keeps
    | with_reducible apply State.prechargeBy_keeps | split | dsimp only)

theorem execPrechargeComplete_keeps {p : Fin 4} (h : Keeps s0 s) : KeepsOut s0 (execPrechargeComplete p s) := by
  unfold execPrechargeComplete
  repeat' (first
    | with_reducible assumption | with_reducible apply next_keeps | with_reducible apply iteOut_keeps
    | with_reducible apply ite_keeps | with_reducible apply atLeast_keeps
    | with_reducible apply State.settle_keeps | with_reducible apply State.contFeedback_keeps
    | with_reducible apply State.contTo_keeps | with_reducible apply modCont_keeps
    | with_reducible apply State.endPrecharge_keeps | split | dsimp only)

theorem execPrechargeTimeout_keeps {p : Fin 4} (h : Keeps s0 s) : KeepsOut s0 (execPrechargeTimeout p s) := by
  unfold execPrechargeTimeout
  repeat' (first
    | with_reducible assumption | with_reducible apply next_keeps | with_reducible apply atLeast_keeps
    | with_reducible apply State.settle_keeps | with_reducible apply State.prechargeFails_keeps | split
    | dsimp only)

theorem execContactorFeedbackChange_keeps {p : Fin 4} {closed : Bool} (h : Keeps s0 s) : KeepsOut s0 (execContactorFeedbackChange p closed s) := by
  unfold execContactorFeedbackChange
  repeat' (first
    | with_reducible assumption | with_reducible apply next_keeps | with_reducible apply iteOut_keeps
    | with_reducible apply ite_keeps | with_reducible apply State.settle_keeps
    | with_reducible apply State.contFeedback_keeps | with_reducible apply modCont_keeps)

theorem execContactorCloseTimeout_keeps {p : Fin 4} (h : Keeps s0 s) : KeepsOut s0 (execContactorCloseTimeout p s) := by
  unfold execContactorCloseTimeout
  repeat' (first
    | with_reducible assumption | with_reducible apply next_keeps | with_reducible apply iteOut_keeps
    | with_reducible apply ite_keeps | with_reducible apply atLeast_keeps
    | with_reducible apply State.settle_keeps | with_reducible apply State.contTo_keeps
    | with_reducible apply State.freeGroup_keeps | with_reducible apply State.release_keeps)

theorem execContactorOpenTimeout_keeps {p : Fin 4} (h : Keeps s0 s) : KeepsOut s0 (execContactorOpenTimeout p s) := by
  unfold execContactorOpenTimeout
  repeat' (first
    | with_reducible assumption | with_reducible apply next_keeps | with_reducible apply iteOut_keeps
    | with_reducible apply ite_keeps | with_reducible apply State.settle_keeps
    | with_reducible apply State.opened_keeps | with_reducible apply atLeast_keeps
    | with_reducible apply State.contTo_keeps | with_reducible apply State.weld_keeps)

theorem execContactorDropped_keeps {p : Fin 4} (h : Keeps s0 s) : KeepsOut s0 (execContactorDropped p s) := by
  unfold execContactorDropped
  repeat' (first
    | with_reducible assumption | with_reducible apply next_keeps | with_reducible apply iteOut_keeps
    | with_reducible apply ite_keeps | with_reducible refine foldl_keeps ?_ (fun t x ht => ?_)
    | with_reducible apply atLeast_keeps | with_reducible apply State.contTo_keeps
    | with_reducible apply State.release_keeps | with_reducible apply State.settle_keeps
    | with_reducible apply State.evalReady_keeps)

theorem execWeldTestTimeout_keeps {p : Fin 4} (h : Keeps s0 s) : KeepsOut s0 (execWeldTestTimeout p s) := by
  unfold execWeldTestTimeout
  repeat' (first
    | with_reducible assumption | with_reducible apply next_keeps | with_reducible apply iteOut_keeps
    | with_reducible apply ite_keeps | with_reducible apply atLeast_keeps
    | with_reducible apply State.settle_keeps | with_reducible apply State.endTest_keeps)

theorem execContactorStatus_keeps {r : Req} (h : Keeps s0 s) : KeepsOut s0 (execContactorStatus r s) := by
  unfold execContactorStatus
  repeat' (first
    | with_reducible assumption | with_reducible apply ok_keeps | with_reducible apply no_keeps
    | with_reducible apply iteRes_keeps | with_reducible apply next_keeps | with_reducible apply iteOut_keeps
    | with_reducible apply ite_keeps | with_reducible refine runOp_keeps ?_ (fun t ht => ?_))

theorem execContactorClose_keeps {r : Req} (h : Keeps s0 s) : KeepsOut s0 (execContactorClose r s) := by
  unfold execContactorClose
  repeat' (first
    | with_reducible assumption | with_reducible apply ok_keeps | with_reducible apply no_keeps
    | with_reducible apply iteRes_keeps | with_reducible apply next_keeps | with_reducible apply iteOut_keeps
    | with_reducible apply ite_keeps | with_reducible apply State.settle_keeps
    | with_reducible refine runOp_keeps ?_ (fun t ht => ?_) | with_reducible apply needLease_keeps
    | with_reducible apply State.prechargeBy_keeps | split | dsimp only)

theorem execContactorOpen_keeps {r : Req} (h : Keeps s0 s) : KeepsOut s0 (execContactorOpen r s) := by
  unfold execContactorOpen
  repeat' (first
    | with_reducible assumption | with_reducible apply ok_keeps | with_reducible apply no_keeps
    | with_reducible apply iteRes_keeps | with_reducible apply next_keeps | with_reducible apply iteOut_keeps
    | with_reducible apply ite_keeps | with_reducible apply State.settle_keeps
    | with_reducible refine runOp_keeps ?_ (fun t ht => ?_) | with_reducible apply needLease_keeps
    | with_reducible apply modCont_keeps | with_reducible apply State.contTo_keeps
    | with_reducible apply State.freeGroup_keeps | with_reducible apply State.startOpening_keeps | split
    | dsimp only)

theorem execContactorWeldTest_keeps {r : Req} (h : Keeps s0 s) : KeepsOut s0 (execContactorWeldTest r s) := by
  unfold execContactorWeldTest
  repeat' (first
    | with_reducible assumption | with_reducible apply wait_keeps | with_reducible apply no_keeps
    | with_reducible apply iteRes_keeps | with_reducible apply next_keeps | with_reducible apply iteOut_keeps
    | with_reducible apply ite_keeps | with_reducible apply State.settle_keeps
    | with_reducible refine runOp_keeps ?_ (fun t ht => ?_) | with_reducible apply State.startWeldTest_keeps
    | with_reducible apply modCont_keeps | split | dsimp only)

theorem execContactorWeldClear_keeps {r : Req} (h : Keeps s0 s) : KeepsOut s0 (execContactorWeldClear r s) := by
  unfold execContactorWeldClear
  repeat' (first
    | with_reducible assumption | with_reducible apply ok_keeps | with_reducible apply no_keeps
    | with_reducible apply iteRes_keeps | with_reducible apply next_keeps | with_reducible apply iteOut_keeps
    | with_reducible apply ite_keeps | with_reducible refine runOp_keeps ?_ (fun t ht => ?_)
    | with_reducible apply State.raiseIf_keeps | with_reducible apply modCont_keeps | split | dsimp only)

end Sys2Proof.Machine
end

