-- ==== Sys2Proof/Laws/KeepLowPower.lean ====
section
/-! SUPPORT. What the operations and meanings of `Machine/LowPower.lean` keep (`Keeps`). -/

namespace Sys2Proof.Machine

variable {s0 s : State}

theorem State.feedRests_keeps {f : Fin 2} (h : Keeps s0 s) : Keeps s0 (State.feedRests f s) := by
  unfold State.feedRests
  repeat' (first
    | with_reducible assumption | with_reducible apply modFeed_keeps | with_reducible apply State.feedTo_keeps
    | with_reducible apply State.complete_keeps | split | dsimp only)

theorem State.contRests_keeps {p : Fin 4} (h : Keeps s0 s) : Keeps s0 (State.contRests p s) := by
  unfold State.contRests
  repeat' (first
    | with_reducible assumption | with_reducible apply State.startOpening_keeps | split | dsimp only)

theorem State.chainRests_keeps (h : Keeps s0 s) : Keeps s0 (State.chainRests s) := by
  unfold State.chainRests
  repeat' (first
    | with_reducible assumption | with_reducible apply ite_keeps | with_reducible apply modChain_keeps)

theorem State.enterRest_keeps {run : PowerRun} {keepCont : Bool} {mask : Nat} {alarm : Nat} (h : Keeps s0 s) : Keeps s0 (State.enterRest run keepCont mask alarm s) := by
  unfold State.enterRest
  repeat' (first
    | with_reducible assumption | with_reducible apply ite_keeps
    | with_reducible refine foldl_keeps ?_ (fun t x ht => ?_)
    | with_reducible refine modHost_keeps ?_ (fun _ hx => hx) | with_reducible apply modHost_keeps
    | exact fun _ hx => hx | with_reducible apply State.modLow_keeps
    | with_reducible apply State.feedRests_keeps | with_reducible apply State.contRests_keeps
    | with_reducible apply State.chainRests_keeps)

theorem execSleepEnter_keeps {r : Req} {wakeN : Bool} (h : Keeps s0 s) : KeepsOut s0 (execSleepEnter r wakeN s) := by
  unfold execSleepEnter
  repeat' (first
    | with_reducible assumption | with_reducible apply ok_keeps | with_reducible apply no_keeps
    | with_reducible apply iteRes_keeps | with_reducible apply next_keeps | with_reducible apply iteOut_keeps
    | with_reducible apply ite_keeps | with_reducible apply State.settle_keeps
    | with_reducible refine runOp_keeps ?_ (fun t ht => ?_) | with_reducible apply needLease_keeps
    | with_reducible apply State.enterRest_keeps)

theorem execDustSheetEnter_keeps {r : Req} {wakeN : Bool} (h : Keeps s0 s) : KeepsOut s0 (execDustSheetEnter r wakeN s) := by
  unfold execDustSheetEnter
  repeat' (first
    | with_reducible assumption | with_reducible apply ok_keeps | with_reducible apply no_keeps
    | with_reducible apply iteRes_keeps | with_reducible apply next_keeps | with_reducible apply iteOut_keeps
    | with_reducible apply ite_keeps | with_reducible apply State.settle_keeps
    | with_reducible refine runOp_keeps ?_ (fun t ht => ?_) | with_reducible apply State.abandon_keeps
    | with_reducible apply State.enterRest_keeps)

theorem State.wakeNoted_keeps (h : Keeps s0 s) : Keeps s0 (State.wakeNoted s) := by
  unfold State.wakeNoted
  repeat' (first
    | with_reducible assumption | with_reducible apply ite_keeps | with_reducible apply State.modLow_keeps
    | with_reducible apply State.beginWake_keeps)

theorem State.islandOff_keeps (h : Keeps s0 s) : Keeps s0 (State.islandOff s) := by
  unfold State.islandOff
  repeat' (first
    | with_reducible assumption | with_reducible apply ite_keeps
    | with_reducible refine foldl_keeps ?_ (fun t x ht => ?_) | with_reducible apply State.modRail_keeps
    | with_reducible apply State.modWd_keeps | with_reducible apply modTh_keeps
    | with_reducible apply State.dieDown_keeps | with_reducible refine modPower_keeps ?_ (fun _ => ⟨rfl, id⟩)
    | with_reducible apply modPower_keeps | exact fun _ => ⟨rfl, id⟩)

theorem execLowPowerStateReached_keeps (h : Keeps s0 s) : KeepsOut s0 (execLowPowerStateReached s) := by
  unfold execLowPowerStateReached
  repeat' (first
    | with_reducible assumption | with_reducible apply next_keeps | with_reducible apply iteOut_keeps
    | with_reducible apply ite_keeps | with_reducible apply State.modLow_keeps
    | with_reducible apply atLeast_keeps | with_reducible apply State.modWd_keeps
    | with_reducible apply State.startDown_keeps | with_reducible apply State.settle_keeps
    | with_reducible apply State.wakeNoted_keeps | with_reducible apply State.journalled_keeps
    | with_reducible apply State.flush_keeps | with_reducible apply State.islandOff_keeps | split | dsimp only)

theorem execWakeSource_keeps {code : Fin 9} (h : Keeps s0 s) : KeepsOut s0 (execWakeSource code s) := by
  unfold execWakeSource
  repeat' (first
    | with_reducible assumption | with_reducible apply next_keeps | with_reducible apply iteOut_keeps
    | with_reducible apply ite_keeps | with_reducible apply State.modSupply_keeps
    | with_reducible apply State.settle_keeps | with_reducible apply State.wakeBy_keeps)

theorem execRealTimeAlarm_keeps (h : Keeps s0 s) : KeepsOut s0 (execRealTimeAlarm s) := by
  unfold execRealTimeAlarm
  repeat' (first
    | with_reducible assumption | with_reducible apply next_keeps | with_reducible apply iteOut_keeps
    | with_reducible apply ite_keeps | with_reducible apply State.settle_keeps
    | with_reducible apply State.wakeBy_keeps | with_reducible apply atLeast_keeps)

theorem execCcWakeThreshold_keeps {c : Fin 4} (h : Keeps s0 s) : KeepsOut s0 (execCcWakeThreshold c s) := by
  unfold execCcWakeThreshold
  repeat' (first
    | with_reducible assumption | with_reducible apply next_keeps | with_reducible apply iteOut_keeps
    | with_reducible apply ite_keeps | with_reducible apply State.settle_keeps
    | with_reducible apply State.wakeBy_keeps)

theorem State.attention_keeps {cause : BitVec 8} (h : Keeps s0 s) : Keeps s0 (State.attention cause s) := by
  unfold State.attention
  repeat' (first
    | with_reducible assumption | with_reducible apply State.modTw_keeps)

theorem State.runsAgain_keeps (h : Keeps s0 s) : Keeps s0 (State.runsAgain s) := by
  unfold State.runsAgain
  repeat' (first
    | with_reducible assumption | with_reducible refine modHost_keeps ?_ (fun _ hx => hx)
    | with_reducible apply modHost_keeps | exact fun _ hx => hx | with_reducible apply State.modLow_keeps
    | with_reducible apply State.attention_keeps | with_reducible apply modBus_keeps)

theorem State.feedArms_keeps {f : Fin 2} (h : Keeps s0 s) : Keeps s0 (State.feedArms f s) := by
  unfold State.feedArms
  repeat' (first
    | with_reducible assumption | with_reducible apply ite_keeps | with_reducible apply State.feedTo_keeps)

theorem State.chainWakes_keeps {ok : Bool} (h : Keeps s0 s) : Keeps s0 (State.chainWakes ok s) := by
  unfold State.chainWakes
  repeat' (first
    | with_reducible assumption | with_reducible apply ite_keeps
    | with_reducible refine foldl_keeps ?_ (fun t x ht => ?_) | with_reducible apply State.modChainPort_keeps
    | with_reducible apply State.startEnumeration_keeps)

theorem execWakeComplete_keeps {chainOk : Bool} (h : Keeps s0 s) : KeepsOut s0 (execWakeComplete chainOk s) := by
  unfold execWakeComplete
  repeat' (first
    | with_reducible assumption | with_reducible apply next_keeps | with_reducible apply iteOut_keeps
    | with_reducible apply ite_keeps | with_reducible refine foldl_keeps ?_ (fun t x ht => ?_)
    | with_reducible apply modChg_keeps | with_reducible apply State.runsAgain_keeps
    | with_reducible apply State.wdRestart_keeps | with_reducible apply State.modWd_keeps
    | with_reducible apply State.feedArms_keeps | with_reducible apply State.settle_keeps
    | with_reducible apply State.serveHeld_keeps | with_reducible apply State.chainWakes_keeps)

theorem execWake_keeps {r : Req} (h : Keeps s0 s) : KeepsOut s0 (execWake r s) := by
  unfold execWake
  repeat' (first
    | with_reducible assumption | with_reducible apply ok_keeps | with_reducible apply next_keeps
    | with_reducible refine runOp_keeps ?_ (fun t ht => ?_))

end Sys2Proof.Machine
end

