-- ==== Sys2Proof/Laws/KeepTables.lean ====
section
/-! SUPPORT. What the operations and meanings of `Machine/Tables.lean` keep (`Keeps`). -/

namespace Sys2Proof.Machine

variable {s0 s : State}

theorem execTableOpen_keeps {r : Req} (h : Keeps s0 s) : KeepsOut s0 (execTableOpen r s) := by
  unfold execTableOpen
  repeat' (first
    | with_reducible assumption | with_reducible apply ok_keeps | with_reducible apply no_keeps
    | with_reducible apply iteRes_keeps | with_reducible apply next_keeps | with_reducible apply iteOut_keeps
    | with_reducible apply ite_keeps | with_reducible refine runOp_keeps ?_ (fun t ht => ?_)
    | with_reducible apply modOwner_keeps | split | dsimp only)

theorem execTableWrite_keeps {r : Req} (h : Keeps s0 s) : KeepsOut s0 (execTableWrite r s) := by
  unfold execTableWrite
  repeat' (first
    | with_reducible assumption | with_reducible apply ok_keeps | with_reducible apply no_keeps
    | with_reducible apply iteRes_keeps | with_reducible apply next_keeps | with_reducible apply iteOut_keeps
    | with_reducible apply ite_keeps | with_reducible refine runOp_keeps ?_ (fun t ht => ?_)
    | with_reducible apply modOwner_keeps | split | dsimp only)

theorem execTableAbort_keeps {r : Req} (h : Keeps s0 s) : KeepsOut s0 (execTableAbort r s) := by
  unfold execTableAbort
  repeat' (first
    | with_reducible assumption | with_reducible apply ok_keeps | with_reducible apply no_keeps
    | with_reducible apply iteRes_keeps | with_reducible apply next_keeps | with_reducible apply iteOut_keeps
    | with_reducible apply ite_keeps | with_reducible refine runOp_keeps ?_ (fun t ht => ?_)
    | with_reducible apply modOwner_keeps | split | dsimp only)

theorem execTableCommit_keeps {r : Req} (h : Keeps s0 s) : KeepsOut s0 (execTableCommit r s) := by
  unfold execTableCommit
  repeat' (first
    | with_reducible assumption | with_reducible apply ok_keeps | with_reducible apply wait_keeps
    | with_reducible apply no_keeps | with_reducible apply iteRes_keeps | with_reducible apply next_keeps
    | with_reducible apply iteOut_keeps | with_reducible apply ite_keeps
    | with_reducible apply State.settle_keeps | with_reducible refine runOp_keeps ?_ (fun t ht => ?_)
    | with_reducible apply modOwner_keeps | with_reducible apply State.store_keeps
    | with_reducible apply State.installTable_keeps | with_reducible refine modHost_keeps ?_ (fun _ hx => hx)
    | with_reducible apply modHost_keeps | exact fun _ hx => hx | split | dsimp only
    | with_reducible apply freeCtr_keeps)

theorem execTableInfo_keeps {r : Req} (h : Keeps s0 s) : KeepsOut s0 (execTableInfo r s) := by
  unfold execTableInfo
  repeat' (first
    | with_reducible assumption | with_reducible apply ok_keeps | with_reducible apply no_keeps
    | with_reducible apply next_keeps | with_reducible refine runOp_keeps ?_ (fun t ht => ?_) | split
    | dsimp only)

theorem execTableRead_keeps {r : Req} (h : Keeps s0 s) : KeepsOut s0 (execTableRead r s) := by
  unfold execTableRead
  repeat' (first
    | with_reducible assumption | with_reducible apply ok_keeps | with_reducible apply fail_keeps
    | with_reducible apply no_keeps | with_reducible apply iteRes_keeps | with_reducible apply next_keeps
    | with_reducible apply iteOut_keeps | with_reducible apply ite_keeps
    | with_reducible refine runOp_keeps ?_ (fun t ht => ?_) | split | dsimp only)

theorem State.dropTable_keeps {key : Nat} (h : Keeps s0 s) : Keeps s0 (State.dropTable key s) := by
  unfold State.dropTable
  repeat' (first
    | with_reducible assumption | with_reducible apply ite_keeps | with_reducible apply State.store_keeps
    | with_reducible refine modHost_keeps ?_ (fun _ hx => hx) | with_reducible apply modHost_keeps
    | exact fun _ hx => hx | with_reducible refine modConv_keeps ?_ (fun _ hx => hx)
    | with_reducible apply modConv_keeps | exact fun _ hx => hx
    | with_reducible apply State.startEnumeration_keeps)

theorem execTableDelete_keeps {r : Req} (h : Keeps s0 s) : KeepsOut s0 (execTableDelete r s) := by
  unfold execTableDelete
  repeat' (first
    | with_reducible assumption | with_reducible apply ok_keeps | with_reducible apply no_keeps
    | with_reducible apply iteRes_keeps | with_reducible apply next_keeps | with_reducible apply iteOut_keeps
    | with_reducible apply ite_keeps | with_reducible apply State.settle_keeps
    | with_reducible refine runOp_keeps ?_ (fun t ht => ?_) | with_reducible apply State.dropTable_keeps
    | split | dsimp only)

end Sys2Proof.Machine
end

