-- ==== Sys2Proof/Laws/KeepRestore.lean ====
section
/-! SUPPORT. What the operations and meanings of `Machine/Restore.lean` keep (`Keeps`). -/

namespace Sys2Proof.Machine

variable {s0 s : State}

theorem State.loadItem_keeps {id : Nat} {v : Nat} (h : Keeps s0 s) : Keeps s0 (State.loadItem id v s) := by
  unfold State.loadItem
  repeat' (first
    | with_reducible assumption | with_reducible apply ite_keeps | with_reducible apply State.setParam_keeps
    | with_reducible refine modPhase_keeps ?_ (fun _ hx => hx) | with_reducible apply modPhase_keeps
    | exact fun _ hx => hx | exact fun _ hx => Phase.stop_exclusive hx
    | exact fun _ hx => Phase.low_exclusive hx | exact fun _ hx => exclusive_ite hx hx
    | with_reducible apply State.takeMode_keeps | with_reducible apply State.storeItem_keeps)

theorem State.loadParams_keeps (h : Keeps s0 s) : Keeps s0 (State.loadParams s) := by
  unfold State.loadParams
  repeat' (first
    | with_reducible assumption | with_reducible refine foldl_keeps ?_ (fun t x ht => ?_)
    | with_reducible refine modHost_keeps ?_ (fun _ hx => hx) | with_reducible apply modHost_keeps
    | exact fun _ hx => hx | with_reducible apply State.loadItem_keeps)

theorem State.loadTable_keeps {bad : List Nat} {key : Nat} (h : Keeps s0 s) : Keeps s0 (State.loadTable bad key s) := by
  unfold State.loadTable
  repeat' (first
    | with_reducible assumption | with_reducible apply ite_keeps
    | with_reducible refine modHost_keeps ?_ (fun _ hx => hx) | with_reducible apply modHost_keeps
    | exact fun _ hx => hx | with_reducible apply State.audit_keeps | split | dsimp only
    | with_reducible apply freeCtr_keeps)

theorem State.loadTables_keeps {bad : List Nat} (h : Keeps s0 s) : Keeps s0 (State.loadTables bad s) := by
  unfold State.loadTables
  repeat' (first
    | with_reducible assumption | with_reducible apply ite_keeps
    | with_reducible refine foldl_keeps ?_ (fun t x ht => ?_) | with_reducible apply State.loadTable_keeps
    | with_reducible refine modConv_keeps ?_ (fun _ hx => hx) | with_reducible apply modConv_keeps
    | exact fun _ hx => hx | with_reducible apply modStrPort_keeps | split | dsimp only)

theorem State.dropSecure_keeps {key : Nat} (h : Keeps s0 s) : Keeps s0 (State.dropSecure key s) := by
  unfold State.dropSecure
  repeat' (first
    | with_reducible assumption | with_reducible apply ite_keeps | with_reducible apply modOwner_keeps
    | with_reducible refine modSys_keeps ?_ (fun _ hx => hx) | with_reducible apply modSys_keeps
    | exact fun _ hx => hx | with_reducible apply modLink_keeps
    | with_reducible refine modSec_keeps ?_ (fun _ => SecState.same rfl rfl rfl rfl rfl)
    | with_reducible apply modSec_keeps | exact fun _ => SecState.same rfl rfl rfl rfl rfl
    | with_reducible apply State.audit_keeps | with_reducible apply State.raise_keeps
    | with_reducible apply freeCtr_keeps)

theorem State.rebuildRings_keeps (h : Keeps s0 s) : Keeps s0 (State.rebuildRings s) := by
  unfold State.rebuildRings
  repeat' (first
    | with_reducible assumption | with_reducible refine modSys_keeps ?_ (fun _ hx => hx)
    | with_reducible apply modSys_keeps | exact fun _ hx => hx)

theorem State.renewStreams_keeps (h : Keeps s0 s) : Keeps s0 (State.renewStreams s) := by
  unfold State.renewStreams
  repeat' (first
    | with_reducible assumption | with_reducible refine foldl_keeps ?_ (fun t x ht => ?_)
    | with_reducible apply State.modStream_keeps | with_reducible apply modOwner_keeps | split | dsimp only)

theorem State.restoreCounters_keeps (h : Keeps s0 s) : Keeps s0 (State.restoreCounters s) := by
  unfold State.restoreCounters
  repeat' (first
    | with_reducible assumption | with_reducible refine foldl_keeps ?_ (fun t x ht => ?_)
    | with_reducible apply modMeas_keeps | with_reducible apply modStrPort_keeps
    | with_reducible refine eachPhase_keeps ?_ (fun x t ht => ?_)
    | with_reducible refine modPhase_keeps ?_ (fun _ hx => hx) | with_reducible apply modPhase_keeps
    | exact fun _ hx => hx | exact fun _ hx => Phase.stop_exclusive hx
    | exact fun _ hx => Phase.low_exclusive hx | exact fun _ hx => exclusive_ite hx hx
    | with_reducible apply modTh_keeps | with_reducible apply State.modWd_keeps | split | dsimp only)

theorem State.restoreModule_keeps {m : Fin 64} (h : Keeps s0 s) : Keeps s0 (State.restoreModule m s) := by
  unfold State.restoreModule
  repeat' (first
    | with_reducible assumption | with_reducible apply ite_keeps | with_reducible apply State.startCells_keeps
    | with_reducible apply State.modMest_keeps | split | dsimp only)

theorem State.restoreEst_keeps (h : Keeps s0 s) : Keeps s0 (State.restoreEst s) := by
  unfold State.restoreEst
  repeat' (first
    | with_reducible assumption | with_reducible apply ite_keeps
    | with_reducible refine foldl_keeps ?_ (fun t x ht => ?_) | with_reducible apply State.restoreModule_keeps
    | with_reducible apply modEst_keeps | with_reducible apply State.modSest_keeps | split | dsimp only
    | with_reducible apply freeCtr_keeps)

theorem State.loseRegion_keeps {j : Nat} (h : Keeps s0 s) : Keeps s0 (State.loseRegion s j) := by
  unfold State.loseRegion
  repeat' (first
    | with_reducible assumption | with_reducible refine modPower_keeps ?_ (fun _ => ⟨rfl, id⟩)
    | with_reducible apply modPower_keeps | exact fun _ => ⟨rfl, id⟩ | with_reducible apply modChg_keeps
    | with_reducible apply State.modLow_keeps | with_reducible apply State.openEvent_keeps | split
    | dsimp only)

theorem State.restoreRetention_keeps (h : Keeps s0 s) : Keeps s0 (State.restoreRetention s) := by
  unfold State.restoreRetention
  repeat' (first
    | with_reducible assumption | with_reducible apply ite_keeps
    | with_reducible refine foldl_keeps ?_ (fun t x ht => ?_) | with_reducible apply State.openEvent_keeps
    | with_reducible apply State.storeOpen_keeps | with_reducible apply State.writeLost_keeps
    | with_reducible refine modPower_keeps ?_ (fun _ => ⟨rfl, id⟩) | with_reducible apply modPower_keeps
    | exact fun _ => ⟨rfl, id⟩ | split | dsimp only)

theorem State.compareStore_keeps (h : Keeps s0 s) : Keeps s0 (State.compareStore s) := by
  unfold State.compareStore
  repeat' (first
    | with_reducible assumption | with_reducible apply ite_keeps | with_reducible apply State.openEvent_keeps
    | with_reducible refine modPower_keeps ?_ (fun _ => ⟨rfl, id⟩) | with_reducible apply modPower_keeps
    | exact fun _ => ⟨rfl, id⟩ | with_reducible apply State.storeSequencer_keeps | split | dsimp only)

theorem State.restoreAll_keeps {badTables : List Nat} {badSecure : List Nat} {badRegions : BitVec 8} (h : Keeps s0 s) : Keeps s0 (State.restoreAll badTables badSecure badRegions s) := by
  unfold State.restoreAll
  repeat' (first
    | with_reducible assumption | with_reducible refine foldl_keeps ?_ (fun t x ht => ?_)
    | with_reducible apply State.loseRegion_keeps | with_reducible apply State.modNvm_keeps
    | with_reducible apply State.dropSecure_keeps | with_reducible apply State.loadTables_keeps
    | with_reducible apply State.loadParams_keeps | with_reducible apply State.renewStreams_keeps
    | with_reducible apply State.rebuildRings_keeps | with_reducible apply State.restoreEst_keeps
    | with_reducible apply State.restoreCounters_keeps | with_reducible apply State.compareStore_keeps
    | with_reducible apply State.restoreRetention_keeps)

end Sys2Proof.Machine
end

