-- ==== Sys2Proof/Laws/KeepFirmware.lean ====
section
/-! SUPPORT. What the operations and meanings of `Machine/Firmware.lean` keep (`Keeps`). -/

namespace Sys2Proof.Machine

variable {s0 s : State}

theorem execFwOpen_keeps {r : Req} (h : Keeps s0 s) : KeepsOut s0 (execFwOpen r s) := by
  unfold execFwOpen
  repeat' (first
    | with_reducible assumption | with_reducible apply ok_keeps | with_reducible apply no_keeps
    | with_reducible apply iteRes_keeps | with_reducible apply next_keeps | with_reducible apply iteOut_keeps
    | with_reducible apply ite_keeps | with_reducible refine foldl_keeps ?_ (fun t x ht => ?_)
    | with_reducible refine runOp_keeps ?_ (fun t ht => ?_) | with_reducible apply State.needSmu_keeps
    | with_reducible apply State.modFw_keeps | with_reducible apply State.modNvm_keeps)

theorem execFwWrite_keeps {r : Req} (h : Keeps s0 s) : KeepsOut s0 (execFwWrite r s) := by
  unfold execFwWrite
  repeat' (first
    | with_reducible assumption | with_reducible apply ok_keeps | with_reducible apply no_keeps
    | with_reducible apply iteRes_keeps | with_reducible apply next_keeps | with_reducible apply iteOut_keeps
    | with_reducible apply ite_keeps | with_reducible refine foldl_keeps ?_ (fun t x ht => ?_)
    | with_reducible refine runOp_keeps ?_ (fun t ht => ?_) | with_reducible apply State.needSmu_keeps
    | with_reducible apply State.modNvm_keeps | with_reducible apply State.modFw_keeps | split | dsimp only)

theorem execFwAbort_keeps {r : Req} (h : Keeps s0 s) : KeepsOut s0 (execFwAbort r s) := by
  unfold execFwAbort
  repeat' (first
    | with_reducible assumption | with_reducible apply ok_keeps | with_reducible apply no_keeps
    | with_reducible apply next_keeps | with_reducible refine runOp_keeps ?_ (fun t ht => ?_)
    | with_reducible apply State.needSmu_keeps | with_reducible apply State.modFw_keeps | split | dsimp only)

theorem execFwFinish_keeps {r : Req} {sigOk : Bool} {hashOk : Bool} {keyOk : Bool} (h : Keeps s0 s) : KeepsOut s0 (execFwFinish r sigOk hashOk keyOk s) := by
  unfold execFwFinish
  repeat' (first
    | with_reducible assumption | with_reducible apply ok_keeps | with_reducible apply no_keeps
    | with_reducible apply iteRes_keeps | with_reducible apply next_keeps | with_reducible apply iteOut_keeps
    | with_reducible apply ite_keeps | with_reducible refine runOp_keeps ?_ (fun t ht => ?_)
    | with_reducible apply State.needSmu_keeps | with_reducible apply State.modFw_keeps
    | with_reducible apply State.modNvm_keeps | with_reducible apply State.custStart_keeps | split
    | dsimp only)

theorem State.startTrial_keeps {slot : Fin 2} (h : Keeps s0 s) : Keeps s0 (State.startTrial slot s) := by
  unfold State.startTrial
  repeat' (first
    | with_reducible assumption | with_reducible apply State.storeOpen_keeps
    | with_reducible apply State.modFw_keeps | with_reducible apply State.raise_keeps)

theorem execFwActivate_keeps {r : Req} (h : Keeps s0 s) : KeepsOut s0 (execFwActivate r s) := by
  unfold execFwActivate
  repeat' (first
    | with_reducible assumption | with_reducible apply ok_keeps | with_reducible apply wait_keeps
    | with_reducible apply no_keeps | with_reducible apply iteRes_keeps | with_reducible apply next_keeps
    | with_reducible apply iteOut_keeps | with_reducible apply ite_keeps
    | with_reducible apply State.settle_keeps | with_reducible refine runOp_keeps ?_ (fun t ht => ?_)
    | with_reducible apply State.needSmu_keeps | with_reducible apply State.hawkReset_keeps
    | with_reducible apply State.startTrial_keeps | with_reducible apply State.modFw_keeps | split
    | dsimp only)

theorem execFwCommit_keeps {r : Req} (h : Keeps s0 s) : KeepsOut s0 (execFwCommit r s) := by
  unfold execFwCommit
  repeat' (first
    | exact SecState.raise_ok _ | with_reducible assumption | with_reducible apply ok_keeps
    | with_reducible apply no_keeps | with_reducible apply iteRes_keeps | with_reducible apply next_keeps
    | with_reducible apply iteOut_keeps | with_reducible apply ite_keeps
    | with_reducible refine runOp_keeps ?_ (fun t ht => ?_) | with_reducible apply State.needSmu_keeps
    | with_reducible apply State.storeOpen_keeps | with_reducible apply State.modFw_keeps
    | with_reducible apply State.raise_keeps
    | with_reducible refine modSec_keeps ?_ (fun _ => SecState.same rfl rfl rfl rfl rfl)
    | with_reducible apply modSec_keeps | exact fun _ => SecState.same rfl rfl rfl rfl rfl | split
    | dsimp only)

theorem execTrialTimeout_keeps (h : Keeps s0 s) : KeepsOut s0 (execTrialTimeout s) := by
  unfold execTrialTimeout
  repeat' (first
    | with_reducible assumption | with_reducible apply next_keeps | with_reducible apply iteOut_keeps
    | with_reducible apply ite_keeps | with_reducible apply atLeast_keeps
    | with_reducible apply State.settle_keeps | with_reducible apply State.hawkReset_keeps
    | with_reducible apply State.trialFails_keeps)

theorem State.countBoot_keeps (h : Keeps s0 s) : Keeps s0 (State.countBoot s) := by
  unfold State.countBoot
  repeat' (first
    | with_reducible assumption | with_reducible apply ite_keeps | with_reducible apply State.modFw_keeps
    | with_reducible apply State.modWd_keeps | with_reducible apply State.trialFails_keeps)

theorem State.setEngines_keeps {slot : Fin 2} (h : Keeps s0 s) : Keeps s0 (State.setEngines slot s) := by
  unfold State.setEngines
  repeat' (first
    | with_reducible assumption | with_reducible apply ite_keeps | with_reducible apply State.modFw_keeps
    | split | dsimp only)

theorem State.enginesNow_keeps (h : Keeps s0 s) : Keeps s0 (State.enginesNow s) := by
  unfold State.enginesNow
  repeat' (first
    | with_reducible assumption | with_reducible apply State.applyFloat_keeps
    | with_reducible refine eachGroup_keeps ?_ (fun x t ht => ?_)
    | with_reducible apply State.applyEngines_keeps)

theorem State.answerActivate_keeps (h : Keeps s0 s) : Keeps s0 (State.answerActivate s) := by
  unfold State.answerActivate
  repeat' (first
    | with_reducible assumption | with_reducible apply ite_keeps | with_reducible apply State.complete_keeps
    | with_reducible apply State.modFw_keeps | split | dsimp only)

theorem State.answerRecord_keeps (h : Keeps s0 s) : Keeps s0 (State.answerRecord s) := by
  unfold State.answerRecord
  repeat' (first
    | with_reducible assumption | with_reducible apply ite_keeps
    | with_reducible refine foldl_keeps ?_ (fun t x ht => ?_) | with_reducible apply State.finish_keeps)

theorem State.startParts_keeps (h : Keeps s0 s) : Keeps s0 (State.startParts s) := by
  unfold State.startParts
  repeat' (first
    | with_reducible assumption | with_reducible apply ite_keeps
    | with_reducible refine foldl_keeps ?_ (fun t x ht => ?_) | with_reducible apply State.wdRestart_keeps
    | with_reducible apply State.ethRestart_keeps | with_reducible apply State.calibrate_keeps
    | with_reducible apply State.portEnable_keeps | with_reducible apply State.startEnumeration_keeps
    | with_reducible apply State.modLow_keeps | with_reducible apply State.runsAgain_keeps)

theorem State.bootSlotNow_keeps {slot : Fin 2} {fallback : Bool} {badTables : List Nat} {badSecure : List Nat} {badRegions : BitVec 8} (h : Keeps s0 s) : Keeps s0 (State.bootSlotNow slot fallback badTables badSecure badRegions s) := by
  unfold State.bootSlotNow
  repeat' (first
    | with_reducible assumption | with_reducible apply ite_keeps
    | with_reducible refine foldl_keeps ?_ (fun t x ht => ?_)
    | with_reducible refine modSys_keeps ?_ (fun _ hx => hx) | with_reducible apply modSys_keeps
    | exact fun _ hx => hx | with_reducible apply State.setEngines_keeps
    | with_reducible refine modSafety_keeps ?_ (fun _ hx => hx) | with_reducible apply modSafety_keeps
    | exact fun _ hx => hx | with_reducible apply State.startParts_keeps
    | with_reducible apply State.restoreAll_keeps | with_reducible apply modLink_keeps
    | with_reducible apply State.openEvent_keeps | with_reducible refine modHost_keeps ?_ (fun _ hx => hx)
    | with_reducible apply modHost_keeps | exact fun _ hx => hx
    | with_reducible apply State.answerRecord_keeps | with_reducible apply State.answerActivate_keeps
    | with_reducible apply State.enginesNow_keeps | with_reducible apply State.writePoints_keeps
    | with_reducible apply State.serveHeld_keeps | with_reducible apply State.custStart_keeps)

theorem State.enterRecovery_keeps (h : Keeps s0 s) : Keeps s0 (State.enterRecovery s) := by
  unfold State.enterRecovery
  repeat' (first
    | with_reducible assumption | with_reducible refine foldl_keeps ?_ (fun t x ht => ?_)
    | with_reducible refine modSys_keeps ?_ (fun _ hx => hx) | with_reducible apply modSys_keeps
    | exact fun _ hx => hx | with_reducible apply State.setParam_keeps
    | with_reducible apply State.runsAgain_keeps | with_reducible apply State.portEnable_keeps
    | with_reducible apply State.pickService_keeps | with_reducible apply State.safeState_keeps
    | with_reducible apply State.serveHeld_keeps)

theorem execFirmwareBoot_keeps {validA : Bool} {validB : Bool} {badTables : List Nat} {badSecure : List Nat} {badRegions : BitVec 8} (h : Keeps s0 s) : KeepsOut s0 (execFirmwareBoot validA validB badTables badSecure badRegions s) := by
  unfold execFirmwareBoot
  repeat' (first
    | with_reducible assumption | with_reducible apply next_keeps | with_reducible apply iteOut_keeps
    | with_reducible apply ite_keeps | with_reducible apply State.countBoot_keeps
    | with_reducible apply State.modWd_keeps | with_reducible apply State.raise_keeps
    | with_reducible apply State.settle_keeps | with_reducible apply State.bootSlotNow_keeps
    | with_reducible apply State.enterRecovery_keeps | split | dsimp only)

end Sys2Proof.Machine
end

