-- ==== Sys2Proof/Laws/KeepSafeLine.lean ====
section
/-! SUPPORT. What the operations and meanings of `Machine/SafeLine.lean` keep (`Keeps`). -/

namespace Sys2Proof.Machine

variable {s0 s : State}

theorem State.recordExternal_keeps (h : Keeps s0 s) : Keeps s0 (State.recordExternal s) := by
  unfold State.recordExternal
  repeat' (first
    | with_reducible assumption | with_reducible refine modPower_keeps ?_ (fun _ => ⟨rfl, id⟩)
    | with_reducible apply modPower_keeps | exact fun _ => ⟨rfl, id⟩
    | with_reducible refine modSafety_keeps ?_ (fun _ hx => hx) | with_reducible apply modSafety_keeps
    | exact fun _ hx => hx)

theorem execFaultNExternalLow_keeps {low : Bool} (h : Keeps s0 s) : KeepsOut s0 (execFaultNExternalLow low s) := by
  unfold execFaultNExternalLow
  repeat' (first
    | with_reducible assumption | with_reducible apply next_keeps | with_reducible apply iteOut_keeps
    | with_reducible apply ite_keeps | with_reducible refine modSafety_keeps ?_ (fun _ hx => hx)
    | with_reducible apply modSafety_keeps | exact fun _ hx => hx | with_reducible apply State.wakeBy_keeps
    | with_reducible apply State.settle_keeps | with_reducible apply State.faultNFalls_keeps
    | with_reducible apply State.recordExternal_keeps | with_reducible apply State.raise_keeps)

theorem State.levelCauses_keeps (h : Keeps s0 s) : Keeps s0 (State.levelCauses s) := by
  unfold State.levelCauses
  repeat' (first
    | with_reducible assumption | with_reducible refine modSafety_keeps ?_ (fun _ hx => hx)
    | with_reducible apply modSafety_keeps | exact fun _ hx => hx
    | with_reducible apply State.inputLevel_keeps | with_reducible apply State.scrimLevel_keeps)

theorem execFaultNRelease_keeps (h : Keeps s0 s) : KeepsOut s0 (execFaultNRelease s) := by
  unfold execFaultNRelease
  repeat' (first
    | with_reducible assumption | with_reducible apply next_keeps | with_reducible apply iteOut_keeps
    | with_reducible apply ite_keeps | with_reducible apply State.levelCauses_keeps
    | with_reducible refine modSafety_keeps ?_ (fun _ hx => hx) | with_reducible apply modSafety_keeps
    | exact fun _ hx => hx | with_reducible apply atLeast_keeps
    | with_reducible apply State.recordExternal_keeps | with_reducible apply State.raise_keeps)

theorem execDieLinkTimeout_keeps (h : Keeps s0 s) : KeepsOut s0 (execDieLinkTimeout s) := by
  unfold execDieLinkTimeout
  repeat' (first
    | with_reducible assumption | with_reducible apply next_keeps | with_reducible apply iteOut_keeps
    | with_reducible apply ite_keeps | with_reducible apply State.settle_keeps
    | with_reducible apply State.safeState_keeps | with_reducible refine modSafety_keeps ?_ (fun _ hx => hx)
    | with_reducible apply modSafety_keeps | exact fun _ hx => hx)

theorem execDieLinkRestored_keeps (h : Keeps s0 s) : KeepsOut s0 (execDieLinkRestored s) := by
  unfold execDieLinkRestored
  repeat' (first
    | with_reducible assumption | with_reducible apply next_keeps | with_reducible apply iteOut_keeps
    | with_reducible apply ite_keeps | with_reducible refine modSafety_keeps ?_ (fun _ hx => hx)
    | with_reducible apply modSafety_keeps | exact fun _ hx => hx)

end Sys2Proof.Machine
end

