-- ==== Sys2Proof/WellFormed.lean ====
section
/-! DEFINITION. Which commands a sender can form: sizes of frames and payloads, and the numbers of
objects that the hardware has. One arm per command; the meanings are total and answer also where a
command is not well formed. -/

namespace Sys2Proof

/-- The payload of a frame: 4,080 bytes, and 16 fewer where the frame carries a tag (02 R34). -/
def Req.payloadMax (r : Req) : Nat :=
  if r.via.transport = .smuAuth then 4064 else 4080

/-- A mailbox frame is at most 4,096 bytes, header and tag counted (02 R34). -/
def Req.ok (r : Req) : Bool := decide (r.payload.length ≤ r.payloadMax)

/-- Rails 0 to 9 are Undercoat rails, 10 to 25 EX slots (12). -/
def railOk (rail : Fin 32) : Bool := decide (rail.val < 26)

/-- One reading per place, and as many as the hardware has. -/
def countOk {α : Type} (n : Nat) (l : List α) : Bool := decide (l.length = n)

/-- A command that the block's surroundings can form. -/
def WellFormed (i : Instr) : Bool :=
  match i with
  | .smuDatagram _ _ _ frame => decide (frame.length ≤ 9170)
  | .smuSegmentReassemblyTimeout _ _ _ _ => true
  | .serviceUartFrame coded fe => decide (fe ≤ coded.length + 1)
  | .uartInterByteTimeout part => decide (part ≠ [])
  | .tw0SubmitRequest buffer => decide (buffer.length ≤ 4096)
  | .tw0ReleaseResponse => true
  | .tw0StatusRead => true
  | .tw0AttnCauseRead => true
  | .attentionWrite _ => true
  | .tw0IslandResetRelease _ _ => true
  | .tw0IslandCycle => true
  | .ownerAttach r => r.ok
  | .ownerDetach r => r.ok
  | .ownerReset r => r.ok
  | .ownerProvision r => r.ok
  | .leaseAcquire r => r.ok
  | .leaseRenew r => r.ok
  | .leaseRelease r => r.ok
  | .leaseLapse => true
  | .paramGet r => r.ok
  | .paramSet r => r.ok
  | .paramGetBlock r => r.ok
  | .paramSave r => r.ok
  | .paramDefaults r => r.ok
  | .paramDescribe r => r.ok
  | .tableInfo r => r.ok
  | .tableOpen r => r.ok
  | .tableWrite r => r.ok
  | .tableCommit r => r.ok
  | .tableAbort r => r.ok
  | .tableRead r => r.ok
  | .tableDelete r => r.ok
  | .phaseStatus r => r.ok
  | .phaseTelemetry r => r.ok
  | .phaseCounters r => r.ok
  | .phaseRestore r => r.ok
  | .phaseReplaced r => r.ok
  | .phaseFaultInject r => r.ok
  | .dfltAsserted _ _ => true
  | .fastTrip _ _ => true
  | .sdStuckDetect _ => true
  | .sdClkLostDetect _ => true
  | .senseFlagClear _ _ _ => true
  | .trowelUpdate _ _ => true
  | .deadtimeLimit _ => true
  | .commitBoundary _ _ => true
  | .periodStart _ ripple => decide (ripple.length ≤ 64)
  | .openLegDetect _ => true
  | .senseImplausibleDetect _ => true
  | .zeroCurrentOffsetDetect _ => true
  | .senseSumRecord _ => true
  | .shadowEnd _ => true
  | .wearLimitReached _ => true
  | .phaseThermalInput _ => true
  | .outerLoopSample _ inputs => decide (inputs.length ≤ 20)
  | .lightLoadStageEntry _ => true
  | .rampDownComplete _ => true
  | .scheduledSetpointEffect => true
  | .groupStatus r => r.ok
  | .groupTelemetry r => r.ok
  | .groupSetpoint r => r.ok
  | .groupCancel r => r.ok
  | .groupFaultAck r => r.ok
  | .groupLimits r => r.ok
  | .telemetryWindowEnd _ => true
  | .syncInEdge _ => true
  | .syncLossTimeout _ => true
  | .limitSetCheck means _ => decide (means.length ≤ 8)
  | .pairFrameSend => true
  | .pairFrameReceive _ _ _ _ => true
  | .pairLost => true
  | .pairTransactionTimeout _ => true
  | .pairStatus r => r.ok
  | .pairEnable r => r.ok
  | .pairTakeEffect _ => true
  | .pairEnableTimeout _ => true
  | .pairDisable r => r.ok
  | .pairDisableEffect _ => true
  | .pairHandover r => r.ok
  | .pairHandoverEffect _ => true
  | .stringEvaluation _ => true
  | .stringStatus r => r.ok
  | .chargeFaultRead r => r.ok
  | .profileRestart r => r.ok
  | .sleepEnter r _ => r.ok
  | .dustSheetEnter r _ => r.ok
  | .lowPowerStateReached => true
  | .wake r => r.ok
  | .wakeSource code => decide (code ≠ 0)
  | .realTimeAlarm => true
  | .ccWakeThreshold _ => true
  | .wakeComplete _ => true
  | .feedEvaluation _ _ inputs => decide (inputs.length ≤ 20)
  | .feedOvercurrentTrip _ _ => true
  | .feedReverseTurnOff _ _ => true
  | .feedBlockingRearm _ => true
  | .feedBlockTimeout _ => true
  | .feedRetryWaitEnd _ => true
  | .feedBusOv _ => true
  | .feedSwitchLost _ => true
  | .feedPgDelayExpiry _ => true
  | .feedRetryClear _ => true
  | .feedStatus r => r.ok
  | .feedArm r => r.ok
  | .feedOpen r => r.ok
  | .contactorStatus r => r.ok
  | .contactorClose r => r.ok
  | .contactorOpen r => r.ok
  | .contactorWeldTest r => r.ok
  | .contactorWeldClear r => r.ok
  | .contactorAutoPrecharge _ => true
  | .prechargeComplete _ => true
  | .prechargeTimeout _ => true
  | .contactorFeedbackChange _ _ => true
  | .contactorCloseTimeout _ => true
  | .contactorOpenTimeout _ => true
  | .contactorDropped _ => true
  | .weldTestTimeout _ => true
  | .housekeepingRun _ readings amps => decide (readings.length ≤ 16) && decide (amps.length ≤ 16)
  | .selfCalibrationComplete _ _ => true
  | .sequenceTrigger _ => true
  | .sequenceRunComplete _ codes => decide (codes.length ≤ 32)
  | .sequenceTableActivation => true
  | .boardCalibrationComplete sum least most => decide (1024 * least.toNat ≤ sum) && decide (sum ≤ 1024 * most.toNat)
  | .comparatorAssert _ _ => true
  | .comparatorRelease _ _ => true
  | .vsdInputInvalid _ => true
  | .vsdInputValid _ => true
  | .modulatorClockLost _ _ => true
  | .coulombTick counts => countOk 4 counts
  | .coulombTelemetryInterval _ => true
  | .measRead r => r.ok
  | .measVsdRead r => r.ok
  | .measTrigger r => r.ok
  | .measCalibrate r => r.ok
  | .measCmpStatus r => r.ok
  | .measCmpClear r => r.ok
  | .ccRead r => r.ok
  | .ccReset r => r.ok
  | .measSeqStatus r => r.ok
  | .chainReceiverLock _ _ => true
  | .ringStateChange _ _ => true
  | .enumerationEnd found _ _ _ _ => decide (found.length ≤ 64)
  | .delayMeasurement _ _ deltas => decide (deltas.length ≤ 64)
  | .markSend _ => true
  | .sampleInstant => true
  | .sweepReadsStart => true
  | .chainReply _ _ => true
  | .chainReadTimeout _ => true
  | .sweepComplete => true
  | .sweepDeadline => true
  | .moduleChainLost _ => true
  | .balanceRequestSend _ => true
  | .chainPortStop _ => true
  | .chainStatus r => r.ok
  | .chainEnumerate r => r.ok
  | .chainModuleRead r => r.ok
  | .chainBalance r => r.ok
  | .chainNodeCmd r => r.ok
  | .chainProbe r => r.ok
  | .moduleAccept r => r.ok
  | .floatUpdate _ => true
  | .cellDiverged _ _ => true
  | .tempStale _ => true
  | .balancingDecision => true
  | .learningInterval => true
  | .reducedRateEntry => true
  | .fullRateResume => true
  | .hibernateEntry => true
  | .hibernateRecord => true
  | .endOfLife _ => true
  | .estStatusRead r => r.ok
  | .estCellRead r => r.ok
  | .estLearnNow r => r.ok
  | .estSetSoc r => r.ok
  | .estRelearn r => r.ok
  | .stippleSweepStart _ => true
  | .stipplePointStart _ => true
  | .stipplePointEnd _ _ => true
  | .stippleDeferTimeout _ => true
  | .stippleSweepEnd _ => true
  | .stippleStart r => r.ok
  | .stippleAbort r => r.ok
  | .stippleStatus r => r.ok
  | .stippleResult r => r.ok
  | .auxRise _ => true
  | .sequencerStageStart => true
  | .railPowerGood rail _ => railOk rail
  | .railRiseTimeout rail cause _ => railOk rail && decide (cause ∈ [1, 3, 4, 5])
  | .dDieResetRelease _ _ banks => countOk 8 banks
  | .criticalRailFault rail cause _ => railOk rail && decide (cause ∈ [2, 3, 4, 5])
  | .noncriticalRailFault rail cause _ => railOk rail && decide (cause ∈ [2, 3, 4, 5])
  | .downSequenceStage => true
  | .sequenceRetryWaitEnd => true
  | .lockoutExit => true
  | .sequenceRetryReset => true
  | .stepNAdvance => true
  | .stepNTimeout => true
  | .auxBrownOut _ => true
  | .auxReturn _ => true
  | .rideThroughExpiry => true
  | .holdReadyChange _ => true
  | .retentionLoss => true
  | .railStatus r => r.ok
  | .railOn r => r.ok
  | .railOff r => r.ok
  | .railHistory r => r.ok
  | .faultNExternalLow _ => true
  | .faultNRelease => true
  | .dieLinkTimeout => true
  | .referenceFailure _ => true
  | .ppsInEdge _ _ => true
  | .ppsSourceLoss => true
  | .holdoverTimeout => true
  | .primarySourceReturn => true
  | .ppsOutPulse => true
  | .tbStatusRead r => r.ok
  | .tbAlignNow r => r.ok
  | .tbSetTod r => r.ok
  | .thermalEvaluation _ => true
  | .thermalGraceExpiry => true
  | .thermalRelease => true
  | .hardwareThermalTrip _ _ _ => true
  | .thermalTripRelease => true
  | .diodeBroken _ _ => true
  | .nvmWriteHold => true
  | .nvmWriteResume => true
  | .pvtMeasurement readings counts => countOk 16 readings && countOk 16 counts
  | .droopEvent _ _ => true
  | .hotHourCount => true
  | .thStatusRead r => r.ok
  | .thPvtRead r => r.ok
  | .watchdogKick _ => true
  | .watchdogWarning => true
  | .watchdogExpiry _ => true
  | .hawkResetHoldEnd => true
  | .watchdogHoldTimeout => true
  | .longOpStart => true
  | .longOpEnd => true
  | .longOpSuspendTimeout => true
  | .customerHeartbeatMissing => true
  | .firmwareBoot _ _ _ _ _ => true
  | .wdStatusRead r => r.ok
  | .irqCounts r => r.ok
  | .wdTest r => r.ok
  | .interruptRaise _ => true
  | .interruptRouting => true
  | .irqCountFold => true
  | .icClaimRead _ => true
  | .icEoiWrite _ _ => true
  | .icSwsetWrite _ _ => true
  | .icSwclrWrite _ _ => true
  | .icCfgWrite _ _ _ => true
  | .icStatRead _ _ => true
  | .icThrWrite _ _ _ => true
  | .dmaKick _ _ => true
  | .dmaHaltWrite _ _ => true
  | .dmaChannelDisable _ => true
  | .dmaGlobalDisable => true
  | .dmaResume _ => true
  | .dmaCringRdWrite _ _ => true
  | .dmaBurst _ _ => true
  | .dmaDescriptorComplete _ => true
  | .memDiscard _ => true
  | .memFirstErrClear _ => true
  | .recordAck => true
  | .coreMemoryAccess _ _ _ _ _ => true
  | .registerWrite _ _ _ => true
  | .ringRecordAppend _ => true
  | .streamFlushTimeout _ => true
  | .ringCreate r => r.ok
  | .ringDelete r => r.ok
  | .ringStatus r => r.ok
  | .ringRead r => r.ok
  | .ringAck r => r.ok
  | .ringList r => r.ok
  | .memStatus r => r.ok
  | .ethLinkChange _ _ _ _ => true
  | .ethFrameReceived _ _ => true
  | .ethPortRestart _ => true
  | .ptpSyncReceived _ _ _ => true
  | .ptpDelayReqSend _ => true
  | .ptpMasterSend _ => true
  | .ptpSourceLoss _ => true
  | .prpSupervisionSend => true
  | .prpLanTimeout _ => true
  | .linkStatus r => r.ok
  | .ethRestart r => r.ok
  | .twCycle r => r.ok
  | .tw1Xfer r _ => r.ok
  | .tw1StretchTimeout _ => true
  | .streamCreate r => r.ok
  | .streamDelete r => r.ok
  | .streamStatus r => r.ok
  | .ccAttach _ _ _ => true
  | .ccDetach _ => true
  | .pdSourceCapabilities _ => true
  | .pdPsRdy _ => true
  | .pdMessageReceived _ _ => true
  | .pdHardResetReceived => true
  | .pdRetriesExhausted => true
  | .pdEnterMode _ => true
  | .pdExitMode => true
  | .vbusMonitorBreach _ _ => true
  | .moistureCheck _ => true
  | .sbuCorrosion _ => true
  | .spStatusRead r => r.ok
  | .spPolicyClaim r => r.ok
  | .spPolicyRelease r => r.ok
  | .spPdPolicy r => r.ok
  | .spPdSend r => r.ok
  | .nvmRecordWrite => true
  | .nvmScrub sector _ _ => decide (sector < 1024)
  | .sectorMigrationComplete => true
  | .trialTimeout => true
  | .nvmStatusRead r => r.ok
  | .fwOpen r => r.ok
  | .fwWrite r => r.ok
  | .fwFinish r _ _ _ => r.ok
  | .fwActivate r => r.ok
  | .fwCommit r => r.ok
  | .fwAbort r => r.ok
  | .logRead r => r.ok
  | .fuseRead r => r.ok
  | .fuseBlow r _ _ => r.ok
  | .custCommit r => r.ok
  | .custKeySet r => r.ok
  | .dfltBlankingEnd _ => true
  | .dfltDeasserted _ => true
  | .phaseBankSupplyWindow _ _ _ => true
  | .dieLinkRestored => true
  | .referenceRestored _ => true
  | .pllLockChange _ => true
  | .drpToggle => true
  | .holdUpFlushComplete => true

end Sys2Proof
end

