-- ==== Sys2Proof/Tests/Slice0.lean ====
section
/-! SUPPORT. The author's tests: worked examples and tables of the spec, terms that are not well formed, and for every
statement with premises a state and operands that meet them. -/

open Sys2Proof Sys2Proof.Machine

set_option Elab.async false

namespace Sys2Proof.Tests

/-- O0 attached, with every transport. -/
def sender : Owner := { Owner.initial 0 with state := .attached, transports := 0x0F, secretSet := true }

/-- The state after reset with O0 attached and the link of port 0 up. -/
def base : State :=
  (State.reset.modHost (fun h => { h with owners := vmod h.owners 0 (fun _ => sender) })).modEth 0 (fun x => { x with up := true })

/-- The same with the lease held by O0. -/
def leased : State := base.modHost (fun h => { h with lease := { h.lease with holder := some 0 } })

/-- A request of O0 on authenticated SMU. -/
def rq (payload : List Byte) : Req where
  owner := 0
  via := { transport := .smuAuth, port := 0, addr := 0, udp := 0 }
  tag := 1
  seq := 1
  notifyQueued := false
  noReply := false
  payload := payload

/-- LEASE_RENEW of O0 with tag 1 and sequence number 1, without its integrity field. -/
def header : List Byte := [2, 0, 1, 0, 0x06, 0x0E, 0, 0, 1, 0, 0, 0]

/-- It as an authenticated frame; the tag stands in 16 bytes. -/
def frame0 : List Byte := header ++ zeros 20

/-- It with its CRC. -/
def frameC : List Byte := header ++ leBytes 4 (crc32c header).toNat

/-- It as the UART carries it (18 R486). -/
def cobsC : List Byte := [2, 2, 2, 1, 3, 6, 0x0E, 1, 2, 1, 1, 1, 5] ++ leBytes 4 (crc32c header).toNat

/-- A response that waits on TW0. -/
def held : Response where
  owner := 0
  via := { transport := .tw0, port := 0, addr := 0, udp := 0 }
  raw := none
  tag := 1
  seq := 1
  notifyQueued := false
  noReply := false
  opcode := 0x0E06
  status := 0
  limit := 0
  detail := 0
  payload := []
  crcOnly := false
  notice := false
  wire := []

/-- A fold-back curve of two points (04 R116). -/
def curve : List Byte := [0, 2, 0, 0] ++ zeros 8 ++ [1, 0, 0, 0] ++ zeros 4

/-- Table 01:0F with that curve as its body. -/
def curveTable : Table where
  header := { type := 1, index := 15, version := 1, length := 20, crc := crc32c curve, flags := 0 }
  body := curve
  inMram := false
  sealOk := true
  left := 0
  waiter := none
  commits := 0

/-- The upload of that table, all of it written. -/
def staged : Staging where
  header := curveTable.header
  body := curve
  written := List.replicate 20 true
  tooLong := false
  seenCommit := 0
  held := false

/-- The state with a parameter set, an upload open and a table active. -/
def tables : State :=
  (base.modOwner 0 (fun o => { o with staging := some staged })).modHost (fun h => { h with tables := [(0x010F, curveTable)] })

/-- The group of every channel is active; channel p runs. -/
def active (p : Fin 64) : State := base.modPhase p (fun x => { x with role := .active })

/-- A setpoint of group 7: OFF. -/
def toOff (at_ : Nat) : List Byte := [1, 0, 0, 0] ++ leBytes 8 at_ ++ [7, 0, 0, 0] ++ zeros 8

/-- The one entry of it. -/
def toOffEntry : SetpointEntry := { group := 7, mode := some .off, setpoint := 0, slew := 0 }

/-- Capture ring 2 of O0. -/
def oneRing : Ring where
  base := 0
  sizeLog2 := 12
  owner := 0
  kind := 1
  stop := false
  fixed := false
  wr := 0
  rd := 0
  drop := 0
  notify := 0
  source := 1
  epoch := 0
  records := []
  notified := false
  dropLater := 0
  due := 0

/-- A stream of O0 on that ring. -/
def oneStream : Stream where
  owner := 0
  ring := 2
  portMask := 1
  addr := 1
  udp := 1
  records := 1
  flushMs := 1
  createNo := 0
  dseq := 0
  deferrals := 0
  paused := false
  oldest := some 0

/-- The state with ring 2 and stream 31. -/
def streaming : State :=
  (base.modSys (fun y => { y with ring := { y.ring with rings := [(2, oneRing)] } })).modLink (fun l =>
    { l with streams := vmod l.streams 31 (fun _ => some oneStream) })

/-- What the partner reports for pairing with group 7, in STANDBY. -/
def peer : PeerEnable where
  identity := 0
  names := Config.devId
  namesGroup := 7
  group := 7
  fsw := 100000
  droop := 100
  fault := false
  mode := 1
  low := true
  lead := 0
  strap := false

/-- The state with group 7 in STANDBY on string port 3 and able to precharge it from the bus. -/
def ready3 (s : State) : State :=
  (((((s.setParam (grId 7 2) 3).setParam (grId 7 3) 1).modGroup 7 (fun x => { x with mode := .standby })).modFeed 0
    (fun x => { x with run := .on })).modBus (fun b => { b with busPg := true })).modHost (fun h =>
    { h with tables := [(0x0B00, curveTable)] })

/-- The state with group 0 in PRECHARGE on string port 0, matched, and no contactor waiting for it. -/
def alone : State := (base.setParam (grId 0 2) 0).modGroup 0 (fun x => { x with mode := .precharge, matchSince := some 0 })

/-- A pair frame of zeros with its CRC (05 R151). -/
def pairFrame : List Byte := zeros 1228 ++ [0x0F, 0x7A, 0xB1, 0xDF]

/-- The CRC register after each 64 zero bytes from a start. -/
def crcChain : U32 → List U32 → Bool
  | _, [] => true
  | c, d :: ds => ((zeros 64).foldl crcByte c == d) && crcChain d ds

theorem crcChain_run (ds : List U32) (c : U32) (h : crcChain c ds = true) :
    (zeros (64 * ds.length)).foldl crcByte c = ds.getLastD c := by
  induction ds generalizing c with
  | nil => rfl
  | cons d ds ih =>
    simp only [crcChain, Bool.and_eq_true, beq_iff_eq] at h
    have e : zeros (64 * (d :: ds).length) = zeros 64 ++ zeros (64 * ds.length) := by
      rw [zeros, zeros, zeros, List.replicate_append_replicate]; congr 1; simp only [List.length_cons]; omega
    rw [e, List.foldl_append, h.1, ih d h.2]
    cases ds <;> rfl

/-- The register over the first 1,216 bytes of a frame of zeros. -/
def zeroCrcs : List U32 :=
  [0xFC371498, 0xF7D89B24, 0x8BCA87CF, 0x478D4E6F, 0x03D5A233, 0x4509D0C9, 0xCC289DC7, 0xCF03123F, 0x39B9AC6B, 0x1FD80331,
    0x7793E80C, 0xC5C4C2F9, 0xFC7DEB93, 0x0D77C4C0, 0xC011635A, 0x11512183, 0x96321F3C, 0xA8448891, 0x5717CF61]

theorem test_zeroCrcs : crcChain 0xFFFFFFFF#32 zeroCrcs = true := by decide +kernel

theorem test_pair_crc : crc32c (slice pairFrame 0 1228) = 0xDFB17A0F#32 := by
  have e : slice pairFrame 0 1228 = zeros (64 * zeroCrcs.length) ++ zeros 12 := by decide +kernel
  rw [e, crc32c, List.foldl_append, crcChain_run _ _ test_zeroCrcs]
  decide +kernel

/-- The state with a VSD and sequence table in force whose sequence 0 has a trigger. -/
def sequences (trigger : Byte) : State := base.modMeas (fun m => { m with table := some ([1] ++ zeros 1284 ++ [trigger]) })

/-- A board calibration under way, at its gain step. -/
def boardCal : BoardCal := { mode := 2, channel := 47, req := rq [], volts := 5000 }

/-- The state with the chain up on port A, module 63 in the ring map and enabled. -/
def chained : State :=
  (((base.setParam 0x0D00 0x00100007).setParam (moId 63 0) 0x0004FF0B).loadParams).modChain (fun c => { c with
    run := .closed, found := 1, ports := vmod c.ports 0 (fun x => { x with lock := true })
    map := [{ module_ := 63, port := 3, pos := 0 }], modules := vmod c.modules 63 (fun x => { x with run := .ok }) })

/-- A read of module 63 on port A. -/
def oneRead : ChainRequest where
  port := 0
  kind := .sweep
  module_ := 63
  seq := 0
  cmd := 1
  addr := 0
  tries := 0
  reissued := false
  req := none
  payload := []
  start := 0
  slotEnd := 0

/-- A reply frame without data, with a first byte. -/
def replyFrame (b : Byte) : List Byte := [b, 0, 0, 0, 0, 0] ++ leBytes 4 (crc32c [b, 0, 0, 0, 0, 0]).toNat

/-- The same with estimation on, and tables 03:00 and 04:00 active. -/
def estimated : State :=
  (((chained.setParam 0x1200 5).setParam 0x11F8 1).loadParams).modHost (fun h => { h with tables := [(0x0300, curveTable), (0x0400, curveTable)] })

/-- A plan of one point: 1 Hz, 5 cycles. -/
def plan : List Byte := [1, 0, 0, 0] ++ leBytes 4 1000 ++ leBytes 2 10 ++ zeros 6

/-- The state with that plan as table 09:00 and group 7 on string port 3, which is closed. -/
def planned : State :=
  (((leased.setParam 0x1400 1).setParam (grId 7 2) 3).modCont 3 (fun x => { x with run := .closed })).modHost (fun h =>
    { h with tables := [(0x0900, { curveTable with body := plan })] })

/-- The state between two points of a sweep of that plan. -/
def between : State :=
  ((planned.modGroup 7 (fun x => { x with mode := .power, iHi := 1, iLo := -1 })).modPhase 63 (fun x => { x with role := .active })).modSweep 3
    (fun x => { x with run := .gap, plan := plan })

/-- The result of point 0 for module 63. -/
def oneResult : SweepRecord := { point := 0, module_ := 63, freq := 1000, flags := 0, cells := [], bytes := [] }

/-- The state with a rail changed. -/
def rail (i : Nat) (run : RailRun) : State := base.modRail i (fun x => { x with run := run })

/-- The state with the sequencer changed. -/
def sequencer (run : SeqRun) : State := base.modSqr (fun q => { q with run := run })

/-- The state with the stage at hand of an up-sequence finished. -/
def stageDone : State := base.modSqr (fun q => { q with run := .up, stageEnded := true, stage := 3 })

/-- The state with every rail good, off a stage of the down-sequence. -/
def goingDown : State := (rail 0 .good).modSqr (fun q => { q with run := .down, stage := 1 })

/-- The state with every mandatory rail good. -/
def allGood : State := base.modPower (fun p => { p with rails := p.rails.map (fun x => { x with run := .good }) })

/-- The state with an entry for EX15 stored, which depends on nothing. -/
def slot25 : State :=
  (sequencer .complete).modSqr (fun q => { q with
    store := { q.store with entries := [⟨0x1F, 5, false, false, 0, 10, 0⟩] } })

/-- The state with a channel that has work and credit, and its turn come. -/
def dmaReady : State :=
  (base.modDma 31 (fun x => { x with en := true, run := .running, desc := some (descOf []), credit := 100000 })).modSys
    (fun y => { y with dmaTurn := 31 })

theorem chooseDma_turn {s : State} {d : DmaDesc} {f : Nat} (h : (s.dma s.sys.dmaTurn).next = some d)
    (k : (s.dma s.sys.dmaTurn).burstBytes d ≤ (s.dma s.sys.dmaTurn).credit) :
    State.chooseDma (f + 1) s = some (s.sys.dmaTurn, d, s) := by
  simp [State.chooseDma, h, k]

/-- The state with one audit record in the log. -/
def logged : State :=
  base.modNvm (fun n => { n with records :=
    [{ type := 0x21, key := 0, seq := 1, gen := 0, payload := zeros 64, sector := 900, line := 0, bad := false }] })

/-- Bytes listed from an address on. -/
def indexed : Nat → List Byte → Bank Byte
  | _, [] => []
  | a, b :: bs => (a, b) :: indexed (a + 1) bs

theorem bankGet?_indexed (l : List Byte) (a k : Nat) (h : a ≤ k) : bankGet? k (indexed a l) = l[k - a]? := by
  induction l generalizing a with
  | nil => simp [indexed, bankGet?]
  | cons b bs ih =>
    rcases Nat.eq_or_lt_of_le h with h | h
    · simp [indexed, bankGet?, h]
    · have e : k - a = (k - (a + 1)) + 1 := by omega
      simp only [indexed, bankGet?]
      rw [if_neg (by omega), if_neg (by omega), ih (a + 1) h, e, List.getElem?_cons_succ]

/-- A section header: magic, section 0, header version 1, an empty body. -/
def sectionHeader : List Byte := [0x5A, 0x46, 0x36, 0x34, 0, 1] ++ zeros 506

/-- An upload by O0 of that header alone. -/
def oneUpload : Upload where
  owner := 0
  section_ := 0
  total := 512
  bytes := indexed 0 sectionHeader
  units := [0]

theorem test_upload_length : sectionHeader.length = 512 := by decide +kernel

theorem test_upload_slice : oneUpload.slice 0 512 = sectionHeader := by
  apply List.ext_getElem
  · simp [Upload.slice, test_upload_length]
  · intro i h k
    simp [Upload.slice, oneUpload, bankGet, bankGet?_indexed, List.getElem?_eq_getElem k]

theorem test_upload_format : oneUpload.formatOk = true := by
  have h : oneUpload.has 0 512 = true := by
    simp [Upload.has, oneUpload, bankGet?_indexed, test_upload_length]
  have e : oneUpload.total = 512 := rfl
  simp only [Upload.formatOk, test_upload_slice, h, e]
  decide +kernel

/-- The state that a command answers. -/
def after (c : Instr) (s : State) : State :=
  match exec c s with
  | .next t => t
  | _ => s

theorem exec_after {c : Instr} {s t : State} (h : exec c s = .next t) : exec c s = .next (after c s) := by rw [after, h]

theorem droop_after (mv ns : Nat) (s : State) : exec (.droopEvent mv ns) s = .next (after (.droopEvent mv ns) s) := by
  simp only [after]
  split
  · assumption
  · next h => exact absurd (show ∃ t, exec (.droopEvent mv ns) s = .next t by
      simp only [exec, execDroopEvent]; split <;> exact ⟨_, rfl⟩) (by rintro ⟨t, e⟩; exact h t e)

theorem witness_OnlyTheseOpcodes :
    let listed (op : Nat) : Bool :=
      [(0x0130, 0x0132), (0x0140, 0x0141), (0x0150, 0x0152), (0x0160, 0x0163), (0x0201, 0x0206), (0x0301, 0x0307),
       (0x0401, 0x0406), (0x0501, 0x0506), (0x0601, 0x0603), (0x0610, 0x0612), (0x0701, 0x0708), (0x0801, 0x0809),
       (0x0901, 0x0907), (0x0A01, 0x0A05), (0x0B01, 0x0B04), (0x0C01, 0x0C04), (0x0D01, 0x0D07), (0x0D10, 0x0D12),
       (0x0E01, 0x0E08), (0x0F01, 0x0F0B), (0x1001, 0x1005), (0x1101, 0x1104)].any (fun e => decide (e.1 ≤ op ∧ op ≤ e.2))
    ∃ (op : Nat) (r : Req) (s : State), listed op = false ∧ s.host.record.any (sameCmd r) = false :=
  ⟨0x0D00, rq [], base, by decide +kernel⟩

/-- The state in which a point of port 3 is placed. -/
def pointAt (s : State) : State :=
  let u := s.atDevice (ceilQ (s.stp 3).t0).toNat
  u.modSweep 3 u.takePars

/-- Between two points, without a range for the amplitude. -/
def noRoom : State := between.modGroup 7 (fun x => { x with iHi := 0, iLo := 0 })

/-- Between two points, with a next point that has no whole number of samples. -/
def offGrid : State :=
  between.modSweep 3 (fun x => { x with plan := [1, 0, 0, 0] ++ leBytes 4 1001 ++ leBytes 2 10 ++ zeros 6 })

theorem witness_StippleEvents_cases :
    ((pointAt between).gridOk (between.stp 3).freq (between.stp 3).cycles = true ∧ (pointAt between).placeable 3 = some (3 / 10)) ∧
    ((pointAt noRoom).gridOk (noRoom.stp 3).freq (noRoom.stp 3).cycles = true ∧ (pointAt noRoom).placeable 3 = none ∧
      (noRoom.stp 3).plant = false) ∧
    (let s := noRoom.modSweep 3 (fun x => { x with plant := true })
     (pointAt s).gridOk (s.stp 3).freq (s.stp 3).cycles = true ∧ (pointAt s).placeable 3 = none ∧ (s.stp 3).plant = true) ∧
    (pointAt offGrid).gridOk (offGrid.stp 3).freq (offGrid.stp 3).cycles = false := by decide +kernel
/-! ### Terms that are not well formed -/

/-- A request with a payload of n bytes. -/
def big (n : Nat) : Req := rq (zeros n)

theorem test_wf_payload_auth : WellFormed (.paramGet (big 4065)) = false := by decide +kernel
theorem test_wf_payload_auth_fits : WellFormed (.paramGet (big 4064)) = true := by decide +kernel
theorem test_wf_payload_crc : WellFormed (.ownerAttach { big 4081 with via := uartVia }) = false := by decide +kernel
theorem test_wf_payload_crc_fits : WellFormed (.ownerAttach { big 4080 with via := uartVia }) = true := by decide +kernel
theorem test_wf_tw1_payload : WellFormed (.tw1Xfer (big 4065) .nackAddress) = false := by decide +kernel
theorem test_wf_sleep_payload : WellFormed (.sleepEnter (big 4065) false) = false := by decide +kernel
theorem test_wf_firmware_payload : WellFormed (.fwFinish (big 4065) true true true) = false := by decide +kernel
theorem test_wf_fuse_payload : WellFormed (.fuseBlow (big 4065) true true) = false := by decide +kernel
theorem test_wf_datagram : WellFormed (.smuDatagram 0 0 0 (zeros 9171)) = false := by decide +kernel
theorem test_wf_framing_errors : WellFormed (.serviceUartFrame [1] 3) = false := by decide +kernel
theorem test_wf_empty_part : WellFormed (.uartInterByteTimeout []) = false := by decide +kernel
theorem test_wf_tw0_buffer : WellFormed (.tw0SubmitRequest (zeros 4097)) = false := by decide +kernel
theorem test_wf_ripple : WellFormed (.periodStart 0 (List.replicate 65 (0, [], []))) = false := by decide +kernel
theorem test_wf_loop_inputs : WellFormed (.outerLoopSample 0 (List.replicate 21 (0, []))) = false := by decide +kernel
theorem test_wf_limit_means : WellFormed (.limitSetCheck (List.replicate 9 (0, 0, 0)) 0) = false := by decide +kernel
theorem test_wf_wake_code : WellFormed (.wakeSource 0) = false := by decide +kernel
theorem test_wf_feed_inputs : WellFormed (.feedEvaluation true true (List.replicate 21 (0, []))) = false := by decide +kernel
theorem test_wf_housekeeping_readings : WellFormed (.housekeepingRun 0 (List.replicate 17 (0, 0)) []) = false := by decide +kernel
theorem test_wf_housekeeping_amps : WellFormed (.housekeepingRun 0 [] (List.replicate 17 0)) = false := by decide +kernel
theorem test_wf_sequence_codes : WellFormed (.sequenceRunComplete 0 (List.replicate 33 (0, 0))) = false := by decide +kernel
theorem test_wf_board_least : WellFormed (.boardCalibrationComplete 1023 1 1) = false := by decide +kernel
theorem test_wf_board_most : WellFormed (.boardCalibrationComplete 1025 1 1) = false := by decide +kernel
theorem test_wf_tick_counts : WellFormed (.coulombTick [0, 0, 0]) = false := by decide +kernel
theorem test_wf_delays : WellFormed (.delayMeasurement 0 0 (List.replicate 65 (0, 0))) = false := by decide +kernel
theorem test_wf_rail : WellFormed (.railPowerGood 26 0) = false := by decide +kernel
theorem test_wf_rise_cause : WellFormed (.railRiseTimeout 1 2 0) = false := by decide +kernel
theorem test_wf_rise_rail : WellFormed (.railRiseTimeout 26 1 0) = false := by decide +kernel
theorem test_wf_critical_cause : WellFormed (.criticalRailFault 2 1 0) = false := by decide +kernel
theorem test_wf_critical_rail : WellFormed (.criticalRailFault 31 2 0) = false := by decide +kernel
theorem test_wf_noncritical_cause : WellFormed (.noncriticalRailFault 2 6 0) = false := by decide +kernel
theorem test_wf_noncritical_rail : WellFormed (.noncriticalRailFault 31 2 0) = false := by decide +kernel
theorem test_wf_pvt_readings : WellFormed (.pvtMeasurement [] (List.replicate 16 0)) = false := by decide +kernel
theorem test_wf_pvt_counts : WellFormed (.pvtMeasurement (List.replicate 16 0) []) = false := by decide +kernel
theorem test_wf_scrub : WellFormed (.nvmScrub 1024 0 []) = false := by decide +kernel

/-! ### Values that the spec works out -/

/-- 02 R35: the check value. -/
theorem test_crc_check : crc32c [0x31, 0x32, 0x33, 0x34, 0x35, 0x36, 0x37, 0x38, 0x39] = 0xE3069283#32 := by decide +kernel

/-- 20 Table 20-7. -/
theorem test_parameter_ids :
    phId 45 9 = 0x06D9 ∧ grId 2 0x16 = 0x0856 ∧ stId 2 0xE = 0x092E ∧ ctId 2 3 = 0x0A23 ∧ moId 40 0 = 0x0CA0 ∧
    [0x06D9, 0x0856, 0x092E, 0x0A23, 0x0CA0, 0x1144, 0x0D1D].all (fun id => (paramEntry? id).isSome) = true := by decide +kernel

/-- The set command of 02, "Moving queue depth between owners". -/
def depths : List Byte :=
  [2, 0, 0, 0, 0x13, 1, 0, 1, 0x80, 0, 0, 0, 0, 0, 0, 0, 7, 1, 0, 1, 0x80, 1, 0, 0, 0, 0, 0, 0]

/-- The same for O1 alone. -/
def oneDepth : List Byte := [1, 0, 0, 0, 7, 1, 0, 1, 0x80, 1, 0, 0, 0, 0, 0, 0]

theorem test_depths_pass : base.setRefusal 0 (setItems depths) = none := by decide +kernel
theorem test_one_depth_refused : base.setRefusal 0 (setItems oneDepth) = some (0, stValue, 0x0014) := by decide +kernel

/-- The dead-time settings of P17 (03, "P17 at 100 kHz"). -/
def p17 : DeadTimeCfg := { riseMin := 1600, fallMin := 1600, en := true, fallback := false, qsw := 60, dtMax := 400, ith := 1 / 5 }

theorem test_dead_time_rise : deadTime p17 false (2 / 5) = (2400, true, false) := by decide +kernel
theorem test_dead_time_fall : deadTime p17 true (-13 / 5) = (1600, true, false) := by decide +kernel
theorem test_edge_rise :
    EdgeWord.code { e := 16985, fall := false, noEdge := false, compOff := false, bothOff := false, dt := 2400, epoch := 7 } =
      0x0007096000004259#64 := by decide +kernel
theorem test_edge_fall :
    EdgeWord.code { e := 143015, fall := true, noEdge := false, compOff := false, bothOff := false, dt := 1600, epoch := 7 } =
      0x0007064001022EA7#64 := by decide +kernel

/-- The profile of 06, "A charge held back by the bus". -/
def profile : List Byte :=
  [2, 0, 0, 0, 1, 0, 0, 0, 0x98, 0x3A, 0, 0, 0x10, 0x0E, 0xDE, 0x0D, 0, 0, 0, 0, 0, 0, 0, 0, 0, 0, 0, 0,
    2, 0, 0, 0, 0x98, 0x3A, 0, 0, 0xDE, 0x0D, 0, 0, 0xDC, 5, 0, 0, 0x10, 0x0E, 0, 0, 0, 0, 0, 0]

theorem test_profile_content : profileContent profile = true := by decide +kernel
theorem test_profile_steps :
    profileSteps profile =
      [{ kind := 1, iSet := 15000, vCell := 3600, endV := 3550, endI := 0, endTs := 0 },
       { kind := 2, iSet := 15000, vCell := 3550, endV := 0, endI := 1500, endTs := 3600 }] := by decide +kernel

/-- One tick of CC1 (08, "one tick of string S1"): the window counter wraps. -/
theorem test_coulomb_tick :
    let x := Coulomb.count (-150000) 0 { Coulomb.initial with winChg := 4294967200 }
    x.1.winChg = 54 ∧ x.2 = true ∧ x.1.charge = -150000 ∧ x.1.tick = -150000 := by decide +kernel

/-- The heatsink channel of 08: corrected code 15,049, R0 and pull-up 10,000.0, Beta 3,435.0. -/
theorem test_ntc : ntcTenths 15049 0x461C4000 0x461C4000 0x4556B000 = 600 := by decide +kernel

/-- The derate curve of 14, "an enclosure fan fails", at 119.0 °C: 70.00% of 208.00 A. -/
theorem test_derate :
    let b : List Byte := [0, 3, 0, 0] ++ leBytes 4 1100 ++ leBytes 2 10000 ++ leBytes 2 10000 ++ leBytes 4 1250 ++ leBytes 2 5000 ++
      leBytes 2 5000 ++ leBytes 4 1340 ++ zeros 4
    curveRange b 1190 208 = (-(728 / 5), 728 / 5) := by decide +kernel

/-- 17, "A RING_READ response over a 1,500-byte path": three segments. -/
theorem test_segments : (base.eth 0).datagrams 4080 = 3 := by decide +kernel

/-- The UART form of a frame is read back (18 R486). -/
theorem test_cobs : cobs (cobsC.length + 1) cobsC = some frameC := by decide +kernel

/-- The frame is whole and its CRC is right (02 R34, R35). -/
theorem test_frame : frameWhole uartVia frameC = true := by decide +kernel

/-! ### Premises that can be met -/
theorem witness_IdleStep :
    (∃ (s : State),
      s.pending = []) :=
  ⟨base, by decide +kernel⟩

theorem witness_EveryCommandCompletes :
    (∃ (c : Instr) (rest : List Instr) (s : State),
      s.pending = c :: rest) :=
  ⟨.drpToggle, [], { base with pending := [.drpToggle] }, rfl⟩

theorem witness_GatesNeverBothHigh :
    (∃ (s t : State),
      s.gatesExclusive ∧ step s = .next t) :=
  ⟨base, _, by decide +kernel, rfl⟩

theorem witness_StoresStayCanonical :
    (∃ (s t : State),
      s.sys.mem.wf ∧ s.host.params.wf ∧ step s = .next t) :=
  ⟨base, _, by decide +kernel, by decide +kernel, rfl⟩

theorem witness_FusesBlowOneWay :
    (∃ (s t : State),
      step s = .next t) ∧
    (∃ (s t : State),
      s.nv.sec.honest ∧ step s = .next t) :=
  ⟨⟨base, _, rfl⟩,
   ⟨base, _, by decide +kernel, rfl⟩⟩

theorem witness_TimeNeverRunsBack :
    (∃ (s t : State),
      step s = .next t) :=
  ⟨base, _, rfl⟩

theorem witness_RefusalChangesNothing :
    (∃ (opcode : Nat) (alts : Alts) (shape : List Byte → Option Nat) (body : State → Res) (r : Req) (s : State),
      (s.precheck opcode alts r ≠ none ∨ shape r.payload ≠ none ∨ ∃ st d p, body s = .fail st d p)) :=
  ⟨0x0301, observe, (fun _ => none), (fun _ => .fail 1 0 []), rq [], State.reset, .inl (by decide +kernel)⟩

theorem witness_MailboxFramesAccepted :
    (∃ (q : Fin 2) (addr : U32) (udp : U16) (b : List Byte) (o : Owner) (s : State),
      let t := s.modLink (LinkState.learn q addr)
      (s.eth q).up = true ∧ (s.eth q).set.ip ≠ 0 ∧ b.length ≤ (s.eth q).maxUdp ∧ numAt b 0 1 = 2 ∧
      t.takesFrame (smuVia q addr udp b) b o) ∧
    (∃ (buffer : List Byte) (a : BitVec 7) (o : Owner) (s : State),
      let buf := (buffer ++ zeros 4096).take 4096
      let b := buf.take (16 + numAt buf 6 2)
      let v : Via := { transport := .tw0, port := 0, addr := 0, udp := 0 }
      let t := (s.twStart 9).modTw (fun w => { w with request := buf, busyUntil := s.clk + 20000 })
      s.link.tw.address = some a ∧ s.link.tw.busyUntil ≤ s.clk ∧ s.twHeld < 16 ∧ numAt buf 6 2 ≤ 4080 ∧ t.takesFrame v b o) ∧
    (∃ (coded b : List Byte) (o : Owner) (s : State),
      s.port.alt = true ∧ coded ≠ [] ∧ coded.length ≤ 4114 ∧ cobs (coded.length + 1) coded = some b ∧
      (s.pickParam 0x1B05).takesFrame uartVia b o) :=
  ⟨⟨0, 1, 2, frameC, { sender with high := 1, window := 1 }, (base.modEth 0 (fun x => { x with set := { x.set with ip := 1 } })), by decide +kernel⟩,
   ⟨frameC, 0x50, { sender with high := 1, window := 1 }, base.modTw (fun x => { x with address := some 0x50 }), by decide +kernel⟩,
   ⟨cobsC, frameC, { sender with high := 1, window := 1 }, base.modSp (fun x => { x with alt := true }), by decide +kernel⟩⟩

theorem witness_MailboxFramingEvents :
    (∃ (q : Fin 2) (addr : U32) (udp id : U16) (x : Reassembly) (s : State),
      s.link.reassemblies.find? (fun y => y.isOf q addr udp id) = some x) ∧
    (∃ (part : List Byte) (s : State),
      s.port.alt = true ∧ part ≠ []) ∧
    (∃ (a : BitVec 7) (x : Response) (xs : List Response) (s : State),
      s.link.tw.address = some a ∧ s.link.tw.queue = x :: xs) ∧
    (∃ (a : BitVec 7) (s : State),
      s.link.tw.address = some a) ∧
    (∃ (a : BitVec 7) (s : State),
      s.link.tw.address = some a) ∧
    (∃ (a : BitVec 7) (s : State),
      s.link.tw.address = some a ∧ s.link.tw.attn = true ∧ bitAt (s.param 0x1A20) 0 = true) ∧
    (∃ (s : State),
      s.link.tw.address = none ∧ s.power.safety.dieRunning = true) :=
  ⟨⟨1, 7, 8, 9, { port := 1, addr := 7, udp := 8, id := 9, count := 2, total := 20, parts := [], since := 0 }, base.modLink (fun l => { l with reassemblies := [{ port := 1, addr := 7, udp := 8, id := 9, count := 2, total := 20, parts := [], since := 0 }] }), by decide +kernel⟩,
   ⟨[1], base.modSp (fun x => { x with alt := true }), by decide +kernel⟩,
   ⟨0x50, held, [], base.modTw (fun x => { x with address := some 0x50, queue := [held] }), by decide +kernel⟩,
   ⟨0x50, base.modTw (fun x => { x with address := some 0x50 }), by decide +kernel⟩,
   ⟨0x50, base.modTw (fun x => { x with address := some 0x50 }), by decide +kernel⟩,
   ⟨0x50, (base.setParam 0x1A20 1).modTw (fun x => { x with address := some 0x50, attn := true }), by decide +kernel⟩,
   ⟨base, by decide +kernel⟩⟩

theorem witness_OwnerCommands :
    (∃ (r : Req) (s : State),
      Ready 0x0E01 anyOwner r s ∧ r.payload.length = 4 ∧ numAt r.payload 0 4 = (s.owner r.owner).epoch.toNat ∧
      s.chg.low.record.left = 0) ∧
    (∃ (r : Req) (s : State),
      Ready 0x0E02 anyOwner r s ∧ r.payload = []) ∧
    (∃ (r : Req) (o : Fin 16) (s : State),
      Ready 0x0E03 anyOwner r s ∧ r.payload.length = 1 ∧ numAt r.payload 0 1 = o.val ∧
      (o = r.owner ∨ s.hasPriv r.owner 4 = true) ∧ (s.owner o).state ≠ .unprovisioned) ∧
    (∃ (r : Req) (o : Fin 16) (s : State),
      Ready 0x0E04 security r s ∧ provisionShape r.payload = none ∧ numAt r.payload 0 1 = o.val ∧ o ≠ 0 ∧
      (s.owner o).state = .unprovisioned ∧ r.via.transport = .smuAuth ∧ numAt r.payload 1 1 ≤ 0x1F ∧ numAt r.payload 2 1 ≤ 0x0F ∧
      numAt r.payload 4 2 ≤ 4096 ∧ numAt r.payload 8 4 ≤ 1572864 ∧
      s.quotaOk o (numAt r.payload 4 2) (numAt r.payload 8 4) = true) :=
  ⟨⟨rq (zeros 4), State.reset.modOwner 0 (fun o => { o with secretSet := true }), by decide +kernel⟩,
   ⟨rq [], base, by decide +kernel⟩,
   ⟨rq [0], 0, base, by decide +kernel⟩,
   ⟨rq ([15, 0x1F, 0x0F, 1, 0, 0, 0, 0, 0, 0, 0, 0] ++ zeros 32), 15, base, by decide +kernel⟩⟩

theorem witness_LeaseCommands :
    (∃ (r : Req) (s : State),
      Ready 0x0E05 control r s ∧ r.payload.length = 1 ∧ numAt r.payload 0 1 < 2 ∧ (numAt r.payload 0 1 = 1 → r.owner = 0) ∧
      (s.host.lease.holder = none ∨ s.host.lease.holder = some r.owner)) ∧
    (∃ (r : Req) (o : Fin 16) (s : State),
      Ready 0x0E05 control r s ∧ r.payload = [1#8] ∧ r.owner = 0 ∧ s.host.lease.holder = some o ∧ o ≠ 0) ∧
    (∃ (r : Req) (s : State),
      Ready 0x0E06 control r s ∧ r.payload = [] ∧ s.host.lease.holder = some r.owner ∧ (∀ t, s.leaseEnd = some t → s.clk < t)) ∧
    (∃ (r : Req) (s : State),
      Ready 0x0E07 anyOwner r s ∧ r.payload = [] ∧ s.host.lease.holder = some r.owner) ∧
    (∃ (t : Nanos) (s : State),
      s.leaseEnd = some t) :=
  ⟨⟨rq [1], base, by decide +kernel⟩,
   ⟨rq [1], 15, base.modHost (fun h => { h with lease := { h.lease with holder := some 15 } }), by decide +kernel⟩,
   ⟨rq [], leased, by decide +kernel, by decide +kernel, by decide +kernel, fun t h => by revert t; decide +kernel⟩,
   ⟨rq [], leased, by decide +kernel⟩,
   ⟨_, leased, rfl⟩⟩

theorem witness_ParameterCommands :
    (∃ (r : Req) (s : State),
      Ready 0x0201 observe r s ∧ countShape 2 (maxItems r.via) r.payload = none ∧
      let ids := (List.range (numAt r.payload 0 2)).map (fun i => numAt r.payload (4 + 2 * i) 2)
      ids.all (fun id => (paramEntry? id).isSome) = true) ∧
    (∃ (r : Req) (s : State),
      Ready 0x0202 [4, 2, 16] r s ∧ countShape 12 (maxItems r.via) r.payload = none ∧
      s.setRefusal r.owner (setItems r.payload) = none ∧ modeGroups (setValues r.payload) = []) ∧
    (∃ (r : Req) (s : State),
      Ready 0x0203 observe r s ∧ r.payload.length = 4 ∧
      let first := numAt r.payload 0 2
      let n := numAt r.payload 2 2
      let ids := ((List.range (min n (0x1C20 - first))).map (first + ·)).filter (fun id => (paramEntry? id).isSome)
      n ≠ 0 ∧ first + n ≤ 0x10000 ∧ ids.length ≤ maxItems r.via) ∧
    (∃ (r : Req) (s : State),
      Ready 0x0204 configure r s ∧ r.payload = [] ∧ s.nvmHeld = false) ∧
    (∃ (r : Req) (s : State),
      Ready 0x0205 configure r s ∧ r.payload = [] ∧ s.allQuiet = true) ∧
    (∃ (r : Req) (e : PEntry) (s : State),
      Ready 0x0206 observe r s ∧ lenZ 4 [(2, 2)] r.payload = none ∧ paramEntry? (numAt r.payload 0 2) = some e) :=
  ⟨⟨rq [1, 0, 0, 0, 8, 0], base, by decide +kernel⟩,
   ⟨rq ([1, 0, 0, 0, 8, 0, 0, 3] ++ zeros 8), base, by decide +kernel⟩,
   ⟨rq [0, 0, 0x20, 0], base, by decide +kernel⟩,
   ⟨rq [], base, by decide +kernel⟩,
   ⟨rq [], base, by decide +kernel⟩,
   ⟨rq [8, 0, 0, 0], (paramEntry? 8).get (by decide +kernel), base, by decide +kernel⟩⟩

theorem witness_TableCommands :
    (∃ (r : Req) (key : Nat) (s : State),
      Ready 0x0302 configure r s ∧ r.payload.length = 16 ∧ numAt r.payload 12 4 ≤ 1 ∧ (s.owner r.owner).staging = none ∧
      keyAt r.payload = some key ∧ numAt r.payload 4 4 ≤ 65536) ∧
    (∃ (r : Req) (g : Staging) (s : State),
      Ready 0x0303 configure r s ∧ 4 ≤ r.payload.length ∧ r.payload.length ≤ 4 + maxBody r.via ∧
      (s.owner r.owner).staging = some g ∧ g.held = false) ∧
    (∃ (r : Req) (g : Staging) (s : State),
      Ready 0x0304 configure r s ∧ r.payload = [] ∧ (s.owner r.owner).staging = some g ∧ g.held = false ∧
      g.header.locked = false ∧
      let key := g.header.type.toNat * 256 + g.header.index.toNat
      s.commitRefusal r g key = none ∧ s.nvmHeld = false) ∧
    (∃ (r : Req) (g : Staging) (s : State),
      Ready 0x0305 configure r s ∧ r.payload = [] ∧ (s.owner r.owner).staging = some g ∧ g.held = false) ∧
    (∃ (r : Req) (key : Nat) (s : State),
      Ready 0x0301 observe r s ∧ lenZ 4 [(2, 2)] r.payload = none ∧ keyAt r.payload = some key) ∧
    (∃ (r : Req) (key : Nat) (x : Table) (s : State),
      Ready 0x0306 observe r s ∧ lenZ 12 [(2, 2)] r.payload = none ∧ keyAt r.payload = some key ∧ 1 ≤ numAt r.payload 8 4 ∧
      numAt r.payload 8 4 ≤ 4048 ∧ s.activeTable key = some x ∧ numAt r.payload 4 4 < x.body.length) ∧
    (∃ (r : Req) (key : Nat) (x : Table) (s : State),
      Ready 0x0307 configure r s ∧ lenZ 4 [(2, 2)] r.payload = none ∧ keyAt r.payload = some key ∧
      bankGet? key s.host.tables = some x ∧ x.header.locked = false ∧ s.tableInUse key = false ∧
      (key = 0x0C00 → s.allQuiet = true)) :=
  ⟨⟨rq ([1, 15, 1, 0] ++ leBytes 4 65536 ++ zeros 4 ++ [1, 0, 0, 0]), 0x010F, base, by decide +kernel⟩,
   ⟨rq (zeros 4), staged, tables, by decide +kernel⟩,
   ⟨rq [], staged, base.modOwner 0 (fun o => { o with staging := some staged }), by decide +kernel⟩,
   ⟨rq [], staged, tables, by decide +kernel⟩,
   ⟨rq [12, 15, 0, 0], 0x0C0F, base, by decide +kernel⟩,
   ⟨rq ([1, 15, 0, 0] ++ leBytes 4 19 ++ leBytes 4 4048), 0x010F, curveTable, tables, by decide +kernel⟩,
   ⟨rq [1, 15, 0, 0], 0x010F, curveTable, tables, by decide +kernel⟩⟩

theorem witness_LinkPortEvents :
    (∃ (q : Fin 2) (s : State),
      (s.eth q).up = false ∧ (s.eth q).set.cfg.getLsbD 0 = true ∧ bitsOf (s.eth q).set.cfg.toNat 3 2 = 0) ∧
    (∃ (q : Fin 2) (f : EthFrame) (sender target : U32) (s : State),
      (s.eth q).up = true ∧ f.fcsOk = true ∧ f.sumOk = true ∧ f.overflow = false ∧ f.vlan = none ∧ f.length ≤ 1518 ∧
      f.dest.getLsbD 40 = true ∧ s.link.prp = false ∧ f.prp = none ∧ (s.eth q).set.ip ≠ 0 ∧ f.payload = .arp sender target true ∧
      target = (s.eth q).set.ip) ∧
    (∃ (q : Fin 2) (s : State),
      (s.eth q).restarting = true ∧ (s.eth q).up = false) ∧
    (∃ (s : State),
      s.link.prp = true) ∧
    (∃ (q : Fin 2) (s : State),
      s.link.prp = true ∧ (s.eth q).lanOk = true) :=
  ⟨⟨1, base, by decide +kernel⟩,
   ⟨0, { dest := 0xFFFFFFFFFFFF, src := 1, vlan := none, prp := none, length := 64, fcsOk := true, sumOk := true, overflow := false, payload := .arp 5 1 true }, 5, 1, base.modEth 0 (fun x => { x with set := { x.set with ip := 1 } }), by decide +kernel⟩,
   ⟨1, base.modEth 1 (fun x => { x with restarting := true }), by decide +kernel⟩,
   ⟨base.modEth 0 (fun x => { x with set := { x.set with cfg := 0x4011 } }), by decide +kernel⟩,
   ⟨1, (base.modEth 0 (fun x => { x with set := { x.set with cfg := 0x4011 } })).modEth 1 (fun x => { x with lanOk := true }), by decide +kernel⟩⟩

theorem witness_PtpEvents :
    (∃ (q : Fin 2) (s : State),
      (s.eth q).ptp = .slave ∧ 2 ≤ (s.eth q).delays.length) ∧
    (∃ (q : Fin 2) (p : PtpParent) (x : Nanos) (s : State),
      (s.eth q).parent = some p ∧ (s.eth q).ptp = .slave ∧ (s.eth q).lastSync = some x) ∧
    (∃ (q : Fin 2) (s : State),
      (s.eth q).ptp = .master) ∧
    (∃ (q : Fin 2) (s : State),
      (s.eth q).ptp = .master) ∧
    (∃ (q : Fin 2) (s : State),
      (s.eth q).ptp = .master) ∧
    (∃ (q : Fin 2) (p : PtpParent) (s : State),
      (s.eth q).parent = some p ∧ (s.eth q).lastSync = none) :=
  ⟨⟨0, base.modEth 0 (fun x => { x with ptp := .slave, delays := [1, 2] }), by decide +kernel⟩,
   ⟨1, { identity := 1, priority1 := 128, clockClass := 6, priority2 := 128, steps := 0, logAnn := 0, logSync := 0, logDreq := 0 }, 0, base.modEth 1 (fun x => { x with ptp := .slave, lastSync := some 0, parent := some { identity := 1, priority1 := 128, clockClass := 6, priority2 := 128, steps := 0, logAnn := 0, logSync := 0, logDreq := 0 } }), by decide +kernel⟩,
   ⟨1, base.modEth 1 (fun x => { x with ptp := .master }), by decide +kernel⟩,
   ⟨1, (base.modEth 1 (fun x => { x with ptp := .master })).modTb (fun x => { x with run := .holdover }), by decide +kernel⟩,
   ⟨1, ((base.modEth 1 (fun x => { x with ptp := .master })).modEth 0 (fun x => { x with parent := some { identity := 1, priority1 := 128, clockClass := 6, priority2 := 128, steps := 0, logAnn := 0, logSync := 0, logDreq := 0 }, set := { x.set with cfg := 0x11 } })).modTb (fun x => { x with run := .locked }), by decide +kernel⟩,
   ⟨1, { identity := 1, priority1 := 128, clockClass := 6, priority2 := 128, steps := 0, logAnn := 0, logSync := 0, logDreq := 0 }, base.modEth 1 (fun x => { x with parent := some { identity := 1, priority1 := 128, clockClass := 6, priority2 := 128, steps := 0, logAnn := 0, logSync := 0, logDreq := 0 } }), by decide +kernel⟩⟩

theorem witness_LinkAndStreamCommands :
    (∃ (r : Req) (s : State),
      Ready 0x0160 observe r s ∧ r.payload = []) ∧
    (∃ (r : Req) (s : State),
      Ready 0x0161 configure r s ∧ r.payload.length = 1 ∧ numAt r.payload 0 1 < 4) ∧
    (∃ (r : Req) (s : State),
      Ready 0x0162 service r s ∧ r.payload = [] ∧ r.via.transport ≠ .tw0) ∧
    (∃ (r : Req) (s : State),
      Ready 0x0163 service r s ∧ s.link.tw.tw1 = none ∧ 8 ≤ r.payload.length ∧ numAt r.payload 2 2 ≤ 256 ∧
      r.payload.length = 8 + numAt r.payload 2 2 ∧ zeroAt r.payload 1 1 = true ∧ zeroAt r.payload 6 2 = true ∧
      numAt r.payload 0 1 < 128 ∧ numAt r.payload 4 2 ≤ 256) ∧
    (∃ (r : Req) (s : State),
      s.link.tw.tw1 = some r) ∧
    (∃ (slot : Fin 32) (x : Stream) (t0 : Nanos) (s : State),
      s.stream slot = some x ∧ x.oldest = some t0) ∧
    (∃ (slot : Fin 32) (s : State),
      (s.stream slot).bind (·.oldest) = none) ∧
    (∃ (r : Req) (x : Ring) (i : Fin 32) (s : State),
      Ready 0x0D10 observe r s ∧ lenZ 16 [(14, 2)] r.payload = none ∧ s.ring? (numAt r.payload 0 4) = some x ∧ x.owner = r.owner ∧
      numAt r.payload 10 1 < 4 ∧ 1 ≤ numAt r.payload 11 1 ∧ 1 ≤ numAt r.payload 12 2 ∧ numAt r.payload 12 2 ≤ 10000 ∧
      numAt r.payload 11 1 ≤ 140 ∧
      let ports := (List.finRange 2).filter (fun q => bitAt (numAt r.payload 10 1) q.val)
      ports.any (fun q => decide ((s.eth q).maxUdp < 48 + 64 * numAt r.payload 11 1)) = false ∧
      ports.all (fun q => (s.eth q).set.ip == 0) = false ∧ (List.finRange 32).find? (fun i => (s.stream i).isNone) = some i) ∧
    (∃ (r : Req) (i : Fin 32) (x : Stream) (s : State),
      Ready 0x0D11 [1, 16] r s ∧ r.payload.length = 1 ∧ numAt r.payload 0 1 = i.val ∧ s.stream i = some x ∧ x.owner = r.owner ∧
      s.hasPriv r.owner 0 = true) ∧
    (∃ (r : Req) (i : Fin 32) (x : Stream) (s : State),
      Ready 0x0D12 observe r s ∧ r.payload.length = 1 ∧ numAt r.payload 0 1 = i.val ∧ s.stream i = some x) :=
  ⟨⟨rq [], base, by decide +kernel⟩,
   ⟨rq [3], base, by decide +kernel⟩,
   ⟨rq [], base, by decide +kernel⟩,
   ⟨rq ([127, 0, 0, 1, 0, 1, 0, 0] ++ zeros 256), base, by decide +kernel⟩,
   ⟨rq [], base.modTw (fun x => { x with tw1 := some (rq []) }), by decide +kernel⟩,
   ⟨31, oneStream, 0, streaming, by decide +kernel⟩,
   ⟨31, base, by decide +kernel⟩,
   ⟨rq ([2, 0, 0, 0, 1, 0, 0, 0, 0, 0, 1, 1] ++ leBytes 2 10000 ++ [0, 0]), oneRing, 0, streaming.modEth 0 (fun x => { x with set := { x.set with ip := 1 } }), by decide +kernel⟩,
   ⟨rq [31], 31, oneStream, streaming, by decide +kernel⟩,
   ⟨rq [31], 31, oneStream, streaming, by decide +kernel⟩⟩

theorem witness_PhaseDetectors :
    (∃ (p : Fin 64) (held : Nat) (s : State),
      4 * bitsOf (s.held (phId p 0xB)) 7 4 ≤ held) ∧
    (∃ (p : Fin 64) (held : Nat) (s : State),
      held < 4 * bitsOf (s.held (phId p 0xB)) 7 4) ∧
    (∃ (p : Fin 64) (s : State),
      (s.phase p).dfltLevel = false ∧ s.dfltAsserted p = true ∧ (s.phase p).blanked (s.blankTime p) s.edgeNow = false) ∧
    (∃ (p : Fin 64) (e : Nat) (s : State),
      (s.phase p).dfltWait = true ∧ (s.phase p).blankEnd (s.blankTime p) s.edgeNow = some e) ∧
    (∃ (p : Fin 64) (bits : List Bool) (s : State),
      let raw : Int := s.filterSum p (sinc2 (s.tripLen p)) bits
      ((s.phase p).tripHi < raw ∨ raw < (s.phase p).tripLo) ∧ (s.phase p).role = .active ∧ (s.phase p).heldLow = false) ∧
    (∃ (p : Fin 64) (bits : List Bool) (s : State),
      let raw : Int := s.filterSum p (sinc2 (s.tripLen p)) bits
      (s.phase p).tripLo ≤ raw ∧ raw ≤ (s.phase p).tripHi) :=
  ⟨⟨63, 60, base.setParam (phId 63 0xB) 0xF0, by decide +kernel⟩,
   ⟨63, 59, (base.setParam (phId 63 0xB) 0xF0).loadParams, by decide +kernel⟩,
   ⟨63, ((base.setParam (phId 63 0xB) 3).loadParams).modPhase 63 (fun x => { x with dfltPin := true }), by decide +kernel⟩,
   ⟨63, (128 * 255), ((base.setParam (phId 63 0xB) 0xFF03).loadParams).modPhase 63 (fun x => { x with dfltPin := true, dfltWait := true, line := [⟨0, true, false⟩], pwmH := false }), by decide +kernel⟩,
   ⟨63, List.replicate 64 true, active 63, by decide +kernel⟩,
   ⟨63, [], (active 63).modPhase 63 (fun x => { x with tripLo := 0 }), by decide +kernel⟩⟩

theorem witness_PhaseDiagnostics :
    (∃ (p : Fin 64) (s : State),
      16 ≤ (s.phase p).clampRun ∧ (s.phase p).dtFallback = false) ∧
    (∃ (p : Fin 64) (s : State),
      3 ≤ (s.phase p).openFails ∧ (s.phase p).role = .active) ∧
    (∃ (p : Fin 64) (s : State),
      16 ≤ (s.phase p).attrRun ∧ (s.phase p).role = .active) ∧
    (∃ (p : Fin 64) (s : State),
      16 ≤ (s.phase p).zeroRun ∧ (s.phase p).role = .active) ∧
    (∃ (g : Fin 8) (s : State),
      16 ≤ (s.group g).sumRun ∧ (s.group g).sumWritten = false) ∧
    (∃ (p : Fin 64) (sh : Shadow) (s : State),
      (s.phase p).shadow = some sh ∧ bitsOf (s.held (grId (s.groupOf p) 0x16)) 13 8 ≤ sh.k) ∧
    (∃ (p : Fin 64) (s : State),
      s.wearLimit (s.groupOf p) ≠ 0 ∧ s.wearLimit (s.groupOf p) ≤ (s.phase p).counters.thermal.toNat) ∧
    (∃ (k : Fin 8) (mv ns : Nat) (s : State),
      s.power.safety.dieRunning = true ∧
      let w := (s.conv.banks[k.val]).inside mv
      (w = false → 1000 ≤ ns)) ∧
    (∃ (k : Fin 8) (mv ns : Nat) (s : State),
      s.power.safety.dieRunning = true ∧
      let w := (s.conv.banks[k.val]).inside mv
      (w = false → 1000 ≤ ns)) ∧
    (∃ (k : Fin 8) (mv ns : Nat) (s : State),
      (s.conv.banks[k.val]).inside mv = false ∧ ns < 1000) :=
  ⟨⟨63, base.modPhase 63 (fun x => { x with clampRun := 16 }), by decide +kernel⟩,
   ⟨63, (active 63).modPhase 63 (fun x => { x with openFails := 3 }), by decide +kernel⟩,
   ⟨63, (active 63).modPhase 63 (fun x => { x with attrRun := 16 }), by decide +kernel⟩,
   ⟨63, (active 63).modPhase 63 (fun x => { x with zeroRun := 16 }), by decide +kernel⟩,
   ⟨7, base.modGroup 7 (fun x => { x with sumRun := 16 }), by decide +kernel⟩,
   ⟨63, { nb1 := 1, nb2 := 2, cur := 0, k := 64, ended := false }, base.modPhase 63 (fun x => { x with shadow := some { nb1 := 1, nb2 := 2, cur := 0, k := 64, ended := false } }), by decide +kernel⟩,
   ⟨63, (((active 63).setParam (grId ((active 63).groupOf 63) 0x16) 0x81000000).loadParams).modPhase 63 (fun x => { x with counters := { x.counters with thermal := 0x100000 } }), by decide +kernel⟩,
   ⟨7, 1620, 0, base, by decide +kernel⟩,
   ⟨7, 0, 1000, base, by decide +kernel⟩,
   ⟨7, 0, 999, base, by decide +kernel⟩⟩

theorem witness_PhaseCommands :
    (∃ (r : Req) (s : State),
      Ready 0x0501 observe r s ∧ r.payload.length = 8) ∧
    (∃ (r : Req) (s : State),
      Ready 0x0502 observe r s ∧ r.payload.length = 8) ∧
    (∃ (r : Req) (s : State),
      Ready 0x0503 observe r s ∧ r.payload.length = 8) ∧
    (∃ (r : Req) (p : Fin 64) (s : State),
      Ready 0x0504 configure r s ∧ r.payload = [BitVec.ofNat 8 p.val] ∧ s.restoreRefusal p = none) ∧
    (∃ (r : Req) (p : Fin 64) (s : State),
      Ready 0x0505 service r s ∧ r.payload = [BitVec.ofNat 8 p.val] ∧ (s.phase p).role = .off ∧
      (s.group (s.groupOf p)).mode.isQuiet = true) ∧
    (∃ (r : Req) (p : Fin 64) (s : State),
      Ready 0x0506 service r s ∧ r.payload.length = 2 ∧ numAt r.payload 0 1 = p.val ∧ 1 ≤ numAt r.payload 1 1 ∧
      numAt r.payload 1 1 ≤ 4 ∧ (s.phase p).role = .active ∧ s.holdsLease r.owner = true) :=
  ⟨⟨rq (List.replicate 8 0xFF#8), base, by decide +kernel⟩,
   ⟨rq (List.replicate 8 0xFF#8), base, by decide +kernel⟩,
   ⟨rq (List.replicate 8 0xFF#8), base, by decide +kernel⟩,
   ⟨rq [63], 63, base.modPhase 63 (fun x => { x with role := .retired, cause := 1 }), by decide +kernel⟩,
   ⟨rq [63], 63, base, by decide +kernel⟩,
   ⟨rq [63, 4], 63, leased.modPhase 63 (fun x => { x with role := .active }), by decide +kernel⟩⟩

theorem witness_GroupAndSyncEvents :
    (∃ (g : Fin 8) (half : Bool) (s : State),
      s.engineOn = true ∧ (half = true → s.param (grId g 1) ≤ 1000000)) ∧
    (∃ (g : Fin 8) (s : State),
      s.engineOn = true ∧ 1000000 < s.param (grId g 1)) ∧
    (∃ (s : State),
      s.engineOn = true) ∧
    (∃ (s : State),
      s.engineOn = true) ∧
    (∃ (s : State),
      s.engineOn = true) ∧
    (∃ (g : Fin 8) (m : Light) (t0 : Nanos) (s : State),
      (s.group g).light.down = some m ∧ (m = .diode ∧ bitAt (s.held (grId g 0x0D)) 0 = true ∧
      (s.group g).deSince = some t0 ∨ m = .shed ∧ bitAt (s.held (grId g 0x0D)) 1 = true ∧
      (s.group g).shedSince = some t0 ∨ m = .burst ∧ bitAt (s.held (grId g 0x0D)) 2 = true ∧ (s.group g).burstSince = some t0) ∧
      (s.group g).mode.isPower = true ∧ s.isFollower g = false) ∧
    (∃ (g : Fin 8) (m : Mode) (s : State),
      (s.group g).rampDown = some m ∧ (s.group g).ref = 0 ∧ s.switchingOf g = []) ∧
    (∃ (q : Scheduled) (s : State),
      s.conv.schedule = [q]) ∧
    (∃ (g : Fin 8) (last : Nat) (s : State),
      (s.group g).sync.lastEdge = some last ∧ (s.group g).sync.tracking = true) ∧
    (∃ (means : List (Fin 8 × Reading × Reading)) (vLink : Reading) (b : List Byte) (g : Fin 8) (s : State),
      s.conv.limitSet = some b ∧
      let t := means.foldl (fun t e => t.modGroup e.1 (Group.check b e.1.val e.2.1 e.2.2 vLink)) s
      (t.group g).mode.isSwitching = true ∧
      (numAt b 2 2 ≤ (t.group g).breachI ∨ numAt b 2 2 ≤ (t.group g).breachV ∨ numAt b 2 2 ≤ (t.group g).breachB)) ∧
    (∃ (means : List (Fin 8 × Reading × Reading)) (vLink : Reading) (b : List Byte) (s : State),
      s.conv.limitSet = some b ∧
      let t := means.foldl (fun t e => t.modGroup e.1 (Group.check b e.1.val e.2.1 e.2.2 vLink)) s
      (∀ g : Fin 8, (t.group g).mode.isSwitching = true → (t.group g).breachI < numAt b 2 2 ∧ (t.group g).breachV < numAt b 2 2 ∧
      (t.group g).breachB < numAt b 2 2)) :=
  ⟨⟨7, true, base, by decide +kernel⟩,
   ⟨7, base.setParam (grId 7 1) 1000001, by decide +kernel⟩,
   ⟨base, by decide +kernel⟩,
   ⟨base, by decide +kernel⟩,
   ⟨base, by decide +kernel⟩,
   ⟨7, .diode, 0, ((base.setParam (grId 7 0x0D) 0xF0000001).loadParams).modGroup 7 (fun x => { x with mode := .power, deSince := some 0 }), by decide +kernel⟩,
   ⟨7, .standby, base.modGroup 7 (fun x => { x with rampDown := some .standby }), by decide +kernel⟩,
   ⟨{ req := rq [], at_ := 9, entries := [toOffEntry] }, base.modConv (fun c => { c with schedule := [{ req := rq [], at_ := 9, entries := [toOffEntry] }] }), by decide +kernel⟩,
   ⟨7, 5, base.modGroup 7 (fun x => { x with sync := { x.sync with lastEdge := some 5, tracking := true } }), by decide +kernel⟩,
   ⟨[], 0, [0, 0, 1, 0], 7, (base.modGroup 7 (fun x => { x with mode := .power, breachB := 1 })).modConv (fun c => { c with limitSet := some [0, 0, 1, 0] }), by decide +kernel⟩,
   ⟨[], 0, [0, 0, 1, 0], (base.modGroup 7 (fun x => { x with mode := .power })).modConv (fun c => { c with limitSet := some [0, 0, 1, 0] }), by decide +kernel⟩⟩

theorem witness_GroupCommands :
    (∃ (r : Req) (s : State),
      Ready 0x0401 observe r s ∧ r.payload.length = 1) ∧
    (∃ (r : Req) (s : State),
      Ready 0x0402 observe r s ∧ r.payload.length = 1) ∧
    (∃ (r : Req) (e : SetpointEntry) (es : List SetpointEntry) (s : State),
      Ready 0x0403 control r s ∧ setpointShape r.payload = none ∧ s.holdsLease r.owner = true ∧ 1 ≤ numAt r.payload 0 1 ∧
      numAt r.payload 0 1 ≤ 8 ∧ setpointEntries r.payload = some (e :: es) ∧ s.setpointRefusal (e :: es) = none ∧
      (numAt r.payload 4 8 = 0 ∨ numAt r.payload 4 8 < s.now)) ∧
    (∃ (r : Req) (e : SetpointEntry) (es : List SetpointEntry) (s : State),
      Ready 0x0403 control r s ∧ setpointShape r.payload = none ∧ s.holdsLease r.owner = true ∧ 1 ≤ numAt r.payload 0 1 ∧
      numAt r.payload 0 1 ≤ 8 ∧ setpointEntries r.payload = some (e :: es) ∧ s.setpointRefusal (e :: es) = none ∧
      numAt r.payload 4 8 ≠ 0 ∧ s.now ≤ numAt r.payload 4 8 ∧ s.scheduleFull (e :: es) = false) ∧
    (∃ (r : Req) (s : State),
      Ready 0x0404 control r s ∧ r.payload.length = 1 ∧ s.holdsLease r.owner = true) ∧
    (∃ (r : Req) (g : Fin 8) (s : State),
      Ready 0x0405 control r s ∧ r.payload = [BitVec.ofNat 8 g.val] ∧ s.holdsLease r.owner = true ∧ s.ackRefusal g = none ∧
      (s.group g).faultAck = none) ∧
    (∃ (r : Req) (g : Fin 8) (s : State),
      Ready 0x0406 observe r s ∧ r.payload = [BitVec.ofNat 8 g.val]) :=
  ⟨⟨rq [0xFF], base, by decide +kernel⟩,
   ⟨rq [0xFF], base, by decide +kernel⟩,
   ⟨rq (toOff 0), toOffEntry, [], leased, by decide +kernel⟩,
   ⟨rq (toOff 1000), toOffEntry, [], leased, by decide +kernel⟩,
   ⟨rq [0xFF], leased, by decide +kernel⟩,
   ⟨rq [7], 7, leased.modGroup 7 (fun x => { x with mode := .fault }), by decide +kernel⟩,
   ⟨rq [7], 7, base, by decide +kernel⟩⟩

theorem witness_PairRows :
    (∃ (s : State),
      s.power.safety.dieRunning = true) ∧
    (∃ (b : List Byte),
      b.length ≠ 1232) ∧
    (∃ (b : List Byte),
      b.length = 1232 ∧ (crc32c (slice b 0 1228)).toNat = numAt b 1228 4) ∧
    (∃ (q : PairRequest) (s : State),
      s.conv.link.outstanding = [q] ∧ 64 ≤ q.age) ∧
    (∃ (s : State),
      s.conv.link.lostSeen = true ∧ (∀ g : Fin 8, (s.group g).pair.paired = false) ∧ s.conv.link.linkUp = true ∧
      s.conv.link.outstanding = []) ∧
    (∃ (r : Req) (g : Fin 8) (s : State),
      Ready 0x1101 observe r s ∧ r.payload = [BitVec.ofNat 8 g.val]) ∧
    (∃ (r : Req) (g : Fin 8) (s : State),
      Ready 0x1102 configure r s ∧ lenZ 12 [(2, 2)] r.payload = none ∧ s.holdsLease r.owner = true ∧ numAt r.payload 0 1 = g.val ∧
      numAt r.payload 1 1 ≤ 7 ∧ s.ownPairRefusal g = none ∧
      ((s.group g).pair.peer).bind (s.pairRefusal g (enableNames r).2) = none) ∧
    (∃ (g : Fin 8) (r : Req) (t0 : Nanos) (e : PeerEnable) (s : State),
      (s.group g).pair.enable = some (r, t0) ∧ (s.group g).pair.peer = some e ∧ s.pairRefusal g (enableNames r).2 e = none ∧
      e.group.val = (enableNames r).1) ∧
    (∃ (g : Fin 8) (r : Req) (t0 : Nanos) (s : State),
      (s.group g).pair.enable = some (r, t0)) ∧
    (∃ (r : Req) (g : Fin 8) (s : State),
      Ready 0x1103 configure r s ∧ r.payload = [BitVec.ofNat 8 g.val] ∧ s.holdsLease r.owner = true ∧
      (s.group g).pair.paired = true ∧ (s.group g).pair.disable = none) ∧
    (∃ (g : Fin 8) (r : Req) (s : State),
      (s.group g).pair.paired = true ∧ s.pairCalm g = true ∧ (s.group g).pair.disable = some r ∧
      (s.group g).pair.handover = none) ∧
    (∃ (r : Req) (g : Fin 8) (s : State),
      Ready 0x1104 control r s ∧ r.payload = [BitVec.ofNat 8 g.val] ∧ s.holdsLease r.owner = true ∧
      (s.group g).pair.paired = true ∧ (s.group g).pair.leader = true ∧ s.conv.link.linkUp = true ∧
      (s.group g).pair.handover = none) ∧
    (∃ (g : Fin 8) (r : Req) (s : State),
      (s.group g).pair.paired = true ∧ (s.group g).pair.control ≠ [] ∧ (s.group g).pair.leader = true ∧
      (s.group g).pair.handover = some r ∧ (s.group g).pair.handoverHeard = true) ∧
    (∃ (g : Fin 8) (s : State),
      (s.group g).pair.paired = true ∧ (s.group g).pair.control ≠ [] ∧ (s.group g).pair.leader = false ∧
      (s.group g).pair.handoverAsked = true) :=
  ⟨⟨base, by decide +kernel⟩,
   ⟨[], by decide +kernel⟩,
   ⟨pairFrame, by decide +kernel, by rw [test_pair_crc]; decide +kernel⟩,
   ⟨{ tag := 1, slot := [], age := 64 }, base.modPairLink (fun l => { l with outstanding := [{ tag := 1, slot := [], age := 64 }] }), by decide +kernel⟩,
   ⟨base.modPairLink (fun l => { l with lostSeen := true, linkUp := true }), by decide +kernel⟩,
   ⟨rq [7], 7, base, by decide +kernel⟩,
   ⟨rq ([7, 7] ++ zeros 10), 7, (leased.modPairLink (fun l => { l with linkUp := true })).modGroup 7 (fun x => { x with mode := .standby }), by decide +kernel⟩,
   ⟨7, rq ([7, 7, 0, 0] ++ zeros 8), 0, peer, (base.modPairLink (fun l => { l with linkUp := true })).modGroup 7 (fun x => { x with mode := .standby, pair := { x.pair with enable := some (rq ([7, 7, 0, 0] ++ zeros 8), 0), peer := some peer } }), by decide +kernel, rfl, by simp [State.pairRefusal, peer]; decide +kernel, by decide +kernel⟩,
   ⟨7, rq ([7, 7, 0, 0] ++ zeros 8), 0, base.modGroup 7 (fun x => { x with pair := { x.pair with enable := some (rq ([7, 7, 0, 0] ++ zeros 8), 0) } }), by decide +kernel⟩,
   ⟨rq [7], 7, leased.modGroup 7 (fun x => { x with mode := .standby, pair := { x.pair with paired := true, leader := true, control := [1, 0, 0, 0] } }), by decide +kernel⟩,
   ⟨7, rq [], base.modGroup 7 (fun x => { x with mode := .standby, pair := { x.pair with paired := true, disable := some (rq []), control := [1, 0, 0, 0] } }), by decide +kernel⟩,
   ⟨rq [7], 7, (leased.modPairLink (fun l => { l with linkUp := true })).modGroup 7 (fun x => { x with mode := .standby, pair := { x.pair with paired := true, leader := true, control := [1, 0, 0, 0] } }), by decide +kernel⟩,
   ⟨7, rq [], base.modGroup 7 (fun x => { x with mode := .standby, pair := { x.pair with paired := true, leader := true, handover := some (rq []), handoverHeard := true, control := [1, 0, 0, 0] } }), by decide +kernel⟩,
   ⟨7, base.modGroup 7 (fun x => { x with mode := .standby, pair := { x.pair with paired := true, leader := false, handoverAsked := true, control := [1, 0, 0, 0] } }), by decide +kernel⟩⟩

theorem witness_StringCommands :
    (∃ (s : State),
      s.sys.hawk = .running ∧ s.awake = true) ∧
    (∃ (r : Req) (s : State),
      Ready 0x0601 observe r s ∧ r.payload.length = 1 ∧ numAt r.payload 0 1 < 16) ∧
    (∃ (r : Req) (p : Fin 4) (s : State),
      Ready 0x0602 control r s ∧ r.payload = [BitVec.ofNat 8 p.val] ∧ s.holdsLease r.owner = true) ∧
    (∃ (r : Req) (p : Fin 4) (s : State),
      Ready 0x0603 control r s ∧ r.payload = [BitVec.ofNat 8 p.val] ∧ s.holdsLease r.owner = true ∧ (s.strPort p).faults = 0) :=
  ⟨⟨base, by decide +kernel⟩,
   ⟨rq [15], base, by decide +kernel⟩,
   ⟨rq [3], 3, leased, by decide +kernel⟩,
   ⟨rq [3], 3, leased, by decide +kernel⟩⟩

theorem witness_LowPowerCommands :
    (∃ (r : Req) (wakeN : Bool) (s : State),
      Ready 0x0610 control r s ∧ r.payload.length = 8 ∧ numAt r.payload 2 1 ≤ 1 ∧ zeroAt r.payload 3 1 = true ∧
      s.holdsLease r.owner = true ∧ s.mayRest = true ∧ s.levelSource true wakeN (numAt r.payload 0 2) = false) ∧
    (∃ (r : Req) (wakeN : Bool) (s : State),
      Ready 0x0611 service r s ∧ lenZ 8 [(2, 2)] r.payload = none ∧ s.mayRest = true ∧ s.power.supply.kaOk = true ∧
      s.nvmHeld = false ∧ s.levelSource false wakeN (numAt r.payload 0 2) = false) ∧
    (∃ (s : State),
      s.chg.low.run = .enteringSleep) ∧
    (∃ (s : State),
      s.chg.low.run = .enteringDustSheet) ∧
    (∃ (code : Fin 9) (s : State),
      code ≠ 0 ∧ s.chg.low.run ≠ .running ∧ (code.val = 4 → s.portFused = false)) ∧
    (∃ (s : State),
      s.chg.low.run ≠ .running ∧ s.chg.low.alarmS ≠ 0) ∧
    (∃ (c : Fin 4) (s : State),
      s.chg.low.run ≠ .running ∧ s.ccWakes c = true) ∧
    (∃ (s : State),
      s.chg.low.run = .waking ∧ s.chg.low.record.left = 1 ∧ s.sys.hawk ≠ .off) ∧
    (∃ (r : Req) (s : State),
      Ready 0x0612 observe r s ∧ r.payload = []) :=
  ⟨⟨rq [0xFF, 0xFF, 1, 0, 0, 0, 0, 0], false, leased, by decide +kernel⟩,
   ⟨rq [0xFF, 0xFF, 0, 0, 0, 0, 0, 0], false, base, by decide +kernel⟩,
   ⟨base.modLow (fun x => { x with run := .enteringSleep }), by decide +kernel⟩,
   ⟨base.modLow (fun x => { x with run := .enteringDustSheet }), by decide +kernel⟩,
   ⟨8, base.modLow (fun x => { x with run := .dustSheet }), by decide +kernel⟩,
   ⟨base.modLow (fun x => { x with run := .sleep, alarmS := 1 }), by decide +kernel⟩,
   ⟨3, (((base.modLow (fun x => { x with run := .sleep })).setParam 0x0B73 0x0101).loadParams).modMeas (fun m => { m with cc := vmod m.cc 3 (fun y => { y with wakeRun := 10 }) }), by decide +kernel⟩,
   ⟨base.modLow (fun x => { x with run := .waking, record := { x.record with left := 1 } }), by decide +kernel⟩,
   ⟨rq [], base, by decide +kernel⟩⟩

theorem witness_FeedEvents :
    (∃ (s : State),
      s.sys.hawk = .running ∧ s.awake = true) ∧
    (∃ (f : Fin 2) (bits : List Capture) (s : State),
      (s.feed f).live = true ∧ (s.feed f).overcurrent (s.feedRaw f bits) = true) ∧
    (∃ (f : Fin 2) (bits : List Capture) (s : State),
      ((s.feed f).live = false ∨ (s.feed f).overcurrent (s.feedRaw f bits) = false)) ∧
    (∃ (f : Fin 2) (bits : List Capture) (s : State),
      ((s.feed f).live = false ∨ (s.feed f).overcurrent (s.feedRaw f bits) = false)) ∧
    (∃ (f : Fin 2) (bits : List Capture) (s : State),
      ((s.feed f).run = .on ∨ (s.feed f).run = .gate) ∧ s.reverse f (s.feedRaw f bits) = true) ∧
    (∃ (f : Fin 2) (bits : List Capture) (s : State),
      s.reverse f (s.feedRaw f bits) = false ∧ (s.feed f).overcurrent (s.feedRaw f bits) = false) ∧
    (∃ (f : Fin 2) (c : Nanos) (s : State),
      let t := s.trackClosing
      (t.feed f).run = .blocking ∧ (t.feed f).closable = some c ∧ (t.feed f).revFires = false) ∧
    (∃ (f : Fin 2) (s : State),
      (s.feed f).run = .blocking) ∧
    (∃ (f : Fin 2) (s : State),
      (s.feed f).run = .tripped ∧ (s.feed f).retryEnd ≠ 0 ∧ s.feedEn f = true) ∧
    (∃ (f : Fin 2) (t0 : Nanos) (s : State),
      (s.feed f).ovSince = some t0 ∧ (s.feed f).run = .on) ∧
    (∃ (f : Fin 2) (t0 : Nanos) (s : State),
      (s.feed f).okLostSince = some t0 ∧ (s.feed f).run = .on) ∧
    (∃ (f : Fin 2) (s : State),
      (s.feed f).run = .on ∧ (s.feed f).pg = false) ∧
    (∃ (f : Fin 2) (s : State),
      (s.feed f).run = .on) :=
  ⟨⟨base, by decide +kernel⟩,
   ⟨1, [(false, true)], base.modFeed 1 (fun x => { x with run := .on, tripLen := 1, tripLo := 1 }), by decide +kernel⟩,
   ⟨1, [], base.modFeed 1 (fun x => { x with run := .open_ }), by decide +kernel⟩,
   ⟨1, [], base.modFeed 1 (fun x => { x with run := .on, tripLen := 1, tripLo := 0, tripHi := 1 }), by decide +kernel⟩,
   ⟨1, [], (base.setParam (fdId 1 0) 3).modFeed 1 (fun x => { x with run := .gate, dir := 1, revLo := 1 }), by decide +kernel⟩,
   ⟨1, [], base.modFeed 1 (fun x => { x with run := .on, tripLen := 1, tripLo := 0, tripHi := 1 }), by decide +kernel⟩,
   ⟨1, 0, base.modFeed 1 (fun x => { x with run := .blocking, closable := some 0 }), by decide +kernel⟩,
   ⟨1, base.modFeed 1 (fun x => { x with run := .blocking }), by decide +kernel⟩,
   ⟨1, ((base.setParam (fdId 1 0) 1).loadParams).modFeed 1 (fun x => { x with run := .tripped, retryEnd := 1 }), by decide +kernel⟩,
   ⟨1, 0, base.modFeed 1 (fun x => { x with run := .on, ovSince := some 0 }), by decide +kernel⟩,
   ⟨1, 0, base.modFeed 1 (fun x => { x with run := .on, okLostSince := some 0 }), by decide +kernel⟩,
   ⟨1, base.modFeed 1 (fun x => { x with run := .on }), by decide +kernel⟩,
   ⟨1, base.modFeed 1 (fun x => { x with run := .on }), by decide +kernel⟩⟩

theorem witness_FeedAndContactorCommands :
    (∃ (r : Req) (s : State),
      Ready 0x0701 observe r s ∧ r.payload.length = 1 ∧ numAt r.payload 0 1 < 4) ∧
    (∃ (r : Req) (f : Fin 2) (s : State),
      Ready 0x0702 control r s ∧ r.payload = [BitVec.ofNat 8 f.val] ∧ s.holdsLease r.owner = true ∧ s.feedEn f = true ∧
      ((s.feed f).run = .open_ ∨ (s.feed f).run = .held ∨ (s.feed f).run = .tripped ∨ (s.feed f).run = .lockedOut)) ∧
    (∃ (r : Req) (f : Fin 2) (s : State),
      Ready 0x0703 control r s ∧ r.payload = [BitVec.ofNat 8 f.val] ∧ s.holdsLease r.owner = true ∧ s.lastFeed f = false ∧
      (s.feed f).openReq = none) ∧
    (∃ (r : Req) (s : State),
      Ready 0x0704 observe r s ∧ r.payload.length = 1 ∧ numAt r.payload 0 1 < 16) ∧
    (∃ (r : Req) (p : Fin 4) (g : Fin 8) (s : State),
      Ready 0x0705 control r s ∧ r.payload = [BitVec.ofNat 8 p.val] ∧ s.holdsLease r.owner = true ∧ (s.cont p).welded = false ∧
      (s.cont p).run = .open_ ∧ s.prechargingGroup p = some g) ∧
    (∃ (r : Req) (p : Fin 4) (s : State),
      Ready 0x0706 control r s ∧ r.payload = [BitVec.ofNat 8 p.val] ∧ s.holdsLease r.owner = true ∧
      (s.groupsOfPort p).any (fun g => (s.group g).mode.isPower) = false) ∧
    (∃ (r : Req) (p : Fin 4) (g : Fin 8) (s : State),
      Ready 0x0707 service r s ∧ r.payload = [BitVec.ofNat 8 p.val] ∧ (s.cont p).run = .open_ ∧ s.battUnknown p = false ∧
      s.prechargingGroup p = some g) ∧
    (∃ (r : Req) (p : Fin 4) (s : State),
      Ready 0x0708 service r s ∧ r.payload = [BitVec.ofNat 8 p.val] ∧ ((s.cont p).run = .open_ ∨ (s.cont p).run = .fault) ∧
      (s.cont p).fb = false) :=
  ⟨⟨rq [3], base, by decide +kernel⟩,
   ⟨rq [1], 1, ((leased.setParam (fdId 1 0) 1).loadParams).modFeed 1 (fun x => { x with run := .lockedOut }), by decide +kernel⟩,
   ⟨rq [1], 1, leased, by decide +kernel⟩,
   ⟨rq [15], base, by decide +kernel⟩,
   ⟨rq [3], 3, 7, ready3 leased, by decide +kernel⟩,
   ⟨rq [3], 3, leased, by decide +kernel⟩,
   ⟨rq [3], 3, 7, ready3 (base.setParam (ctId 3 0) 0x11), by decide +kernel⟩,
   ⟨rq [3], 3, base.modCont 3 (fun x => { x with run := .fault }), by decide +kernel⟩⟩

theorem witness_ContactorAndPrechargeEvents :
    (∃ (p : Fin 4) (g : Fin 8) (s : State),
      (s.cont p).run = .open_ ∧ (s.cont p).autoDone = false ∧ (s.cont p).welded = false ∧ bitAt (s.param (ctId p 0)) 0 = true ∧
      bitAt (s.param (ctId p 0)) 1 = true ∧ s.serving = true ∧ s.prechargingGroup p = some g) ∧
    (∃ (p : Fin 4) (g : Fin 8) (s : State),
      s.matchedGroup p = some g ∧ (s.cont p).run = .precharging ∧ (s.cont p).group = some g) ∧
    (∃ (p : Fin 4) (g : Fin 8) (s : State),
      s.matchedGroup p = some g ∧ (¬ ((s.cont p).run = .precharging ∧ (s.cont p).group = some g))) ∧
    (∃ (p : Fin 4) (g : Fin 8) (s : State),
      (s.groupsOfPort p).find? s.prechargeOpen = some g) ∧
    (∃ (p : Fin 4) (closed : Bool) (s : State),
      (s.cont p).fb ≠ closed) ∧
    (∃ (p : Fin 4) (s : State),
      (s.cont p).run = .closing) ∧
    (∃ (p : Fin 4) (s : State),
      (s.cont p).run = .opening ∧ (s.cont p).fb = true) ∧
    (∃ (p : Fin 4) (s : State),
      (s.cont p).run = .closed ∧ (s.cont p).fb = false) ∧
    (∃ (p : Fin 4) (s : State),
      (s.cont p).run = .weldTest) :=
  ⟨⟨3, 7, ready3 (base.setParam (ctId 3 0) 0x13), by decide +kernel⟩,
   ⟨3, 7, ((ready3 base).modGroup 7 (fun x => { x with mode := .precharge, matchSince := some 0 })).modCont 3 (fun x => { x with run := .precharging, group := some 7 }), by decide +kernel⟩,
   ⟨0, 0, alone, by decide +kernel⟩,
   ⟨3, 7, ((ready3 base).modGroup 7 (fun x => { x with mode := .precharge, matchSince := some 0 })).modCont 3 (fun x => { x with run := .precharging, group := some 7 }), by decide +kernel⟩,
   ⟨3, true, base, by decide +kernel⟩,
   ⟨3, base.modCont 3 (fun x => { x with run := .closing }), by decide +kernel⟩,
   ⟨3, base.modCont 3 (fun x => { x with run := .opening, fb := true }), by decide +kernel⟩,
   ⟨3, base.modCont 3 (fun x => { x with run := .closed }), by decide +kernel⟩,
   ⟨3, base.modCont 3 (fun x => { x with run := .weldTest }), by decide +kernel⟩⟩

theorem witness_ConverterEvents :
    (∃ (k : Fin 2) (s : State),
      (s.adc k).cal ≠ .running) ∧
    (∃ (k : Fin 2) (s : State),
      (s.adc k).cal = .running ∧ (s.adc (1 - k)).cal = .running) ∧
    (∃ (k : Fin 2) (r : Req) (s : State),
      (s.adc k).cal = .running ∧ (s.adc (1 - k)).cal = .good ∧ s.meas.selfCal = some r) ∧
    (∃ (i : Fin 16) (s : State),
      i.val < s.nSeq ∧ s.seqByte i.val 1 = 1) ∧
    (∃ (i : Fin 16) (s : State),
      i.val < s.nSeq ∧ s.seqByte i.val 1 = 2 ∧
      let w := s.seqNum (1288 + 40 * i.val) 4
      let x := s.group (Fin.ofNat 8 (bitsOf w 2 0))
      x.period % (bitsOf w 15 8 + 1) = 0) ∧
    (∃ (i : Fin 16) (s : State),
      (s.meas.seqs[i.val]).run = 2) ∧
    (∃ (s : State),
      s.seqPending = true ∧ s.meas.seqs.toList.any (fun x => x.run != 0) = false ∧
      s.meas.convs.toList.any (fun c => c.cal == .running) = false) ∧
    (∃ (c : BoardCal) (sum : Nat) (least most : U16) (s : State),
      s.meas.board = some c ∧
      let mean : Rat := (sum : Rat) / 1024
      let v : Rat := (c.volts : Rat) * 65536 / 25000
      let gid := 0x0B00 + 2 * c.channel
      let x : Int := if c.mode = 1 then roundQ (v - s.paramQ gid * mean) else roundQ ((v - s.paramI (gid + 1)) / mean * 65536)
      (most.toNat : Rat) ≤ mean + 64 ∧ mean - 64 ≤ (least.toNat : Rat) ∧ (c.mode = 1 ∧ -4096 ≤ x ∧ x ≤ 4096 ∨ c.mode = 2 ∧
      8192 ≤ mean ∧ 32768 ≤ x ∧ x ≤ 131072)) ∧
    (∃ (c : BoardCal) (sum : Nat) (least most : U16) (s : State),
      s.meas.board = some c ∧
      ((sum : Rat) / 1024 + 64 < (most.toNat : Rat) ∨ (least.toNat : Rat) < (sum : Rat) / 1024 - 64 ∨ c.mode = 2 ∧
      (sum : Rat) / 1024 < 8192)) :=
  ⟨⟨1, base, by decide +kernel⟩,
   ⟨1, base.modMeas (fun m => { m with convs := m.convs.map (fun x => { x with cal := .running }) }), by decide +kernel⟩,
   ⟨1, rq [], base.modMeas (fun m => { m with convs := vmod (vmod m.convs 1 (fun x => { x with cal := .running })) 0 (fun x => { x with cal := .good }), selfCal := some (rq []) }), by decide +kernel⟩,
   ⟨0, sequences 1, by decide +kernel⟩,
   ⟨0, sequences 2, by decide +kernel⟩,
   ⟨15, base.modSeq 15 (fun x => { x with run := 2 }), by decide +kernel⟩,
   ⟨sequences 1, by decide +kernel⟩,
   ⟨boardCal, 10240000, 10000, 10000, base.modMeas (fun m => { m with board := some boardCal }), by decide +kernel⟩,
   ⟨boardCal, 0, 0, 0, base.modMeas (fun m => { m with board := some boardCal }), by decide +kernel⟩⟩

theorem witness_StreamEvents :
    (∃ (n : Fin 12) (uv : Nat) (s : State),
      (bitAt (s.param (0x0B60 + n.val)) 20 = false ∨ cmpBeyond (s.param (0x0B60 + n.val)) uv = false)) ∧
    (∃ (n : Fin 12) (uv : Nat) (s : State),
      (bitAt (s.param (0x0B60 + n.val)) 20 = false ∨ cmpBeyond (s.param (0x0B60 + n.val)) uv = false)) ∧
    (∃ (n : Fin 12) (uv : Nat) (s : State),
      let w := s.param (0x0B60 + n.val)
      bitAt w 20 = true ∧ (s.meas.cmps[n.val]).asserted = false ∧ cmpBeyond w uv = true ∧ s.chg.low.run ≠ .dustSheet) ∧
    (∃ (n : Fin 12) (uv : Nat) (s : State),
      let w := s.param (0x0B60 + n.val)
      (s.meas.cmps[n.val]).asserted = true ∧ bitAt w 23 = false ∧ cmpBack w uv = true ∧ s.chg.low.run ≠ .dustSheet) ∧
    (∃ (n : Fin 12) (uv : Nat) (s : State),
      (bitAt (s.param (0x0B60 + n.val)) 23 = true ∨ cmpBack (s.param (0x0B60 + n.val)) uv = false)) ∧
    (∃ (s : State),
      s.chg.low.run ≠ .dustSheet) ∧
    (∃ (c : Fin 4) (e : Nat × Ring) (s : State),
      s.sys.ring.rings.filter (fun e => e.2.kind == 0 && e.2.source.toNat % 65536 == 3 + 256 * c.val) = [e] ∧ e.2.due ≤ s.clk) :=
  ⟨⟨11, 0, base, by decide +kernel⟩,
   ⟨11, 0, base.setParam 0x0B6B 0x100000, by decide +kernel⟩,
   ⟨11, 1, base.setParam 0x0B6B 0x100000, by decide +kernel⟩,
   ⟨11, 0, base.modCmp 11 (fun y => { y with asserted := true }), by decide +kernel⟩,
   ⟨11, 1, base, by decide +kernel⟩,
   ⟨base, by decide +kernel⟩,
   ⟨3, (2, { oneRing with kind := 0, source := 0x00010303 }), base.modSys (fun y => { y with ring := { y.ring with rings := [(2, { oneRing with kind := 0, source := 0x00010303 })] } }), by decide +kernel⟩⟩

theorem witness_MeasurementCommands :
    (∃ (r : Req) (s : State),
      Ready 0x0801 observe r s ∧ r.payload.length = 8) ∧
    (∃ (r : Req) (s : State),
      Ready 0x0802 observe r s ∧ r.payload.length = 2) ∧
    (∃ (r : Req) (s : State),
      Ready 0x0803 configure r s ∧ r.payload.length = 2 ∧
      (maskList 16 (numAt r.payload 0 2)).any (fun i => s.nSeq ≤ i || s.seqByte i 1 != 0) = false) ∧
    (∃ (r : Req) (s : State),
      Ready 0x0804 service r s ∧ lenZ 8 [(2, 2)] r.payload = none ∧ numAt r.payload 0 1 = 0 ∧ s.calRunning = false) ∧
    (∃ (r : Req) (s : State),
      Ready 0x0804 service r s ∧ lenZ 8 [(2, 2)] r.payload = none ∧ (numAt r.payload 0 1 = 1 ∨ numAt r.payload 0 1 = 2) ∧
      numAt r.payload 1 1 < 48 ∧ s.calRunning = false) ∧
    (∃ (r : Req) (s : State),
      Ready 0x0805 observe r s ∧ r.payload = []) ∧
    (∃ (r : Req) (s : State),
      Ready 0x0806 control r s ∧ r.payload.length = 2 ∧ s.holdsLease r.owner = true ∧ numAt r.payload 0 2 < 4096) ∧
    (∃ (r : Req) (s : State),
      Ready 0x0807 observe r s ∧ r.payload.length = 1 ∧ numAt r.payload 0 1 < 16) ∧
    (∃ (r : Req) (s : State),
      Ready 0x0808 service r s ∧ r.payload.length = 2 ∧ numAt r.payload 1 1 < 8 ∧
      (bitAt (numAt r.payload 1 1) 2 = true → r.owner = 0) ∧ numAt r.payload 0 1 < 16) ∧
    (∃ (r : Req) (s : State),
      Ready 0x0809 observe r s ∧ r.payload = []) :=
  ⟨⟨rq (List.replicate 8 0xFF#8), base, by decide +kernel⟩,
   ⟨rq [0xFF, 0xFF], base, by decide +kernel⟩,
   ⟨rq [1, 0], sequences 0, by decide +kernel⟩,
   ⟨rq (zeros 8), base, by decide +kernel⟩,
   ⟨rq ([2, 47] ++ zeros 6), base, by decide +kernel⟩,
   ⟨rq [], base, by decide +kernel⟩,
   ⟨rq [0xFF, 0x0F], leased, by decide +kernel⟩,
   ⟨rq [15], base, by decide +kernel⟩,
   ⟨rq [15, 7], base, by decide +kernel⟩,
   ⟨rq [], base, by decide +kernel⟩⟩

theorem witness_ChainEvents :
    (∃ (s : State),
      s.stack.chain.run ≠ .enumerating ∧ s.chainDown = false ∧ s.stack.chain.found ≠ 0) ∧
    (∃ (s : State),
      (s.stack.chain.run = .enumerating ∨ s.chainDown = true ∨ s.stack.chain.found = 0)) ∧
    (∃ (s : State),
      s.stack.chain.enumerate = some none) ∧
    (∃ (s : State),
      s.stack.chain.enumerate = none) ∧
    (∃ (s : State),
      s.stack.chain.run.up = true ∧ (s.stack.chain.probing = true ∨ s.held 0x0D05 ≠ 0)) ∧
    (∃ (q : Fin 2) (s : State),
      s.engineOn = true ∧ s.stack.chain.run.up = true ∧ s.chainEn q = true ∧
      (s.chainPort q).markFor ≠ some (s.stack.chain.sweepId + 1#8) ∧
      let at_ := max (max s.now (s.markBy - 30000)) (s.chainPort q).busyUntil
      at_ ≤ s.markBy) ∧
    (∃ (s : State),
      s.engineOn = true ∧ s.stack.chain.run.up = true ∧ (∀ i : Fin 16, s.seqByte i.val 1 ≠ 3)) ∧
    (∃ (s : State),
      (s.engineOn = false ∨ s.stack.chain.run.up = false)) ∧
    (∃ (q : Fin 2) (s : State),
      s.chainEn q = false) ∧
    (∃ (q : Fin 2) (s : State),
      s.chainEn q = true) :=
  ⟨⟨chained, by decide +kernel⟩,
   ⟨base, by decide +kernel⟩,
   ⟨base.modChain (fun c => { c with enumerate := some none }), by decide +kernel⟩,
   ⟨base, by decide +kernel⟩,
   ⟨chained.modChain (fun c => { c with probing := true }), by decide +kernel⟩,
   ⟨0, chained, by decide +kernel⟩,
   ⟨chained, by decide +kernel⟩,
   ⟨base, by decide +kernel⟩,
   ⟨1, (base.setParam 0x0D00 0).loadParams, by decide +kernel⟩,
   ⟨0, chained, by decide +kernel⟩⟩

theorem witness_SweepEvents :
    (∃ (s : State),
      s.engineOn = true ∧ s.stack.chain.run.up = true ∧ s.stack.chain.toRead = true) ∧
    (∃ (frame : List Byte),
      frame.length = 10 + numAt frame 4 2 ∧ numAt frame 4 2 ≤ 256 ∧
      BitVec.ofNat 32 (numAt frame (6 + numAt frame 4 2) 4) = crc32c (frame.take (6 + numAt frame 4 2)) ∧
      bitsOf (numAt frame 0 1) 1 0 ≠ 1) ∧
    (∃ (frame : List Byte),
      frame.length = 10 + numAt frame 4 2 ∧ numAt frame 4 2 ≤ 256 ∧
      BitVec.ofNat 32 (numAt frame (6 + numAt frame 4 2) 4) = crc32c (frame.take (6 + numAt frame 4 2)) ∧
      let org : Fin 2 := if bitAt (numAt frame 0 1) 2 then 1 else 0
      bitsOf (numAt frame 0 1) 1 0 = 1) ∧
    (∃ (frame : List Byte) (s : State),
      256 < numAt frame 4 2 ∧ s.stack.chain.outstanding = []) ∧
    (∃ (q : Fin 2) (x : ChainRequest) (xs : List ChainRequest) (s : State),
      s.stack.chain.outstanding = x :: xs ∧ x.port = q) ∧
    (∃ (s : State),
      s.engineOn = true ∧ s.stack.chain.sweeping = true ∧ s.readsPending = false) ∧
    (∃ (s : State),
      s.engineOn = true ∧ s.stack.chain.sweeping = true ∧ s.readsPending = true) ∧
    (∃ (m : Fin 64) (s : State),
      (s.module_ m).run.bound = true ∧ bitsOf (s.held 0x0D00) 23 20 ≤ (s.module_ m).missRun) ∧
    (∃ (m : Fin 64) (s : State),
      (s.module_ m).run = .chainLost ∧ bitsOf (s.held 0x0D00) 23 20 ≤ (s.module_ m).goodRun) ∧
    (∃ (q : Fin 2) (s : State),
      s.stack.chain.run.up = true ∧ s.chainEn q = true ∧ s.stack.chain.toRead = false) ∧
    (∃ (q : Fin 2) (m : Fin 64) (s : State),
      s.stack.chain.run.up = true ∧ s.chainEn q = true ∧ s.stack.chain.toRead = false ∧
      s.sweepModules.filter (fun m => (s.module_ m).run.bound && s.primary m == q && bitAt (s.held (moId m 0)) 1 && (s.module_ m).balanceDue s.clk) = [m] ∧
      s.stack.chain.balance = [] ∧ s.stack.chain.node = [] ∧ s.fits q 0x20#8 (BitVec.ofNat 8 m.val) 6 = true) ∧
    (∃ (q : Fin 2) (r : Req) (s : State),
      s.stack.chain.run.up = true ∧ s.chainEn q = true ∧ s.stack.chain.toRead = false ∧ s.sweepModules = [] ∧
      s.stack.chain.balance = [r] ∧ s.primary (Fin.ofNat 64 (numAt r.payload 0 1)) = q ∧ s.stack.chain.node = [] ∧
      s.fits q 0x20#8 (BitVec.ofNat 8 (numAt r.payload 0 1)) 6 = true) ∧
    (∃ (q : Fin 2) (s : State),
      (s.stack.chain.run.up = false ∨ s.chainEn q = false ∨ s.stack.chain.toRead = true)) :=
  ⟨⟨chained.modChain (fun c => { c with toRead := true }), by decide +kernel⟩,
   ⟨replyFrame 4, by decide +kernel⟩,
   ⟨replyFrame 5, by decide +kernel⟩,
   ⟨[0, 0, 0, 0, 1, 1], base, by decide +kernel⟩,
   ⟨0, oneRead, [], base.modChain (fun c => { c with outstanding := [oneRead] }), by decide +kernel⟩,
   ⟨base.modChain (fun c => { c with sweeping := true }), by decide +kernel⟩,
   ⟨base.modChain (fun c => { c with sweeping := true, outstanding := [oneRead] }), by decide +kernel⟩,
   ⟨63, chained.modModule 63 (fun x => { x with missRun := 1 }), by decide +kernel⟩,
   ⟨63, chained.modModule 63 (fun x => { x with run := .chainLost, goodRun := 1 }), by decide +kernel⟩,
   ⟨0, chained, by decide +kernel⟩,
   ⟨0, 63, (chained.modChain (fun c => { c with found := 9 })).modModule 63 (fun x => { x with posA := 0, mask := 1 }), by decide +kernel⟩,
   ⟨0, rq [63], chained.modChain (fun c => { c with balance := [rq [63]], modules := vmod c.modules 63 (fun x => { x with posA := 0 }), map := [], found := 9 }), by decide +kernel⟩,
   ⟨0, base, by decide +kernel⟩⟩

theorem witness_StackCommands :
    (∃ (r : Req) (s : State),
      Ready 0x0901 observe r s ∧ r.payload = []) ∧
    (∃ (r : Req) (s : State),
      Ready 0x0902 configure r s ∧ r.payload = [] ∧ s.stack.chain.enumerate = none ∧ s.allQuiet = true ∧ s.chainDown = false) ∧
    (∃ (r : Req) (m : Fin 64) (s : State),
      Ready 0x0903 observe r s ∧ r.payload.length = 2 ∧ numAt r.payload 0 1 = m.val ∧ numAt r.payload 1 1 ≤ 3) ∧
    (∃ (r : Req) (m : Fin 64) (s : State),
      Ready 0x0904 service r s ∧ lenZ 8 [(1, 1)] r.payload = none ∧ numAt r.payload 0 1 = m.val ∧ s.chainDown = false ∧
      (s.module_ m).run.bound = true ∧ bitAt (s.held (moId m 0)) 1 = true ∧ numAt r.payload 4 4 < 2 ^ s.nCell m ∧
      (maskList 24 (numAt r.payload 4 4)).length ≤ bitsOf (s.held (moId m 0)) 23 16 ∧ 1 ≤ numAt r.payload 2 2 ∧
      numAt r.payload 2 2 ≤ 10000) ∧
    (∃ (r : Req) (q : Fin 2) (s : State),
      Ready 0x0905 service r s ∧ 4 ≤ r.payload.length ∧ r.payload.length ≤ 260 ∧ zeroAt r.payload 3 1 = true ∧
      numAt r.payload 0 1 = q.val ∧ numAt r.payload 2 1 ≠ 2 ∧ numAt r.payload 2 1 ≠ 3 ∧ numAt r.payload 2 1 ≠ 6 ∧
      s.chainDown = false ∧ s.chainEn q = true) ∧
    (∃ (r : Req) (s : State),
      Ready 0x0906 configure r s ∧ r.payload = [] ∧ s.chainDown = false) ∧
    (∃ (r : Req) (s : State),
      Ready 0x0A01 observe r s ∧ r.payload = []) ∧
    (∃ (r : Req) (m : Fin 64) (s : State),
      Ready 0x0A02 observe r s ∧ r.payload = [BitVec.ofNat 8 m.val]) ∧
    (∃ (r : Req) (s : State),
      Ready 0x0A03 configure r s ∧ r.payload = [] ∧ s.nvmHeld = false) ∧
    (∃ (r : Req) (m : Fin 64) (s : State),
      Ready 0x0A04 service r s ∧ r.payload.length = 4 ∧ numAt r.payload 0 1 = 0 ∧ numAt r.payload 1 1 = m.val ∧
      numAt r.payload 2 2 ≤ 10000 ∧
      (∀ p, s.portOfModule m = some p → (s.groupsOfPort p).any (fun g => !(s.group g).mode.isQuiet) = false) ∧
      s.estBarred m = none) ∧
    (∃ (r : Req) (p : Fin 4) (s : State),
      Ready 0x0A04 service r s ∧ r.payload.length = 4 ∧ numAt r.payload 0 1 = 1 ∧ numAt r.payload 1 1 = p.val ∧
      numAt r.payload 2 2 ≤ 10000 ∧ (s.groupsOfPort p).any (fun g => !(s.group g).mode.isQuiet) = false ∧
      (s.readModules p).findSome? s.estBarred = none ∧ s.readModules p ≠ []) ∧
    (∃ (r : Req) (m : Fin 64) (s : State),
      Ready 0x0A05 service r s ∧ r.payload = [BitVec.ofNat 8 m.val] ∧ s.estBarred m = none) ∧
    (∃ (r : Req) (m : Fin 64) (s : State),
      Ready 0x0907 service r s ∧ r.payload = [BitVec.ofNat 8 m.val] ∧ (s.module_ m).run = .uidMismatch ∧
      let t := s.setParam (moId m 1) (s.module_ m).uid.toNat
      t.nCell m ≤ (s.module_ m).nCellMax ∧ t.tMask m &&& (s.module_ m).tMaskMax.toNat = t.tMask m) :=
  ⟨⟨rq [], base, by decide +kernel⟩,
   ⟨rq [], chained, by decide +kernel⟩,
   ⟨rq [63, 3], 63, base, by decide +kernel⟩,
   ⟨rq ([63, 0] ++ leBytes 2 10000 ++ [0, 0, 0, 0]), 63, chained.modModule 63 (fun x => { x with run := .ok }), by decide +kernel⟩,
   ⟨rq ([0, 0, 1, 0] ++ zeros 256), 0, chained, by decide +kernel⟩,
   ⟨rq [], chained, by decide +kernel⟩,
   ⟨rq [], base, by decide +kernel⟩,
   ⟨rq [63], 63, base, by decide +kernel⟩,
   ⟨rq [], base, by decide +kernel⟩,
   ⟨rq ([0, 63] ++ leBytes 2 10000), 63, estimated, by decide +kernel, by decide +kernel, by decide +kernel, by decide +kernel, by decide +kernel, by decide +kernel, by decide +kernel⟩,
   ⟨rq ([1, 3] ++ leBytes 2 10000), 3, estimated, by decide +kernel⟩,
   ⟨rq [63], 63, estimated, by decide +kernel⟩,
   ⟨rq [63], 63, estimated.modModule 63 (fun x => { x with run := .uidMismatch, nCellMax := 24, tMaskMax := 0xFF }), by decide +kernel⟩⟩

theorem witness_EstimationEvents :
    (∃ (s : State),
      s.engineOn = true) ∧
    (∃ (s : State),
      s.engineOn = false) ∧
    (∃ (m : Fin 64) (c : Fin 24) (s : State),
      s.engineOn = true ∧ ((s.mest m).cells[c.val]).badRun < 50 ∧ (s.mest m).diverged = true ∧
      ((s.mest m).used (s.nCell m)).all (fun z => decide (600 ≤ z.goodRun)) = true) ∧
    (∃ (m : Fin 64) (c : Fin 24) (s : State),
      s.engineOn = true ∧ 50 ≤ ((s.mest m).cells[c.val]).badRun) ∧
    (∃ (m : Fin 64) (s : State),
      s.engineOn = true ∧ s.estRuns m = true ∧ (s.mest m).predictOnly = true ∧ (s.mest m).tempStale = false) ∧
    (∃ (s : State),
      s.firmwareOn = true) ∧
    (∃ (s : State),
      s.firmwareOn = true) ∧
    (∃ (q : Nanos) (s : State),
      s.firmwareOn = true ∧ s.stack.est.quietSince = some q ∧ s.stack.est.rate = .full ∧ bitAt (s.held 0x1211) 0 = true ∧
      s.quiet = true) ∧
    (∃ (s : State),
      s.firmwareOn = true ∧ s.stack.est.leave = true) ∧
    (∃ (s : State),
      s.firmwareOn = true ∧ s.stack.est.leave = false) ∧
    (∃ (s : State),
      s.firmwareOn = true ∧ s.stack.est.rate = .reduced ∧ bitAt (s.held 0x1200) 2 = true ∧ s.allQuiet = true) ∧
    (∃ (s : State),
      s.firmwareOn = true ∧ s.stack.est.rate = .hibernate) ∧
    (∃ (p : Fin 4) (t0 : Nanos) (s : State),
      s.firmwareOn = true ∧ (s.sest p).eolSince = some t0 ∧ (s.sest p).eol = false) :=
  ⟨⟨base, by decide +kernel⟩,
   ⟨base.modSafety (fun x => { x with dieRunning := false }), by decide +kernel⟩,
   ⟨63, 23, (base.setParam (moId 63 0) 0).modMest 63 (fun e => { e with diverged := true }), by decide +kernel⟩,
   ⟨63, 23, base.modMest 63 (fun e => { e with cells := vmod e.cells 23 (fun y => { y with badRun := 50 }) }), by decide +kernel⟩,
   ⟨63, estimated.modMest 63 (fun e => { e with predictOnly := true }), by decide +kernel⟩,
   ⟨base, by decide +kernel⟩,
   ⟨base, by decide +kernel⟩,
   ⟨0, ((base.setParam 0x1211 0x00010001).loadParams).modEst (fun e => { e with quietSince := some 0 }), by decide +kernel⟩,
   ⟨base.modEst (fun e => { e with leave := true }), by decide +kernel⟩,
   ⟨base, by decide +kernel⟩,
   ⟨((base.setParam 0x1200 4).loadParams).modEst (fun e => { e with rate := .reduced }), by decide +kernel⟩,
   ⟨base.modEst (fun e => { e with rate := .hibernate }), by decide +kernel⟩,
   ⟨3, 0, base.modSest 3 (fun e => { e with eolSince := some 0 }), by decide +kernel⟩⟩

theorem witness_StippleEvents :
    (∃ (p : Fin 4) (s : State),
      s.engineOn = true ∧ (s.stp p).run = .scheduled ∧ (s.stp p).abort = 0 ∧
      let t := s.atDevice (s.stp p).at_.toNat
      t.sweepFits p = true) ∧
    (∃ (p : Fin 4) (s : State),
      s.engineOn = true ∧ (s.stp p).run = .scheduled ∧ (s.stp p).abort = 0 ∧
      let t := s.atDevice (s.stp p).at_.toNat
      t.sweepFits p = false) ∧
    (∃ (p : Fin 4) (s : State),
      s.engineOn = true ∧ ((s.stp p).run = .waiting ∨ (s.stp p).run = .gap) ∧ (s.stp p).finished = false ∧ (s.stp p).abort = 0 ∧
      (s.stp p).deferSince = none) ∧
    (∃ (p : Fin 4) (d : Nanos) (s : State),
      s.engineOn = true ∧ (s.stp p).deferSince = some d ∧ (s.stp p).abort = 0) ∧
    (∃ (p : Fin 4) (e : Rat) (s : State),
      s.engineOn = true ∧ (s.stp p).perturbing = true ∧ (s.stp p).abort = 0 ∧ (s.stp p).finished = false ∧
      (s.stp p).stopAt = some e ∧ (s.stp p).discard = true ∧ (s.stp p).plant = true) ∧
    (∃ (p : Fin 4) (e : Rat) (s : State),
      s.engineOn = true ∧ (s.stp p).perturbing = true ∧ (s.stp p).abort = 0 ∧ (s.stp p).finished = false ∧
      (s.stp p).stopAt = some e ∧ (s.stp p).discard = false) ∧
    (∃ (p : Fin 4) (e : Rat) (s : State),
      s.engineOn = true ∧ (s.stp p).perturbing = true ∧ (s.stp p).abort = 0 ∧ (s.stp p).finished = false ∧
      (s.stp p).stopAt = some e ∧ (s.stp p).discard = true ∧ (s.stp p).plant = false ∧ (s.stp p).repeats < (s.stp p).par 5) ∧
    (∃ (p : Fin 4) (s : State),
      s.firmwareOn = true ∧ (s.stp p).run ≠ .idle ∧ (s.stp p).perturbing = false ∧ (s.stp p).abort ≠ 0) ∧
    (∃ (p : Fin 4) (s : State),
      s.firmwareOn = true ∧ (s.stp p).run ≠ .idle ∧ (s.stp p).run ≠ .scheduled ∧ (s.stp p).perturbing = false ∧
      (s.stp p).abort = 0 ∧ (s.stp p).finished = true) :=
  ⟨⟨3, (planned.modSweep 3 (fun x => { x with run := .scheduled })).modGroup 7 (fun x => { x with mode := .power }), by decide +kernel⟩,
   ⟨3, base.modSweep 3 (fun x => { x with run := .scheduled }), by decide +kernel⟩,
   ⟨3, between, by decide +kernel⟩,
   ⟨3, 0, base.modSweep 3 (fun x => { x with deferSince := some 0 }), by decide +kernel⟩,
   ⟨3, 9, base.modSweep 3 (fun x => { x with plan := plan, perturbing := true, stopAt := some 9, discard := true, plant := true }), by decide +kernel⟩,
   ⟨3, 9, base.modSweep 3 (fun x => { x with plan := plan, perturbing := true, stopAt := some 9, discard := false }), by decide +kernel⟩,
   ⟨3, 9, (base.modSweep 3 (fun x => { x with plan := plan, perturbing := true, stopAt := some 9, discard := true, plant := false })), by decide +kernel⟩,
   ⟨3, base.modSweep 3 (fun x => { x with run := .measuring, abort := 8 }), by decide +kernel⟩,
   ⟨3, base.modSweep 3 (fun x => { x with run := .measuring, plan := plan, point := 1 }), by decide +kernel⟩⟩

theorem witness_StippleCommands :
    (∃ (r : Req) (p : Fin 4) (b : List Byte) (s : State),
      Ready 0x0B01 control r s ∧ lenZ 12 [(3, 1)] r.payload = none ∧ numAt r.payload 2 1 < 2 ∧ numAt r.payload 0 1 = p.val ∧
      s.holdsLease r.owner = true ∧
      let id := if numAt r.payload 1 1 = 0xFF then s.param (0x1410 + 4 * p.val) else numAt r.payload 1 1
      bitAt (s.param 0x1400) 0 = true ∧ (s.stp p).run = .idle ∧ s.namedBody 9 id = some b ∧ s.planGrid b = true ∧
      (s.groupsOfPort p).any (fun g => (s.group g).pair.paired) = false ∧
      (bitAt (numAt r.payload 2 1) 0 = true → numAt r.payload 4 8 % 1000000000 = 0 ∧ s.now + 1000000000 ≤ numAt r.payload 4 8)) ∧
    (∃ (r : Req) (p : Fin 4) (s : State),
      Ready 0x0B02 control r s ∧ r.payload = [BitVec.ofNat 8 p.val] ∧ s.holdsLease r.owner = true ∧ (s.stp p).run ≠ .idle) ∧
    (∃ (r : Req) (s : State),
      Ready 0x0B03 observe r s ∧ r.payload.length = 1 ∧ numAt r.payload 0 1 < 16) ∧
    (∃ (r : Req) (p : Fin 4) (m : Fin 64) (e : SweepRecord) (s : State),
      Ready 0x0B04 observe r s ∧ r.payload.length = 3 ∧ numAt r.payload 0 1 = p.val ∧ numAt r.payload 1 1 = m.val ∧
      (s.stp p).records.find? (fun e => e.module_ == m.val && e.point == numAt r.payload 2 1) = some e) :=
  ⟨⟨rq ([3, 0, 1] ++ [0] ++ leBytes 8 1000000000), 3, plan, planned, by decide +kernel⟩,
   ⟨rq [3], 3, leased.modSweep 3 (fun x => { x with run := .gap }), by decide +kernel⟩,
   ⟨rq [15], base, by decide +kernel⟩,
   ⟨rq [3, 63, 0], 3, 63, oneResult, base.modSweep 3 (fun x => { x with records := [oneResult] }), by decide +kernel⟩⟩

theorem witness_RailEvents :
    (∃ (k : Fin 32) (mv : U16) (s : State),
      k.val < 26 ∧ (s.rail k.val).run = .rising ∧ s.inRailWindow k.val mv.toNat = true) ∧
    (∃ (k : Fin 32) (mv : U16) (s : State),
      s.inRailWindow k.val mv.toNat = false) ∧
    (∃ (k : Fin 32) (c : Fin 9) (mv : U16) (s : State),
      k.val < 26 ∧ (s.rail k.val).run = .rising ∧ (c.val = 1 ∨ (c.val ≠ 2 ∧ s.supervises k.val c.val mv.toNat = true))) ∧
    (∃ (k : Fin 32) (c : Fin 9) (mv : U16) (s : State),
      k.val < 26 ∧ (s.rail k.val).run = .rising ∧ (c.val = 1 ∨ (c.val ≠ 2 ∧ s.supervises k.val c.val mv.toNat = true))) ∧
    (∃ (k : Fin 32) (c : Fin 9) (mv : U16) (s : State),
      k.val < 26 ∧ s.supervises k.val c.val mv.toNat = true ∧ s.railCritical k.val = true ∧ s.power.seq.run ≠ .down ∧
      s.power.seq.run ≠ .holdUp ∧ (s.rail k.val).run = .good) ∧
    (∃ (k : Fin 32) (c : Fin 9) (mv : U16) (s : State),
      k.val < 26 ∧ s.supervises k.val c.val mv.toNat = true ∧ s.railCritical k.val = true ∧
      (s.power.seq.run = .down ∨ s.power.seq.run = .holdUp) ∧ ((s.rail k.val).run = .good ∨ (s.rail k.val).run = .lowering)) ∧
    (∃ (k : Fin 32) (c : Fin 9) (mv : U16) (s : State),
      s.supervises k.val c.val mv.toNat = false) ∧
    (∃ (k : Fin 32) (c : Fin 9) (mv : U16) (s : State),
      k.val < 26 ∧ s.supervises k.val c.val mv.toNat = true ∧ s.railCritical k.val = false ∧ (s.rail k.val).run = .good) ∧
    (∃ (k : Nat) (ks : List Nat) (s : State),
      s.power.seq.run = .up ∧ s.power.seq.stageEnded = true ∧ (s.power.seq.stepTaken = false ∨ s.power.seq.advanced = true) ∧
      s.power.seq.stagesAfter s.power.seq.stage = k :: ks) ∧
    (∃ (s : State),
      s.power.seq.run = .up ∧ s.power.seq.stageEnded = true ∧ s.power.seq.stepTaken = true ∧ s.power.seq.advanced = false) ∧
    (∃ (s : State),
      s.power.seq.run = .up ∧ s.power.seq.stageEnded = true ∧ s.power.seq.stepTaken = true ∧ s.power.seq.stepDriven = false) ∧
    (∃ (s : State),
      s.power.seq.run = .up ∧ s.power.seq.stageEnded = true ∧ s.power.seq.stepTaken = true ∧ s.power.seq.advanced = false) ∧
    (∃ (k : Nat) (ks : List Nat) (s : State),
      s.power.seq.run = .down ∧
      let t := (List.range 26).foldl (fun t i => if (t.rail i).run == .lowering then t.modRail i Rail.downNow else t) s
      t.stagesBelow s.power.seq.stage = k :: ks) ∧
    (∃ (s : State),
      s.power.seq.run = .retryWait) ∧
    (∃ (s : State),
      s.power.seq.run = .lockout) ∧
    (∃ (s : State),
      s.power.seq.run = .complete) :=
  ⟨⟨25, 0, rail 25 .rising, by decide +kernel⟩,
   ⟨0, 0, base, by decide +kernel⟩,
   ⟨25, 1, 0, rail 25 .rising, by decide +kernel⟩,
   ⟨9, 5, 0, rail 9 .rising, by decide +kernel⟩,
   ⟨9, 5, 0, (rail 9 .good).modSqr (fun q => { q with run := .complete }), by decide +kernel⟩,
   ⟨9, 5, 0, (rail 9 .lowering).modSqr (fun q => { q with run := .down }), by decide +kernel⟩,
   ⟨25, 6, 0, base, by decide +kernel⟩,
   ⟨25, 3, 0xFFFF, base.modRail 25 (fun x => { x with run := .good, cfg := 2 }), by decide +kernel⟩,
   ⟨4, [], stageDone.modSqr (fun q => { q with stepAlone := true }), by decide +kernel⟩,
   ⟨stageDone, by decide +kernel⟩,
   ⟨stageDone, by decide +kernel⟩,
   ⟨stageDone, by decide +kernel⟩,
   ⟨0, [], goingDown, by decide +kernel⟩,
   ⟨sequencer .retryWait, by decide +kernel⟩,
   ⟨sequencer .lockout, by decide +kernel⟩,
   ⟨sequencer .complete, by decide +kernel⟩⟩

theorem witness_PowerEvents :
    (∃ (aux : U16) (s : State),
      180 ≤ aux.toNat ∧ aux.toNat ≤ 600 ∧ s.chg.low.run ≠ .dustSheet) ∧
    (∃ (aux : U16) (s : State),
      180 ≤ aux.toNat ∧ aux.toNat ≤ 600 ∧ s.chg.low.run ≠ .dustSheet) ∧
    (∃ (aux : U16) (s : State),
      180 ≤ aux.toNat ∧ aux.toNat ≤ 600 ∧ s.chg.low.run = .dustSheet) ∧
    (∃ (aux : U16),
      (aux.toNat < 180 ∨ 600 < aux.toNat)) ∧
    (∃ (aux : U16),
      (aux.toNat < 180 ∨ 600 < aux.toNat)) ∧
    (∃ (aux : U16) (s : State),
      s.power.supply.auxOk = true ∧ aux.toNat < s.power.seq.table.auxBo) ∧
    (∃ (aux : U16) (s : State),
      s.power.supply.onHold = true ∧ s.power.seq.table.auxBo + 5 < aux.toNat) ∧
    (∃ (s : State),
      s.power.supply.auxOk = false ∧ s.power.supply.onHold = true ∧ s.power.seq.run = .complete ∧ s.nvmHeld = false) ∧
    (∃ (s : State),
      s.power.seq.run = .holdUp ∧ s.nvmHeld = false) ∧
    (∃ (s : State),
      s.power.safety.dieRunning = false ∧ s.allMandatory = true) ∧
    (∃ (s : State),
      (s.power.safety.dieRunning = true ∨ s.allMandatory = false)) ∧
    (∃ (s : State),
      s.power.safety.external = false ∧ s.power.safety.driving = false ∧ s.islandUp = true) ∧
    (∃ (s : State),
      s.power.safety.external = true ∧ s.power.safety.driving = false ∧ s.islandUp = true) ∧
    (∃ (s : State),
      s.power.safety.external = false ∧ (s.power.safety.driving = true ∨ s.islandUp = false)) ∧
    (∃ (s : State),
      s.levelCauses.power.safety.driving = true ∧ s.levelCauses.power.safety.causes = 0 ∧
      s.levelCauses.power.seq.run ≠ .lockout) ∧
    (∃ (s : State),
      s.power.safety.dieLinkUp = true ∧ s.islandUp = true) ∧
    (∃ (s : State),
      s.power.safety.dieLinkUp = false) :=
  ⟨⟨180, base, by decide +kernel⟩,
   ⟨600, base, by decide +kernel⟩,
   ⟨600, base.modLow (fun x => { x with run := .dustSheet }), by decide +kernel⟩,
   ⟨179, by decide +kernel⟩,
   ⟨601, by decide +kernel⟩,
   ⟨0, base, by decide +kernel⟩,
   ⟨600, (sequencer .complete).modSupply (fun x => { x with onHold := true }), by decide +kernel⟩,
   ⟨(sequencer .complete).modSupply (fun x => { x with onHold := true, auxOk := false }), by decide +kernel⟩,
   ⟨sequencer .holdUp, by decide +kernel⟩,
   ⟨(allGood).modSafety (fun x => { x with dieRunning := false }), by decide +kernel⟩,
   ⟨base, by decide +kernel⟩,
   ⟨base, by decide +kernel⟩,
   ⟨base.modSafety (fun x => { x with external := true }), by decide +kernel⟩,
   ⟨base.modSafety (fun x => { x with driving := true }), by decide +kernel⟩,
   ⟨base.modSafety (fun x => { x with driving := true }), by decide +kernel⟩,
   ⟨base, by decide +kernel⟩,
   ⟨base.modSafety (fun x => { x with dieLinkUp := false }), by decide +kernel⟩⟩

theorem witness_RailCommands :
    (∃ (r : Req) (s : State),
      Ready 0x0C01 observe r s ∧ r.payload.length = 1 ∧ numAt r.payload 0 1 < 2) ∧
    (∃ (r : Req) (i : Nat) (e : SeqEntry) (s : State),
      Ready 0x0C02 service r s ∧ r.payload.length = 1 ∧ railOfCode (numAt r.payload 0 1) = some i ∧
      s.power.seq.store.entry (railCode i) = some e ∧ s.railBusy i = false ∧ (s.rail i).run ≠ .good ∧
      (List.range 26).all (fun k => !bitAt e.deps (railCode k) || (s.rail k).run == .good) = true) ∧
    (∃ (r : Req) (i : Nat) (s : State),
      Ready 0x0C03 service r s ∧ r.payload.length = 1 ∧ railOfCode (numAt r.payload 0 1) = some i ∧ s.railCritical i = false ∧
      s.railBusy i = false) ∧
    (∃ (r : Req) (s : State),
      Ready 0x0C04 observe r s ∧ r.payload = []) :=
  ⟨⟨rq [1], base, by decide +kernel⟩,
   ⟨rq [0x1F], 25, ⟨0x1F, 5, false, false, 0, 10, 0⟩, slot25, by decide +kernel⟩,
   ⟨rq [0x1F], 25, sequencer .complete, by decide +kernel⟩,
   ⟨rq [], base, by decide +kernel⟩⟩

theorem witness_TimebaseEvents :
    (∃ (p : Nat) (falling : Bool) (s : State),
      s.clock.tb.ppsAt = some p ∧ falling = bitAt (s.held 0x1607) 0) ∧
    (∃ (falling : Bool) (s : State),
      s.clock.tb.ppsAt = none ∧ falling = bitAt (s.held 0x1607) 0) ∧
    (∃ (falling : Bool) (s : State),
      falling ≠ bitAt (s.held 0x1607) 0) ∧
    (∃ (p : Nanos) (s : State),
      s.clock.tb.ppsPresent = true ∧ s.clock.tb.ppsAt = some p) ∧
    (∃ (s : State),
      s.clock.tb.run = .holdover) ∧
    (∃ (t0 : Nanos) (s : State),
      s.clock.tb.src1Since = some t0 ∧ (s.clock.tb.run = .locked ∨ s.clock.tb.run = .acquiring) ∧ s.clock.tb.src = 2 ∧
      s.srcPresent 1 = true) ∧
    (∃ (s : State),
      s.clock.tb.ppsOut = true) ∧
    (∃ (s : State),
      s.clock.tb.ppsOut = false ∧ bitAt (s.held 0x1607) 1 = true) ∧
    (∃ (refclk : Bool) (s : State),
      s.clock.tb.refOk refclk = true) ∧
    (∃ (refclk : Bool) (s : State),
      s.clock.tb.refOk refclk = false) ∧
    (∃ (lock : Bool) (s : State),
      s.clock.tb.pllLock ≠ lock) ∧
    (∃ (lock : Bool) (s : State),
      s.clock.tb.pllLock = lock) :=
  ⟨⟨0, false, base.modTb (fun x => { x with ppsAt := some 0 }), by decide +kernel⟩,
   ⟨false, base, by decide +kernel⟩,
   ⟨true, base, by decide +kernel⟩,
   ⟨0, base.modTb (fun x => { x with ppsPresent := true, ppsAt := some 0 }), by decide +kernel⟩,
   ⟨base.modTb (fun x => { x with run := .holdover }), by decide +kernel⟩,
   ⟨0, ((base.modTb (fun x => { x with src1Since := some 0, run := .locked, src := 2, ppsPresent := true, ptpPresent := true })).setParam 0x1600 0x11).loadParams, by decide +kernel⟩,
   ⟨base.modTb (fun x => { x with ppsOut := true }), by decide +kernel⟩,
   ⟨(base.setParam 0x1607 2).loadParams, by decide +kernel⟩,
   ⟨false, base, by decide +kernel⟩,
   ⟨false, base.modTb (fun x => { x with xtalOk := false }), by decide +kernel⟩,
   ⟨!base.clock.tb.pllLock, base, by decide +kernel⟩,
   ⟨base.clock.tb.pllLock, base, by decide +kernel⟩⟩

theorem witness_ClockAndSupervisionCommands :
    (∃ (r : Req) (s : State),
      Ready 0x0130 observe r s ∧ r.payload = []) ∧
    (∃ (r : Req) (s : State),
      Ready 0x0131 configure r s ∧ r.payload = [] ∧ s.clock.tb.alignPending = true ∧ s.stepPermitted s.clock.tb.offset = true) ∧
    (∃ (r : Req) (s : State),
      Ready 0x0132 service r s ∧ r.payload.length = 8 ∧ s.now < numAt r.payload 0 8 ∧
      (s.clock.tb.run = .free ∨ s.clock.tb.run = .holdover ∨ (s.srcCode s.clock.tb.src ≠ 2 ∧ s.srcCode s.clock.tb.src ≠ 3)) ∧
      s.stepPermitted ((numAt r.payload 0 8 : Int) - s.now) = true) ∧
    (∃ (r : Req) (s : State),
      Ready 0x0140 observe r s ∧ r.payload = []) ∧
    (∃ (r : Req) (s : State),
      Ready 0x0141 service r s ∧ r.payload = []) ∧
    (∃ (r : Req) (s : State),
      Ready 0x0150 observe r s ∧ r.payload = []) ∧
    (∃ (r : Req) (a n : Nat) (s : State),
      Ready 0x0151 observe r s ∧ r.payload = leBytes 2 a ++ leBytes 2 n ∧ 1 ≤ n ∧ a + n ≤ 384) ∧
    (∃ (r : Req) (s : State),
      Ready 0x0152 service r s ∧ r.payload = [] ∧ s.holdsLease r.owner = true ∧ s.allQuiet = true) :=
  ⟨⟨rq [], base, by decide +kernel⟩,
   ⟨rq [], base.modTb (fun x => { x with alignPending := true, offset := 1000000000 }), by decide +kernel⟩,
   ⟨rq (leBytes 8 1), base, by decide +kernel⟩,
   ⟨rq [], base, by decide +kernel⟩,
   ⟨rq [], base, by decide +kernel⟩,
   ⟨rq [], base, by decide +kernel⟩,
   ⟨rq (leBytes 2 383 ++ leBytes 2 1), 383, 1, base, by decide +kernel⟩,
   ⟨rq [], leased, by decide +kernel⟩⟩

theorem witness_ThermalEvents :
    (∃ (s : State),
      s.islandUp = true) ∧
    (∃ (t0 : Nanos) (s : State),
      s.clock.th.run = .request ∧ s.clock.th.graceSince = some t0 ∧ s.tRelease ≤ s.clock.th.tj) ∧
    (∃ (t0 : Nanos) (s : State),
      s.clock.th.belowSince = some t0 ∧ s.clock.th.run = .enforced) ∧
    (∃ (t0 : Nanos) (s : State),
      s.clock.th.belowSince = some t0 ∧ s.clock.th.run = .request) ∧
    (∃ (dDie : Bool) (v w : Reading) (s : State),
      s.heldI 0x1705 ≤ (if (if dDie then s.clock.th.brokenD else s.clock.th.brokenA) then 1500 else min v w) ∧
      s.clock.th.run ≠ .tripped) ∧
    (∃ (t0 : Nanos) (s : State),
      s.clock.th.run = .tripped ∧ s.clock.th.belowTrip = some t0) ∧
    (∃ (readings : List Reading),
      readings.length = 16) ∧
    (∃ (mv ns : Nat) (s : State),
      mv < s.held 0x170A ∧ 2 < ns) ∧
    (∃ (mv ns : Nat) (s : State),
      (s.held 0x170A ≤ mv ∨ ns ≤ 2)) ∧
    (∃ (t0 : Nanos) (s : State),
      s.clock.th.hotSince = some t0) ∧
    (∃ (s : State),
      s.clock.th.nvmHold = false ∧ (s.clock.th.tjD < s.heldI 0x1708 ∨ s.heldI 0x1709 < s.clock.th.tjD)) ∧
    (∃ (s : State),
      s.clock.th.nvmHold = true ∧ s.heldI 0x1708 + 30 ≤ s.clock.th.tjD ∧ s.clock.th.tjD + 30 ≤ s.heldI 0x1709) :=
  ⟨⟨base, by decide +kernel⟩,
   ⟨0, base.modTh (fun x => { x with run := .request, graceSince := some 0, tjA := 1500, tjD := 1500 }), by decide +kernel⟩,
   ⟨0, base.modTh (fun x => { x with belowSince := some 0, run := .enforced }), by decide +kernel⟩,
   ⟨0, base.modTh (fun x => { x with belowSince := some 0, run := .request }), by decide +kernel⟩,
   ⟨false, 1500, 1500, base, by decide +kernel⟩,
   ⟨0, base.modTh (fun x => { x with run := .tripped, belowTrip := some 0 }), by decide +kernel⟩,
   ⟨List.replicate 16 0, by decide +kernel⟩,
   ⟨0, 3, base, by decide +kernel⟩,
   ⟨0, 2, base, by decide +kernel⟩,
   ⟨0, base.modTh (fun x => { x with hotSince := some 0 }), by decide +kernel⟩,
   ⟨base.modTh (fun x => { x with tjD := -1000 }), by decide +kernel⟩,
   ⟨base.modTh (fun x => { x with nvmHold := true, tjD := 250 }), by decide +kernel⟩⟩

theorem witness_WatchdogEvents :
    (∃ (s : State),
      (s.sys.wd.run = .running ∨ s.sys.wd.run = .suspended ∨ (s.sys.wd.run = .off ∧ bitAt (s.param 0x1780) 0 = true)) ∧
      s.sys.wd.withhold = false ∧ (s.sys.hawk = .running ∨ s.sys.hawk = .recovery)) ∧
    (∃ (s : State),
      (s.sys.wd.run = .paused ∨ s.sys.wd.withhold = true)) ∧
    (∃ (s : State),
      s.sys.wd.run = .running ∧ s.sys.wd.set 2 ≠ 0 ∧ s.sys.wd.warned = false ∧ s.clk < s.sys.wd.reaches (s.sys.wd.set 1)) ∧
    (∃ (s : State),
      s.sys.wd.run = .running ∧ s.sys.hawk ≠ .held ∧ s.sys.hawk ≠ .off) ∧
    (∃ (s : State),
      s.sys.hawk = .held) ∧
    (∃ (s : State),
      s.sys.wd.policy = true ∧ s.sys.wd.ramped = false ∧ s.sys.wd.set 5 ≠ 0) ∧
    (∃ (s : State),
      s.sys.wd.longOp = false ∧ s.sys.wd.run = .running ∧ s.clk < s.sys.wd.reaches (s.sys.wd.set 1)) ∧
    (∃ (s : State),
      s.sys.wd.longOp = true) ∧
    (∃ (s : State),
      s.sys.wd.longOp = true ∧ s.sys.wd.run = .suspended) ∧
    (∃ (s : State),
      s.sys.wd.longOp = false) ∧
    (∃ (s : State),
      s.sys.wd.run = .suspended) ∧
    (∃ (s : State),
      s.firmwareOn = true ∧ bitAt (s.sys.wd.set 0) 2 = true ∧ s.nv.fw.cust = .running) :=
  ⟨⟨base.modWd (fun x => { x with run := .running }), by decide +kernel⟩,
   ⟨base.modWd (fun x => { x with withhold := true }), by decide +kernel⟩,
   ⟨base.modWd (fun x => { x with run := .running, held := [0, 1, 1] }), by decide +kernel⟩,
   ⟨base.modWd (fun x => { x with run := .running }), by decide +kernel⟩,
   ⟨base.modSys (fun y => { y with hawk := .held }), by decide +kernel⟩,
   ⟨base.modWd (fun x => { x with policy := true, held := [0, 0, 0, 0, 0, 1] }), by decide +kernel⟩,
   ⟨base.modWd (fun x => { x with run := .running, held := [0, 1] }), by decide +kernel⟩,
   ⟨base.modWd (fun x => { x with longOp := true }), by decide +kernel⟩,
   ⟨base.modWd (fun x => { x with run := .suspended, longOp := true }), by decide +kernel⟩,
   ⟨base, by decide +kernel⟩,
   ⟨base.modWd (fun x => { x with run := .suspended }), by decide +kernel⟩,
   ⟨(base.modWd (fun x => { x with held := [4] })).modFw (fun f => { f with cust := .running }), by decide +kernel⟩⟩

theorem witness_ControllerEvents :
    (∃ (s : State),
      s.firmwareOn = true) ∧
    (∃ (k : Fin 4) (s : State),
      (s.sys.irq.cores[k.val]).offer = none) ∧
    (∃ (k : Fin 4) (n : Nat) (s : State),
      (s.sys.irq.cores[k.val]).offer = some n) ∧
    (∃ (k : Fin 4) (n : Nat) (run : Byte) (rest : List (Nat × Byte)) (v : U32) (s : State),
      (s.sys.irq.cores[k.val]).stack = (n, run) :: rest ∧ n = bitsOf v.toNat 8 0) ∧
    (∃ (k : Fin 4) (s : State),
      (s.sys.irq.cores[k.val]).stack = []) ∧
    (∃ (core : Fin 4) (v : U32) (s : State),
      s.isCust core = false ∧ 320 ≤ bitsOf v.toNat 8 0 ∧ bitsOf v.toNat 8 0 < 384) ∧
    (∃ (core : Fin 4) (v : U32) (s : State),
      s.isCust core = false ∧ 320 ≤ bitsOf v.toNat 8 0 ∧ bitsOf v.toNat 8 0 < 384) ∧
    (∃ (core : Fin 4) (v : U32) (s : State),
      s.isCust core = false ∧ bitsOf v.toNat 8 0 < 320) ∧
    (∃ (core : Fin 4) (v : U32) (s : State),
      s.isCust core = false ∧ bitsOf v.toNat 8 0 < 384) ∧
    (∃ (core : Fin 4) (v : U32) (s : State),
      s.isCust core = false ∧ v.getLsbD 4 = false) ∧
    (∃ (core : Fin 4) (s : State),
      s.isCust core = false) ∧
    (∃ (core : Fin 4) (v : U32) (s : State),
      s.isCust core = false ∧ (bitsOf v.toNat 7 0 < 16 ∨ bitsOf v.toNat 7 0 = 255)) ∧
    (∃ (core : Fin 4) (v : U32) (s : State),
      s.isCust core = false ∧ (bitsOf v.toNat 7 0 < 16 ∨ bitsOf v.toNat 7 0 = 255)) :=
  ⟨⟨base, by decide +kernel⟩,
   ⟨3, base, by decide +kernel⟩,
   ⟨3, 383, base.modIrq (fun q => { q with cores := vmod q.cores 3 (fun y => { y with offer := some 383 }) }), by decide +kernel⟩,
   ⟨3, 383, 1, [], 383, base.modIrq (fun q => { q with cores := vmod q.cores 3 (fun y => { y with stack := [(383, 1)] }) }), by decide +kernel⟩,
   ⟨3, base, by decide +kernel⟩,
   ⟨3, 320, base, by decide +kernel⟩,
   ⟨3, 383, base, by decide +kernel⟩,
   ⟨3, 319, base, by decide +kernel⟩,
   ⟨3, 383, base, by decide +kernel⟩,
   ⟨3, 0, base, by decide +kernel⟩,
   ⟨3, base, by decide +kernel⟩,
   ⟨3, 15, base, by decide +kernel⟩,
   ⟨3, 255, base, by decide +kernel⟩⟩

theorem witness_RingCommands :
    (∃ (x : RingRecord) (q : List RingRecord) (s : State),
      s.sys.ring.queue = x :: q) ∧
    (∃ (source : RingSource) (s : State),
      s.sys.ring.queue.find? (fun x => x.source == source) = none) ∧
    (∃ (r : Req) (base : Nat) (s : State),
      Ready 0x0D01 [1, 16] r s ∧ lenZ 12 [(3, 1)] r.payload = none ∧ numAt r.payload 0 1 ≤ 4 ∧ 12 ≤ numAt r.payload 1 1 ∧
      numAt r.payload 1 1 ≤ 30 ∧ numAt r.payload 2 1 ≤ 1 ∧ (if numAt r.payload 0 1 = 4 then r.owner = 0 ∧
      s.hasPriv r.owner 4 = true else s.hasPriv r.owner 0 = true) ∧
      (numAt r.payload 0 1 = 3 → s.sys.ring.rings.any (fun e => e.2.kind == 3 && e.2.owner == r.owner) = false) ∧
      sourceOk (numAt r.payload 0 1) (numAt r.payload 8 4) = true ∧
      s.ringGranules r.owner + 2 ^ (numAt r.payload 1 1 - 12) ≤ (s.owner r.owner).ringQuota.toNat ∧
      freeBlock s.sys.ring.rings (2 ^ (numAt r.payload 1 1 - 12)) (s.sys.ring.rings.length + 1) 0x40000 = some base) ∧
    (∃ (r : Req) (x : Ring) (s : State),
      Ready 0x0D02 [1, 16] r s ∧ r.payload.length = 4 ∧ s.ring? (numAt r.payload 0 4) = some x ∧
      s.hasPriv r.owner (if x.owner = r.owner then 0 else 4) = true ∧ x.fixed = false) ∧
    (∃ (r : Req) (x : Ring) (s : State),
      Ready 0x0D03 [1, 16] r s ∧ r.payload.length = 4 ∧ s.ring? (numAt r.payload 0 4) = some x ∧
      s.hasPriv r.owner (if x.owner = r.owner then 0 else 4) = true) ∧
    (∃ (r : Req) (x : Ring) (s : State),
      Ready 0x0D04 observe r s ∧ r.payload.length = 12 ∧ numAt r.payload 5 1 < 4 ∧ zeroAt r.payload 6 2 = true ∧
      s.ring? (numAt r.payload 0 4) = some x ∧ x.owner = r.owner ∧ 1 ≤ numAt r.payload 4 1 ∧ numAt r.payload 4 1 ≤ 63 ∧
      s.sys.mem.failing = [] ∧
      let start : U32 := if bitAt (numAt r.payload 5 1) 1 then BitVec.ofNat 32 (numAt r.payload 8 4) else x.rd
      (bitAt (numAt r.payload 5 1) 1 = true → (start - x.rd).toNat < x.fill)) ∧
    (∃ (r : Req) (x : Ring) (s : State),
      Ready 0x0D05 observe r s ∧ r.payload.length = 8 ∧ s.ring? (numAt r.payload 0 4) = some x ∧ x.owner = r.owner ∧
      ((BitVec.ofNat 32 (numAt r.payload 4 4) : U32) - x.rd).toNat ≤ x.fill) ∧
    (∃ (r : Req) (s : State),
      Ready 0x0D06 observe r s ∧ r.payload.length = 4) ∧
    (∃ (r : Req) (s : State),
      Ready 0x0D07 observe r s ∧ r.payload = []) :=
  ⟨⟨{ source := .host, dest := .ring 2, bytes := [] }, [], streaming.modSys (fun y => { y with ring := { y.ring with queue := [{ source := .host, dest := .ring 2, bytes := [] }] } }), by decide +kernel⟩,
   ⟨.host, streaming, by decide +kernel⟩,
   ⟨rq [3, 12, 0, 0, 0, 0, 0, 0, 0, 0, 0, 0], 0x40000, base, by decide +kernel⟩,
   ⟨rq [2, 0, 0, 0], oneRing, streaming, by decide +kernel⟩,
   ⟨rq [2, 0, 0, 0], oneRing, streaming, by decide +kernel⟩,
   ⟨rq [2, 0, 0, 0, 63, 2, 0, 0, 0, 0, 0, 0], { oneRing with wr := 1 }, base.modSys (fun y => { y with ring := { y.ring with rings := [(2, { oneRing with wr := 1 })] } }), by decide +kernel⟩,
   ⟨rq (zeros 8), oneRing, base.modSys (fun y => { y with ring := { y.ring with rings := [(0, oneRing)] } }), by decide +kernel⟩,
   ⟨rq (zeros 4), streaming, by decide +kernel⟩,
   ⟨rq [], base, by decide +kernel⟩⟩

theorem witness_MemoryAndDmaEvents :
    (∃ (core : Fin 4) (a : Nat) (bs : List Byte) (s : State),
      s.firstDenied (.core core) true (addresses a bs.length) = none ∧
      (addresses a bs.length).any (fun x => regionAt x == .registers) = false) ∧
    (∃ (core : Fin 4) (a n : Nat) (s : State),
      s.firstDenied (.core core) false (addresses a n) = none ∧ (addresses a n).any (fun x => regionAt x == .registers) = false ∧
      s.failingRead (addresses a n) = none ∧ (addresses a n).find? s.unwrittenAt = none) ∧
    (∃ (core : Fin 4) (a : Nat) (bs : List Byte) (b : Nat) (s : State),
      s.firstDenied (.core core) true (addresses a bs.length) = some b) ∧
    (∃ (count : U32),
      (bitsOf count.toNat 18 0 = 0 ∨ 262144 < bitsOf count.toNat 18 0)) ∧
    (∃ (count : U32),
      (bitsOf count.toNat 18 0 = 0 ∨ 262144 < bitsOf count.toNat 18 0)) ∧
    (∃ (count : U32),
      1 ≤ bitsOf count.toNat 18 0 ∧ bitsOf count.toNat 18 0 ≤ 262144) ∧
    (∃ (count : U32),
      1 ≤ bitsOf count.toNat 18 0 ∧ bitsOf count.toNat 18 0 ≤ 262144) ∧
    (∃ (v : U32),
      v.getLsbD 0 = true) ∧
    (∃ (failing : Option Nat) (s : State),
      (List.finRange 32).all (fun c => ((s.eachDma (State.fetchDesc failing)).dma c).next.isNone) = true) ∧
    (∃ (failing : Option Nat) (c : Fin 32) (d : DmaDesc) (u s : State),
      (List.finRange 32).all (fun c => ((s.eachDma (State.fetchDesc failing)).dma c).next.isNone) = false ∧
      (s.eachDma (State.fetchDesc failing)).chooseDma 1024 = some (c, d, u)) ∧
    (∃ (c : Fin 32) (e : DmaEntry) (s : State),
      (s.dma c).entry = some e ∧ (s.dma c).full = true) ∧
    (∃ (c : Fin 32) (e : DmaEntry) (s : State),
      (s.dma c).entry = some e ∧ (s.dma c).full = false ∧
      let a := (s.dma c).cring + 16 * ((s.dma c).wr.toNat % (s.dma c).entries)
      s.firstDenied (.dma c) true (addresses a 16) = none) ∧
    (∃ (c : Fin 32) (e : DmaEntry) (b : Nat) (s : State),
      (s.dma c).entry = some e ∧ (s.dma c).full = false ∧
      s.firstDenied (.dma c) true (addresses ((s.dma c).cring + 16 * ((s.dma c).wr.toNat % (s.dma c).entries)) 16) = some b) ∧
    (∃ (core : Fin 4) (s : State),
      s.custDenied core none = false) ∧
    (∃ (core : Fin 4) (s : State),
      s.custDenied core none = false) ∧
    (∃ (c : Fin 32) (s : State),
      (s.dma c).run = .halted ∧ (∀ d, (s.dma c).desc = some d → d.last = false) ∧ (s.dma c).en = true ∧ s.sys.dmaEn = true) ∧
    (∃ (c : Fin 32) (s : State),
      (s.dma c).run = .halted ∧ ((s.dma c).en = false ∨ s.sys.dmaEn = false)) ∧
    (∃ (c : Fin 32) (s : State),
      (s.dma c).run ≠ .waitCring) ∧
    (∃ (c : Fin 32) (v : U32) (s : State),
      (s.dma c).run = .waitCring ∧ ({ s.dma c with rd := BitVec.ofNat 16 v.toNat } : DmaChannel).full = false) :=
  ⟨⟨0, 0x10040000, [1], base, by decide +kernel⟩,
   ⟨0, 0x10000000, 1, base, by decide +kernel⟩,
   ⟨3, 0x1000000000, [1], 0x1000000000, base, by decide +kernel⟩,
   ⟨0, by decide +kernel⟩,
   ⟨262145, by decide +kernel⟩,
   ⟨1, by decide +kernel⟩,
   ⟨262144, by decide +kernel⟩,
   ⟨1, by decide +kernel⟩,
   ⟨none, base, by decide +kernel⟩,
   ⟨none, _, descOf [], _, dmaReady, by decide +kernel, chooseDma_turn (f := 1023) (by decide +kernel) (by decide +kernel)⟩,
   ⟨31, { tag := 1, status := 0, last := true, irq := true, bytes := 4 }, base.modDma 31 (fun x => { x with entry := some { tag := 1, status := 0, last := true, irq := true, bytes := 4 }, wr := 16 }), by decide +kernel⟩,
   ⟨31, { tag := 1, status := 0, last := true, irq := true, bytes := 4 }, base.modDma 31 (fun x => { x with entry := some { tag := 1, status := 0, last := true, irq := true, bytes := 4 }, cringLog2 := 4, cringLo := 0x02000000, cringHi := 0x10 }), by decide +kernel⟩,
   ⟨31, { tag := 1, status := 0, last := true, irq := true, bytes := 4 }, 0x20000000, base.modDma 31 (fun x => { x with entry := some { tag := 1, status := 0, last := true, irq := true, bytes := 4 }, cringLog2 := 4, cringLo := 0x20000000 }), by decide +kernel⟩,
   ⟨3, base, by decide +kernel⟩,
   ⟨3, base, by decide +kernel⟩,
   ⟨31, (base.modDma 31 (fun x => { x with run := .halted, desc := some (descOf []), en := true })).modSys (fun y => { y with dmaEn := true }), by decide +kernel⟩,
   ⟨31, base.modDma 31 (fun x => { x with run := .halted }), by decide +kernel⟩,
   ⟨31, base, by decide +kernel⟩,
   ⟨31, 0, base.modDma 31 (fun x => { x with run := .waitCring, cringLog2 := 4 }), by decide +kernel⟩⟩

theorem witness_ServicePortEvents :
    (∃ (source : Bool) (vbus : U16) (s : State),
      s.portOn = true ∧ s.port.run = .unattached ∧ (source = true → s.maySource = true ∧ vbus.toNat < 80)) ∧
    (∃ (source : Bool) (vbus : U16) (s : State),
      s.portOn = true ∧ s.port.run = .unattached ∧ (source = true → s.maySource = true ∧ vbus.toNat < 80)) ∧
    (∃ (s : State),
      s.portOn = false) ∧
    (∃ (vbus : U16) (s : State),
      (s.port.run = .attachedSrc ∨ (s.port.run = .attachedSnk ∧ vbus.toNat < 367))) ∧
    (∃ (vbus : U16) (s : State),
      s.port.run = .attachedSnk ∧ 367 ≤ vbus.toNat) ∧
    (∃ (s : State),
      s.port.run = .unattached ∧ s.maySource = true) ∧
    (∃ (objects : List U32) (k v i : Nat) (m : Bool) (s : State),
      s.port.run = .attachedSnk ∧ s.pdBegin.port.run ≠ .disabled ∧ s.pdBegin.port.inForce.choose objects = (k, v, i, m)) ∧
    (∃ (s : State),
      s.port.run = .attachedSnk ∧ s.port.accepted = true) ∧
    (∃ (bytes : List Byte) (s : State),
      s.port.attached = true ∧ numAt bytes 0 1 = 0 ∧ bitsOf (numAt bytes 1 2) 4 0 = 1 ∧ bitsOf (numAt bytes 1 2) 14 12 = 0 ∧
      bitAt (numAt bytes 1 2) 15 = false) ∧
    (∃ (bytes : List Byte) (s : State),
      s.port.attached = true ∧ numAt bytes 0 1 = 0) ∧
    (∃ (bytes : List Byte) (s : State),
      s.port.attached = true ∧ numAt bytes 0 1 = 0 ∧
      (bitsOf (numAt bytes 1 2) 4 0 ≠ 1 ∨ bitsOf (numAt bytes 1 2) 14 12 ≠ 0 ∨ bitAt (numAt bytes 1 2) 15 = true) ∧
      s.port.rxId = some (bitsOf (numAt bytes 1 2) 11 9)) ∧
    (∃ (bytes : List Byte) (s : State),
      s.port.attached = true ∧ numAt bytes 0 1 = 0 ∧
      (bitsOf (numAt bytes 1 2) 4 0 ≠ 1 ∨ bitsOf (numAt bytes 1 2) 14 12 ≠ 0 ∨ bitAt (numAt bytes 1 2) 15 = true) ∧
      s.port.rxId ≠ some (bitsOf (numAt bytes 1 2) 11 9)) ∧
    (∃ (s : State),
      s.port.attached = true) ∧
    (∃ (vbus : U16) (ns : Nat) (s : State),
      s.port.run = .attachedSnk ∧ s.port.accepted = false ∧ (s.vbusInside s.port.present vbus.toNat = true ∨ ns ≤ 1000000)) ∧
    (∃ (vbus : U16) (ns : Nat) (s : State),
      s.port.run = .attachedSnk ∧ s.port.accepted = false ∧ (s.vbusInside s.port.present vbus.toNat = true ∨ ns ≤ 1000000)) ∧
    (∃ (vbus : U16) (ns : Nat) (s : State),
      s.port.run = .attachedSnk ∧ s.port.accepted = false ∧ 1000000 < ns ∧ s.vbusInside s.port.present vbus.toNat = false) ∧
    (∃ (s : State),
      s.port.attached = true ∧ s.pdBegin.port.run ≠ .disabled) ∧
    (∃ (s : State),
      s.port.alt = true) ∧
    (∃ (s : State),
      let v := s.pickService.portEnable
      v.port.run = .unattached ∧ bitAt (v.held 0x1B00) 5 = true) ∧
    (∃ (s : State),
      let v := s.pickService.portEnable
      v.port.run = .wet) ∧
    (∃ (v : Reading) (s : State),
      s.port.attached = true ∧ s.port.alt = false ∧ s.port.corroded = false ∧ 1000 < v) :=
  ⟨⟨false, 50, (((base.setParam 0x1B00 7).loadParams)).modSp (fun x => { x with run := .unattached }), by decide +kernel⟩,
   ⟨true, 79, (((base.setParam 0x1B00 7).loadParams).modSp (fun x => { x with run := .unattached })).modRail 1 (fun x => { x with run := .good }), by decide +kernel⟩,
   ⟨(base.setParam 0x1B00 0).loadParams, by decide +kernel⟩,
   ⟨366, base.modSp (fun x => { x with run := .attachedSnk }), by decide +kernel⟩,
   ⟨367, base.modSp (fun x => { x with run := .attachedSnk }), by decide +kernel⟩,
   ⟨(((base.setParam 0x1B00 7).loadParams).modSp (fun x => { x with run := .unattached })).modRail 1 (fun x => { x with run := .good }), by decide +kernel⟩,
   ⟨[0x0001912C], _, _, _, _, ((base.setParam 0x1B00 7).loadParams).modSp (fun x => { x with run := .attachedSnk }), by decide +kernel, by decide +kernel, rfl⟩,
   ⟨base.modSp (fun x => { x with run := .attachedSnk, accepted := true }), by decide +kernel⟩,
   ⟨[0, 1, 0], base.modSp (fun x => { x with run := .attachedSrc }), by decide +kernel⟩,
   ⟨[0, 1, 0], base.modSp (fun x => { x with run := .attachedSrc }), by decide +kernel⟩,
   ⟨[0, 2, 0], base.modSp (fun x => { x with run := .attachedSrc, rxId := some 0 }), by decide +kernel⟩,
   ⟨[0, 2, 0], base.modSp (fun x => { x with run := .attachedSrc }), by decide +kernel⟩,
   ⟨base.modSp (fun x => { x with run := .attachedSrc }), by decide +kernel⟩,
   ⟨500, 1000001, base.modSp (fun x => { x with run := .attachedSnk }), by decide +kernel⟩,
   ⟨0, 1000000, base.modSp (fun x => { x with run := .attachedSnk }), by decide +kernel⟩,
   ⟨0, 1000001, base.modSp (fun x => { x with run := .attachedSnk }), by decide +kernel⟩,
   ⟨((base.setParam 0x1B00 7).loadParams).modSp (fun x => { x with run := .attachedSnk }), by decide +kernel⟩,
   ⟨base.modSp (fun x => { x with alt := true }), by decide +kernel⟩,
   ⟨((base.setParam 0x1B00 0x21).loadParams).modSp (fun x => { x with run := .unattached }), by decide +kernel⟩,
   ⟨((base.setParam 0x1B00 0x21).loadParams).modSp (fun x => { x with run := .wet }), by decide +kernel⟩,
   ⟨1001, base.modSp (fun x => { x with run := .attachedSnk }), by decide +kernel⟩⟩

theorem witness_ServicePortCommands :
    (∃ (r : Req) (s : State),
      Ready 0x1001 observe r s ∧ r.payload = []) ∧
    (∃ (r : Req) (s : State),
      Ready 0x1002 service r s ∧ r.payload = [] ∧ s.portFused = false ∧ s.port.policyOwner = none) ∧
    (∃ (r : Req) (s : State),
      Ready 0x1003 service r s ∧ r.payload = [] ∧ s.portFused = false ∧ s.port.policyOwner = some r.owner) ∧
    (∃ (r : Req) (s : State),
      Ready 0x1004 service r s ∧ r.payload.length = 16 ∧ numAt r.payload 8 1 < 4 ∧ numAt r.payload 9 1 < 2 ∧
      zeroAt r.payload 10 6 = true ∧ s.portFused = false ∧ s.port.policyOwner = some r.owner ∧ (recordOf r.payload).ok = true) ∧
    (∃ (r : Req) (s : State),
      Ready 0x1005 service r s ∧ 4 ≤ r.payload.length ∧ r.payload.length ≤ 32 ∧ r.payload.length % 4 = 0 ∧
      zeroAt r.payload 1 1 = true ∧ (numAt r.payload 0 1 = 3 ∨ numAt r.payload 0 1 = 0 ∧
      bitsOf (numAt r.payload 2 2) 14 12 = (r.payload.length - 4) / 4) ∧ s.portFused = false ∧ s.port.policyOwner = some r.owner ∧
      s.port.attached = true) :=
  ⟨⟨rq [], base, by decide +kernel⟩,
   ⟨rq [], base, by decide +kernel⟩,
   ⟨rq [], base.modSp (fun x => { x with policyOwner := some 0, run := .attachedSnk }), by decide +kernel⟩,
   ⟨rq ([0, 0] ++ leBytes 2 300 ++ [0, 0] ++ leBytes 2 50 ++ [3, 1] ++ zeros 6), base.modSp (fun x => { x with policyOwner := some 0, run := .attachedSnk }), by decide +kernel⟩,
   ⟨rq ([0, 0, 0, 0x70] ++ zeros 28), base.modSp (fun x => { x with policyOwner := some 0, run := .attachedSnk }), by decide +kernel⟩⟩

theorem witness_MramAndSecurityCommands :
    (∃ (w : NvmWrite) (ws : List NvmWrite) (s : State),
      s.nvmHeld = false ∧ s.power.safety.dieRunning = true ∧ s.nv.nvm.waiting = w :: ws ∧ s.nv.nvm.blocked w.type = false) ∧
    (∃ (w : NvmWrite) (ws : List NvmWrite) (s : State),
      s.nvmHeld = false ∧ s.power.safety.dieRunning = true ∧ s.nv.nvm.waiting = [] ∧ s.nv.nvm.lost = none ∧
      s.nv.nvm.blocked 0x20#8 = false ∧ s.nv.nvm.queue = w :: ws) ∧
    (∃ (sector corrected : Nat) (s : State),
      sector < 512 ∧ bitAt (s.param 0x1C00) 0 = true ∧ s.power.safety.dieRunning = true ∧
      corrected ≤ bitsOf (s.param 0x1C00) 15 8) ∧
    (∃ (x : Nat) (s : State),
      s.nv.nvm.migrating = [x]) ∧
    (∃ (r : Req) (s : State),
      Ready 0x0F01 observe r s ∧ r.payload = []) ∧
    (∃ (r : Req) (s : State),
      Ready 0x0F08 security r s ∧ r.payload.length = 4 ∧ s.nv.nvm.logRecords.drop (numAt r.payload 0 4) ≠ []) ∧
    (∃ (r : Req) (s : State),
      Ready 0x0F09 observe r s ∧ r.payload = []) ∧
    (∃ (r : Req) (k : Fin 4) (s : State),
      Ready 0x0F0A security r s ∧ r.payload = [BitVec.ofNat 8 k.val] ∧ r.owner = 0 ∧ r.via.transport = .smuAuth ∧
      s.fuseWindow = true) ∧
    (∃ (r : Req) (s : State),
      Ready 0x0F0B security r s ∧ r.payload = [] ∧ r.via.transport = .smuAuth ∧ s.nv.sec.customerCores.latched = true) ∧
    (∃ (r : Req) (s : State),
      Ready 0x0E08 security r s ∧ r.payload.length = 48 ∧ r.owner = 0 ∧ r.via.transport = .smuAuth ∧
      s.nv.sec.customerCores.latched = true) :=
  ⟨⟨{ type := 0x21, key := 0, payload := [] }, [], base.modNvm (fun n => { n with waiting := [{ type := 0x21, key := 0, payload := [] }] }), by decide +kernel⟩,
   ⟨{ type := 0x21, key := 0, payload := [] }, [], base.modNvm (fun n => { n with queue := [{ type := 0x21, key := 0, payload := [] }] }), by decide +kernel⟩,
   ⟨511, 0, base.setParam 0x1C00 1, by decide +kernel⟩,
   ⟨511, base.modNvm (fun n => { n with migrating := [511] }), by decide +kernel⟩,
   ⟨rq [], base, by decide +kernel⟩,
   ⟨rq (zeros 4), logged, by decide +kernel⟩,
   ⟨rq [], base, by decide +kernel⟩,
   ⟨rq [3], 3, base, by decide +kernel⟩,
   ⟨rq [], base.modSec (fun c => { c with customerCores := { c.customerCores with latched := true } }), by decide +kernel⟩,
   ⟨rq (zeros 48), base.modSec (fun c => { c with customerCores := { c.customerCores with latched := true } }), by decide +kernel⟩⟩

theorem witness_FirmwareCommands :
    (∃ (r : Req) (k : Fin 2) (s : State),
      Ready 0x0F02 security r s ∧ lenZ 8 [(1, 3)] r.payload = none ∧ s.secureVia true r = true ∧ numAt r.payload 0 1 = k.val ∧
      (k = 1 → s.sys.hawk ≠ .recovery ∧ s.nv.sec.customerCores.latched = true) ∧ 512 ≤ numAt r.payload 4 4 ∧
      numAt r.payload 4 4 ≤ sectionSize k ∧ s.nv.fw.trial = false ∧ s.nv.fw.upload = none ∧
      s.nv.nvm.retired.any (fun x => decide (x < 512)) = false) ∧
    (∃ (r : Req) (u : Upload) (s : State),
      Ready 0x0F03 security r s ∧ 4 ≤ r.payload.length ∧ r.payload.length ≤ 4064 ∧ s.secureVia true r = true ∧
      s.uploadOf r.owner = some u ∧ numAt r.payload 0 4 + (r.payload.drop 4).length ≤ u.total) ∧
    (∃ (r : Req) (u : Upload) (s : State),
      Ready 0x0F07 security r s ∧ r.payload = [] ∧ s.secureVia false r = true ∧ s.uploadOf r.owner = some u) ∧
    (∃ (r : Req) (u : Upload) (s : State),
      Ready 0x0F04 security r s ∧ r.payload = [] ∧ s.secureVia true r = true ∧ s.uploadOf r.owner = some u ∧ u.formatOk = true ∧
      (u.section_ = 0 ∨ s.nv.sec.custKey.isSome = true) ∧ s.levelOk (u.image s.nv.sec.custKey) = true) ∧
    (∃ (r : Req) (u : Upload) (sigOk hashOk keyOk : Bool) (s : State),
      Ready 0x0F04 security r s ∧ r.payload = [] ∧ s.secureVia true r = true ∧ s.uploadOf r.owner = some u ∧ u.formatOk = true ∧
      (sigOk && hashOk && keyOk) = false) ∧
    (∃ (r : Req) (s : State),
      Ready 0x0F05 security r s ∧ r.payload = [] ∧ s.secureVia true r = true ∧ s.sys.hawk ≠ .recovery ∧ s.nv.fw.trial = false ∧
      s.nv.fw.ready = true ∧
      (s.allQuiet = true ∨ ((s.nv.fw.images[2 * s.loadSlot.val]).map (fun i => i.engineMin.toNat)).getD 0 ≤ s.nv.fw.engineSet.toNat)) ∧
    (∃ (r : Req) (s : State),
      Ready 0x0F05 security r s ∧ r.payload = [] ∧ s.secureVia true r = true ∧ s.sys.hawk = .recovery ∧ s.nv.fw.ready = true) ∧
    (∃ (r : Req) (s : State),
      Ready 0x0F06 security r s ∧ r.payload = [] ∧ s.secureVia false r = true ∧ s.nv.fw.trial = true) ∧
    (∃ (s : State),
      s.nv.fw.trial = true ∧ s.sys.hawk = .running) ∧
    (∃ (s : State),
      s.sys.hawk = .booting) :=
  ⟨⟨rq ([1, 0, 0, 0] ++ leBytes 4 512), 1, base.modSec (fun c => { c with customerCores := { c.customerCores with latched := true } }), by decide +kernel⟩,
   ⟨rq (zeros 5), oneUpload, base.modFw (fun f => { f with upload := some oneUpload }), by decide +kernel⟩,
   ⟨rq [], oneUpload, base.modFw (fun f => { f with upload := some oneUpload }), by decide +kernel⟩,
   ⟨rq [], oneUpload, base.modFw (fun f => { f with upload := some oneUpload }), by decide +kernel, by decide +kernel, by decide +kernel, rfl, test_upload_format, by decide +kernel, by decide +kernel⟩,
   ⟨rq [], oneUpload, true, false, true, base.modFw (fun f => { f with upload := some oneUpload }), by decide +kernel, by decide +kernel, by decide +kernel, rfl, test_upload_format, by decide +kernel⟩,
   ⟨rq [], base.modFw (fun f => { f with ready := true }), by decide +kernel⟩,
   ⟨rq [], (base.modFw (fun f => { f with ready := true })).modSys (fun y => { y with hawk := .recovery }), by decide +kernel⟩,
   ⟨rq [], base.modFw (fun f => { f with trial := true }), by decide +kernel⟩,
   ⟨base.modFw (fun f => { f with trial := true }), by decide +kernel⟩,
   ⟨base.modSys (fun y => { y with hawk := .booting }), by decide +kernel⟩⟩

theorem witness_InvalidTickAddsNothing :
    (∃ (c : Fin 4) (s : State),
      bitAt (s.held (0x0B6C + c.val)) 0 = true ∧ ((s.meas.cc[c.val]).stuck = true ∨ s.meas.ccClkLost = true)) :=
  ⟨3, (base.setParam 0x0B6F 1).modMeas (fun m => { m with ccClkLost := true }), by decide +kernel⟩

theorem witness_RideThrough :
    (∃ (aux : U16) (s : State),
      s.power.supply.auxOk = true ∧ aux.toNat < s.power.seq.table.auxBo ∧ s.power.seq.run = .complete) ∧
    (∃ (aux : U16) (s : State),
      s.power.supply.onHold = true ∧ s.power.seq.table.auxBo + 5 < aux.toNat ∧ s.power.seq.run = .complete ∧
      (s.sys.ring.queue.filter (fun x => x.source == .plumb)).length < 16 ∧
      max s.clk (s.power.supply.rideSince + 1000000) ≤ s.power.supply.rideSince + s.power.seq.table.rideMs * 1000000) :=
  ⟨⟨0, sequencer .complete, by decide +kernel⟩,
   ⟨600, (sequencer .complete).modSupply (fun x => { x with onHold := true }), by decide +kernel⟩⟩

theorem witness_DroopEvents :
    (∃ (mv ns : Nat) (s : State),
      mv < s.held 0x170A ∧ 2 < ns ∧ s.clock.th.droopSecond ≠ some (s.now / 1000000000)) ∧
    (∃ (mv ns : Nat) (s : State),
      mv < s.held 0x170A ∧ 2 < ns ∧ s.clock.th.droopSecond = some (s.now / 1000000000)) ∧
    (∃ (mv ns mv2 ns2 : Nat) (s t u : State),
      mv < s.held 0x170A ∧ 2 < ns ∧ exec (.droopEvent mv ns) s = .next t ∧ t.now / 1000000000 = s.now / 1000000000 ∧
      exec (.droopEvent mv2 ns2) t = .next u) ∧
    (∃ (mv ns : Nat) (s : State),
      (s.held 0x170A ≤ mv ∨ ns ≤ 2)) ∧
    (∃ (mv ns : Nat) (s : State),
      (s.held 0x170A ≤ mv ∨ ns ≤ 2)) :=
  ⟨⟨0, 3, base, by decide +kernel⟩,
   ⟨0, 3, base.modTh (fun x => { x with droopSecond := some 0 }), by decide +kernel⟩,
   ⟨0, 3, 0, 3, base, after (.droopEvent 0 3) base, after (.droopEvent 0 3) (after (.droopEvent 0 3) base), by decide +kernel, by decide +kernel, droop_after _ _ _, by decide +kernel, droop_after _ _ _⟩,
   ⟨0, 2, base, by decide +kernel⟩,
   ⟨0xFFFFFFFF, 3, base, by decide +kernel⟩⟩

theorem witness_SequenceNumbersAreSpent :
    (∃ (q : U32) (o : Owner),
      (o.consume q).1 = 0) :=
  ⟨1, sender, by decide +kernel⟩

theorem witness_StoreThenLoad :
    (∃ (bs : List Byte) (a : Nat) (m : MemState),
      m.wf ∧ (∀ i, i < bs.length → (regionAt (a + i)).isDram = true → granule (a + i) ∈ m.written)) ∧
    (∃ (a : Nat) (m : MemState),
      m.wf ∧ (regionAt a).isDram = true ∧ granule a ∉ m.written) :=
  ⟨⟨[7], 0x11BFFFFFFF, { MemState.initial with written := [granule 0x11BFFFFFFF] }, by decide +kernel, by decide +kernel⟩,
   ⟨0x11BFFFFFFF, MemState.initial, by decide +kernel⟩⟩

theorem witness_EdgeWordRoundTrip :
    (∃ (w : EdgeWord),
      w.e < 2 ^ 24 ∧ w.dt < 2 ^ 14 ∧ w.epoch < 2 ^ 16) :=
  ⟨{ e := 0xFFFFFF, fall := true, noEdge := true, compOff := true, bothOff := true, dt := 0x3FFF, epoch := 0xFFFF }, by decide +kernel⟩

end Sys2Proof.Tests
end

section
/-! Memory, registers and the DMA engine (16 R428 to R443; 20 R526, R527): what each event does, by its outcome. -/

namespace Sys2Proof.Machine

variable {s : State}

/-! ### Loads and stores of the cores -/

theorem State.storeMem_of_denied {core : Fin 4} {a b : Nat} {bs : List Byte}
    (h : s.firstDenied (.core core) true (addresses a bs.length) = some b) :
    s.storeMem core a bs = s.coreFault core .bus b := by
  simp only [State.storeMem, h]

theorem State.storeMem_of_permitted {core : Fin 4} {a : Nat} {bs : List Byte}
    (hp : s.firstDenied (.core core) true (addresses a bs.length) = none)
    (hr : (addresses a bs.length).any (fun x => regionAt x == .registers) = false) :
    s.storeMem core a bs = (s.modMem (MemState.putBytes bs a)).coreDone core [] := by
  simp only [State.storeMem, hp, hr, Bool.false_eq_true, if_false]

/-- A load returns the bytes where access is permitted and no line fails or is unwritten (16 R428, R430, R433). -/
theorem State.load_of_readable {core : Fin 4} {a n : Nat}
    (hp : s.firstDenied (.core core) false (addresses a n) = none)
    (hr : (addresses a n).any (fun x => regionAt x == .registers) = false)
    (hf : s.failingRead (addresses a n) = none) (hu : (addresses a n).find? s.unwrittenAt = none) :
    s.load core a n none = s.coreDone core ((addresses a n).map s.memByte) := by
  have hspoil : ((none : Option Bool) == some true) = false := rfl
  have hcorrect : ((none : Option Bool) == some false) = false := rfl
  simp only [State.load, hp, hr, hspoil, hcorrect, Bool.false_and, Bool.false_eq_true, if_false, hf, hu]

/-! ### The memory's own registers -/

theorem execMemDiscard_of_badCount {count : U32} (h : bitsOf count.toNat 18 0 = 0 ∨ 262144 < bitsOf count.toNat 18 0) :
    execMemDiscard count s = .next s :=
  if_pos h

theorem execMemDiscard_of_goodCount {count : U32} (h1 : 1 ≤ bitsOf count.toNat 18 0) (h2 : bitsOf count.toNat 18 0 ≤ 262144) :
    execMemDiscard count s = .next (s.modMem (fun m => m.discard m.discardAddr.toNat (bitsOf count.toNat 18 0))) :=
  if_neg (by omega)

theorem execMemFirstErrClear_of_set {v : U32} (h : v.getLsbD 0 = true) :
    execMemFirstErrClear v s = .next (s.modMem (fun m => { m with firstErr := 0 })) :=
  if_pos h

/-! ### Channels of the DMA engine -/

/-- A change of a channel is fixed by what it makes of the channel's present value. -/
theorem State.modDma_congr {c : Fin 32} {f g : DmaChannel → DmaChannel} (h : f (s.dma c) = g (s.dma c)) :
    s.modDma c f = s.modDma c g :=
  congrArg (fun x => s.modSys (fun y => { y with dma := y.dma.set c.val x })) h

theorem exec_dmaBurst (failing corrected : Option Nat) (s : State) :
    exec (.dmaBurst failing corrected) s = execDmaBurst failing corrected s :=
  rfl

theorem execDmaBurst_of_noWork {failing corrected : Option Nat}
    (h : (List.finRange 32).all (fun c => ((s.eachDma (State.fetchDesc failing)).dma c).next.isNone) = true) :
    execDmaBurst failing corrected s = .next (s.eachDma (State.fetchDesc failing)) := by
  simp only [execDmaBurst, h, if_true]

theorem execDmaBurst_of_chosen {failing corrected : Option Nat} {c : Fin 32} {d : DmaDesc} {u : State}
    (hw : (List.finRange 32).all (fun c => ((s.eachDma (State.fetchDesc failing)).dma c).next.isNone) = false)
    (hc : (s.eachDma (State.fetchDesc failing)).chooseDma 1024 = some (c, d, u)) :
    execDmaBurst failing corrected s = .next (u.burst failing corrected c d) := by
  simp only [execDmaBurst, hw, hc, Bool.false_eq_true, if_false]

section Completion

variable {c : Fin 32} {e : DmaEntry} (he : (s.dma c).entry = some e)
include he

theorem execDmaDescriptorComplete_of_full (hf : (s.dma c).full = true) :
    execDmaDescriptorComplete c s = .next ((s.modDma c (fun y => { y with run := .waitCring })).raiseIf
      ((s.dma c).run != .waitCring) (204 + c.val)) := by
  simp only [execDmaDescriptorComplete, he, hf, if_true]

theorem execDmaDescriptorComplete_of_denied {b : Nat} (hf : (s.dma c).full = false)
    (hp : s.firstDenied (.dma c) true
      (addresses ((s.dma c).cring + 16 * ((s.dma c).wr.toNat % (s.dma c).entries)) 16) = some b) :
    execDmaDescriptorComplete c s = .next ((s.modDma c (fun y => { y with
      run := .halted, entry := none, haltAfter := false, stopAfter := false, cause := 0x80, errAddr := b })).raise
        (204 + c.val)) := by
  simp only [execDmaDescriptorComplete, he, hf, hp, Bool.false_eq_true, if_false]

theorem execDmaDescriptorComplete_of_permitted (hf : (s.dma c).full = false)
    (hp : s.firstDenied (.dma c) true
      (addresses ((s.dma c).cring + 16 * ((s.dma c).wr.toNat % (s.dma c).entries)) 16) = none) :
    execDmaDescriptorComplete c s = .next ((((if e.status = 0x40 then s.countUnwritten else s).modMem
      (MemState.putBytes (e.bytesAt s.now) ((s.dma c).cring + 16 * ((s.dma c).wr.toNat % (s.dma c).entries)))).modDma c
        (fun y => { (y.after e) with wr := y.wr + 1#16 })).raiseIf
          ((e.irq && (s.dma c).irqEn) || (e.status != 0 && e.status != 0x40) || (s.dma c).haltAfter) (204 + c.val)) := by
  simp only [execDmaDescriptorComplete, he, hf, hp, Bool.false_eq_true, if_false, beq_iff_eq]

end Completion

theorem execDmaKick_of_permitted {core : Fin 4} {v : U32} (h : s.custDenied core none = false) :
    execDmaKick core v s = .next (s.eachDma (fun c t =>
      if v.getLsbD c.val && (t.dma c).run == .idle && (t.dma c).en && t.sys.dmaEn then
        t.modDma c (fun y => { y with
          run := .running, at_ := (t.dma c).start, desc := none, done := 0, entry := none, kicked := true, halted := false })
      else t)) :=
  -- By definition `modDma` applies its function to `t.dma c`, so `y.start` in the model is `(t.dma c).start` here.
  if_neg (by simp [h])

theorem execDmaHaltWrite_of_permitted {core : Fin 4} {v : U32} (h : s.custDenied core none = false) :
    execDmaHaltWrite core v s = .next (s.eachDma (fun c t => if v.getLsbD c.val then
      (t.modDma c (fun y => { y with halted := true })).stopDma c 0x80 0 else t)) :=
  if_neg (by simp [h])

theorem execDmaResume_of_on {c : Fin 32} (hr : (s.dma c).run = .halted) (hl : ∀ d, (s.dma c).desc = some d → d.last = false)
    (hc : (s.dma c).en = true) (hg : s.sys.dmaEn = true) :
    execDmaResume c s = .next (s.modDma c (fun x => { x with
      run := .running, desc := none, done := 0, halted := false
      at_ := if (s.dma c).desc.isSome then (s.dma c).at_ + 32 else (s.dma c).at_ })) := by
  refine congrArg _ (State.modDma_congr ?_)
  cases hd : (s.dma c).desc with
  | none => simp [hr, hc, hg]
  | some d => simp [hr, hc, hg, hl d hd]

/-- With the channel or the engine off, a halted channel only becomes idle. -/
theorem execDmaResume_of_off {c : Fin 32} (hr : (s.dma c).run = .halted) (ho : (s.dma c).en = false ∨ s.sys.dmaEn = false) :
    execDmaResume c s = .next (s.modDma c (fun x => { x with run := .idle, desc := none })) := by
  refine congrArg _ (State.modDma_congr ?_)
  cases ho with
  | inl h => simp [hr, h]
  | inr h => simp [hr, h]

theorem execDmaCringRdWrite_of_notWaiting {c : Fin 32} {v : U32} (h : (s.dma c).run ≠ .waitCring) :
    execDmaCringRdWrite c v s = .next (s.modDma c (fun x => { x with rd := BitVec.ofNat 16 v.toNat })) :=
  congrArg _ (State.modDma_congr (by simp [h]))

theorem execDmaCringRdWrite_of_room {c : Fin 32} {v : U32} (h : (s.dma c).run = .waitCring)
    (hf : ({ s.dma c with rd := BitVec.ofNat 16 v.toNat } : DmaChannel).full = false) :
    execDmaCringRdWrite c v s = .next (s.modDma c (fun x => { x with rd := BitVec.ofNat 16 v.toNat, run := .running })) := by
  have hroom : ((s.dma c).run == .waitCring &&
      !({ s.dma c with rd := BitVec.ofNat 16 v.toNat } : DmaChannel).full) = true :=
    Bool.and_eq_true_iff.mpr ⟨beq_iff_eq.mpr h, congrArg not hf⟩
  refine congrArg _ (State.modDma_congr ?_)
  exact if_pos hroom

/-- Settles O49. `exec` of each of these instructions is its meaning by definition, so every clause is the lemma about
that meaning's outcome; the clauses without a premise are the definitions themselves. -/
theorem memoryAndDmaEvents : Obligations.MemoryAndDmaEvents := by
  unfold Obligations.MemoryAndDmaEvents
  exact ⟨fun _ _ _ _ _ _ => rfl,
    fun _ _ _ _ _ => rfl,
    fun _ _ _ _ _ _ hp hr => congrArg Host.Outcome.next (State.storeMem_of_permitted hp hr),
    fun _ _ _ _ hp hr hf hu => congrArg Host.Outcome.next (State.load_of_readable hp hr hf hu),
    fun _ _ _ _ _ _ _ h => congrArg Host.Outcome.next (State.storeMem_of_denied h),
    fun _ _ _ _ => rfl,
    fun _ _ h => execMemDiscard_of_badCount h,
    fun _ _ h1 h2 => execMemDiscard_of_goodCount h1 h2,
    fun _ _ h => execMemFirstErrClear_of_set h,
    fun _ => rfl,
    fun _ _ _ h => (exec_dmaBurst _ _ _).trans (execDmaBurst_of_noWork h),
    fun _ _ _ _ _ _ hw hc => (exec_dmaBurst _ _ _).trans (execDmaBurst_of_chosen hw hc),
    fun _ _ _ he hf => execDmaDescriptorComplete_of_full he hf,
    fun _ _ _ he hf hp => execDmaDescriptorComplete_of_permitted he hf hp,
    fun _ _ _ _ he hf hp => execDmaDescriptorComplete_of_denied he hf hp,
    fun _ _ _ h => execDmaKick_of_permitted h,
    fun _ _ _ h => execDmaHaltWrite_of_permitted h,
    fun _ _ => rfl,
    fun _ => rfl,
    fun _ _ hr hl hc hg => execDmaResume_of_on hr hl hc hg,
    fun _ _ hr ho => execDmaResume_of_off hr ho,
    fun _ _ _ h => execDmaCringRdWrite_of_notWaiting h,
    fun _ _ _ h hf => execDmaCringRdWrite_of_room h hf⟩

end Sys2Proof.Machine
end

section
/-! Every command answers and keeps the queue (02 R36, R43; 20 R525). -/

namespace Sys2Proof.Machine

/-! ### Every command answers (02 R36) -/

/-- The block goes on: the outcome is a next state. -/
def GoesOn (o : Out) : Prop := ∃ t, o = .next t

theorem next_goesOn (s : State) : GoesOn (.next s) := ⟨s, rfl⟩

/-- Every branch of every meaning is a next state: no meaning faults, and none refuses. -/
theorem exec_goesOn (i : Instr) (s : State) : GoesOn (exec i s) := by
  unfold exec
  split
  all_goals dsimp only [
    execSmuDatagram, execSmuSegmentReassemblyTimeout, execServiceUartFrame, execUartInterByteTimeout,
    execTw0SubmitRequest, execTw0ReleaseResponse, execTw0StatusRead, execTw0AttnCauseRead, execAttentionWrite,
    execTw0IslandResetRelease, execTw0IslandCycle, execOwnerAttach, execOwnerDetach, execOwnerReset, execOwnerProvision,
    execLeaseAcquire, execLeaseRenew, execLeaseRelease, execLeaseLapse, execParamGet, execParamSet, execParamGetBlock,
    execParamSave, execParamDefaults, execParamDescribe, execTableInfo, execTableOpen, execTableWrite, execTableCommit,
    execTableAbort, execTableRead, execTableDelete, execPhaseStatus, execPhaseTelemetry, execPhaseCounters,
    execPhaseRestore, execPhaseReplaced, execPhaseFaultInject, execDfltAsserted, execFastTrip, execSdStuckDetect,
    execSdClkLostDetect, execSenseFlagClear, execTrowelUpdate, execDeadtimeLimit, execCommitBoundary, execPeriodStart,
    execOpenLegDetect, execSenseImplausibleDetect, execZeroCurrentOffsetDetect, execSenseSumRecord, execShadowEnd,
    execWearLimitReached, execPhaseThermalInput, execOuterLoopSample, execLightLoadStageEntry, execRampDownComplete,
    execScheduledSetpointEffect, execGroupStatus, execGroupTelemetry, execGroupSetpoint, execGroupCancel,
    execGroupFaultAck, execGroupLimits, execTelemetryWindowEnd, execSyncInEdge, execSyncLossTimeout, execLimitSetCheck,
    execPairFrameSend, execPairFrameReceive, execPairLost, execPairTransactionTimeout, execPairStatus, execPairEnable,
    execPairTakeEffect, execPairEnableTimeout, execPairDisable, execPairDisableEffect, execPairHandover,
    execPairHandoverEffect, execStringEvaluation, execStringStatus, execChargeFaultRead, execProfileRestart,
    execSleepEnter, execDustSheetEnter, execLowPowerStateReached, execWake, execWakeSource, execRealTimeAlarm,
    execCcWakeThreshold, execWakeComplete, execFeedEvaluation, execFeedOvercurrentTrip, execFeedReverseTurnOff,
    execFeedBlockingRearm, execFeedBlockTimeout, execFeedRetryWaitEnd, execFeedBusOv, execFeedSwitchLost,
    execFeedPgDelayExpiry, execFeedRetryClear, execFeedStatus, execFeedArm, execFeedOpen, execContactorStatus,
    execContactorClose, execContactorOpen, execContactorWeldTest, execContactorWeldClear, execContactorAutoPrecharge,
    execPrechargeComplete, execPrechargeTimeout, execContactorFeedbackChange, execContactorCloseTimeout,
    execContactorOpenTimeout, execContactorDropped, execWeldTestTimeout, execHousekeepingRun,
    execSelfCalibrationComplete, execSequenceTrigger, execSequenceRunComplete, execSequenceTableActivation,
    execBoardCalibrationComplete, execComparatorAssert, execComparatorRelease, execVsdInputInvalid, execVsdInputValid,
    execModulatorClockLost, execCoulombTick, execCoulombTelemetryInterval, execMeasRead, execMeasVsdRead,
    execMeasTrigger, execMeasCalibrate, execMeasCmpStatus, execMeasCmpClear, execCcRead, execCcReset, execMeasSeqStatus,
    execChainReceiverLock, execRingStateChange, execEnumerationEnd, execDelayMeasurement, execMarkSend,
    execSampleInstant, execSweepReadsStart, execChainReply, execChainReadTimeout, execSweepComplete, execSweepDeadline,
    execModuleChainLost, execBalanceRequestSend, execChainPortStop, execChainStatus, execChainEnumerate,
    execChainModuleRead, execChainBalance, execChainNodeCmd, execChainProbe, execModuleAccept, execFloatUpdate,
    execCellDiverged, execTempStale, execBalancingDecision, execLearningInterval, execReducedRateEntry,
    execFullRateResume, execHibernateEntry, execHibernateRecord, execEndOfLife, execEstStatusRead, execEstCellRead,
    execEstLearnNow, execEstSetSoc, execEstRelearn, execStippleSweepStart, execStipplePointStart, execStipplePointEnd,
    execStippleDeferTimeout, execStippleSweepEnd, execStippleStart, execStippleAbort, execStippleStatus,
    execStippleResult, execAuxRise, execSequencerStageStart, execRailPowerGood, execRailRiseTimeout,
    execDDieResetRelease, execCriticalRailFault, execNoncriticalRailFault, execDownSequenceStage,
    execSequenceRetryWaitEnd, execLockoutExit, execSequenceRetryReset, execStepNAdvance, execStepNTimeout,
    execAuxBrownOut, execAuxReturn, execRideThroughExpiry, execHoldReadyChange, execRetentionLoss, execRailStatus,
    execRailOn, execRailOff, execRailHistory, execFaultNExternalLow, execFaultNRelease, execDieLinkTimeout,
    execReferenceFailure, execPpsInEdge, execPpsSourceLoss, execHoldoverTimeout, execPrimarySourceReturn,
    execPpsOutPulse, execTbStatusRead, execTbAlignNow, execTbSetTod, execThermalEvaluation, execThermalGraceExpiry,
    execThermalRelease, execHardwareThermalTrip, execThermalTripRelease, execDiodeBroken, execNvmWriteHold,
    execNvmWriteResume, execPvtMeasurement, execDroopEvent, execHotHourCount, execThStatusRead, execThPvtRead,
    execWatchdogKick, execWatchdogWarning, execWatchdogExpiry, execHawkResetHoldEnd, execWatchdogHoldTimeout,
    execLongOpStart, execLongOpEnd, execLongOpSuspendTimeout, execCustomerHeartbeatMissing, execFirmwareBoot,
    execWdStatusRead, execIrqCounts, execWdTest, execInterruptRaise, execInterruptRouting, execIrqCountFold,
    execIcClaimRead, execIcEoiWrite, execIcSwsetWrite, execIcSwclrWrite, execIcCfgWrite, execIcStatRead, execIcThrWrite,
    execDmaKick, execDmaHaltWrite, execDmaChannelDisable, execDmaGlobalDisable, execDmaResume, execDmaCringRdWrite,
    execDmaBurst, execDmaDescriptorComplete, execMemDiscard, execMemFirstErrClear, execRecordAck, execCoreMemoryAccess,
    execRegisterWrite, execRingRecordAppend, execStreamFlushTimeout, execRingCreate, execRingDelete, execRingStatus,
    execRingRead, execRingAck, execRingList, execMemStatus, execEthLinkChange, execEthFrameReceived, execEthPortRestart,
    execPtpSyncReceived, execPtpDelayReqSend, execPtpMasterSend, execPtpSourceLoss, execPrpSupervisionSend,
    execPrpLanTimeout, execLinkStatus, execEthRestart, execTwCycle, execTw1Xfer, execTw1StretchTimeout,
    execStreamCreate, execStreamDelete, execStreamStatus, execCcAttach, execCcDetach, execPdSourceCapabilities,
    execPdPsRdy, execPdMessageReceived, execPdHardResetReceived, execPdRetriesExhausted, execPdEnterMode,
    execPdExitMode, execVbusMonitorBreach, execMoistureCheck, execSbuCorrosion, execSpStatusRead, execSpPolicyClaim,
    execSpPolicyRelease, execSpPdPolicy, execSpPdSend, execNvmRecordWrite, execNvmScrub, execSectorMigrationComplete,
    execTrialTimeout, execNvmStatusRead, execFwOpen, execFwWrite, execFwFinish, execFwActivate, execFwCommit,
    execFwAbort, execLogRead, execFuseRead, execFuseBlow, execCustCommit, execCustKeySet, execDfltBlankingEnd,
    execDfltDeasserted, execPhaseBankSupplyWindow, execDieLinkRestored, execReferenceRestored, execPllLockChange,
    execDrpToggle, execHoldUpFlushComplete]
  -- Each meaning now shows its branches: the conditions and matches that end in an outcome.
  all_goals repeat' (first | with_reducible exact next_goesOn _ | split)

/-- Every meaning keeps what every command keeps. -/
theorem exec_keeps (i : Instr) (s : State) : KeepsOut s (exec i s) := by
  have h := Keeps.refl s
  unfold exec
  split
  · exact execSmuDatagram_keeps h
  · exact execSmuSegmentReassemblyTimeout_keeps h
  · exact execServiceUartFrame_keeps h
  · exact execUartInterByteTimeout_keeps h
  · exact execTw0SubmitRequest_keeps h
  · exact execTw0ReleaseResponse_keeps h
  · exact execTw0StatusRead_keeps h
  · exact execTw0AttnCauseRead_keeps h
  · exact execAttentionWrite_keeps h
  · exact execTw0IslandResetRelease_keeps h
  · exact execTw0IslandCycle_keeps h
  · exact execOwnerAttach_keeps h
  · exact execOwnerDetach_keeps h
  · exact execOwnerReset_keeps h
  · exact execOwnerProvision_keeps h
  · exact execLeaseAcquire_keeps h
  · exact execLeaseRenew_keeps h
  · exact execLeaseRelease_keeps h
  · exact execLeaseLapse_keeps h
  · exact execParamGet_keeps h
  · exact execParamSet_keeps h
  · exact execParamGetBlock_keeps h
  · exact execParamSave_keeps h
  · exact execParamDefaults_keeps h
  · exact execParamDescribe_keeps h
  · exact execTableInfo_keeps h
  · exact execTableOpen_keeps h
  · exact execTableWrite_keeps h
  · exact execTableCommit_keeps h
  · exact execTableAbort_keeps h
  · exact execTableRead_keeps h
  · exact execTableDelete_keeps h
  · exact execPhaseStatus_keeps h
  · exact execPhaseTelemetry_keeps h
  · exact execPhaseCounters_keeps h
  · exact execPhaseRestore_keeps h
  · exact execPhaseReplaced_keeps h
  · exact execPhaseFaultInject_keeps h
  · exact execDfltAsserted_keeps h
  · exact execFastTrip_keeps h
  · exact execSdStuckDetect_keeps h
  · exact execSdClkLostDetect_keeps h
  · exact execSenseFlagClear_keeps h
  · exact execTrowelUpdate_keeps h
  · exact execDeadtimeLimit_keeps h
  · exact execCommitBoundary_keeps h
  · exact execPeriodStart_keeps h
  · exact execOpenLegDetect_keeps h
  · exact execSenseImplausibleDetect_keeps h
  · exact execZeroCurrentOffsetDetect_keeps h
  · exact execSenseSumRecord_keeps h
  · exact execShadowEnd_keeps h
  · exact execWearLimitReached_keeps h
  · exact execPhaseThermalInput_keeps h
  · exact execOuterLoopSample_keeps h
  · exact execLightLoadStageEntry_keeps h
  · exact execRampDownComplete_keeps h
  · exact execScheduledSetpointEffect_keeps h
  · exact execGroupStatus_keeps h
  · exact execGroupTelemetry_keeps h
  · exact execGroupSetpoint_keeps h
  · exact execGroupCancel_keeps h
  · exact execGroupFaultAck_keeps h
  · exact execGroupLimits_keeps h
  · exact execTelemetryWindowEnd_keeps h
  · exact execSyncInEdge_keeps h
  · exact execSyncLossTimeout_keeps h
  · exact execLimitSetCheck_keeps h
  · exact execPairFrameSend_keeps h
  · exact execPairFrameReceive_keeps h
  · exact execPairLost_keeps h
  · exact execPairTransactionTimeout_keeps h
  · exact execPairStatus_keeps h
  · exact execPairEnable_keeps h
  · exact execPairTakeEffect_keeps h
  · exact execPairEnableTimeout_keeps h
  · exact execPairDisable_keeps h
  · exact execPairDisableEffect_keeps h
  · exact execPairHandover_keeps h
  · exact execPairHandoverEffect_keeps h
  · exact execStringEvaluation_keeps h
  · exact execStringStatus_keeps h
  · exact execChargeFaultRead_keeps h
  · exact execProfileRestart_keeps h
  · exact execSleepEnter_keeps h
  · exact execDustSheetEnter_keeps h
  · exact execLowPowerStateReached_keeps h
  · exact execWake_keeps h
  · exact execWakeSource_keeps h
  · exact execRealTimeAlarm_keeps h
  · exact execCcWakeThreshold_keeps h
  · exact execWakeComplete_keeps h
  · exact execFeedEvaluation_keeps h
  · exact execFeedOvercurrentTrip_keeps h
  · exact execFeedReverseTurnOff_keeps h
  · exact execFeedBlockingRearm_keeps h
  · exact execFeedBlockTimeout_keeps h
  · exact execFeedRetryWaitEnd_keeps h
  · exact execFeedBusOv_keeps h
  · exact execFeedSwitchLost_keeps h
  · exact execFeedPgDelayExpiry_keeps h
  · exact execFeedRetryClear_keeps h
  · exact execFeedStatus_keeps h
  · exact execFeedArm_keeps h
  · exact execFeedOpen_keeps h
  · exact execContactorStatus_keeps h
  · exact execContactorClose_keeps h
  · exact execContactorOpen_keeps h
  · exact execContactorWeldTest_keeps h
  · exact execContactorWeldClear_keeps h
  · exact execContactorAutoPrecharge_keeps h
  · exact execPrechargeComplete_keeps h
  · exact execPrechargeTimeout_keeps h
  · exact execContactorFeedbackChange_keeps h
  · exact execContactorCloseTimeout_keeps h
  · exact execContactorOpenTimeout_keeps h
  · exact execContactorDropped_keeps h
  · exact execWeldTestTimeout_keeps h
  · exact execHousekeepingRun_keeps h
  · exact execSelfCalibrationComplete_keeps h
  · exact execSequenceTrigger_keeps h
  · exact execSequenceRunComplete_keeps h
  · exact execSequenceTableActivation_keeps h
  · exact execBoardCalibrationComplete_keeps h
  · exact execComparatorAssert_keeps h
  · exact execComparatorRelease_keeps h
  · exact execVsdInputInvalid_keeps h
  · exact execVsdInputValid_keeps h
  · exact execModulatorClockLost_keeps h
  · exact execCoulombTick_keeps h
  · exact execCoulombTelemetryInterval_keeps h
  · exact execMeasRead_keeps h
  · exact execMeasVsdRead_keeps h
  · exact execMeasTrigger_keeps h
  · exact execMeasCalibrate_keeps h
  · exact execMeasCmpStatus_keeps h
  · exact execMeasCmpClear_keeps h
  · exact execCcRead_keeps h
  · exact execCcReset_keeps h
  · exact execMeasSeqStatus_keeps h
  · exact execChainReceiverLock_keeps h
  · exact execRingStateChange_keeps h
  · exact execEnumerationEnd_keeps h
  · exact execDelayMeasurement_keeps h
  · exact execMarkSend_keeps h
  · exact execSampleInstant_keeps h
  · exact execSweepReadsStart_keeps h
  · exact execChainReply_keeps h
  · exact execChainReadTimeout_keeps h
  · exact execSweepComplete_keeps h
  · exact execSweepDeadline_keeps h
  · exact execModuleChainLost_keeps h
  · exact execBalanceRequestSend_keeps h
  · exact execChainPortStop_keeps h
  · exact execChainStatus_keeps h
  · exact execChainEnumerate_keeps h
  · exact execChainModuleRead_keeps h
  · exact execChainBalance_keeps h
  · exact execChainNodeCmd_keeps h
  · exact execChainProbe_keeps h
  · exact execModuleAccept_keeps h
  · exact execFloatUpdate_keeps h
  · exact execCellDiverged_keeps h
  · exact execTempStale_keeps h
  · exact execBalancingDecision_keeps h
  · exact execLearningInterval_keeps h
  · exact execReducedRateEntry_keeps h
  · exact execFullRateResume_keeps h
  · exact execHibernateEntry_keeps h
  · exact execHibernateRecord_keeps h
  · exact execEndOfLife_keeps h
  · exact execEstStatusRead_keeps h
  · exact execEstCellRead_keeps h
  · exact execEstLearnNow_keeps h
  · exact execEstSetSoc_keeps h
  · exact execEstRelearn_keeps h
  · exact execStippleSweepStart_keeps h
  · exact execStipplePointStart_keeps h
  · exact execStipplePointEnd_keeps h
  · exact execStippleDeferTimeout_keeps h
  · exact execStippleSweepEnd_keeps h
  · exact execStippleStart_keeps h
  · exact execStippleAbort_keeps h
  · exact execStippleStatus_keeps h
  · exact execStippleResult_keeps h
  · exact execAuxRise_keeps h
  · exact execSequencerStageStart_keeps h
  · exact execRailPowerGood_keeps h
  · exact execRailRiseTimeout_keeps h
  · exact execDDieResetRelease_keeps h
  · exact execCriticalRailFault_keeps h
  · exact execNoncriticalRailFault_keeps h
  · exact execDownSequenceStage_keeps h
  · exact execSequenceRetryWaitEnd_keeps h
  · exact execLockoutExit_keeps h
  · exact execSequenceRetryReset_keeps h
  · exact execStepNAdvance_keeps h
  · exact execStepNTimeout_keeps h
  · exact execAuxBrownOut_keeps h
  · exact execAuxReturn_keeps h
  · exact execRideThroughExpiry_keeps h
  · exact execHoldReadyChange_keeps h
  · exact execRetentionLoss_keeps h
  · exact execRailStatus_keeps h
  · exact execRailOn_keeps h
  · exact execRailOff_keeps h
  · exact execRailHistory_keeps h
  · exact execFaultNExternalLow_keeps h
  · exact execFaultNRelease_keeps h
  · exact execDieLinkTimeout_keeps h
  · exact execReferenceFailure_keeps h
  · exact execPpsInEdge_keeps h
  · exact execPpsSourceLoss_keeps h
  · exact execHoldoverTimeout_keeps h
  · exact execPrimarySourceReturn_keeps h
  · exact execPpsOutPulse_keeps h
  · exact execTbStatusRead_keeps h
  · exact execTbAlignNow_keeps h
  · exact execTbSetTod_keeps h
  · exact execThermalEvaluation_keeps h
  · exact execThermalGraceExpiry_keeps h
  · exact execThermalRelease_keeps h
  · exact execHardwareThermalTrip_keeps h
  · exact execThermalTripRelease_keeps h
  · exact execDiodeBroken_keeps h
  · exact execNvmWriteHold_keeps h
  · exact execNvmWriteResume_keeps h
  · exact execPvtMeasurement_keeps h
  · exact execDroopEvent_keeps h
  · exact execHotHourCount_keeps h
  · exact execThStatusRead_keeps h
  · exact execThPvtRead_keeps h
  · exact execWatchdogKick_keeps h
  · exact execWatchdogWarning_keeps h
  · exact execWatchdogExpiry_keeps h
  · exact execHawkResetHoldEnd_keeps h
  · exact execWatchdogHoldTimeout_keeps h
  · exact execLongOpStart_keeps h
  · exact execLongOpEnd_keeps h
  · exact execLongOpSuspendTimeout_keeps h
  · exact execCustomerHeartbeatMissing_keeps h
  · exact execFirmwareBoot_keeps h
  · exact execWdStatusRead_keeps h
  · exact execIrqCounts_keeps h
  · exact execWdTest_keeps h
  · exact execInterruptRaise_keeps h
  · exact execInterruptRouting_keeps h
  · exact execIrqCountFold_keeps h
  · exact execIcClaimRead_keeps h
  · exact execIcEoiWrite_keeps h
  · exact execIcSwsetWrite_keeps h
  · exact execIcSwclrWrite_keeps h
  · exact execIcCfgWrite_keeps h
  · exact execIcStatRead_keeps h
  · exact execIcThrWrite_keeps h
  · exact execDmaKick_keeps h
  · exact execDmaHaltWrite_keeps h
  · exact execDmaChannelDisable_keeps h
  · exact execDmaGlobalDisable_keeps h
  · exact execDmaResume_keeps h
  · exact execDmaCringRdWrite_keeps h
  · exact execDmaBurst_keeps h
  · exact execDmaDescriptorComplete_keeps h
  · exact execMemDiscard_keeps h
  · exact execMemFirstErrClear_keeps h
  · exact execRecordAck_keeps h
  · exact execCoreMemoryAccess_keeps h
  · exact execRegisterWrite_keeps h
  · exact execRingRecordAppend_keeps h
  · exact execStreamFlushTimeout_keeps h
  · exact execRingCreate_keeps h
  · exact execRingDelete_keeps h
  · exact execRingStatus_keeps h
  · exact execRingRead_keeps h
  · exact execRingAck_keeps h
  · exact execRingList_keeps h
  · exact execMemStatus_keeps h
  · exact execEthLinkChange_keeps h
  · exact execEthFrameReceived_keeps h
  · exact execEthPortRestart_keeps h
  · exact execPtpSyncReceived_keeps h
  · exact execPtpDelayReqSend_keeps h
  · exact execPtpMasterSend_keeps h
  · exact execPtpSourceLoss_keeps h
  · exact execPrpSupervisionSend_keeps h
  · exact execPrpLanTimeout_keeps h
  · exact execLinkStatus_keeps h
  · exact execEthRestart_keeps h
  · exact execTwCycle_keeps h
  · exact execTw1Xfer_keeps h
  · exact execTw1StretchTimeout_keeps h
  · exact execStreamCreate_keeps h
  · exact execStreamDelete_keeps h
  · exact execStreamStatus_keeps h
  · exact execCcAttach_keeps h
  · exact execCcDetach_keeps h
  · exact execPdSourceCapabilities_keeps h
  · exact execPdPsRdy_keeps h
  · exact execPdMessageReceived_keeps h
  · exact execPdHardResetReceived_keeps h
  · exact execPdRetriesExhausted_keeps h
  · exact execPdEnterMode_keeps h
  · exact execPdExitMode_keeps h
  · exact execVbusMonitorBreach_keeps h
  · exact execMoistureCheck_keeps h
  · exact execSbuCorrosion_keeps h
  · exact execSpStatusRead_keeps h
  · exact execSpPolicyClaim_keeps h
  · exact execSpPolicyRelease_keeps h
  · exact execSpPdPolicy_keeps h
  · exact execSpPdSend_keeps h
  · exact execNvmRecordWrite_keeps h
  · exact execNvmScrub_keeps h
  · exact execSectorMigrationComplete_keeps h
  · exact execTrialTimeout_keeps h
  · exact execNvmStatusRead_keeps h
  · exact execFwOpen_keeps h
  · exact execFwWrite_keeps h
  · exact execFwFinish_keeps h
  · exact execFwActivate_keeps h
  · exact execFwCommit_keeps h
  · exact execFwAbort_keeps h
  · exact execLogRead_keeps h
  · exact execFuseRead_keeps h
  · exact execFuseBlow_keeps h
  · exact execCustCommit_keeps h
  · exact execCustKeySet_keeps h
  · exact execDfltBlankingEnd_keeps h
  · exact execDfltDeasserted_keeps h
  · exact execPhaseBankSupplyWindow_keeps h
  · exact execDieLinkRestored_keeps h
  · exact execReferenceRestored_keeps h
  · exact execPllLockChange_keeps h
  · exact execDrpToggle_keeps h
  · exact execHoldUpFlushComplete_keeps h

/-- Every command leads to a next state, and keeps what every command keeps. -/
theorem exec_next (i : Instr) (s : State) : ∃ t, exec i s = .next t ∧ Keeps s t := by
  obtain ⟨t, ht⟩ := exec_goesOn i s
  exact ⟨t, ht, exec_keeps i s t ht⟩

/-- Settles O3: a step on a queue executes its front on the state without it, and every meaning goes on and keeps the
queue that it finds. -/
theorem everyCommandCompletes : Obligations.EveryCommandCompletes := by
  unfold Obligations.EveryCommandCompletes
  constructor
  · intro i s
    obtain ⟨t, ht, hk⟩ := exec_next i s
    exact ⟨t, ht, hk.pending⟩
  · intro i rest s hs
    obtain ⟨t, ht, hk⟩ := exec_next i { s with pending := rest }
    exact ⟨t, by simp only [step, hs, ht], hk.pending⟩

end Sys2Proof.Machine
end

section
/-! Refusals (02 R36, R43, R562), the replay window (02 R37), and the frames that put a command into the record. -/

namespace Sys2Proof.Machine

/-! ### A refused opcode -/

/-- What an answer alone leaves as it was: everything but the record, the frames and the records on their way. -/
def OnlyAnswered (s t : State) : Prop :=
  t.host.params = s.host.params ∧ t.host.tables = s.host.tables ∧ t.host.owners = s.host.owners ∧
  t.host.lease = s.host.lease ∧ t.clk = s.clk ∧ t.conv = s.conv ∧ t.chg = s.chg ∧ t.bus = s.bus ∧ t.meas = s.meas ∧
  t.stack = s.stack ∧ t.power = s.power ∧ t.clock = s.clock ∧ t.port = s.port ∧ t.sys.mem = s.sys.mem ∧
  t.nv.nvm.records = s.nv.nvm.records ∧ t.nv.fw = s.nv.fw ∧ t.pending = s.pending

theorem OnlyAnswered.refl (s : State) : OnlyAnswered s s := by simp [OnlyAnswered]

theorem State.finish_onlyAnswers (s : State) (r : Req) (op : Nat) (a : Reply) : OnlyAnswered s (s.finish r op a) := by
  simp [OnlyAnswered]

theorem State.park_onlyAnswers (s : State) (r : Req) (op : Nat) : OnlyAnswered s (s.park r op) := by
  simp [OnlyAnswered]

/-- Where the opcode's rule is not reached, or fails, its request is only answered, or waits. -/
theorem State.runOp_onlyAnswers {opcode : Nat} {alts : Alts} {shape : List Byte → Option Nat} {body : State → Res}
    {r : Req} {s : State}
    (h : s.precheck opcode alts r ≠ none ∨ shape r.payload ≠ none ∨ ∃ st d p, body s = .fail st d p) :
    OnlyAnswered s (s.runOp opcode alts shape body r) := by
  unfold State.runOp
  split
  · exact OnlyAnswered.refl s
  · split
    next => exact s.finish_onlyAnswers r opcode _
    next hp =>
      split
      · exact s.park_onlyAnswers r opcode
      · split
        next => exact s.finish_onlyAnswers r opcode _
        next hs =>
          obtain ⟨st, d, p, hb⟩ := (h.resolve_left (not_not_intro hp)).resolve_left (not_not_intro hs)
          rw [hb]
          exact s.finish_onlyAnswers r opcode _

/-- Settles O10: such a request is only answered. -/
theorem refusalChangesNothing : Obligations.RefusalChangesNothing := by
  unfold Obligations.RefusalChangesNothing
  exact fun _ _ _ _ _ _ h => State.runOp_onlyAnswers h

/-! ### Check 7: the replay window (02 R37) -/

/-- A number is spent: it is the highest accepted, or one of the 1,023 behind it whose place in the window is taken. -/
def Owner.spent (q : U32) (o : Owner) : Prop :=
  q = o.high ∨ (2 ^ 31 ≤ (q - o.high).toNat ∧ (o.high - q).toNat < 1024 ∧ o.window.getLsbD (o.high - q).toNat = true)

theorem Owner.consume_of_spent {q : U32} {o : Owner} (h : o.spent q) : o.consume q = (0x0004, o) := by
  rcases h with rfl | ⟨hd, ha, hw⟩
  · simp [Owner.consume]
  · simp only [Owner.consume, hw, if_neg (show (q - o.high).toNat ≠ 0 by omega), if_neg (Nat.not_lt.mpr hd),
      if_neg (Nat.not_le.mpr ha), if_true]

theorem taken_after_mark (w : BitVec 1024) {n : Nat} (h : n < 1024) : (w ||| (1#1024 <<< n)).getLsbD n = true := by
  simp [h]

/-- An accepted number is ahead of the highest and becomes the highest, or lies behind it and takes its place in the
window; either way it is spent. -/
theorem Owner.spent_of_consume {q : U32} {o : Owner} (h : (o.consume q).1 = 0) :
    (o.consume q).2.spent q ∧ (o.consume q).2.session = o.session ∧ (o.consume q).2.epoch = o.epoch ∧
      ((o.consume q).2.high = q ∨ (o.consume q).2.high = o.high) := by
  dsimp only [Owner.consume] at h ⊢
  split at h
  · simp at h
  next hne =>
    rw [if_neg hne]
    split at h
    next hlt =>
      rw [if_pos hlt]
      exact ⟨.inl rfl, rfl, rfl, .inl rfl⟩
    next hge =>
      rw [if_neg hge]
      split at h
      · simp at h
      next hnear =>
        rw [if_neg hnear]
        split at h
        · simp at h
        next hfree =>
          rw [if_neg hfree]
          have ha : (o.high - q).toNat < 1024 := Nat.not_le.mp hnear
          exact ⟨.inr ⟨Nat.not_lt.mp hge, ha, taken_after_mark _ ha⟩, rfl, rfl, .inr rfl⟩

/-- Settles O58: acceptance makes a number spent, and a spent number is refused. -/
theorem sequenceNumbersAreSpent : Obligations.SequenceNumbersAreSpent := by
  unfold Obligations.SequenceNumbersAreSpent
  intro q o h
  obtain ⟨hspent, hsession, hepoch, hhigh⟩ := Owner.spent_of_consume h
  refine ⟨?_, hsession, hepoch, hhigh⟩
  simp [Owner.consume_of_spent hspent]

/-! ### A whole frame that passes checks 1 to 11 (02 R36, R37, R40) -/

section Accepted

variable {s : State} {v : Via} {b : List Byte} {o : Owner}

theorem State.accept_of_takesFrame (h : s.takesFrame v b o) : s.accept v b = s.withRequest v b o := by
  obtain ⟨_, _, hwhole, hop, hsender, hreset, hattached, hseq, hcmd⟩ := h
  simp [State.accept, hwhole, hsender, hreset, hattached, hseq, hcmd, State.enterRecord, hop, State.withRequest]

theorem State.receive_of_takesFrame (h : s.takesFrame v b o) : s.receive v b = s.withRequest v b o := by
  have haccept := State.accept_of_takesFrame h
  obtain ⟨hserving, hrun, _⟩ := h
  simp only [State.receive, hrun, hserving, if_true, haccept]

theorem State.uartFrame_of_takesFrame (h : s.takesFrame uartVia b o) : s.uartFrame b = s.withRequest uartVia b o := by
  have haccept := State.accept_of_takesFrame h
  obtain ⟨hserving, _⟩ := h
  simp [State.uartFrame, hserving, haccept]

end Accepted

theorem execSmuDatagram_of_mailbox {q : Fin 2} {addr : U32} {udp : U16} {b : List Byte} {s : State}
    (hup : (s.eth q).up = true) (hip : (s.eth q).set.ip ≠ 0) (hlen : b.length ≤ (s.eth q).maxUdp) (hver : numAt b 0 1 = 2) :
    execSmuDatagram q addr udp b s =
      .next ((s.modLink (LinkState.learn q addr)).receive (smuVia q addr udp b) b) := by
  simp only [execSmuDatagram]
  rw [if_neg (by simpa [hup, hlen] using hip), if_pos hver]

theorem execTw0SubmitRequest_of_free {buffer : List Byte} {a : BitVec 7} {s : State} (ha : s.link.tw.address = some a)
    (hbusy : s.link.tw.busyUntil ≤ s.clk) (hheld : s.twHeld < 16) (hrun : s.chg.low.run ≠ .dustSheet)
    (hlen : numAt ((buffer ++ zeros 4096).take 4096) 6 2 ≤ 4080) :
    execTw0SubmitRequest buffer s =
      .next (((s.twStart 9).modTw (fun w => { w with
        request := (buffer ++ zeros 4096).take 4096, busyUntil := s.clk + 20000 })).receive
          { transport := .tw0, port := 0, addr := 0, udp := 0 }
          (((buffer ++ zeros 4096).take 4096).take (16 + numAt ((buffer ++ zeros 4096).take 4096) 6 2))) := by
  simp only [execTw0SubmitRequest]
  rw [if_neg (by simp [ha, hbusy, hheld, hrun]), if_neg (Nat.not_lt.mpr hlen)]

theorem execServiceUartFrame_of_frame {coded b : List Byte} {s : State} (halt : s.port.alt = true) (hne : coded ≠ [])
    (hlen : coded.length ≤ 4114) (hcobs : cobs (coded.length + 1) coded = some b) :
    execServiceUartFrame coded 0 s = .next ((s.pickParam 0x1B05).uartFrame b) := by
  simp [execServiceUartFrame, halt, hne, Nat.not_lt.mpr hlen, hcobs, State.framingErrors]

/-- Settles O11: on each transport the row hands the frame on, and a frame that passes the checks is recorded. -/
theorem mailboxFramesAccepted : Obligations.MailboxFramesAccepted := by
  unfold Obligations.MailboxFramesAccepted
  refine ⟨?_, ?_, ?_⟩
  · intro q addr udp b o s t hup hip hlen hver htakes
    exact (execSmuDatagram_of_mailbox hup hip hlen hver).trans (congrArg _ (State.receive_of_takesFrame htakes))
  · intro buffer a o s buf b v t ha hbusy hheld hlen htakes
    have ⟨_, hrunning, _⟩ := htakes
    have hrun : s.chg.low.run = .running := hrunning
    exact (execTw0SubmitRequest_of_free ha hbusy hheld (by simp [hrun]) hlen).trans
      (congrArg _ (State.receive_of_takesFrame htakes))
  · intro coded b o s halt hne hlen hcobs htakes
    exact (execServiceUartFrame_of_frame halt hne hlen hcobs).trans (congrArg _ (State.uartFrame_of_takesFrame htakes))

end Sys2Proof.Machine
end

section
/-! The opcodes of owners, parameters and tables (02 R30 to R33, R38, R46 to R59, R563 to R565), one lemma for each outcome. -/

namespace Sys2Proof.Machine

/-! ### Ready requests, as their rows answer them -/

section ReadyRows

variable {opcode : Nat} {alts : Alts} {shape : List Byte → Option Nat} {body : State → Res} {r : Req} {s t : State} {a : Reply}

theorem Ready.next_ok (h : Ready opcode alts r s) (hs : shape r.payload = none) (hb : body s = .ok a t) :
    (.next (s.runOp opcode alts shape body r) : Out) = .next (t.complete r opcode a) :=
  congrArg _ (h.run_ok hs hb)

theorem Ready.settle_ok (h : Ready opcode alts r s) (hs : shape r.payload = none) (hb : body s = .ok a t) :
    (.next ((s.runOp opcode alts shape body r).settle s) : Out) = .next ((t.complete r opcode a).settle s) :=
  congrArg (fun u => Host.Outcome.next (State.settle u s)) (h.run_ok hs hb)

theorem Ready.next_wait (h : Ready opcode alts r s) (hs : shape r.payload = none) (hb : body s = .wait t) :
    (.next (s.runOp opcode alts shape body r) : Out) = .next (t.park r opcode) :=
  congrArg _ (h.run_wait hs hb)

theorem Ready.settle_wait (h : Ready opcode alts r s) (hs : shape r.payload = none) (hb : body s = .wait t) :
    (.next ((s.runOp opcode alts shape body r).settle s) : Out) = .next ((t.park r opcode).settle s) :=
  congrArg (fun u => Host.Outcome.next (State.settle u s)) (h.run_wait hs hb)

theorem len_zero {p : List Byte} (h : p = []) : len 0 p = none := len_none.mpr (congrArg List.length h)

end ReadyRows

/-! ### Sessions and provisioning -/

section OwnerOpcodes

variable {r : Req} {s : State}

theorem execOwnerAttach_of_epoch (h : Ready 0x0E01 anyOwner r s) (hlen : r.payload.length = 4)
    (hepoch : numAt r.payload 0 4 = (s.owner r.owner).epoch.toNat) (hleft : s.chg.low.record.left = 0) :
    let t := s.drawn.modOwner r.owner (Owner.open_ r.owner r.via s.random)
    execOwnerAttach r s = .next (t.complete r 0x0E01 (done (leBytes 4 (t.owner r.owner).session.toNat ++
      leBytes 4 (t.owner r.owner).high.toNat ++ leBytes 4 (t.owner r.owner).epoch.toNat))) := by
  intro t
  have hnoWake : t.chg.low.record.left = 0 := hleft
  refine h.next_ok (len_none.mpr hlen) ?_
  simp only [ne_eq, hepoch, not_true, if_false]
  exact congrArg _ (if_neg (not_not_intro hnoWake))

theorem execOwnerDetach_of_ready (h : Ready 0x0E02 anyOwner r s) (hlen : r.payload = []) :
    execOwnerDetach r s = .next ((((s.leaseLeaves r.owner .detach).claimLeaves r.owner).modOwner r.owner Owner.close).complete
      r 0x0E02 done |>.settle s) :=
  h.settle_ok (len_zero hlen) rfl

theorem execOwnerReset_of_permitted {o : Fin 16} (h : Ready 0x0E03 anyOwner r s) (hlen : r.payload.length = 1)
    (ho : numAt r.payload 0 1 = o.val) (hpriv : o = r.owner ∨ s.hasPriv r.owner 4 = true)
    (hstate : (s.owner o).state ≠ .unprovisioned) :
    execOwnerReset r s = .next (((s.ownerReset o r).complete r 0x0E03 done).settle s) := by
  have hallowed : (o != r.owner && !s.hasPriv r.owner 4) = false := by
    rcases hpriv with rfl | hp
    · simp
    · simp [hp]
  refine h.settle_ok (len_none.mpr hlen) ?_
  simp [ho, hallowed, hstate]

theorem execOwnerProvision_of_new {o : Fin 16} (h : Ready 0x0E04 security r s) (hshape : provisionShape r.payload = none)
    (ho : numAt r.payload 0 1 = o.val) (hne : o ≠ 0) (hstate : (s.owner o).state = .unprovisioned)
    (hvia : r.via.transport = .smuAuth) (hpriv : numAt r.payload 1 1 ≤ 0x1F) (htransports : numAt r.payload 2 1 ≤ 0x0F)
    (hdepth : numAt r.payload 4 2 ≤ 4096) (hring : numAt r.payload 8 4 ≤ 1572864)
    (hquota : s.quotaOk o (numAt r.payload 4 2) (numAt r.payload 8 4) = true) :
    execOwnerProvision r s = .next (((((s.modOwner o (Owner.provision r.payload)).drawn.modOwner o
      (fun y => { y with epochSalt := s.random })).storeSecure o.val).complete r 0x0E04 done).settle s) := by
  refine h.settle_ok hshape ?_
  simp [ho, hvia, hne, hstate, hquota, Nat.not_lt.mpr hpriv, Nat.not_lt.mpr htransports, Nat.not_lt.mpr hdepth,
    Nat.not_lt.mpr hring]
  rfl

end OwnerOpcodes

/-- Settles O13. `exec` of each of these opcodes is its meaning by definition. -/
theorem ownerCommands : Obligations.OwnerCommands := by
  unfold Obligations.OwnerCommands
  exact ⟨fun _ _ h hlen hepoch hleft => execOwnerAttach_of_epoch h hlen hepoch hleft,
    fun _ _ h hlen => execOwnerDetach_of_ready h hlen,
    fun _ _ _ h hlen ho hpriv hstate => execOwnerReset_of_permitted h hlen ho hpriv hstate,
    fun _ _ _ h hshape ho hne hstate hvia hpriv htransports hdepth hring hquota =>
      execOwnerProvision_of_new h hshape ho hne hstate hvia hpriv htransports hdepth hring hquota⟩

/-! ### The control lease -/

section LeaseOpcodes

variable {r : Req} {s : State}

/-- Acquiring a lease that is free, or the caller's own already. -/
theorem execLeaseAcquire_of_free (h : Ready 0x0E05 control r s) (hlen : r.payload.length = 1) (hflag : numAt r.payload 0 1 < 2)
    (hforce : numAt r.payload 0 1 = 1 → r.owner = 0)
    (hfree : s.host.lease.holder = none ∨ s.host.lease.holder = some r.owner) :
    execLeaseAcquire r s = .next (((s.leaseTo r.owner).complete r 0x0E05 done).settle s) := by
  have hallowed : (bitAt (numAt r.payload 0 1) 0 && r.owner != 0) = false := by
    rcases Nat.lt_succ_iff_lt_or_eq.mp hflag with hzero | hone
    · simp [Nat.lt_one_iff.mp hzero, bitAt]
    · simp [hforce hone]
  refine h.settle_ok (by simp [hlen, hflag]) ?_
  rcases hfree with hnone | hown
  · simp [hallowed, hnone]
  · simp [hallowed, hown]

theorem execLeaseAcquire_of_force {o : Fin 16} (h : Ready 0x0E05 control r s) (hpayload : r.payload = [1#8]) (hcaller : r.owner = 0)
    (hholder : s.host.lease.holder = some o) (hne : o ≠ 0) :
    execLeaseAcquire r s =
      .next (((((s.endSetpoints o).stippleAbortAll 5).leaseTo 0).complete r 0x0E05 done).settle s) := by
  have hflag : numAt [1#8] 0 1 = 1 := by decide
  have hforce : bitAt 1 0 = true := by decide
  refine h.settle_ok (by simp [hpayload, hflag]) ?_
  simp [hpayload, hflag, hforce, hcaller, hholder, hne]

theorem execLeaseRenew_of_holder (h : Ready 0x0E06 control r s) (hlen : r.payload = [])
    (hholder : s.host.lease.holder = some r.owner) (hend : ∀ t, s.leaseEnd = some t → s.clk < t) :
    execLeaseRenew r s = .next ((s.modHost (fun h => { h with lease := { h.lease with since := s.clk } })).complete
      r 0x0E06 done) := by
  refine h.next_ok (len_zero hlen) ?_
  cases hlapse : s.leaseEnd with
  | none => simp [hholder]
  | some t => simp [hholder, hend t hlapse]

theorem execLeaseRelease_of_holder (h : Ready 0x0E07 anyOwner r s) (hlen : r.payload = [])
    (hholder : s.host.lease.holder = some r.owner) :
    execLeaseRelease r s = .next (((s.leaseLost .release).complete r 0x0E07 done).settle s) := by
  refine h.settle_ok (len_zero hlen) ?_
  simp [State.leaseLeaves, State.holdsLease, hholder]

theorem execLeaseLapse_of_end {t : Nanos} (h : s.leaseEnd = some t) :
    execLeaseLapse s = .next (((s.atLeast t).leaseLost .lapse).settle s) := by
  simp only [execLeaseLapse, h]

end LeaseOpcodes

/-- Settles O14. `exec` of each of these commands is its meaning by definition. -/
theorem leaseCommands : Obligations.LeaseCommands := by
  unfold Obligations.LeaseCommands
  exact ⟨fun _ _ h hlen hflag hforce hfree => execLeaseAcquire_of_free h hlen hflag hforce hfree,
    fun _ _ _ h hpayload hcaller hholder hne => execLeaseAcquire_of_force h hpayload hcaller hholder hne,
    fun _ _ h hlen hholder hend => execLeaseRenew_of_holder h hlen hholder hend,
    fun _ _ h hlen hholder => execLeaseRelease_of_holder h hlen hholder,
    fun _ _ h => execLeaseLapse_of_end h⟩

/-! ### Parameters (02 R48 to R53, R565) -/

section ParameterOpcodes

variable {r : Req} {s : State}

theorem execParamGet_of_known (h : Ready 0x0201 observe r s) (hshape : countShape 2 (maxItems r.via) r.payload = none)
    (hknown : ((List.range (numAt r.payload 0 2)).map (fun i => numAt r.payload (4 + 2 * i) 2)).all
      (fun id => (paramEntry? id).isSome) = true) :
    execParamGet r s = .next (s.complete r 0x0201
      (done (s.getItems ((List.range (numAt r.payload 0 2)).map (fun i => numAt r.payload (4 + 2 * i) 2))))) :=
  h.next_ok hshape (by simp only [hknown, if_true])

theorem execParamSet_of_accepted (h : Ready 0x0202 [4, 2, 16] r s)
    (hshape : countShape 12 (maxItems r.via) r.payload = none) (hrefusal : s.setRefusal r.owner (setItems r.payload) = none)
    (hmode : modeGroups (setValues r.payload) = []) :
    let t := s.applyItems r (setValues r.payload)
    let u := t.complete r 0x0202 (t.setReply (setValues r.payload))
    execParamSet r s = .next (({ u with freeCtr := u.freeCtr + 1 } : State).settle s) := by
  intro t u
  have ⟨_, hturn, _⟩ := h
  simp only [execParamSet]
  rw [h.run_ok (a := t.setReply (setValues r.payload)) (t := t) hshape (by simp only [hrefusal, hmode, hturn]; rfl)]

theorem execParamGetBlock_of_fits (h : Ready 0x0203 observe r s) (hlen : r.payload.length = 4)
    (hn : numAt r.payload 2 2 ≠ 0) (hspan : numAt r.payload 0 2 + numAt r.payload 2 2 ≤ 0x10000) :
    let ids := ((List.range (min (numAt r.payload 2 2) (0x1C20 - numAt r.payload 0 2))).map
      (numAt r.payload 0 2 + ·)).filter (fun id => (paramEntry? id).isSome)
    ids.length ≤ maxItems r.via →
    execParamGetBlock r s = .next (s.complete r 0x0203 (done (s.getItems ids))) := by
  intro ids hfit
  refine h.next_ok (len_none.mpr hlen) ?_
  have hcut : ids.take (maxItems r.via) = ids := List.take_of_length_le hfit
  have hbounds : (numAt r.payload 2 2 = 0 || decide (0x10000 < numAt r.payload 0 2 + numAt r.payload 2 2)) = false := by
    simp [hn, hspan]
  simp only [hbounds, Bool.false_eq_true, if_false]
  change Res.ok (if (ids.take (maxItems r.via)).length < ids.length then _ else done (s.getItems (ids.take (maxItems r.via)))) s = _
  rw [hcut, if_neg (Nat.lt_irrefl _)]

theorem execParamSave_of_open (h : Ready 0x0204 configure r s) (hlen : r.payload = []) (hheld : s.nvmHeld = false) :
    execParamSave r s = .next (((s.modHost (fun h => { h with params := { h.params with
      saveWaits := h.params.saveWaits ++ [r] } })).store 1 0 s.imageBytes).park r 0x0204) :=
  h.next_wait (len_zero hlen) (by simp [hheld])

theorem execParamDefaults_of_quiet (h : Ready 0x0205 configure r s) (hlen : r.payload = []) (hquiet : s.allQuiet = true) :
    let ids := s.host.params.values.map (·.1)
    execParamDefaults r s = .next (((s.paramHooks r ids (ids.foldl (fun t id => t.storeItem id (paramDefault id)) s)).complete
      r 0x0205 done).settle s) :=
  h.settle_ok (len_zero hlen) (by simp [hquiet])

end ParameterOpcodes

/-- Settles O15. -/
theorem parameterCommands : Obligations.ParameterCommands := by
  unfold Obligations.ParameterCommands
  refine ⟨?_, ?_, ?_, ?_, ?_, ?_⟩
  · intro r s h hshape ids hknown
    exact execParamGet_of_known h hshape hknown
  · intro r s h hshape hrefusal hmode
    exact execParamSet_of_accepted h hshape hrefusal hmode
  · intro r s h hlen first n ids hn hspan hfit
    exact execParamGetBlock_of_fits h hlen hn hspan hfit
  · intro r s h hlen hheld
    exact execParamSave_of_open h hlen hheld
  · intro r s h hlen hquiet
    exact execParamDefaults_of_quiet h hlen hquiet
  · intro r e s h hshape hentry id
    refine h.next_ok hshape ?_
    simp only [hentry] <;> rfl

/-! ### Tables (02 R54 to R59, R564) -/

section TableOpcodes

variable {r : Req} {s : State} {key : Nat} {g : Staging} {x : Table}

theorem execTableOpen_of_free (h : Ready 0x0302 configure r s) (hlen : r.payload.length = 16) (hflags : numAt r.payload 12 4 ≤ 1)
    (hfree : (s.owner r.owner).staging = none) (hkey : keyAt r.payload = some key) (hbody : numAt r.payload 4 4 ≤ 65536) :
    execTableOpen r s = .next ((s.modOwner r.owner (fun o => { o with
      staging := some (stagingOf (headerOf r.payload) (s.tableStamp key)) })).complete r 0x0302 done) :=
  h.next_ok (by simp [hlen, Nat.not_lt.mpr hflags]) (by simp [hfree, hkey, Nat.not_lt.mpr hbody])

theorem execTableWrite_of_open (h : Ready 0x0303 configure r s) (hmin : 4 ≤ r.payload.length)
    (hmax : r.payload.length ≤ 4 + maxBody r.via) (hopen : (s.owner r.owner).staging = some g) (hheld : g.held = false) :
    execTableWrite r s = .next ((s.modOwner r.owner (fun o => { o with
      staging := some (g.write (numAt r.payload 0 4) (r.payload.drop 4)) })).complete r 0x0303 done) :=
  h.next_ok (if_pos ⟨hmin, hmax⟩) (by simp [hopen, hheld])

theorem execTableCommit_of_passed (h : Ready 0x0304 configure r s) (hlen : r.payload = [])
    (hopen : (s.owner r.owner).staging = some g) (hheld : g.held = false) (hlocked : g.header.locked = false)
    (hchecks : s.commitRefusal r g (g.header.type.toNat * 256 + g.header.index.toNat) = none) (hnvm : s.nvmHeld = false) :
    let key := g.header.type.toNat * 256 + g.header.index.toNat
    let t : Table :=
      { header := g.header, body := g.body, inMram := false, sealOk := true, left := 0, waiter := some r, commits := 0 }
    execTableCommit r s = .next ((((((s.modOwner r.owner (fun o => { o with
      staging := some { g with held := true } })).modHost (fun x => { x with committing := x.committing ++ [(key, t)] })).store 2 key
        (g.header.bytes ++ g.body)).park r 0x0304)).settle s) := by
  intro key t
  have hnvm' (f : Owner → Owner) : (s.modOwner r.owner f).nvmHeld = false := hnvm
  refine h.settle_wait (len_zero hlen) ?_
  simp [hopen, hheld, hlocked, hchecks, hnvm']
  rfl

theorem execTableAbort_of_open (h : Ready 0x0305 configure r s) (hlen : r.payload = [])
    (hopen : (s.owner r.owner).staging = some g) (hheld : g.held = false) :
    execTableAbort r s = .next ((s.modOwner r.owner (fun o => { o with staging := none })).complete r 0x0305 done) :=
  h.next_ok (len_zero hlen) (by simp [hopen, hheld])

theorem execTableInfo_of_key (h : Ready 0x0301 observe r s) (hshape : lenZ 4 [(2, 2)] r.payload = none)
    (hkey : keyAt r.payload = some key) :
    execTableInfo r s = .next (s.complete r 0x0301
      (done ((s.tableInfo key).1 ++ leBytes 1 (s.tableInfo key).2 ++ zeros 3))) :=
  h.next_ok hshape (by simp only [hkey])

theorem execTableRead_of_active (h : Ready 0x0306 observe r s) (hshape : lenZ 12 [(2, 2)] r.payload = none)
    (hkey : keyAt r.payload = some key) (hmin : 1 ≤ numAt r.payload 8 4) (hmax : numAt r.payload 8 4 ≤ 4048)
    (hactive : s.activeTable key = some x) (hoffset : numAt r.payload 4 4 < x.body.length) :
    execTableRead r s = .next (s.complete r 0x0306
      (done (x.header.bytes ++ slice x.body (numAt r.payload 4 4) (numAt r.payload 8 4)))) := by
  have hcount : (numAt r.payload 8 4 = 0 || decide (4048 < numAt r.payload 8 4)) = false := by
    simp [Nat.ne_of_gt hmin, hmax]
  exact h.next_ok hshape (by simp [hkey, hcount, hactive, Nat.not_le.mpr hoffset])

theorem execTableDelete_of_unused (h : Ready 0x0307 configure r s) (hshape : lenZ 4 [(2, 2)] r.payload = none)
    (hkey : keyAt r.payload = some key) (htable : bankGet? key s.host.tables = some x) (hlocked : x.header.locked = false)
    (huse : s.tableInUse key = false) (hmap : key = 0x0C00 → s.allQuiet = true) :
    execTableDelete r s = .next (((s.dropTable key).complete r 0x0307 done).settle s) :=
  h.settle_ok hshape (by simpa [hkey, htable, hlocked, huse] using hmap)

end TableOpcodes

/-- Settles O16. `exec` of each of these opcodes is its meaning by definition. -/
theorem tableCommands : Obligations.TableCommands := by
  unfold Obligations.TableCommands
  refine ⟨?_, ?_, ?_, ?_, ?_, ?_, ?_⟩
  · exact fun _ _ _ h hlen hflags hfree hkey hbody => execTableOpen_of_free h hlen hflags hfree hkey hbody
  · exact fun _ _ _ h hmin hmax hopen hheld => execTableWrite_of_open h hmin hmax hopen hheld
  · exact fun _ _ _ h hlen hopen hheld hlocked hchecks hnvm => execTableCommit_of_passed h hlen hopen hheld hlocked hchecks hnvm
  · exact fun _ _ _ h hlen hopen hheld => execTableAbort_of_open h hlen hopen hheld
  · exact fun _ _ _ h hshape hkey => execTableInfo_of_key h hshape hkey
  · exact fun _ _ _ _ h hshape hkey hmin hmax hactive hoffset => execTableRead_of_active h hshape hkey hmin hmax hactive hoffset
  · exact fun _ _ _ _ h hshape hkey htable hlocked huse hmap => execTableDelete_of_unused h hshape hkey htable hlocked huse hmap

end Sys2Proof.Machine
end

section
/-! The commands of rings (16 R446, R455, R456), one lemma for each outcome. -/

namespace Sys2Proof.Machine

/-! ### Rings (16 R446, R455, R456) -/

/-- A change of the system part is fixed by what it makes of its present value. -/
theorem State.modSys_congr {s : State} {f g : SystemState → SystemState} (h : f s.sys = g s.sys) : s.modSys f = s.modSys g :=
  congrArg (fun y => { s with sys := y }) h

section RingOpcodes

variable {r : Req} {s : State} {x : Ring}

/-- The record at the front of the queue is the oldest of its source. -/
theorem execRingRecordAppend_of_front {x : RingRecord} {q : List RingRecord} (h : s.sys.ring.queue = x :: q) :
    let ids := (s.sys.ring.rings.filter (fun e => s.ringTakes x.dest e.1 e.2)).map (·.1)
    execRingRecordAppend x.source s = .next (ids.foldl (fun t id => t.appendTo id x.bytes)
      (s.modSys (fun y => { y with ring := { y.ring with queue := q } }))) := by
  intro ids
  have hfind : s.sys.ring.queue.find? (fun y => y.source == x.source) = some x := by simp [h]
  have hrest : s.sys.ring.queue.erase x = q := by simp [h]
  simp only [execRingRecordAppend, hfind]
  rw [State.modSys_congr (g := fun y => { y with ring := { y.ring with queue := q } }) (by rw [hrest])]

theorem execRingRecordAppend_of_none {source : RingSource}
    (h : s.sys.ring.queue.find? (fun x => x.source == source) = none) : execRingRecordAppend source s = .next s := by
  simp only [execRingRecordAppend, h]

theorem execRingCreate_of_room {base : Nat} (h : Ready 0x0D01 [1, 16] r s) (hshape : lenZ 12 [(3, 1)] r.payload = none)
    (hkind : numAt r.payload 0 1 ≤ 4) (hmin : 12 ≤ numAt r.payload 1 1) (hmax : numAt r.payload 1 1 ≤ 30)
    (hpolicy : numAt r.payload 2 1 ≤ 1)
    (hpriv : if numAt r.payload 0 1 = 4 then r.owner = 0 ∧ s.hasPriv r.owner 4 = true else s.hasPriv r.owner 0 = true)
    (hone : numAt r.payload 0 1 = 3 → s.sys.ring.rings.any (fun e => e.2.kind == 3 && e.2.owner == r.owner) = false)
    (hsource : sourceOk (numAt r.payload 0 1) (numAt r.payload 8 4) = true)
    (hquota : s.ringGranules r.owner + 2 ^ (numAt r.payload 1 1 - 12) ≤ (s.owner r.owner).ringQuota.toNat)
    (hroom : freeBlock s.sys.ring.rings (2 ^ (numAt r.payload 1 1 - 12)) (s.sys.ring.rings.length + 1) 0x40000 = some base) :
    let id := freeRingId s.sys.ring.rings s.sys.ring.rings.length 2
    let x : Ring :=
      { base := base, sizeLog2 := numAt r.payload 1 1, owner := r.owner, kind := numAt r.payload 0 1
        stop := numAt r.payload 2 1 == 1, fixed := false, wr := 0, rd := 0, drop := 0
        notify := BitVec.ofNat 32 (numAt r.payload 4 4), source := BitVec.ofNat 32 (numAt r.payload 8 4)
        epoch := (s.owner r.owner).epoch, records := [], notified := false, dropLater := 0
        due := s.clk + bitsOf (numAt r.payload 8 4) 31 16 * 1000000 }
    execRingCreate r s = .next (((s.modSys (fun y => { y with ring := { y.ring with
      rings := insertRing id x y.ring.rings } })).storeSecure 16).complete r 0x0D01 (done (leBytes 4 id ++ leBytes 4 base))) := by
  intro id x
  have hranges : ¬ (4 < numAt r.payload 0 1 ∨ numAt r.payload 1 1 < 12 ∨ 30 < numAt r.payload 1 1 ∨
      1 < numAt r.payload 2 1) := by omega
  have haudit : (decide (numAt r.payload 0 1 = 4) && !(r.owner == 0 && s.hasPriv r.owner 4)) = false := by
    by_cases h4 : numAt r.payload 0 1 = 4
    · rw [if_pos h4] at hpriv
      obtain ⟨hcaller, hsecurity⟩ := hpriv
      rw [hsecurity, hcaller]
      simp
    · simp [h4]
  have hobserve : (decide (numAt r.payload 0 1 ≠ 4) && !s.hasPriv r.owner 0) = false := by
    by_cases h4 : numAt r.payload 0 1 = 4
    · simp [h4]
    · simpa [h4] using hpriv
  have hsingle : (decide (numAt r.payload 0 1 = 3) &&
      s.sys.ring.rings.any (fun e => e.2.kind == 3 && e.2.owner == r.owner)) = false := by
    by_cases h3 : numAt r.payload 0 1 = 3
    · simp only [hone h3, Bool.and_false]
    · simp [h3]
  refine h.next_ok hshape ?_
  simp only [if_neg hranges, haudit, hobserve, hsource, hsingle, if_neg (Nat.not_lt.mpr hquota), hroom, Bool.not_true,
    Bool.false_eq_true, if_false]
  rfl

/-- Who may delete a ring or read its status: its owner, or SECURITY for another's (16 R456). -/
theorem ringAccess_of_priv (h : s.hasPriv r.owner (if x.owner = r.owner then 0 else 4) = true) :
    (if x.owner == r.owner then s.hasPriv r.owner 0 else s.hasPriv r.owner 4) = true := by
  by_cases ho : x.owner = r.owner
  · simpa [ho] using h
  · simpa [ho] using h

theorem execRingDelete_of_permitted (h : Ready 0x0D02 [1, 16] r s) (hlen : r.payload.length = 4)
    (hring : s.ring? (numAt r.payload 0 4) = some x)
    (hpriv : s.hasPriv r.owner (if x.owner = r.owner then 0 else 4) = true) (hfixed : x.fixed = false) :
    execRingDelete r s = .next (((((s.modSys (fun y => { y with ring := { y.ring with
      rings := bankDrop (numAt r.payload 0 4) y.ring.rings } })).modMem (fun m => m.discard x.base x.granules)).modLink
        (fun l => { l with streams := l.streams.map (fun z => match z with
          | some w => if w.ring == numAt r.payload 0 4 then none else some w
          | none => none) })).storeSecure 16).complete r 0x0D02 done) := by
  have haccess := ringAccess_of_priv hpriv
  refine h.next_ok (len_none.mpr hlen) ?_
  simp only [hring, haccess, hfixed, Bool.not_true, Bool.false_eq_true, if_false] <;> rfl

theorem execRingStatus_of_permitted (h : Ready 0x0D03 [1, 16] r s) (hlen : r.payload.length = 4)
    (hring : s.ring? (numAt r.payload 0 4) = some x)
    (hpriv : s.hasPriv r.owner (if x.owner = r.owner then 0 else 4) = true) :
    execRingStatus r s = .next (s.complete r 0x0D03 (done x.bytes)) := by
  have haccess := ringAccess_of_priv hpriv
  exact h.next_ok (len_none.mpr hlen) (by simp only [hring, haccess, Bool.not_true, Bool.false_eq_true, if_false])

/-- With no failing line, a read passes every slot. -/
theorem Ring.takeWhile_noFailing (x : Ring) (is : List U32) :
    is.takeWhile (fun i => !([] : List Nat).contains (x.slotAddr i / 64)) = is := by
  induction is with
  | nil => rfl
  | cons i is ih => rw [List.takeWhile_cons_of_pos rfl, ih]

theorem Ring.goodSlots_of_noFailing (is : List U32) (x : Ring) : x.goodSlots [] is = is := by
  simp only [Ring.goodSlots, Ring.takeWhile_noFailing, List.drop_length]

theorem execRingRead_of_good (h : Ready 0x0D04 observe r s) (hlen : r.payload.length = 12) (hflags : numAt r.payload 5 1 < 4)
    (hzero : zeroAt r.payload 6 2 = true) (hring : s.ring? (numAt r.payload 0 4) = some x) (howner : x.owner = r.owner)
    (hmin : 1 ≤ numAt r.payload 4 1) (hmax : numAt r.payload 4 1 ≤ 63) (hmem : s.sys.mem.failing = []) :
    let start : U32 := if bitAt (numAt r.payload 5 1) 1 then BitVec.ofNat 32 (numAt r.payload 8 4) else x.rd
    (bitAt (numAt r.payload 5 1) 1 = true → (start - x.rd).toNat < x.fill) →
    let is := indices start (min (numAt r.payload 4 1) (x.wr - start).toNat)
    let t := if bitAt (numAt r.payload 5 1) 0 then s
      else s.modRing (numAt r.payload 0 4) (Ring.advance (start + BitVec.ofNat 32 is.length))
    execRingRead r s = .next ((t.rdMoved (numAt r.payload 0 4)).complete r 0x0D04
      (done (leBytes 4 x.wr.toNat ++ leBytes 4 start.toNat ++ leBytes 4 x.drop.toNat ++ leBytes 2 is.length ++ zeros 2 ++
        (is.map (fun i => x.slot i)).flatten))) := by
  intro start hstart is t
  have hcount : ¬ (numAt r.payload 4 1 = 0 ∨ 63 < numAt r.payload 4 1) := by omega
  have hindex : (bitAt (numAt r.payload 5 1) 1 && decide (x.fill ≤ (start - x.rd).toNat)) = false := by
    cases hfrom : bitAt (numAt r.payload 5 1) 1 with
    | false => rfl
    | true => simpa using hstart hfrom
  have hgood : x.goodSlots s.sys.mem.failing is = is := hmem ▸ Ring.goodSlots_of_noFailing is x
  refine h.next_ok (by simp [hlen, hzero, Nat.not_le.mpr hflags]) ?_
  simp only [hring, howner, bne_self_eq_false, Bool.false_eq_true, if_false, if_neg hcount]
  rw [if_neg (by simpa using hindex)]
  change (if (x.goodSlots s.sys.mem.failing is).length = is.length then _ else _) = _
  rw [hgood, if_pos rfl]

theorem execRingAck_of_range (h : Ready 0x0D05 observe r s) (hlen : r.payload.length = 8)
    (hring : s.ring? (numAt r.payload 0 4) = some x) (howner : x.owner = r.owner)
    (hrange : ((BitVec.ofNat 32 (numAt r.payload 4 4) : U32) - x.rd).toNat ≤ x.fill) :
    execRingAck r s = .next (((s.modRing (numAt r.payload 0 4)
      (Ring.advance (BitVec.ofNat 32 (numAt r.payload 4 4)))).rdMoved (numAt r.payload 0 4)).complete r 0x0D05 done) :=
  h.next_ok (len_none.mpr hlen)
    (by simp only [hring, howner, bne_self_eq_false, Bool.false_eq_true, if_false, if_neg (Nat.not_lt.mpr hrange)])

theorem execRingList_of_ready (h : Ready 0x0D06 observe r s) (hlen : r.payload.length = 4) :
    let ids := ((s.sys.ring.rings.filter (fun e => e.2.owner == r.owner && decide (numAt r.payload 0 4 ≤ e.1))).map (·.1)).take
      (if r.via.transport == .smuAuth then 1015 else 1019)
    execRingList r s = .next (s.complete r 0x0D06
      (done (leBytes 2 ids.length ++ zeros 2 ++ (ids.map (leBytes 4)).flatten))) :=
  h.next_ok (len_none.mpr hlen) rfl

theorem execMemStatus_of_ready (h : Ready 0x0D07 observe r s) (hlen : r.payload = []) :
    execMemStatus r s = .next (s.complete r 0x0D07 (done (leBytes 4 s.sys.mem.cntCorr.toNat ++
      leBytes 4 s.sys.mem.cntUncorr.toNat ++ leBytes 4 s.sys.mem.cntTagfail.toNat ++ leBytes 4 s.sys.mem.cntUnwritten.toNat ++
        leBytes 4 s.sys.mem.firstErr.toNat))) :=
  h.next_ok (len_zero hlen) rfl

end RingOpcodes

/-- Settles O48. `exec` of each of these commands is its meaning by definition. -/
theorem ringCommands : Obligations.RingCommands := by
  unfold Obligations.RingCommands
  refine ⟨?_, ?_, ?_, ?_, ?_, ?_, ?_, ?_, ?_⟩
  · exact fun _ _ _ h => execRingRecordAppend_of_front h
  · exact fun _ _ h => execRingRecordAppend_of_none h
  · exact fun _ _ _ h hshape hkind hmin hmax hpolicy hpriv hone hsource hquota hroom =>
      execRingCreate_of_room h hshape hkind hmin hmax hpolicy hpriv hone hsource hquota hroom
  · exact fun _ _ _ h hlen hring hpriv hfixed => execRingDelete_of_permitted h hlen hring hpriv hfixed
  · exact fun _ _ _ h hlen hring hpriv => execRingStatus_of_permitted h hlen hring hpriv
  · exact fun _ _ _ h hlen hflags hzero hring howner hmin hmax hmem =>
      execRingRead_of_good h hlen hflags hzero hring howner hmin hmax hmem
  · exact fun _ _ _ h hlen hring howner hrange => execRingAck_of_range h hlen hring howner hrange
  · exact fun _ _ h hlen => execRingList_of_ready h hlen
  · exact fun _ _ h hlen => execMemStatus_of_ready h hlen

end Sys2Proof.Machine
end

section
/-! The gate outputs (03 R61), the state after reset, and the edge word of a channel (03 R65). -/

namespace Sys2Proof.Machine

/-! ### What every step keeps -/

/-- Settles O4: an idle step moves no output, and every command keeps the outputs exclusive. -/
theorem gatesNeverBothHigh : Obligations.GatesNeverBothHigh := by
  unfold Obligations.GatesNeverBothHigh
  intro s t hs ht
  unfold step at ht
  split at ht
  · cases ht
    exact hs
  · next c rest _ => exact (exec_keeps c { s with pending := rest } t ht).gates hs

theorem Phase.initial_exclusive : Phase.initial.exclusive := Machine.low_exclusive rfl rfl

theorem State.reset_phase (p : Fin 64) : State.reset.phase p = Phase.initial := Vector.getElem_replicate p.isLt

/-- Settles O8: every phase starts low with nothing placed, and the stores start empty. -/
theorem resetMeetsInvariants : Obligations.ResetMeetsInvariants := by
  unfold Obligations.ResetMeetsInvariants
  refine ⟨fun p => ?_, rfl, ⟨rfl, nofun⟩, by decide, rfl, rfl, rfl⟩
  rw [State.reset_phase]
  exact Phase.initial_exclusive

/-! ### The edge word (03 Table 3-2) -/

theorem fieldAt_of_lt {lo w v : Nat} (h : v < 2 ^ w) : fieldAt lo w v = v * 2 ^ lo := by
  rw [fieldAt, Nat.mod_eq_of_lt h, Nat.shiftLeft_eq]

theorem flag_lt (b : Bool) : flag b < 2 ^ 1 := by cases b <;> decide

theorem bitsOf_eq_div_mod (v hi lo : Nat) : bitsOf v hi lo = v / 2 ^ lo % 2 ^ (hi + 1 - lo) := by
  rw [bitsOf, Nat.shiftRight_eq_div_pow]

theorem bitAt_of_flag {v i : Nat} {b : Bool} (h : v / 2 ^ i % 2 = flag b) : bitAt v i = b := by
  rw [bitAt, Nat.shiftRight_eq_div_pow, h]
  cases b <;> rfl

/-- A word whose fields fit is the sum of its fields, each at its place: nothing is lost in 64 bits. -/
theorem EdgeWord.code_toNat {w : EdgeWord} (he : w.e < 2 ^ 24) (hdt : w.dt < 2 ^ 14) (hep : w.epoch < 2 ^ 16) :
    w.code.toNat = w.e + flag w.fall * 2 ^ 24 + flag w.noEdge * 2 ^ 25 + flag w.compOff * 2 ^ 26 +
      flag w.bothOff * 2 ^ 27 + w.dt * 2 ^ 32 + w.epoch * 2 ^ 48 := by
  have hfall := flag_lt w.fall
  have hno := flag_lt w.noEdge
  have hcomp := flag_lt w.compOff
  have hboth := flag_lt w.bothOff
  rw [EdgeWord.code, fieldAt_of_lt he, fieldAt_of_lt hfall, fieldAt_of_lt hno, fieldAt_of_lt hcomp, fieldAt_of_lt hboth,
    fieldAt_of_lt hdt, fieldAt_of_lt hep, BitVec.toNat_ofNat, Nat.mod_eq_of_lt (by omega)]
  omega

/-- Settles O60: the fields stand apart in the word, so each is read back. -/
theorem edgeWordRoundTrip : Obligations.EdgeWordRoundTrip := by
  unfold Obligations.EdgeWordRoundTrip
  intro w he hdt hep
  have hn := EdgeWord.code_toNat he hdt hep
  have hfall := flag_lt w.fall
  have hno := flag_lt w.noEdge
  have hcomp := flag_lt w.compOff
  have hboth := flag_lt w.bothOff
  have hwords : bitsOf w.code.toNat 23 0 = w.e ∧ bitsOf w.code.toNat 45 32 = w.dt ∧ bitsOf w.code.toNat 63 48 = w.epoch := by
    simp only [bitsOf_eq_div_mod]
    omega
  have hflags : bitAt w.code.toNat 24 = w.fall ∧ bitAt w.code.toNat 25 = w.noEdge ∧ bitAt w.code.toNat 26 = w.compOff ∧
      bitAt w.code.toNat 27 = w.bothOff :=
    ⟨bitAt_of_flag (by omega), bitAt_of_flag (by omega), bitAt_of_flag (by omega), bitAt_of_flag (by omega)⟩
  obtain ⟨hE, hD, hP⟩ := hwords
  obtain ⟨hF, hN, hC, hB⟩ := hflags
  simp only [EdgeWord.ofCode, hE, hD, hP, hF, hN, hC, hB]

end Sys2Proof.Machine
end

section
/-! Phase channels (03 R74 to R90, 05 R128 to R137): what each row does, by its outcome. -/

namespace Sys2Proof.Machine

/-! ### Driver faults, trips and sense flags -/

section Detectors

variable {p : Fin 64} {s : State}

theorem execDfltAsserted_of_kept {held : Nat} (h : 4 * bitsOf (s.held (phId p 0xB)) 7 4 ≤ held) :
    execDfltAsserted p held s =
      .next (((s.modPhase p (fun x => { x with dfltPin := bitAt (s.held (phId p 0xB)) 0 })).dfltCheck p).settle s) :=
  if_neg (Nat.not_lt.mpr h)

theorem execDfltAsserted_of_short {held : Nat} (h : held < 4 * bitsOf (s.held (phId p 0xB)) 7 4) :
    execDfltAsserted p held s = .next s :=
  if_pos h

/-- A rise of the input outside a blanking interval acts at once (03 R79). -/
theorem State.dfltCheck_of_rise (hlevel : (s.phase p).dfltLevel = false) (hasserted : s.dfltAsserted p = true)
    (hblank : (s.phase p).blanked (s.blankTime p) s.edgeNow = false) :
    s.dfltCheck p = ((s.modPhase p (fun x => { x with dfltLevel := true })).raise p.val).dfltActs p := by
  simp [State.dfltCheck, hlevel, hasserted, hblank]

theorem execDfltBlankingEnd_of_waiting {e : Nat} (hwait : (s.phase p).dfltWait = true)
    (hend : (s.phase p).blankEnd (s.blankTime p) s.edgeNow = some e) :
    execDfltBlankingEnd p s = .next (((s.atDevice ((e + 15) / 16)).dfltActs p).settle s) := by
  simp [execDfltBlankingEnd, hwait, hend]

/-- The comparator of an ACTIVE phase that is not held fires (03 R76). -/
theorem State.trip_of_active (hrole : (s.phase p).role = .active) (hheld : (s.phase p).heldLow = false) :
    let t := ((s.modPhase p (fun x => { x.low s.edgeNow with
      heldLow := true, tripAges := 0 :: x.tripAges
      counters := { x.counters with trips := satInc x.counters.trips } })).setCause p 2).bumpEpoch (s.groupOf p) .tripOrFaultN
    s.trip p = if bitsOf (t.held (phId p 9)) 27 24 ≤ (t.phase p).trips64 then t.retireNext p 2 else t :=
  if_neg (by simp [hrole, hheld])

theorem execFastTrip_of_beyond {bits : List Bool}
    (h : (s.phase p).tripHi < (s.filterSum p (sinc2 (s.tripLen p)) bits : Int) ∨
      (s.filterSum p (sinc2 (s.tripLen p)) bits : Int) < (s.phase p).tripLo) :
    execFastTrip p bits s = .next ((s.trip p).settle s) :=
  if_pos (by simpa using h)

theorem execFastTrip_of_within {bits : List Bool} (hlo : (s.phase p).tripLo ≤ (s.filterSum p (sinc2 (s.tripLen p)) bits : Int))
    (hhi : (s.filterSum p (sinc2 (s.tripLen p)) bits : Int) ≤ (s.phase p).tripHi) : execFastTrip p bits s = .next s :=
  if_neg (by simp [Int.not_lt.mpr hlo, Int.not_lt.mpr hhi])

end Detectors

/-- Settles O20. `exec` of each of these rows is its meaning by definition. -/
theorem phaseDetectors : Obligations.PhaseDetectors := by
  unfold Obligations.PhaseDetectors
  refine ⟨?_, ?_, ?_, ?_, ?_, ?_, ?_, ?_, ?_, ?_⟩
  · exact fun _ _ _ h => execDfltAsserted_of_kept h
  · exact fun _ _ _ h => execDfltAsserted_of_short h
  · exact fun _ _ hlevel hasserted hblank => State.dfltCheck_of_rise hlevel hasserted hblank
  · exact fun _ _ _ hwait hend => execDfltBlankingEnd_of_waiting hwait hend
  · exact fun _ _ => rfl
  · intro p bits s raw hbeyond hrole hheld t
    exact (execFastTrip_of_beyond hbeyond).trans
      (congrArg (fun u => Host.Outcome.next (State.settle u s)) (State.trip_of_active hrole hheld))
  · exact fun _ _ _ hlo hhi => execFastTrip_of_within hlo hhi
  · exact fun _ _ => rfl
  · exact fun _ _ => rfl
  · intro p stuck clock s t
    cases clock <;> rfl

/-! ### Diagnostics of failing phases -/

section Diagnostics

variable {p : Fin 64} {s : State}

theorem execDeadtimeLimit_of_reached (hrun : 16 ≤ (s.phase p).clampRun) (hdt : (s.phase p).dtFallback = false) :
    execDeadtimeLimit p s = .next ((s.modPhase p (fun x => { x with dtFallback := true })).setCause p 7) :=
  if_neg (by simp [hrun, hdt])

theorem execOpenLegDetect_of_failed (hfails : 3 ≤ (s.phase p).openFails) (hrole : (s.phase p).role = .active) :
    execOpenLegDetect p s = .next ((s.modPhase p (fun x => { x with openFails := 0 })).retireNext p 3) :=
  if_neg (by simp [hfails, hrole])

theorem execSenseImplausibleDetect_of_attributed (hrun : 16 ≤ (s.phase p).attrRun) (hrole : (s.phase p).role = .active) :
    execSenseImplausibleDetect p s = .next ((s.modPhase p (fun x => { x with attrRun := 0 })).senseNext p 6) :=
  if_neg (by simp [hrun, hrole])

theorem execZeroCurrentOffsetDetect_of_active (hrun : 16 ≤ (s.phase p).zeroRun) (hrole : (s.phase p).role = .active) :
    execZeroCurrentOffsetDetect p s = .next ((s.modPhase p (fun x => { x with zeroRun := 0 })).retireNext p 6) := by
  simp only [execZeroCurrentOffsetDetect, if_neg (Nat.not_lt.mpr hrun), hrole]

theorem execSenseSumRecord_of_run {g : Fin 8} (hrun : 16 ≤ (s.group g).sumRun) (hwritten : (s.group g).sumWritten = false) :
    execSenseSumRecord g s = .next ((s.modGroup g (fun x => { x with sumWritten := true })).event (.screed g) .everyEvent 0x66
      (leBytes 1 g.val ++ leBytes 1 (s.param (grId g 2)) ++ leBytes 4 (fitS 32 (roundQ ((s.group g).sumAcc / 16 * 100))) ++
        leBytes 8 s.now ++ leBytes 1 (bitsOf (s.held (grId g 0x16)) 7 0))) :=
  if_neg (by simp [hrun, hwritten])

theorem execShadowEnd_of_ended {sh : Shadow} (hshadow : (s.phase p).shadow = some sh)
    (hend : bitsOf (s.held (grId (s.groupOf p) 0x16)) 13 8 ≤ sh.k) :
    execShadowEnd p s = .next (s.modPhase p (fun x => { x with shadow := some { sh with ended := true } })) := by
  simp only [execShadowEnd, hshadow, if_neg (Nat.not_lt.mpr hend)]

theorem execWearLimitReached_of_reached (hset : s.wearLimit (s.groupOf p) ≠ 0)
    (hreached : s.wearLimit (s.groupOf p) ≤ (s.phase p).counters.thermal.toNat) :
    execWearLimitReached p s = .next (s.modPhase p (fun x => { x with wearDue := true })) :=
  if_neg (by simp [hset, hreached])

/-- The roles that an over-temperature retires are those that are in service (05 R132). -/
theorem Role.inService_iff (r : Role) : (r == .active || r == .shadow || r == .filler) = true ↔ r ≠ .off ∧ r ≠ .retired := by
  cases r <;> decide

theorem State.followTherm_eq (p : Fin 64) (s : State) :
    let t := s.modPhase p (fun x => { x with overTemp := s.thermLevel p })
    s.followTherm p = if (s.phase p).overTemp = s.thermLevel p then s
      else if s.thermLevel p = true ∧ (s.phase p).role ≠ .off ∧ (s.phase p).role ≠ .retired then t.retireNext p 8 else t := by
  simp only [State.followTherm, State.overTemp, beq_iff_eq, Bool.and_eq_true, Role.inService_iff]

/-- Inside its window, or out of it for 1 µs, the monitor of a bank takes the level (22 R546). -/
theorem execPhaseBankSupplyWindow_of_monitored {k : Fin 8} {mv ns : Nat} (hdie : s.power.safety.dieRunning = true)
    (hlong : (s.conv.banks[k.val]).inside mv = false → 1000 ≤ ns) :
    let w := (s.conv.banks[k.val]).inside mv
    let t := s.modConv (fun c => { c with banks := vmod c.banks k (fun b => { b with inWindow := w }) })
    execPhaseBankSupplyWindow k mv ns s = .next (if w = true ∨ (s.conv.banks[k.val]).inWindow = false then t
      else ((octet k).foldl (fun u p => (u.modPhase p (Phase.hold u.edgeNow)).driverFault p) t).settle s) := by
  intro w t
  have hlooks : (!s.power.safety.dieRunning || (!w && decide (ns < 1000))) = false := by
    cases hw : w with
    | true => simp [hdie]
    | false => simp [hdie, hlong hw]
  have hquiet : (w || !(s.conv.banks[k.val]).inWindow) = true ↔ w = true ∨ (s.conv.banks[k.val]).inWindow = false := by
    simp
  refine (if_neg (by simpa using hlooks)).trans ?_
  rw [apply_ite Host.Outcome.next]
  exact ite_congr (propext hquiet) (fun _ => rfl) (fun _ => rfl)

theorem execPhaseBankSupplyWindow_of_short {k : Fin 8} {mv ns : Nat} (hout : (s.conv.banks[k.val]).inside mv = false)
    (hshort : ns < 1000) : execPhaseBankSupplyWindow k mv ns s = .next s :=
  if_pos (by simp [hout, hshort])

end Diagnostics

/-- Settles O21. `exec` of each of these rows is its meaning by definition. -/
theorem phaseDiagnostics : Obligations.PhaseDiagnostics := by
  unfold Obligations.PhaseDiagnostics
  refine ⟨?_, ?_, ?_, ?_, ?_, ?_, ?_, ?_, ?_, ?_⟩
  · exact fun _ _ hrun hdt => execDeadtimeLimit_of_reached hrun hdt
  · exact fun _ _ hfails hrole => execOpenLegDetect_of_failed hfails hrole
  · exact fun _ _ hrun hrole => execSenseImplausibleDetect_of_attributed hrun hrole
  · exact fun _ _ hrun hrole => execZeroCurrentOffsetDetect_of_active hrun hrole
  · exact fun _ _ hrun hwritten => execSenseSumRecord_of_run hrun hwritten
  · exact fun _ _ _ hshadow hend => execShadowEnd_of_ended hshadow hend
  · exact fun _ _ hset hreached => execWearLimitReached_of_reached hset hreached
  · exact fun p s => congrArg Host.Outcome.next (State.followTherm_eq p s)
  · exact fun _ _ _ _ hdie hlong => execPhaseBankSupplyWindow_of_monitored hdie hlong
  · exact fun _ _ _ _ hout hshort => execPhaseBankSupplyWindow_of_short hout hshort

/-! ### The phase opcodes (03 R87 to R90) -/

section PhaseOpcodes

variable {r : Req} {p : Fin 64} {s : State}

theorem execPhaseStatus_of_ready (h : Ready 0x0501 observe r s) (hlen : r.payload.length = 8) :
    execPhaseStatus r s = .next (s.complete r 0x0501
      (done ((phaseMask (numAt r.payload 0 8)).map (fun p => leBytes 4 (s.phase p).statusWord)).flatten)) :=
  h.next_ok (len_none.mpr hlen) rfl

theorem execPhaseTelemetry_of_ready (h : Ready 0x0502 observe r s) (hlen : r.payload.length = 8) :
    let ps := phaseMask (numAt r.payload 0 8)
    execPhaseTelemetry r s = .next ((ps.foldl (fun t p => t.modPhase p (fun x => { x with peakCur := 0 })) s).complete r 0x0502
      (done (ps.map (fun p => (s.phase p).telemetry p)).flatten)) :=
  h.next_ok (len_none.mpr hlen) rfl

theorem execPhaseCounters_of_ready (h : Ready 0x0503 observe r s) (hlen : r.payload.length = 8) :
    execPhaseCounters r s = .next (s.complete r 0x0503
      (done ((phaseMask (numAt r.payload 0 8)).map (fun p => (s.phase p).counterItem p)).flatten)) :=
  h.next_ok (len_none.mpr hlen) rfl

/-- A payload of one byte names its phase. -/
theorem phaseNamed_of_payload (h : r.payload = [BitVec.ofNat 8 p.val]) : named 64 (numAt r.payload 0 1) = some p := by
  rw [h, numAt_fin (by decide), named_val]

theorem execPhaseRestore_of_permitted (h : Ready 0x0504 configure r s) (hp : r.payload = [BitVec.ofNat 8 p.val])
    (hrestore : s.restoreRefusal p = none) :
    execPhaseRestore r s = .next ((s.modPhase p (fun x => { x with restore := x.restore ++ [r] })).park r 0x0504) :=
  h.next_wait (len_none.mpr (by rw [hp]; rfl)) (by simp only [phaseNamed_of_payload hp, hrestore])

theorem execPhaseReplaced_of_off (h : Ready 0x0505 service r s) (hp : r.payload = [BitVec.ofNat 8 p.val])
    (hrole : (s.phase p).role = .off) (hquiet : (s.group (s.groupOf p)).mode.isQuiet = true) :
    execPhaseReplaced r s = .next (((s.audit r.owner.val stDone 0x0505 r.tag.toNat r.seq.toNat
      ((s.phase p).counterItem p)).modPhase p (fun x => { x with
        counters := { cycles := 0, thermal := 0, late := 0, trips := 0, dflt := 0, clamps := 0 }
        wearCycSat := false, wearThcSat := false, wearWarn := false, replaced := true })).complete r 0x0505 done) :=
  h.next_ok (len_none.mpr (by rw [hp]; rfl)) (by simp [phaseNamed_of_payload hp, hrole, hquiet])

theorem execPhaseFaultInject_of_active (h : Ready 0x0506 service r s) (hlen : r.payload.length = 2)
    (hp : numAt r.payload 0 1 = p.val) (hmin : 1 ≤ numAt r.payload 1 1) (hmax : numAt r.payload 1 1 ≤ 4)
    (hrole : (s.phase p).role = .active) (hlease : s.holdsLease r.owner = true) :
    execPhaseFaultInject r s = .next (((s.inject p (numAt r.payload 1 1)).complete r 0x0506 done).settle s) := by
  have hkind : ¬ (numAt r.payload 1 1 < 1 ∨ 4 < numAt r.payload 1 1) := by omega
  refine h.settle_ok (len_none.mpr hlen) ?_
  simp only [hp, named_val, hrole, bne_self_eq_false, Bool.false_eq_true, if_false, Bool.or_eq_true, decide_eq_true_eq,
    if_neg hkind, State.needLease_holds hlease]

end PhaseOpcodes

/-- Settles O22. `exec` of each of these opcodes is its meaning by definition. -/
theorem phaseCommands : Obligations.PhaseCommands := by
  unfold Obligations.PhaseCommands
  refine ⟨?_, ?_, ?_, ?_, ?_, ?_⟩
  · exact fun _ _ h hlen => execPhaseStatus_of_ready h hlen
  · exact fun _ _ h hlen => execPhaseTelemetry_of_ready h hlen
  · exact fun _ _ h hlen => execPhaseCounters_of_ready h hlen
  · exact fun _ _ _ h hp hrestore => execPhaseRestore_of_permitted h hp hrestore
  · exact fun _ _ _ h hp hrole hquiet => execPhaseReplaced_of_off h hp hrole hquiet
  · exact fun _ _ _ h hlen hp hmin hmax hrole hlease =>
      execPhaseFaultInject_of_active h hlen hp hmin hmax hrole hlease

end Sys2Proof.Machine
end

section
/-! Group events, synchronisation and the locked limit set (03 R64, R73; 04 R95 to R127): what each row does, by its
outcome. -/

namespace Sys2Proof.Machine

/-! ### What a period start leaves as it is -/

/-- Where a group stands in its periods, and how far its regrout and its outer loop have come. -/
def Group.timing (x : Group) : Nat × Nat × Nat × Nat × Nat := (x.period, x.periodStart, x.periodLen, x.regrout, x.kCount)

/-- The timing of every group, the string ports, and the feeds and contactors are as before. -/
structure SameTiming (s t : State) : Prop where
  timing : ∀ g : Fin 8, (t.group g).timing = (s.group g).timing
  chg : t.chg = s.chg
  bus : t.bus = s.bus

theorem SameTiming.refl (s : State) : SameTiming s s := ⟨fun _ => rfl, rfl, rfl⟩

theorem SameTiming.trans {s t u : State} (a : SameTiming s t) (b : SameTiming t u) : SameTiming s u :=
  ⟨fun g => (b.timing g).trans (a.timing g), b.chg.trans a.chg, b.bus.trans a.bus⟩

section TimingKept

variable {s0 s : State}

theorem ite_sameTiming {c : Prop} [Decidable c] {a b : State} (ha : SameTiming s0 a) (hb : SameTiming s0 b) :
    SameTiming s0 (if c then a else b) := by split <;> assumption

theorem foldl_sameTiming {α : Type} {l : List α} {f : State → α → State} (h : SameTiming s0 s)
    (hf : ∀ t x, SameTiming t (f t x)) : SameTiming s0 (l.foldl f s) := by
  induction l generalizing s with
  | nil => exact h
  | cons x l ih => exact ih (h.trans (hf s x))

theorem modPhase_sameTiming {p : Fin 64} {f : Phase → Phase} (h : SameTiming s0 s) : SameTiming s0 (s.modPhase p f) :=
  h.trans ⟨fun _ => rfl, rfl, rfl⟩

theorem modGroup_sameTiming {g : Fin 8} {f : Group → Group} (h : SameTiming s0 s) (hf : ∀ x, (f x).timing = x.timing) :
    SameTiming s0 (s.modGroup g f) := by
  refine h.trans ⟨fun k => ?_, rfl, rfl⟩
  by_cases hk : g = k
  · subst hk
    rw [State.modGroup_group_self, hf]
  · rw [State.modGroup_group_ne _ hk]

theorem raise_sameTiming {n : Nat} (h : SameTiming s0 s) : SameTiming s0 (s.raise n) := h.trans ⟨fun _ => rfl, rfl, rfl⟩

theorem raiseIf_sameTiming {b : Bool} {n : Nat} (h : SameTiming s0 s) : SameTiming s0 (s.raiseIf b n) :=
  ite_sameTiming (raise_sameTiming h) h

theorem retireNext_sameTiming {p : Fin 64} {c : Nat} (h : SameTiming s0 s) : SameTiming s0 (s.retireNext p c) :=
  modPhase_sameTiming h

theorem State.settle_sameTiming (s t : State) : SameTiming t (t.settle s) :=
  foldl_sameTiming (SameTiming.refl t) (fun u _ =>
    raiseIf_sameTiming (modGroup_sameTiming (SameTiming.refl u) (fun _ => rfl)))

/-- The sum check counts, and moves no period (05 R130). -/
theorem State.sumCheck_sameTiming {g : Fin 8} {start : Nat} {ripple : List (Fin 64 × List Bool × List Bool)}
    (h : SameTiming s0 s) : SameTiming s0 (s.sumCheck g start ripple) := by
  have hmembers (f : Fin 64 → Phase → Phase) :
      SameTiming s0 ((s.phasesOf g).foldl (fun u p => u.modPhase p (f p)) s) :=
    foldl_sameTiming h (fun u _ => modPhase_sameTiming (SameTiming.refl u))
  unfold State.sumCheck
  dsimp only
  refine ite_sameTiming ?_ (ite_sameTiming ?_ ?_)
  · exact modGroup_sameTiming (hmembers _) (fun _ => rfl)
  · exact modGroup_sameTiming (hmembers _) (fun _ => rfl)
  · split
    · exact modGroup_sameTiming (hmembers _) (fun _ => rfl)
    · exact modGroup_sameTiming (hmembers _) (fun x => by split <;> rfl)

theorem State.wearWarn_sameTiming {g : Fin 8} {p : Fin 64} (h : SameTiming s0 s) : SameTiming s0 (s.wearWarn g p) :=
  ite_sameTiming (raise_sameTiming (modPhase_sameTiming h)) h

theorem State.checkFiller_sameTiming {p : Fin 64} (h : SameTiming s0 s) : SameTiming s0 (s.checkFiller p) :=
  ite_sameTiming h (ite_sameTiming (retireNext_sameTiming h) (ite_sameTiming (retireNext_sameTiming h)
    (ite_sameTiming (retireNext_sameTiming h) (ite_sameTiming (retireNext_sameTiming h) h))))

theorem State.wearRetire_sameTiming {g : Fin 8} {p : Fin 64} (h : SameTiming s0 s) : SameTiming s0 (s.wearRetire g p) :=
  ite_sameTiming h (ite_sameTiming (retireNext_sameTiming h) h)

theorem State.stepBurst_sameTiming {g : Fin 8} (h : SameTiming s0 s) : SameTiming s0 (s.stepBurst g) := by
  refine ite_sameTiming h ?_
  split
  · exact modGroup_sameTiming h (fun _ => rfl)
  · exact modGroup_sameTiming h (fun x => by split <;> rfl)

theorem State.glidePhases_sameTiming {g : Fin 8} (h : SameTiming s0 s) : SameTiming s0 (s.glidePhases g) :=
  foldl_sameTiming h (fun u _ => modPhase_sameTiming (SameTiming.refl u))

theorem State.applyShares_sameTiming {g : Fin 8} (h : SameTiming s0 s) : SameTiming s0 (s.applyShares g) :=
  foldl_sameTiming h (fun u _ => modPhase_sameTiming (SameTiming.refl u))

end TimingKept

/-! ### The start of a period -/

/-- What PERIOD_START does before the group's timer moves on. -/
def State.beforePeriod (g : Fin 8) (start : Nat) (ripple : List (Fin 64 × List Bool × List Bool)) (s : State) : State :=
  ((s.atDevice (start / 16)).pickParam (grId g 0x16)).sumCheck g start ripple

/-- What PERIOD_START does to the group's timer; `f` is the group's switching frequency. -/
def Group.startPeriod (f k start len : Nat) (x : Group) : Group :=
  { x with
    sync := x.sync.newPeriod f start len
    period := k, periodStart := start, periodLen := len, acc := k * 16000000000 % f
    regrout := min (x.regrout + 1) 8, kCount := x.kCount + 1 }

/-- What PERIOD_START does to the phases of the group once its timer has moved on. -/
def State.afterPeriod (g : Fin 8) (s : State) : State :=
  let tol := s.senseTol g
  let t := (s.phasesOf g).foldl (fun u p =>
    ((((u.modPhase p (Phase.newPeriod (!u.carriesNone g p) tol)).wearWarn g p).checkFiller p).wearRetire g p).keepDepth g p) s
  ((t.stepBurst g).glidePhases g).applyShares g

theorem execPeriodStart_of_engineOn {g : Fin 8} {ripple : List (Fin 64 × List Bool × List Bool)} {s : State} {k start len : Nat}
    (hon : s.engineOn = true) (hnext : s.nextPeriod g = (k, start, len)) :
    execPeriodStart g ripple s = .next ((((s.beforePeriod g start ripple).modGroup g
      (Group.startPeriod (max 1 (s.param (grId g 1))) k start len)).afterPeriod g).settle s) := by
  simp only [execPeriodStart, hon, hnext, Bool.not_true, Bool.false_eq_true, if_false]
  rfl

theorem State.beforePeriod_sameTiming (g : Fin 8) (start : Nat) (ripple : List (Fin 64 × List Bool × List Bool)) (s : State) :
    SameTiming s (s.beforePeriod g start ripple) :=
  State.sumCheck_sameTiming ⟨fun _ => rfl, rfl, rfl⟩

theorem State.afterPeriod_sameTiming (g : Fin 8) (s : State) : SameTiming s (s.afterPeriod g) := by
  refine State.applyShares_sameTiming (State.glidePhases_sameTiming (State.stepBurst_sameTiming ?_))
  refine foldl_sameTiming (SameTiming.refl s) (fun u p => ?_)
  have hperiod {f : Phase → Phase} : SameTiming u (u.modPhase p f) := modPhase_sameTiming (SameTiming.refl u)
  exact modPhase_sameTiming (State.wearRetire_sameTiming (State.checkFiller_sameTiming (State.wearWarn_sameTiming hperiod)))

/-- PERIOD_START takes the next number, start and length (03 R63, 04 R117), and leaves string ports, feeds and contactors. -/
theorem exec_periodStart_of_engineOn (g : Fin 8) (ripple : List (Fin 64 × List Bool × List Bool)) {s : State}
    (hon : s.engineOn = true) :
    ∃ t, exec (.periodStart g ripple) s = .next t ∧ (t.group g).timing =
        ((s.nextPeriod g).1, (s.nextPeriod g).2.1, (s.nextPeriod g).2.2, min ((s.group g).regrout + 1) 8, (s.group g).kCount + 1) ∧
      s.clk ≤ t.clk ∧ t.chg = s.chg ∧ t.bus = s.bus := by
  rcases hnext : s.nextPeriod g with ⟨k, start, len⟩
  have hexec := execPeriodStart_of_engineOn (ripple := ripple) hon hnext
  have hkeeps := (execPeriodStart_keeps (Keeps.refl s)) _ hexec
  have hbefore := State.beforePeriod_sameTiming g start ripple s
  have hafter (u : State) := (State.afterPeriod_sameTiming g u).trans (State.settle_sameTiming s _)
  refine ⟨_, hexec, ?_, hkeeps.clk, (hafter _).chg.trans hbefore.chg, (hafter _).bus.trans hbefore.bus⟩
  have htiming : (s.beforePeriod g start ripple |>.group g).timing = (s.group g).timing := hbefore.timing g
  simp only [Group.timing, Prod.mk.injEq] at htiming
  obtain ⟨-, -, -, hregrout, hk⟩ := htiming
  rw [(hafter _).timing g, State.modGroup_group_self]
  simp only [Group.startPeriod, Group.timing, hregrout, hk]

/-! ### Boundaries, samples and stages -/

/-- A change of the converters is fixed by what it makes of their present value. -/
theorem State.modConv_congr {s : State} {f g : ConverterState → ConverterState} (h : f s.conv = g s.conv) :
    s.modConv f = s.modConv g :=
  congrArg (fun c => { s with conv := c }) h

section GroupRows

variable {g : Fin 8} {s : State}

theorem execCommitBoundary_of_boundary {half : Bool} (hon : s.engineOn = true)
    (hfreq : half = true → s.param (grId g 1) ≤ 1000000) :
    let t := (s.atDevice (((s.group g).periodStart + (if half then s.nT g / 2 else 0)) / 16)).commitHead g half
    execCommitBoundary g half s = .next (s.commitTail g half ((t.group g).waiting.foldl (fun u w => u.applyWaiting g w) t)) := by
  have hnone : ¬ (half && decide (1000000 < s.param (grId g 1))) = true := by
    simpa using hfreq
  exact (if_neg (by simp [hon])).trans (if_neg hnone)

/-- Above 1 MHz the second half-period has no boundary (03 R64). -/
theorem execCommitBoundary_of_fastHalf (hon : s.engineOn = true) (hfreq : 1000000 < s.param (grId g 1)) :
    execCommitBoundary g true s = .next ((s.atDevice (((s.group g).periodStart + s.nT g / 2) / 16)).modGroup g
      (fun x => { x with syncOut := false })) :=
  (if_neg (by simp [hon])).trans (if_pos (by simp [hfreq]))

theorem execLightLoadStageEntry_of_due {m : Light} {t0 : Nanos} (hdown : (s.group g).light.down = some m)
    (hsince : m = .diode ∧ bitAt (s.held (grId g 0x0D)) 0 = true ∧ (s.group g).deSince = some t0 ∨
      m = .shed ∧ bitAt (s.held (grId g 0x0D)) 1 = true ∧ (s.group g).shedSince = some t0 ∨
      m = .burst ∧ bitAt (s.held (grId g 0x0D)) 2 = true ∧ (s.group g).burstSince = some t0)
    (hmode : (s.group g).mode.isPower = true) (hown : s.isFollower g = false) :
    let u := s.atLeast (t0 + bitsOf (s.held (grId g 0x0D)) 31 28 * 5000000)
    let sgn : Int := if (s.group g).iCmd < 0 then -1 else if 0 < (s.group g).iCmd then 1 else 0
    execLightLoadStageEntry g s = .next ((((u.modGroup g (fun y => { y with
      light := m, nOn := u.nOnOf g, burstPos := 0, burstGap := 0
      entrySign := if m = .diode then sgn else y.entrySign })).dropShadows g).applyShed g).settle s) := by
  intro u sgn
  rcases hsince with ⟨rfl, hen, hsince⟩ | ⟨rfl, hen, hsince⟩ | ⟨rfl, hen, hsince⟩
  all_goals
    simp only [execLightLoadStageEntry, hdown, hen, hsince, hmode, hown]
    rfl

theorem execRampDownComplete_of_zero {m : Mode} (hramp : (s.group g).rampDown = some m) (href : (s.group g).ref = 0)
    (hoff : s.switchingOf g = []) : execRampDownComplete g s = .next ((s.enterMode g m).settle s) := by
  simp [execRampDownComplete, hramp, href, hoff]

theorem execScheduledSetpointEffect_of_single {q : Scheduled} (h : s.conv.schedule = [q]) :
    execScheduledSetpointEffect s = .next (((((s.atLeast (nat0 ((q.at_ : Int) - s.clock.tb.step))).modConv
      (fun c => { c with schedule := [] })).effectSetpoints q)).settle s) := by
  have hrest : s.conv.schedule.filter (fun y => !(y == q)) = [] := by simp [h]
  simp only [execScheduledSetpointEffect, h, List.foldl_nil]
  rw [State.modConv_congr (g := fun c => { c with schedule := [] }) (congrArg (fun l => { s.conv with schedule := l }) hrest)]

/-! ### Synchronisation (04 R117) -/

theorem execSyncLossTimeout_of_tracking {last : Nat} (hlast : (s.group g).sync.lastEdge = some last)
    (htracking : (s.group g).sync.tracking = true) :
    execSyncLossTimeout g s = .next (((s.atLeast (nat0 (ceilQ (((last : Rat) + s.syncIn g * 3 / 2) / 16) - s.clock.tb.step))).modGroup g
      (fun y => { y with sync := { y.sync with
        lastEdge := none, good := 0, bad := 0, tracking := false, locked := false, gliding := true } })).settle s) := by
  simp only [execSyncLossTimeout, hlast, htracking, Bool.not_true, Bool.false_eq_true, if_false]

end GroupRows

/-! ### The locked limit set (04 R121, R127) -/

/-- A group in a switching mode has breached a limit in as many rows as the hold asks. -/
def Group.breaches (hold : Nat) (x : Group) : Bool :=
  x.mode.isSwitching && (decide (hold ≤ x.breachI) || decide (hold ≤ x.breachV) || decide (hold ≤ x.breachB))

theorem Group.breaches_iff {hold : Nat} {x : Group} :
    x.breaches hold = true ↔ x.mode.isSwitching = true ∧ (hold ≤ x.breachI ∨ hold ≤ x.breachV ∨ hold ≤ x.breachB) := by
  simp [Group.breaches, or_assoc]

theorem State.anyGroup_iff {s : State} {f : Group → Bool} : s.conv.groups.toList.any f = true ↔ ∃ g : Fin 8, f (s.group g) = true := by
  simp only [List.any_eq_true, State.group, Vector.mem_toList_iff, Vector.mem_iff_getElem]
  constructor
  · rintro ⟨x, ⟨i, hi, rfl⟩, hx⟩
    exact ⟨⟨i, hi⟩, hx⟩
  · rintro ⟨g, hg⟩
    exact ⟨_, ⟨g.val, g.isLt, rfl⟩, hg⟩

section LimitSet

variable {means : List (Fin 8 × Reading × Reading)} {vLink : Reading} {b : List Byte} {s : State}

theorem execLimitSetCheck_of_set (h : s.conv.limitSet = some b) :
    let t := means.foldl (fun t e => t.modGroup e.1 (Group.check b e.1.val e.2.1 e.2.2 vLink)) s
    execLimitSetCheck means vLink s =
      if t.conv.groups.toList.any (Group.breaches (numAt b 2 2)) then .next ((t.safeState 10 0).settle s) else .next t := by
  simp only [execLimitSetCheck, h]
  rfl

theorem execLimitSetCheck_of_breach {g : Fin 8} (h : s.conv.limitSet = some b) :
    let t := means.foldl (fun t e => t.modGroup e.1 (Group.check b e.1.val e.2.1 e.2.2 vLink)) s
    (t.group g).mode.isSwitching = true →
    (numAt b 2 2 ≤ (t.group g).breachI ∨ numAt b 2 2 ≤ (t.group g).breachV ∨ numAt b 2 2 ≤ (t.group g).breachB) →
    execLimitSetCheck means vLink s = .next ((t.safeState 10 0).settle s) := by
  intro t hmode hbreach
  exact (execLimitSetCheck_of_set h).trans (if_pos (State.anyGroup_iff.mpr ⟨g, Group.breaches_iff.mpr ⟨hmode, hbreach⟩⟩))

theorem execLimitSetCheck_of_kept (h : s.conv.limitSet = some b) :
    let t := means.foldl (fun t e => t.modGroup e.1 (Group.check b e.1.val e.2.1 e.2.2 vLink)) s
    (∀ g : Fin 8, (t.group g).mode.isSwitching = true → (t.group g).breachI < numAt b 2 2 ∧
      (t.group g).breachV < numAt b 2 2 ∧ (t.group g).breachB < numAt b 2 2) →
    execLimitSetCheck means vLink s = .next t := by
  intro t hkept
  refine (execLimitSetCheck_of_set h).trans (if_neg ?_)
  rw [State.anyGroup_iff]
  rintro ⟨g, hg⟩
  obtain ⟨hmode, hbreach⟩ := Group.breaches_iff.mp hg
  obtain ⟨hI, hV, hB⟩ := hkept g hmode
  rcases hbreach with h | h | h
  · exact Nat.not_le.mpr hI h
  · exact Nat.not_le.mpr hV h
  · exact Nat.not_le.mpr hB h

end LimitSet

/-- Settles O23. `exec` of each of these rows is its meaning by definition. -/
theorem groupAndSyncEvents : Obligations.GroupAndSyncEvents := by
  unfold Obligations.GroupAndSyncEvents
  refine ⟨?_, ?_, ?_, ?_, ?_, ?_, ?_, ?_, ?_, ?_, ?_, ?_, ?_⟩
  · exact fun _ _ _ hon hfreq => execCommitBoundary_of_boundary hon hfreq
  · exact fun _ _ hon hfreq => execCommitBoundary_of_fastHalf hon hfreq
  · intro g ripple s hon
    obtain ⟨t, hexec, htiming, hclk, hchg, hbus⟩ := exec_periodStart_of_engineOn g ripple hon
    simp only [Group.timing, Prod.mk.injEq] at htiming
    obtain ⟨hk, hstart, hlen, hregrout, hcount⟩ := htiming
    exact ⟨t, hexec, hk, hstart, hlen, hregrout, hcount, hclk, hchg, hbus⟩
  · exact fun _ _ _ hon => (if_neg (by simp [hon])).trans (apply_ite Host.Outcome.next _ _ _).symm
  · exact fun _ _ _ hon => if_neg (by simp [hon])
  · exact fun _ _ _ _ hdown hsince hmode hown => execLightLoadStageEntry_of_due hdown hsince hmode hown
  · exact fun _ _ _ hramp href hoff => execRampDownComplete_of_zero hramp href hoff
  · exact fun _ _ h => execScheduledSetpointEffect_of_single h
  · exact fun _ _ => rfl
  · exact fun _ _ => rfl
  · exact fun _ _ _ hlast htracking => execSyncLossTimeout_of_tracking hlast htracking
  · exact fun _ _ _ _ _ h => execLimitSetCheck_of_breach h
  · exact fun _ _ _ _ h => execLimitSetCheck_of_kept h

end Sys2Proof.Machine
end

section
/-! The group opcodes (04 R122 to R126, R568), one lemma for each outcome. -/

namespace Sys2Proof.Machine

section GroupOpcodes

variable {r : Req} {g : Fin 8} {s : State}

theorem execGroupStatus_of_ready (h : Ready 0x0401 observe r s) (hlen : r.payload.length = 1) :
    execGroupStatus r s = .next (s.complete r 0x0401 (done ((groupMask (numAt r.payload 0 1)).map (fun g =>
      leBytes 1 g.val ++ leBytes 1 (s.group g).cause.toNat ++ zeros 2 ++ leBytes 4 (s.group g).statusWord)).flatten)) :=
  h.next_ok (len_none.mpr hlen) rfl

/-- The peaks are read from the state before any of them is cleared (04 R126). -/
theorem execGroupTelemetry_of_ready (h : Ready 0x0402 observe r s) (hlen : r.payload.length = 1) :
    let gs := groupMask (numAt r.payload 0 1)
    execGroupTelemetry r s = .next ((gs.foldl (fun t g => t.modGroup g (fun x =>
      { x with peakI := vmod x.peakI r.owner (fun _ => 0), peakP := vmod x.peakP r.owner (fun _ => 0) })) s).complete r 0x0402
        (done (gs.map (fun g => s.groupItem g ((s.group g).peakI[r.owner.val]) ((s.group g).peakP[r.owner.val]))).flatten)) :=
  h.next_ok (len_none.mpr hlen) rfl

/-! ### GROUP_SETPOINT (04 R123) -/

/-- Where a setpoint command that may be taken waits: at its first group for the next sample, or in the schedule, which
refuses it when it is full. -/
def State.bookSetpoint (s : State) (g : Fin 8) (q : Scheduled) : Res :=
  if q.at_ < s.now || q.at_ = 0 then .wait (s.modGroup g (fun x => { x with setpoints := x.setpoints ++ [q] }))
  else if s.scheduleFull q.entries then .no stBusy 0x0105
  else .wait (s.modConv (fun c => { c with schedule := c.schedule ++ [q] }))

theorem State.bookSetpoint_of_now {q : Scheduled} (hnow : q.at_ = 0 ∨ q.at_ < s.now) :
    s.bookSetpoint g q = .wait (s.modGroup g (fun x => { x with setpoints := x.setpoints ++ [q] })) :=
  if_pos (by simpa using hnow.symm)

theorem State.bookSetpoint_of_later {q : Scheduled} (htimed : q.at_ ≠ 0) (hlater : s.now ≤ q.at_)
    (hroom : s.scheduleFull q.entries = false) :
    s.bookSetpoint g q = .wait (s.modConv (fun c => { c with schedule := c.schedule ++ [q] })) :=
  (if_neg (by simp [htimed, hlater])).trans (if_neg (by simp [hroom]))

theorem execGroupSetpoint_of_booked {e : SetpointEntry} {es : List SetpointEntry} {t : State}
    (h : Ready 0x0403 control r s) (hshape : setpointShape r.payload = none) (hlease : s.holdsLease r.owner = true)
    (hmin : 1 ≤ numAt r.payload 0 1) (hmax : numAt r.payload 0 1 ≤ 8) (hentries : setpointEntries r.payload = some (e :: es))
    (htaken : s.setpointRefusal (e :: es) = none)
    (hbooked : s.bookSetpoint e.group { req := r, at_ := numAt r.payload 4 8, entries := e :: es } = .wait t) :
    execGroupSetpoint r s = .next (t.park r 0x0403) := by
  have hcount : (decide (numAt r.payload 0 1 < 1) || decide (8 < numAt r.payload 0 1)) = false := by
    simp [Nat.not_lt.mpr hmin, Nat.not_lt.mpr hmax]
  refine h.next_wait hshape ?_
  simp only [State.needLease_holds hlease, hcount, Bool.false_eq_true, if_false, hentries, htaken]
  exact hbooked

/-! ### GROUP_CANCEL, GROUP_FAULT_ACK and GROUP_LIMITS (04 R124, R125, R568) -/

theorem execGroupCancel_of_holder (h : Ready 0x0404 control r s) (hlen : r.payload.length = 1)
    (hlease : s.holdsLease r.owner = true) :
    execGroupCancel r s = .next ((s.endScheduled
      (fun x => (groupMask (numAt r.payload 0 1)).any (fun g => Scheduled.names g x)) stAbDisabled 0x0104).complete r 0x0404 done) :=
  h.next_ok (len_none.mpr hlen) (State.needLease_holds hlease)

/-- A payload of one byte names one of at most 256 objects. -/
theorem named_of_payload {k : Nat} {x : Fin k} (hk : k ≤ 256) (h : r.payload = [BitVec.ofNat 8 x.val]) :
    named k (numAt r.payload 0 1) = some x := by
  rw [h, numAt_fin hk, named_val]

theorem execGroupFaultAck_of_permitted (h : Ready 0x0405 control r s) (hp : r.payload = [BitVec.ofNat 8 g.val])
    (hlease : s.holdsLease r.owner = true) (hack : s.ackRefusal g = none) (hfree : (s.group g).faultAck = none) :
    execGroupFaultAck r s = .next ((s.modGroup g (fun x => { x with faultAck := some r })).park r 0x0405) := by
  refine h.next_wait (len_none.mpr (by rw [hp]; rfl)) ?_
  simp only [State.needLease_holds hlease, named_of_payload (by decide) hp, hack, hfree, Option.isSome_none, Bool.false_eq_true, if_false]

theorem execGroupLimits_of_ready (h : Ready 0x0406 observe r s) (hp : r.payload = [BitVec.ofNat 8 g.val]) :
    execGroupLimits r s = .next (s.complete r 0x0406 (done (((s.lastRows g).map (fun x =>
      leBytes 1 x.code ++ leBytes 1 x.level ++ leBytes 1 (flag x.applies + 2 * flag x.binding) ++ zeros 1 ++
        edgeWord 0x80000000 x.lo ++ edgeWord 0x7FFFFFFF x.hi)).flatten))) :=
  h.next_ok (len_none.mpr (by rw [hp]; rfl)) (by simp only [named_of_payload (by decide) hp])

end GroupOpcodes

/-- Settles O24. `exec` of each of these opcodes is its meaning by definition. -/
theorem groupCommands : Obligations.GroupCommands := by
  unfold Obligations.GroupCommands
  refine ⟨?_, ?_, ?_, ?_, ?_, ?_, ?_⟩
  · exact fun _ _ h hlen => execGroupStatus_of_ready h hlen
  · exact fun _ _ h hlen => execGroupTelemetry_of_ready h hlen
  · exact fun _ _ _ _ h hshape hlease hmin hmax hentries htaken hnow =>
      execGroupSetpoint_of_booked h hshape hlease hmin hmax hentries htaken (State.bookSetpoint_of_now hnow)
  · exact fun _ _ _ _ h hshape hlease hmin hmax hentries htaken htimed hlater hroom =>
      execGroupSetpoint_of_booked h hshape hlease hmin hmax hentries htaken (State.bookSetpoint_of_later htimed hlater hroom)
  · exact fun _ _ h hlen hlease => execGroupCancel_of_holder h hlen hlease
  · exact fun _ _ _ h hp hlease hack hfree => execGroupFaultAck_of_permitted h hp hlease hack hfree
  · exact fun _ _ _ h hp => execGroupLimits_of_ready h hp

end Sys2Proof.Machine
end

section
/-! The pair link and paired groups (05 R149 to R166): what each row does, by its outcome. -/

namespace Sys2Proof.Machine

/-! ### Frames (05 R149 to R153) -/

@[simp] theorem PairLink.sendRequest_txSeq (q : Option (List Byte)) (l : PairLink) : (l.sendRequest q).txSeq = l.txSeq := by
  cases q <;> rfl

@[simp] theorem PairLink.sendResponse_txSeq (q : Option (List Byte)) (l : PairLink) : (l.sendResponse q).txSeq = l.txSeq := by
  cases q <;> rfl

/-- A change of each phase in turn changes nothing beside the phases. -/
theorem State.eachPhase_modPhase (f : Fin 64 → Phase → Phase) (s : State) :
    ∃ ps, s.eachPhase (fun p u => u.modPhase p (f p)) = s.modConv (fun c => { c with phases := ps }) := by
  unfold State.eachPhase
  induction List.finRange 64 generalizing s with
  | nil => exact ⟨s.conv.phases, rfl⟩
  | cons p l ih =>
    obtain ⟨ps, hps⟩ := ih (s.modPhase p (f p))
    exact ⟨ps, hps⟩

/-- A change of the link is fixed by what it makes of its present value. -/
theorem State.modPairLink_congr {s : State} {f g : PairLink → PairLink} (h : f s.conv.link = g s.conv.link) :
    s.modPairLink f = s.modPairLink g :=
  State.modConv_congr (congrArg (fun l => { s.conv with link := l }) h)

/-- The link after the start of frame n, whose bytes are b, at device time `now`. -/
def PairLink.sent (n now : Nat) (b : List Byte) (l : PairLink) : PairLink :=
  let x := (l.sendRequest l.nextRequest).sendResponse l.nextResponse
  { x with
    frame := n + 1, txSeq := x.txSeq + 1#8, return0 := 0, return1 := 0, lastSent := some b
    sofTimes := ((x.txSeq, now) :: x.sofTimes).take 64
    outstanding := x.outstanding.map (fun r => { r with age := r.age + 1 }) }

/-- Sending takes the edge words of the phases and changes the clock and the link; nothing else. -/
theorem execPairFrameSend_of_running {s : State} (hdie : s.power.safety.dieRunning = true) :
    let u := s.atLeast (s.sofAt s.frameDue)
    ∃ ps, execPairFrameSend s = .next ((u.modPairLink (PairLink.sent s.frameDue u.now
      (u.pairFrame (s.conv.link.nextRequest.getD []) (s.conv.link.nextResponse.getD [])))).modConv
        (fun c => { c with phases := ps })) := by
  intro u
  obtain ⟨ps, hps⟩ := State.eachPhase_modPhase (fun _ x => { x with linkWord := none })
    (u.modPairLink (PairLink.sent s.frameDue u.now
      (u.pairFrame (s.conv.link.nextRequest.getD []) (s.conv.link.nextResponse.getD []))))
  exact ⟨ps, (if_neg (by simp [hdie])).trans (congrArg _ hps)⟩

section Received

variable {b : List Byte} {good handover : Bool} {peer : Option PeerEnable} {s : State}

/-- A frame is bad by its K-characters or lane skew, by its length or by its CRC (05 R151). -/
theorem execPairFrameReceive_of_bad
    (hbad : good = false ∨ b.length ≠ 1232 ∨ (crc32c (slice b 0 1228)).toNat ≠ numAt b 1228 4) :
    execPairFrameReceive b good peer handover s = .next s.dropFrame := by
  refine if_pos ?_
  rcases hbad with hmarks | hlen | hcrc
  · simp [hmarks]
  · simp [hlen]
  · simp [hcrc]

theorem execPairFrameReceive_of_good (hlen : b.length = 1232) (hcrc : (crc32c (slice b 0 1228)).toNat = numAt b 1228 4) :
    let t := (((((s.modPairLink (fun l => let l := l.measure s.now b; { l with
      goodRun := min 8 (l.goodRun + 1), missRun := 0, good := satInc l.good, lastGoodAt := s.now
      lastGood := BitVec.ofNat 8 (numAt b 1 1), partnerVer := some (BitVec.ofNat 8 (numAt b 0 1))
      credit0 := min 16 (l.credit0 + numAt b 12 1), credit1 := min 16 (l.credit1 + numAt b 13 1)
      lostSeen := l.lostSeen || bitAt (numAt b 2 1) 1, partnerEdges := frameEdges b l.partnerEdges })).linkComesUp).takeControl b).serveRequest
        (slice b 600 312)).takeResponse (slice b 912 312))
    execPairFrameReceive b true peer handover s =
      .next (((match peer with | some e => t.takePeer e | none => t).askHandover handover).settle s) :=
  if_neg (by simp [hlen, hcrc])

end Received

/-! ### Requests without an answer, and the loss of the link (05 R153, R163) -/

section Lost

variable {s : State}

theorem State.failRequests_of_single {q : PairRequest} {sel : PairRequest → Bool} (hout : s.conv.link.outstanding = [q])
    (hsel : sel q = true) :
    s.failRequests sel = (s.modPairLink (fun l => { l with outstanding := [] })).raise 281 := by
  have hleft : s.conv.link.outstanding.filter (fun r => !sel r) = [] := by simp [hout, hsel]
  have hfailed : s.conv.link.outstanding.filter sel = [q] := by simp [hout, hsel]
  simp only [State.failRequests, hfailed, List.foldl_cons, List.foldl_nil]
  exact congrArg (State.raise 281) (State.modPairLink_congr (congrArg (fun rs => { s.conv.link with outstanding := rs }) hleft))

theorem State.failRequests_of_none {sel : PairRequest → Bool} (hout : s.conv.link.outstanding = []) :
    s.failRequests sel = s.modPairLink (fun l => { l with outstanding := [] }) := by
  have hleft : s.conv.link.outstanding.filter (fun r => !sel r) = [] := by simp [hout]
  simp only [State.failRequests, hout, List.filter_nil, List.foldl_nil]
  exact State.modPairLink_congr (congrArg (fun rs => { s.conv.link with outstanding := rs }) hleft)

theorem execPairTransactionTimeout_of_aged {q : PairRequest} (hout : s.conv.link.outstanding = [q]) (hage : 64 ≤ q.age) :
    execPairTransactionTimeout q.tag s =
      .next ((s.modPairLink (fun l => { l with outstanding := [] })).raise 281) :=
  congrArg _ (State.failRequests_of_single hout (by simp [hage]))

/-- Without a paired group there is none to lose. -/
theorem State.eachGroup_loseGroup_of_unpaired (h : ∀ g : Fin 8, (s.group g).pair.paired = false) :
    s.eachGroup State.loseGroup = s := by
  have hkept (g : Fin 8) : State.loseGroup g s = s := if_pos (by simp [h g])
  unfold State.eachGroup
  induction List.finRange 8 with
  | nil => rfl
  | cons g l ih => rwa [List.foldl_cons, hkept]

theorem execPairLost_of_unpaired (hseen : s.conv.link.lostSeen = true)
    (hunpaired : ∀ g : Fin 8, (s.group g).pair.paired = false) (hup : s.conv.link.linkUp = true)
    (hout : s.conv.link.outstanding = []) :
    execPairLost s = .next (((s.modPairLink (fun l => { l with
      linkUp := false, goodRun := 0, lostRx := l.lostRx || s.pairedGroup.isSome, lostSeen := false
      outstanding := [] })).raise 277).settle s) := by
  simp only [execPairLost, hseen, if_true, State.eachGroup_loseGroup_of_unpaired hunpaired, State.failRequests_of_none hout,
    hup, State.raiseIf]
  rfl

end Lost

/-! ### The pairing opcodes (05 R154, R161, R166) -/

section PairOpcodes

variable {r : Req} {g : Fin 8} {s : State}

theorem execPairStatus_of_ready (h : Ready 0x1101 observe r s) (hp : r.payload = [BitVec.ofNat 8 g.val]) :
    execPairStatus r s = .next (s.complete r 0x1101
      (done (leBytes 1 g.val ++ zeros 3 ++ leBytes 4 (s.pairWord g) ++ leBytes 4 s.conv.link.good.toNat ++
        leBytes 4 s.conv.link.missing.toNat ++ leBytes 4 (s.group g).pair.losses.toNat ++
        leBytes 8 (s.group g).pair.partnerId.toNat ++ leBytes 4 (fitU 32 (roundQ s.conv.link.latency))))) :=
  h.next_ok (len_none.mpr (by rw [hp]; rfl)) (by simp only [named_of_payload (by decide) hp])

theorem execPairEnable_of_permitted (h : Ready 0x1102 configure r s) (hshape : lenZ 12 [(2, 2)] r.payload = none)
    (hlease : s.holdsLease r.owner = true) (hg : numAt r.payload 0 1 = g.val) (hpartner : numAt r.payload 1 1 ≤ 7)
    (hown : s.ownPairRefusal g = none) (hpeer : ((s.group g).pair.peer).bind (s.pairRefusal g (enableNames r).2) = none) :
    execPairEnable r s = .next ((s.modPair g (fun x => { x with enable := some (r, s.clk) })).handshake.park r 0x1102) := by
  refine h.next_wait hshape ?_
  have hnames : ¬ 7 < (enableNames r).1 := Nat.not_lt.mpr hpartner
  simp only [State.needLease_holds hlease, hg, named_val, hnames, if_false, hown, hpeer]

theorem execPairDisable_of_paired (h : Ready 0x1103 configure r s) (hp : r.payload = [BitVec.ofNat 8 g.val])
    (hlease : s.holdsLease r.owner = true) (hpaired : (s.group g).pair.paired = true) (hfree : (s.group g).pair.disable = none) :
    execPairDisable r s = .next ((s.modPair g (fun x => { x with disable := some r })).handshake.park r 0x1103) := by
  refine h.next_wait (len_none.mpr (by rw [hp]; rfl)) ?_
  simp [State.needLease_holds hlease, named_of_payload (by decide) hp, hpaired, hfree]

theorem execPairHandover_of_leader (h : Ready 0x1104 control r s) (hp : r.payload = [BitVec.ofNat 8 g.val])
    (hlease : s.holdsLease r.owner = true) (hpaired : (s.group g).pair.paired = true)
    (hleader : (s.group g).pair.leader = true) (hup : s.conv.link.linkUp = true) (hfree : (s.group g).pair.handover = none) :
    execPairHandover r s = .next ((s.modPair g (fun x => { x with
      handover := some r, handoverSeq := s.conv.link.txSeq, handoverHeard := false })).handshake.park r 0x1104) := by
  refine h.next_wait (len_none.mpr (by rw [hp]; rfl)) ?_
  simp [State.needLease_holds hlease, named_of_payload (by decide) hp, hpaired, hleader, hup, hfree]

end PairOpcodes

/-! ### Points of effect (05 R154, R161, R164) -/

section PairEffects

variable {r : Req} {g : Fin 8} {t0 : Nanos} {s : State}

theorem execPairTakeEffect_of_agreed {e : PeerEnable} (henable : (s.group g).pair.enable = some (r, t0))
    (hpeer : (s.group g).pair.peer = some e) (hagree : s.pairRefusal g (enableNames r).2 e = none)
    (hnames : e.group.val = (enableNames r).1) :
    let t := ((((s.atDevice (s.sampleAt g)).modPair g (fun x => { x with
      paired := true, leader := s.leads g e, lost := false, split := false, enable := none, peer := none
      partnerId := e.identity, partnerGroup := e.group, control := [], partnerPaired := true })).bumpEpoch g .other).raise 278).modPairLink
        (fun l => { l with lostRx := false, lostSeen := false })
    let u := match t.portOf g with | some p => t.stippleAbort p 9 | none => t
    execPairTakeEffect g s = .next ((u.complete r 0x1102 done).settle s) := by
  intro t u
  have hgo : ¬ ((s.pairRefusal g (enableNames r).2 e).isSome || e.group.val ≠ (enableNames r).1) = true := by
    simp [hagree, hnames]
  simp only [execPairTakeEffect, henable, hpeer]
  exact if_neg hgo

theorem execPairEnableTimeout_of_waiting (henable : (s.group g).pair.enable = some (r, t0)) :
    execPairEnableTimeout g s = .next (((s.atLeast (t0 + 10000000000)).modPair g
      (fun x => { x with enable := none, peer := none })).finish r 0x1102 ⟨stState, 0, 0x0107, []⟩) := by
  simp only [execPairEnableTimeout, henable]

theorem execPairDisableEffect_of_calm (hpaired : (s.group g).pair.paired = true) (hcalm : s.pairCalm g = true)
    (hdisable : (s.group g).pair.disable = some r) (hhandover : (s.group g).pair.handover = none) :
    execPairDisableEffect g s = .next (((((((s.atDevice (s.sampleAt g)).loseTiming g).unpair g).modPair g
      (fun y => { y with disable := none, handover := none })).applyEngines g).complete r 0x1103 done).settle s) := by
  simp [execPairDisableEffect, hpaired, hcalm, hdisable, hhandover]

theorem execPairHandoverEffect_of_heard (hpaired : (s.group g).pair.paired = true) (hcontrol : (s.group g).pair.control ≠ [])
    (hleader : (s.group g).pair.leader = true) (hhandover : (s.group g).pair.handover = some r)
    (hheard : (s.group g).pair.handoverHeard = true) :
    let u := s.atDevice (s.sampleAt g)
    execPairHandoverEffect g s = .next ((((u.modPair g (fun y => { y with
      leader := false, handover := none, handoverHeard := false, control := (s.group g).swapControl (u.ccap g)
      nextPs := some ((s.group g).periodStart + (s.group g).periodLen) })).raise 279).complete r 0x1104 done).settle u) := by
  simp [execPairHandoverEffect, hpaired, hcontrol, hleader, hhandover, hheard]

theorem execPairHandoverEffect_of_asked (hpaired : (s.group g).pair.paired = true) (hcontrol : (s.group g).pair.control ≠ [])
    (hleader : (s.group g).pair.leader = false) (hasked : (s.group g).pair.handoverAsked = true) :
    let u := s.atDevice (s.sampleAt g)
    let c := (s.group g).swapControl (u.ccap g)
    let ref : Rat := if (s.group g).mode == .power then (intAt c 32 4 : Rat) else (intAt c 32 4 : Rat) / 100
    execPairHandoverEffect g s = .next (((u.modGroup g (fun y => { y with
      ref := ref, integ := f32Rat (numAt c 44 4)
      pair := { y.pair with leader := true, nextPs := none, handoverAsked := false, control := c } })).raise 279).settle u) := by
  simp [execPairHandoverEffect, hpaired, hcontrol, hleader, hasked]

end PairEffects

/-- Settles O25. `exec` of each of these rows is its meaning by definition. -/
theorem pairRows : Obligations.PairRows := by
  unfold Obligations.PairRows
  refine ⟨?_, ?_, ?_, ?_, ?_, ?_, ?_, ?_, ?_, ?_, ?_, ?_, ?_, ?_, ?_⟩
  · intro s hdie
    obtain ⟨ps, hexec⟩ := execPairFrameSend_of_running hdie
    exact ⟨_, hexec, rfl, rfl, by simp [PairLink.sent], rfl, rfl, rfl, rfl, rfl, rfl, rfl, rfl⟩
  · exact fun _ _ _ _ => execPairFrameReceive_of_bad (.inl rfl)
  · exact fun _ _ _ _ _ hlen => execPairFrameReceive_of_bad (.inr (.inl hlen))
  · exact fun _ _ _ _ hlen hcrc => execPairFrameReceive_of_good hlen hcrc
  · exact fun _ _ hout hage => execPairTransactionTimeout_of_aged hout hage
  · exact fun _ hseen hunpaired hup hout => execPairLost_of_unpaired hseen hunpaired hup hout
  · exact fun _ _ _ h hp => execPairStatus_of_ready h hp
  · exact fun _ _ _ h hshape hlease hg hpartner hown hpeer => execPairEnable_of_permitted h hshape hlease hg hpartner hown hpeer
  · exact fun _ _ _ _ _ henable hpeer hagree hnames => execPairTakeEffect_of_agreed henable hpeer hagree hnames
  · exact fun _ _ _ _ henable => execPairEnableTimeout_of_waiting henable
  · exact fun _ _ _ h hp hlease hpaired hfree => execPairDisable_of_paired h hp hlease hpaired hfree
  · exact fun _ _ _ hpaired hcalm hdisable hhandover => execPairDisableEffect_of_calm hpaired hcalm hdisable hhandover
  · exact fun _ _ _ h hp hlease hpaired hleader hup hfree => execPairHandover_of_leader h hp hlease hpaired hleader hup hfree
  · exact fun _ _ _ hpaired hcontrol hleader hhandover hheard =>
      execPairHandoverEffect_of_heard hpaired hcontrol hleader hhandover hheard
  · exact fun _ _ hpaired hcontrol hleader hasked => execPairHandoverEffect_of_asked hpaired hcontrol hleader hasked

end Sys2Proof.Machine
end

section
/-! String charging: the evaluation and the opcodes of string ports (06 R170, R174, R183), one lemma for each outcome. -/

namespace Sys2Proof.Machine

section StringOpcodes

variable {r : Req} {p : Fin 4} {s : State}

theorem execStringStatus_of_mask (h : Ready 0x0601 observe r s) (hlen : r.payload.length = 1) (hmask : numAt r.payload 0 1 < 16) :
    execStringStatus r s = .next (s.complete r 0x0601
      (done (((List.finRange 4).filter (fun p => bitAt (numAt r.payload 0 1) p.val)).map (fun p =>
        leBytes 1 p.val ++ zeros 3 ++ leBytes 4 (s.strPort p).stateWord ++ leBytes 4 (s.strPort p).faultWord ++
          leBytes 4 (s.strPort p).statusWord)).flatten)) :=
  h.next_ok (len_none.mpr hlen) (if_neg (Nat.not_le.mpr hmask))

/-- The answer is the fault word before the clearing; where every latched fault persists, nothing else happens. -/
theorem execChargeFaultRead_of_holder (h : Ready 0x0602 control r s) (hp : r.payload = [BitVec.ofNat 8 p.val])
    (hlease : s.holdsLease r.owner = true) :
    let a := done (leBytes 4 (s.strPort p).faultWord)
    execChargeFaultRead r s = .next (if (s.strPort p).faults &&& ~~~(s.persisting p) = 0 then s.complete r 0x0602 a
      else ((((s.modStrPort p (Port.clearFaults (s.persisting p))).portChanged s p).journalFaults).auditReq r 0x0602 a).complete
        r 0x0602 a) := by
  intro a
  have hlen : len 1 r.payload = none := len_none.mpr (by rw [hp]; rfl)
  by_cases hkept : (s.strPort p).faults &&& ~~~(s.persisting p) = 0
  · rw [if_pos hkept]
    refine h.next_ok hlen ?_
    simp only [State.needLease_holds hlease, named_of_payload (by decide) hp, hkept, beq_self_eq_true, if_true, a]
  · rw [if_neg hkept]
    refine h.next_ok hlen ?_
    simp only [State.needLease_holds hlease, named_of_payload (by decide) hp, beq_iff_eq, hkept, if_false, a]

theorem execProfileRestart_of_faultless (h : Ready 0x0603 control r s) (hp : r.payload = [BitVec.ofNat 8 p.val])
    (hlease : s.holdsLease r.owner = true) (hfaults : (s.strPort p).faults = 0) :
    execProfileRestart r s = .next ((s.modStrPort p (fun x => { x with restart := x.restart ++ [r] })).park r 0x0603) := by
  refine h.next_wait (len_none.mpr (by rw [hp]; rfl)) ?_
  simp only [State.needLease_holds hlease, named_of_payload (by decide) hp, hfaults, bne_self_eq_false, Bool.false_eq_true, if_false]

end StringOpcodes

/-- Settles O26. `exec` of each of these commands is its meaning by definition; the evaluation is the branch of a device
that runs and is awake, followed stage by stage: the port as evaluated, then its fractions by the extremes it has seen. -/
theorem stringCommands : Obligations.StringCommands := by
  unfold Obligations.StringCommands
  refine ⟨?_, ?_, ?_, ?_⟩
  · intro p s hrun hawake q t u
    have hserved : ¬ (s.sys.hawk != .running || !s.awake) = true := by simp [hrun, hawake]
    change execStringEvaluation p s = _
    unfold execStringEvaluation
    refine (if_neg hserved).trans ?_
    extract_lets _ _ _ _ _ _ evaluated tapered
    have hevaluated : evaluated = t := rfl
    have htapered : tapered = u := by
      cases hseen : (t.strPort p).seen <;> simp only [tapered, u, hevaluated, hseen]
    exact congrArg (fun x => Host.Outcome.next ((x.latchFaults p (x.evalFaults p)).portChanged s p)) htapered
  · exact fun _ _ h hlen hmask => execStringStatus_of_mask h hlen hmask
  · exact fun _ _ _ h hp hlease => execChargeFaultRead_of_holder h hp hlease
  · exact fun _ _ _ h hp hlease hfaults => execProfileRestart_of_faultless h hp hlease hfaults

end Sys2Proof.Machine
end

section
/-! Sleep, dust-sheet mode and wake (06 R185 to R192; 08 R248): what each row does, by its outcome. -/

namespace Sys2Proof.Machine

/-! ### Entry (06 R186, R187) -/

section RestOpcodes

variable {r : Req} {wakeN : Bool} {s : State}

theorem execSleepEnter_of_quiet (h : Ready 0x0610 control r s) (hlen : r.payload.length = 8) (hflags : numAt r.payload 2 1 ≤ 1)
    (hzero : zeroAt r.payload 3 1 = true) (hlease : s.holdsLease r.owner = true) (hrest : s.mayRest = true)
    (hsource : s.levelSource true wakeN (numAt r.payload 0 2) = false) :
    execSleepEnter r wakeN s = .next (((s.enterRest .enteringSleep (numAt r.payload 2 1 == 1) (numAt r.payload 0 2)
      (numAt r.payload 4 4)).complete r 0x0610 done).settle s) := by
  refine h.settle_ok (by simp [hlen, hzero, Nat.not_lt.mpr hflags]) ?_
  simp [State.needLease_holds hlease, hrest, hsource]

theorem execDustSheetEnter_of_quiet (h : Ready 0x0611 service r s) (hshape : lenZ 8 [(2, 2)] r.payload = none)
    (hrest : s.mayRest = true) (hka : s.power.supply.kaOk = true) (hnvm : s.nvmHeld = false)
    (hsource : s.levelSource false wakeN (numAt r.payload 0 2) = false) :
    execDustSheetEnter r wakeN s = .next (((((s.abandon (fun q => !(q.owner == r.owner && q.tag == r.tag)) stAbDisabled).enterRest
      .enteringDustSheet false (numAt r.payload 0 2) (numAt r.payload 4 4)).complete r 0x0611 done)).settle s) :=
  h.settle_ok hshape (by simp [hrest, hka, hnvm, hsource])

theorem execWake_of_ready (h : Ready 0x0612 observe r s) (hlen : r.payload = []) :
    execWake r s = .next (s.complete r 0x0612 (done s.chg.low.record.bytes)) :=
  h.next_ok (len_zero hlen) rfl

end RestOpcodes

/-! ### The low-power states (06 R186, R187, R190)

The spec gives 20 ms and 60 ms as typical; the model takes them as deadlines (SPEC.md, log 66). -/

section RestEvents

variable {s : State}

theorem execLowPowerStateReached_of_enteringSleep (hrun : s.chg.low.run = .enteringSleep) :
    let t := (s.atLeast (s.chg.low.enteredAt + 20000000)).modLow (fun x => { x with run := .sleep })
    let u := t.modWd (fun x => { x with
      counted := x.countAt t.clk
      run := if x.run == .off then .off else .paused })
    execLowPowerStateReached s =
      .next (((if u.power.seq.run == .complete then u.startDown true .complete else u).wakeNoted).settle s) := by
  simp only [execLowPowerStateReached, hrun]

theorem execLowPowerStateReached_of_enteringDustSheet (hrun : s.chg.low.run = .enteringDustSheet) :
    execLowPowerStateReached s = .next ((((s.atLeast (s.chg.low.enteredAt + 60000000)).flush.journalled.islandOff.modLow
      (fun x => { x with run := .dustSheet })).wakeNoted).settle s) := by
  simp only [execLowPowerStateReached, hrun]

/-! ### Wake (06 R188 to R192; 08 R248) -/

theorem execWakeSource_of_resting {code : Fin 9} (hcode : code ≠ 0) (hrun : s.chg.low.run ≠ .running)
    (hport : code.val = 4 → s.portFused = false) :
    let t := if code.val = 2 ∧ (s.chg.low.run = .dustSheet ∨ s.chg.low.run = .enteringDustSheet) then
      s.modSupply (fun x => { x with auxOk := true }) else s
    execWakeSource code s = .next ((t.wakeBy code.val).settle s) := by
  intro t
  have htaken : ¬ (decide (code.val = 0) || s.chg.low.run == .running || (decide (code.val = 4) && s.portFused)) = true := by
    simpa [hrun, hcode] using hport
  refine (if_neg htaken).trans ?_
  simp [t]

theorem execRealTimeAlarm_of_resting (hrun : s.chg.low.run ≠ .running) (halarm : s.chg.low.alarmS ≠ 0) :
    execRealTimeAlarm s =
      .next (((s.atLeast (s.chg.low.enteredAt + s.chg.low.alarmS.toNat * 1000000000)).wakeBy 3).settle s) :=
  if_neg (by simpa [hrun] using halarm)

theorem execCcWakeThreshold_of_over {c : Fin 4} (hrun : s.chg.low.run ≠ .running) (hwakes : s.ccWakes c = true) :
    execCcWakeThreshold c s = .next ((s.wakeBy 5).settle s) :=
  if_neg (by simp [hrun, hwakes])

theorem execWakeComplete_of_waking {chainOk : Bool} (hrun : s.chg.low.run = .waking) (hleft : s.chg.low.record.left = 1)
    (hdie : s.sys.hawk ≠ .off) :
    let a := s.runsAgain.modChg (fun c => { c with ports := c.ports.map (fun p => { p with lastEval := s.clk }) })
    let b := if a.sys.wd.run == .paused then (a.modWd (fun x => { x with run := .running })).wdRestart else a
    let t := (List.finRange 2).foldl (fun u f => u.feedArms f) b
    execWakeComplete chainOk s = .next (((t.chainWakes chainOk).serveHeld).settle s) :=
  if_neg (by simp [hrun, hleft, hdie])

end RestEvents

/-- Settles O27. `exec` of each of these rows is its meaning by definition. -/
theorem lowPowerCommands : Obligations.LowPowerCommands := by
  unfold Obligations.LowPowerCommands
  refine ⟨?_, ?_, ?_, ?_, ?_, ?_, ?_, ?_, ?_⟩
  · exact fun _ _ _ h hlen hflags hzero hlease hrest hsource =>
      execSleepEnter_of_quiet h hlen hflags hzero hlease hrest hsource
  · exact fun _ _ _ h hshape hrest hka hnvm hsource => execDustSheetEnter_of_quiet h hshape hrest hka hnvm hsource
  · exact fun _ hrun => execLowPowerStateReached_of_enteringSleep hrun
  · exact fun _ hrun => execLowPowerStateReached_of_enteringDustSheet hrun
  · exact fun _ _ hcode hrun hport => execWakeSource_of_resting hcode hrun hport
  · exact fun _ hrun halarm => execRealTimeAlarm_of_resting hrun halarm
  · exact fun _ _ hrun hwakes => execCcWakeThreshold_of_over hrun hwakes
  · exact fun _ _ hrun hleft hdie => execWakeComplete_of_waking hrun hleft hdie
  · exact fun _ _ h hlen => execWake_of_ready h hlen

end Sys2Proof.Machine
end

section
/-! Bus feeds (07 R196 to R209, R215 to R217): what each row does, by its outcome. -/

namespace Sys2Proof.Machine

/-! ### Evaluation (07 R199) -/

section FeedRows

variable {f : Fin 2} {s : State}

theorem execFeedEvaluation_of_awake {okA okB : Bool} {inputs : List (Fin 20 × List Capture)}
    (hrun : s.sys.hawk = .running) (hawake : s.awake = true) :
    execFeedEvaluation okA okB inputs s = .next ((((((s.takeInputs inputs).trackClosing).evaluateFeed 0 okA).evaluateFeed 1
      okB).checkInputs).settle s) :=
  if_neg (by simp [hrun, hawake])

/-! ### Over-current and the reverse comparator (07 R203, R205, R206) -/

theorem execFeedOvercurrentTrip_of_beyond {bits : List Capture} (hlive : (s.feed f).live = true)
    (hover : (s.feed f).overcurrent (s.feedRaw f bits) = true) :
    execFeedOvercurrentTrip f bits s = .next (s.feedTrip f 1) :=
  if_pos (by simp [hlive, hover])

theorem execFeedOvercurrentTrip_of_kept {bits : List Capture}
    (hkept : (s.feed f).live = false ∨ (s.feed f).overcurrent (s.feedRaw f bits) = false) :
    execFeedOvercurrentTrip f bits s = .next s :=
  if_neg (ne_true_of_eq_false (Bool.and_eq_false_iff.mpr hkept))

/-- The trip of the same step goes first (07 R203). -/
theorem execFeedReverseTurnOff_of_firing {bits : List Capture} (hrun : (s.feed f).run = .on ∨ (s.feed f).run = .gate)
    (hfires : s.reverse f (s.feedRaw f bits) = true) :
    let t := s.modFeed f (Feed.compare s.clk true)
    execFeedReverseTurnOff f bits s = .next (if (s.feed f).live && (s.feed f).overcurrent (s.feedRaw f bits) then t.feedTrip f 1
      else (t.feedTo f .blocking (some 5)).trackClosing) := by
  intro t
  have hblocks : (true && ((s.feed f).run == .on || (s.feed f).run == .gate)) = true := by simpa using hrun
  simp only [execFeedReverseTurnOff, hfires, hblocks, if_true, t]
  split <;> rfl

theorem execFeedReverseTurnOff_of_silent {bits : List Capture} (hsilent : s.reverse f (s.feedRaw f bits) = false)
    (hwithin : (s.feed f).overcurrent (s.feedRaw f bits) = false) :
    execFeedReverseTurnOff f bits s = .next (s.modFeed f (Feed.compare s.clk false)) := by
  simp only [execFeedReverseTurnOff, hsilent, hwithin, Bool.and_false, Bool.false_and, Bool.false_eq_true, if_false]

/-! ### The ends of BLOCKING and of a retry wait (07 R204, R206) -/

theorem execFeedBlockingRearm_of_silent {c : Nanos} (hrun : (s.trackClosing.feed f).run = .blocking)
    (hclosable : (s.trackClosing.feed f).closable = some c) (hsilent : (s.trackClosing.feed f).revFires = false) :
    let t := s.trackClosing
    execFeedBlockingRearm f s = .next ((((t.atLeast (max c (t.feed f).silentSince +
      bitsOf (s.held (fdId f 7)) 23 16 * 10000)).feedTo f .gate none).checkInputs).settle s) := by
  simp only [execFeedBlockingRearm, hclosable]
  exact if_neg (by simp [hrun, hsilent])

theorem execFeedBlockTimeout_of_blocking (hrun : (s.feed f).run = .blocking) :
    execFeedBlockTimeout f s = .next ((s.atLeast ((s.feed f).since +
      bitsOf (s.held (fdId f 7)) 31 24 * 1000000)).feedTo f .window (some 6)) :=
  if_neg (by simp [hrun])

theorem execFeedRetryWaitEnd_of_enabled (hrun : (s.feed f).run = .tripped) (hwait : (s.feed f).retryEnd ≠ 0)
    (hen : s.feedEn f = true) :
    execFeedRetryWaitEnd f s = .next ((s.atLeast (s.feed f).retryEnd).feedTo f .window none) :=
  (if_neg (by simp [hrun, hwait])).trans (if_pos hen)

/-! ### What ends ON, and what follows it (07 R202, R204, R207) -/

theorem execFeedBusOv_of_on {t0 : Nanos} (hov : (s.feed f).ovSince = some t0) (hrun : (s.feed f).run = .on) :
    execFeedBusOv f s = .next ((s.atLeast (t0 + 1000000)).feedTo f .window (some 4)) := by
  simp [execFeedBusOv, hov, hrun]

theorem execFeedSwitchLost_of_on {t0 : Nanos} (hlost : (s.feed f).okLostSince = some t0) (hrun : (s.feed f).run = .on) :
    execFeedSwitchLost f s = .next ((s.atLeast (t0 + 1000000)).feedTrip f 3) := by
  simp [execFeedSwitchLost, hlost, hrun]

theorem execFeedPgDelayExpiry_of_on (hrun : (s.feed f).run = .on) (hpg : (s.feed f).pg = false) :
    let t := (s.atLeast ((s.feed f).since + s.held (fdId f 8) * 1000000)).modFeed f (fun y => { y with pg := true })
    execFeedPgDelayExpiry f s = .next (if s.bus.busPg then t else (t.modBus (fun b => { b with busPg := true })).raise 79) :=
  if_neg (by simp [hrun, hpg])

theorem execFeedRetryClear_of_on (hrun : (s.feed f).run = .on) :
    execFeedRetryClear f s = .next ((s.atLeast ((s.feed f).since +
      bitsOf (s.held (fdId f 9)) 31 16 * 1000000000)).modFeed f (fun y => { y with retries := 0 })) :=
  if_neg (by simp [hrun])

end FeedRows

/-- Settles O28. `exec` of each of these rows, and the evaluation of one feed, is its meaning by definition. -/
theorem feedEvents : Obligations.FeedEvents := by
  unfold Obligations.FeedEvents
  refine ⟨?_, ?_, ?_, ?_, ?_, ?_, ?_, ?_, ?_, ?_, ?_, ?_, ?_⟩
  · exact fun _ _ _ _ hrun hawake => execFeedEvaluation_of_awake hrun hawake
  · exact fun _ _ _ => rfl
  · exact fun _ _ _ hlive hover => execFeedOvercurrentTrip_of_beyond hlive hover
  · exact fun _ _ _ hkept => execFeedOvercurrentTrip_of_kept hkept
  · exact fun _ _ _ hrun hfires => execFeedReverseTurnOff_of_firing hrun hfires
  · exact fun _ _ _ hsilent hwithin => execFeedReverseTurnOff_of_silent hsilent hwithin
  · exact fun _ _ _ hrun hclosable hsilent => execFeedBlockingRearm_of_silent hrun hclosable hsilent
  · exact fun _ _ hrun => execFeedBlockTimeout_of_blocking hrun
  · exact fun _ _ hrun hwait hen => execFeedRetryWaitEnd_of_enabled hrun hwait hen
  · exact fun _ _ _ hov hrun => execFeedBusOv_of_on hov hrun
  · exact fun _ _ _ hlost hrun => execFeedSwitchLost_of_on hlost hrun
  · exact fun _ _ hrun hpg => execFeedPgDelayExpiry_of_on hrun hpg
  · exact fun _ _ hrun => execFeedRetryClear_of_on hrun

end Sys2Proof.Machine
end

section
/-! The opcodes of feeds and contactors (07 R214 to R218), one lemma for each outcome. -/

namespace Sys2Proof.Machine

/-- A payload that names one object is one byte long. -/
theorem len_one_of_payload {p : List Byte} {n : Nat} (h : p = [BitVec.ofNat 8 n]) : len 1 p = none :=
  len_none.mpr (congrArg List.length h)

/-! ### The feed opcodes (07 R215 to R217) -/

section FeedOpcodes

variable {r : Req} {f : Fin 2} {s : State}

theorem execFeedStatus_of_mask (h : Ready 0x0701 observe r s) (hlen : r.payload.length = 1) (hmask : numAt r.payload 0 1 < 4) :
    execFeedStatus r s = .next (s.complete r 0x0701
      (done (((List.finRange 2).filter (fun f => bitAt (numAt r.payload 0 1) f.val)).map (fun f =>
        leBytes 1 f.val ++ zeros 3 ++ leBytes 4 (s.feed f).stateWord ++ leBytes 4 (s.feedStatusWord f) ++
          leBytes 4 (fitS 32 (s.feedI f)))).flatten)) :=
  h.next_ok (len_none.mpr hlen) (if_neg (Nat.not_le.mpr hmask))

/-- Only the arming of a feed that was LOCKED_OUT is audited (07 R216). -/
theorem execFeedArm_of_resting (h : Ready 0x0702 control r s) (hp : r.payload = [BitVec.ofNat 8 f.val])
    (hlease : s.holdsLease r.owner = true) (hen : s.feedEn f = true)
    (hrun : (s.feed f).run = .open_ ∨ (s.feed f).run = .held ∨ (s.feed f).run = .tripped ∨ (s.feed f).run = .lockedOut) :
    let t := (s.feedTo f .window none).modFeed f (fun y => { y with retries := 0 })
    execFeedArm r s =
      .next ((if (s.feed f).run = .lockedOut then t.auditReq r 0x0702 done else t).complete r 0x0702 done) := by
  intro t
  refine h.next_ok (len_one_of_payload hp) ?_
  simp only [State.needLease_holds hlease, named_of_payload (by decide) hp, hen]
  obtain hr | hr | hr | hr := hrun <;> simp [hr, t]

theorem execFeedOpen_of_free (h : Ready 0x0703 control r s) (hp : r.payload = [BitVec.ofNat 8 f.val])
    (hlease : s.holdsLease r.owner = true) (hlast : s.lastFeed f = false) (hfree : (s.feed f).openReq = none) :
    execFeedOpen r s = .next (if (s.groupsOfFeed f).isEmpty then (s.feedTo f .held (some 8)).complete r 0x0703 done
      else (s.modFeed f (fun x => { x with
        opening := .removing (BitVec.ofNat 8 ((s.groupsOfFeed f).map (fun g => 2 ^ g.val)).sum), openReq := some r
        retryEnd := 0 })).park r 0x0703) := by
  by_cases hnamed : (s.groupsOfFeed f).isEmpty = true
  · rw [if_pos hnamed]
    refine h.next_ok (len_one_of_payload hp) ?_
    simp [State.needLease_holds hlease, named_of_payload (by decide) hp, hlast, hfree, hnamed]
  · rw [if_neg hnamed]
    refine h.next_wait (len_one_of_payload hp) ?_
    simp [State.needLease_holds hlease, named_of_payload (by decide) hp, hlast, hfree, hnamed]

end FeedOpcodes

/-! ### The contactor opcodes (07 R214, R218) -/

section ContactorOpcodes

variable {r : Req} {p : Fin 4} {g : Fin 8} {s : State}

theorem execContactorStatus_of_mask (h : Ready 0x0704 observe r s) (hlen : r.payload.length = 1)
    (hmask : numAt r.payload 0 1 < 16) :
    execContactorStatus r s = .next (s.complete r 0x0704
      (done (((List.finRange 4).filter (fun p => bitAt (numAt r.payload 0 1) p.val)).map (fun p =>
        leBytes 1 p.val ++ zeros 3 ++ leBytes 4 (s.cont p).word)).flatten)) :=
  h.next_ok (len_none.mpr hlen) (if_neg (Nat.not_le.mpr hmask))

theorem execContactorClose_of_open (h : Ready 0x0705 control r s) (hp : r.payload = [BitVec.ofNat 8 p.val])
    (hlease : s.holdsLease r.owner = true) (hwelded : (s.cont p).welded = false) (hrun : (s.cont p).run = .open_)
    (hgroup : s.prechargingGroup p = some g) :
    execContactorClose r s = .next (((s.prechargeBy p g .precharging).complete r 0x0705 done).settle s) := by
  refine h.settle_ok (len_one_of_payload hp) ?_
  simp [State.needLease_holds hlease, named_of_payload (by decide) hp, hwelded, hrun, hgroup]

/-- An opening under way and a weld test stand (SPEC.md, log 62). -/
theorem execContactorOpen_of_unpowered (h : Ready 0x0706 control r s) (hp : r.payload = [BitVec.ofNat 8 p.val])
    (hlease : s.holdsLease r.owner = true) (hunpowered : (s.groupsOfPort p).any (fun g => (s.group g).mode.isPower) = false) :
    let t := s.modCont p (fun x => { x with autoDone := true })
    execContactorOpen r s = .next (((match (s.cont p).run with
      | .open_ | .opening | .weldTest => t
      | .precharging => (t.freeGroup p).contTo p .open_ none
      | .closing => (t.freeGroup p).startOpening p true
      | .closed => t.startOpening p true
      | .fault => t.contTo p .open_ none).complete r 0x0706 done).settle s) := by
  intro t
  refine h.settle_ok (len_one_of_payload hp) ?_
  simp only [State.needLease_holds hlease, named_of_payload (by decide) hp, hunpowered, Bool.false_eq_true, if_false]
  cases (s.cont p).run <;> rfl

theorem execContactorWeldTest_of_open (h : Ready 0x0707 service r s) (hp : r.payload = [BitVec.ofNat 8 p.val])
    (hrun : (s.cont p).run = .open_) (hbatt : s.battUnknown p = false) (hgroup : s.prechargingGroup p = some g) :
    execContactorWeldTest r s =
      .next ((((s.modCont p (fun x => { x with waiting := some r })).startWeldTest p g).park r 0x0707).settle s) := by
  refine h.settle_wait (len_one_of_payload hp) ?_
  simp [named_of_payload (by decide) hp, hrun, hbatt, hgroup]

theorem execContactorWeldClear_of_open (h : Ready 0x0708 service r s) (hp : r.payload = [BitVec.ofNat 8 p.val])
    (hrun : (s.cont p).run = .open_ ∨ (s.cont p).run = .fault) (hfb : (s.cont p).fb = false) :
    execContactorWeldClear r s = .next (((s.modCont p (fun y => { y with welded := false })).raiseIf
      (s.cont p).welded 78).complete r 0x0708 done) := by
  refine h.next_ok (len_one_of_payload hp) ?_
  obtain hr | hr := hrun <;> simp [named_of_payload (by decide) hp, hr, hfb]

end ContactorOpcodes

/-- Settles O29. `exec` of each of these opcodes is its meaning by definition. -/
theorem feedAndContactorCommands : Obligations.FeedAndContactorCommands := by
  unfold Obligations.FeedAndContactorCommands
  refine ⟨?_, ?_, ?_, ?_, ?_, ?_, ?_, ?_⟩
  · exact fun _ _ h hlen hmask => execFeedStatus_of_mask h hlen hmask
  · exact fun _ _ _ h hp hlease hen hrun => execFeedArm_of_resting h hp hlease hen hrun
  · exact fun _ _ _ h hp hlease hlast hfree => execFeedOpen_of_free h hp hlease hlast hfree
  · exact fun _ _ h hlen hmask => execContactorStatus_of_mask h hlen hmask
  · exact fun _ _ _ _ h hp hlease hwelded hrun hgroup => execContactorClose_of_open h hp hlease hwelded hrun hgroup
  · exact fun _ _ _ h hp hlease hunpowered => execContactorOpen_of_unpowered h hp hlease hunpowered
  · exact fun _ _ _ _ h hp hrun hbatt hgroup => execContactorWeldTest_of_open h hp hrun hbatt hgroup
  · exact fun _ _ _ h hp hrun hfb => execContactorWeldClear_of_open h hp hrun hfb

end Sys2Proof.Machine
end

section
/-! Precharge and the transitions of a contactor (07 R211 to R214, R218): what each row does, by its outcome. -/

namespace Sys2Proof.Machine

section ContactorRows

variable {p : Fin 4} {g : Fin 8} {s : State}

/-! ### Precharge (07 R211, R213) -/

theorem execContactorAutoPrecharge_of_auto (hrun : (s.cont p).run = .open_) (hauto : (s.cont p).autoDone = false)
    (hwelded : (s.cont p).welded = false) (hen : bitAt (s.param (ctId p 0)) 0 = true)
    (hset : bitAt (s.param (ctId p 0)) 1 = true) (hserving : s.serving = true) (hgroup : s.prechargingGroup p = some g) :
    execContactorAutoPrecharge p s = .next ((s.prechargeBy p g .precharging).settle s) := by
  refine (if_neg (by simp [hrun, hauto, hwelded, hen, hset, hserving])).trans ?_
  simp only [hgroup]

/-- A contactor's own precharge leads to CLOSING. -/
theorem execPrechargeComplete_of_contactor (hmatch : s.matchedGroup p = some g) (hrun : (s.cont p).run = .precharging)
    (hgroup : (s.cont p).group = some g) :
    execPrechargeComplete p s = .next ((((((s.atLeast (((s.group g).matchSince).getD 0 + 5000000)).modCont p
      (fun x => { x with coil := true })).contTo p .closing none).contFeedback p)).settle s) := by
  simp only [execPrechargeComplete, hmatch]
  exact if_pos (by simp [hrun, hgroup])

/-- A precharge that is not the one the port's contactor waits for ends with its group in STANDBY. -/
theorem execPrechargeComplete_of_group (hmatch : s.matchedGroup p = some g)
    (hother : ¬ ((s.cont p).run = .precharging ∧ (s.cont p).group = some g)) :
    execPrechargeComplete p s =
      .next (((s.atLeast (((s.group g).matchSince).getD 0 + 5000000)).endPrecharge g).settle s) := by
  simp only [execPrechargeComplete, hmatch]
  exact if_neg (by simpa using hother)

theorem execPrechargeTimeout_of_open (hopen : (s.groupsOfPort p).find? s.prechargeOpen = some g) :
    execPrechargeTimeout p s = .next (((s.atLeast (s.prechargeSince g +
      bitsOf (s.param (ctId p 1)) 31 24 * 10000000)).prechargeFails g 1).settle s) := by
  simp only [execPrechargeTimeout, hopen]

/-! ### The feedback and its time-outs (07 Table 7-19) -/

theorem execContactorFeedbackChange_of_change {closed : Bool} (hchange : (s.cont p).fb ≠ closed) :
    execContactorFeedbackChange p closed s =
      .next (((s.modCont p (fun x => { x with fb := closed, fbSince := s.clk })).contFeedback p).settle s) :=
  if_neg (by simpa using hchange)

theorem execContactorCloseTimeout_of_closing (hrun : (s.cont p).run = .closing) :
    execContactorCloseTimeout p s = .next (((((s.atLeast ((s.cont p).since +
      bitsOf (s.param (ctId p 0)) 15 8 * 2000000)).release p).freeGroup p).contTo p .fault (some 2)).settle s) :=
  if_neg (by simp [hrun])

theorem execContactorOpenTimeout_of_opening (hrun : (s.cont p).run = .opening) (hfb : (s.cont p).fb = true) :
    execContactorOpenTimeout p s = .next (((s.atLeast ((s.cont p).since +
      bitsOf (s.param (ctId p 0)) 23 16 * 2000000)).weld p).contTo p .fault (some 4)) :=
  (if_neg (by simp [hrun])).trans (if_neg (by simp [hfb]))

theorem execContactorDropped_of_closed (hrun : (s.cont p).run = .closed) (hfb : (s.cont p).fb = false) :
    let t := ((s.atLeast (max (s.cont p).since (s.cont p).fbSince + 10000000)).release p).contTo p .fault (some 3)
    execContactorDropped p s = .next (((t.groupsOfPort p).foldl (fun u g => u.evalReady g) t).settle s) :=
  if_neg (by simp [hrun, hfb])

/-! ### The weld test (07 R218) -/

theorem execWeldTestTimeout_of_testing (hrun : (s.cont p).run = .weldTest) :
    let q := s.atLeast ((s.cont p).since + bitsOf (s.param (ctId p 2)) 15 8 * 1000000)
    execWeldTestTimeout p s = .next ((q.endTest p (q.testMoved p)).settle s) :=
  if_neg (by simp [hrun])

end ContactorRows

/-- Settles O30. `exec` of each of these rows, and the end of a weld test, is its meaning by definition. -/
theorem contactorAndPrechargeEvents : Obligations.ContactorAndPrechargeEvents := by
  unfold Obligations.ContactorAndPrechargeEvents
  refine ⟨?_, ?_, ?_, ?_, ?_, ?_, ?_, ?_, ?_⟩
  · exact fun _ _ _ hrun hauto hwelded hen hset hserving hgroup =>
      execContactorAutoPrecharge_of_auto hrun hauto hwelded hen hset hserving hgroup
  · exact fun _ _ _ hmatch hrun hgroup => execPrechargeComplete_of_contactor hmatch hrun hgroup
  · exact fun _ _ _ hmatch hother => execPrechargeComplete_of_group hmatch hother
  · exact fun _ _ _ hopen => execPrechargeTimeout_of_open hopen
  · exact fun _ _ _ hchange => execContactorFeedbackChange_of_change hchange
  · exact fun _ _ hrun => execContactorCloseTimeout_of_closing hrun
  · exact fun _ _ hrun hfb => execContactorOpenTimeout_of_opening hrun hfb
  · exact fun _ _ hrun hfb => execContactorDropped_of_closed hrun hfb
  · exact fun _ _ hrun => execWeldTestTimeout_of_testing hrun

end Sys2Proof.Machine
end

section
/-! Coulomb channels (08 R243, R245): what a tick of an invalid stream does. -/

namespace Sys2Proof.Machine

section CoulombRows

variable {c k : Fin 4} {d : Int} {s : State}

theorem State.ccInvalid_iff : s.ccInvalid c = true ↔ (s.meas.cc[c.val]).stuck = true ∨ s.meas.ccClkLost = true := by
  simp [State.ccInvalid, or_comm]

@[simp] theorem State.raiseIf_meas (b : Bool) (n : Nat) : (s.raiseIf b n).meas = s.meas := by
  cases b <;> rfl
@[simp] theorem State.raiseIf_conv (b : Bool) (n : Nat) : (s.raiseIf b n).conv = s.conv := by
  cases b <;> rfl
@[simp] theorem State.raiseIf_bus (b : Bool) (n : Nat) : (s.raiseIf b n).bus = s.bus := by
  cases b <;> rfl
@[simp] theorem State.raiseIf_host (b : Bool) (n : Nat) : (s.raiseIf b n).host = s.host := by
  cases b <;> rfl
theorem State.raiseIf_irq (b : Bool) (n : Nat) :
    (s.raiseIf b n).sys.irq = if b then s.sys.irq.modSrc n IrqSource.raise else s.sys.irq := by
  cases b <;> rfl

@[simp] theorem State.modMeas_cc_self (f : Coulomb → Coulomb) :
    (s.modMeas (fun m => { m with cc := vmod m.cc c f })).meas.cc[c.val] = f s.meas.cc[c.val] := by
  simp [vmod]
theorem State.modMeas_cc_ne (h : k ≠ c) (f : Coulomb → Coulomb) :
    (s.modMeas (fun m => { m with cc := vmod m.cc c f })).meas.cc[k.val] = s.meas.cc[k.val] := by
  have hne : c.val ≠ k.val := fun e => h (Fin.ext e.symm)
  simp [vmod, hne]

/-- What a tick at which the stream is invalid makes of its channel (08 R245). -/
def Coulomb.gapTick (time : U64) (clk release : Nanos) (x : Coulomb) : Coulomb :=
  { x with
    tick := 0, gapTicks := satInc x.gapTicks, inGap := true, time := time, tickAt := clk
    iTick := divQ ((0 : Int) * 1000 : Int) (clk - max x.tickAt release : Nat) }

theorem State.ccTick_of_invalid (hen : bitAt (s.held (0x0B6C + c.val)) 0 = true) (hinvalid : s.ccInvalid c = true) :
    s.ccTick c d = (s.modMeas (fun m => { m with
      cc := vmod m.cc c (Coulomb.gapTick (BitVec.ofNat 64 s.now) s.clk s.power.releaseAt) })).raiseIf
        (!(s.meas.cc[c.val]).inGap) (92 + c.val) :=
  (if_neg (by simp [hen])).trans (if_pos hinvalid)

end CoulombRows

/-- Settles O54: such a tick only counts in GAP_TICKS and marks the gap, and raises the channel's source where it opens the gap. -/
theorem invalidTickAddsNothing : Obligations.InvalidTickAddsNothing := by
  unfold Obligations.InvalidTickAddsNothing
  intro c d s hen hinvalid x t y
  have ht : t = _ := State.ccTick_of_invalid hen (State.ccInvalid_iff.mpr hinvalid)
  have hy : y = x.gapTick (BitVec.ofNat 64 s.now) s.clk s.power.releaseAt := by
    simp only [y, ht, State.raiseIf_meas, State.modMeas_cc_self, x]
  have hirq : t.sys.irq = if x.inGap then s.sys.irq else s.sys.irq.modSrc (92 + c.val) IrqSource.raise := by
    rw [ht, State.raiseIf_irq]
    cases x.inGap <;> rfl
  have hother : ∀ k : Fin 4, k ≠ c → t.meas.cc[k.val] = s.meas.cc[k.val] := by
    intro k hk
    simp only [ht, State.raiseIf_meas, State.modMeas_cc_ne hk]
  rw [hy]
  exact ⟨rfl, rfl, rfl, rfl, rfl, rfl, rfl, rfl, rfl, rfl, hirq, hother, by simp [ht], by simp [ht], by simp [ht]⟩

end Sys2Proof.Machine
end

section
/-! Housekeeping, self-calibration, sequences and board calibration (08 R221 to R233): what each row does, by its outcome. -/

namespace Sys2Proof.Machine

/-! ### What changes nothing of the measurement part -/

theorem foldl_meas {α : Type} {l : List α} {f : State → α → State} (hf : ∀ t a, (f t a).meas = t.meas) (s : State) :
    (l.foldl f s).meas = s.meas :=
  List.foldlRecOn (motive := fun t => t.meas = s.meas) l f rfl (fun t ht a _ => (hf t a).trans ht)

theorem State.followTherm_meas (p : Fin 64) (s : State) : (s.followTherm p).meas = s.meas := by
  rw [State.followTherm_eq]
  split
  · rfl
  · split <;> rfl

@[simp] theorem State.refreshThermal_meas (s : State) : s.refreshThermal.meas = s.meas :=
  foldl_meas (fun t p => State.followTherm_meas p t) s

@[simp] theorem State.checkPg_meas (s : State) : s.checkPg.meas = s.meas := by
  unfold State.checkPg
  split <;> rfl

theorem State.feedTo_meas (f : Fin 2) (run : FeedRun) (cause : Option Nat) (s : State) :
    (s.feedTo f run cause).meas = s.meas := by
  simp [State.feedTo]

/-- An armed feed may leave OPEN; nothing measured changes with it. -/
theorem ite_feedTo_meas {c : Prop} [Decidable c] (f : Fin 2) (run : FeedRun) (cause : Option Nat) (s : State) :
    (if c then s.feedTo f run cause else s).meas = s.meas := by
  split
  · exact State.feedTo_meas f run cause s
  · rfl

theorem State.calEnded_meas (s : State) : s.calEnded.meas = s.meas := by
  unfold State.calEnded
  split
  · rfl
  · exact foldl_meas (fun t f => ite_feedTo_meas f .window none t) _

section ConverterRows

variable {k : Fin 2} {i : Fin 16} {s : State}

@[simp] theorem State.refreshThermal_adc (j : Fin 2) : s.refreshThermal.adc j = s.adc j := by
  simp [State.adc]

@[simp] theorem State.startPending_adc (j : Fin 2) : (s.startPending k).adc j = s.adc j := by
  unfold State.startPending
  dsimp only
  split
  · rfl
  · split <;> rfl

@[simp] theorem State.modMeas_convs_adc_self (f : Converter → Converter) :
    (s.modMeas (fun m => { m with convs := vmod m.convs k f })).adc k = f (s.adc k) := by
  simp [State.adc, vmod]

theorem converter_ne_other (k : Fin 2) : k ≠ 1 - k := by
  revert k; decide

@[simp] theorem State.modMeas_convs_adc_other (f : Converter → Converter) :
    (s.modMeas (fun m => { m with convs := vmod m.convs k f })).adc (1 - k) = s.adc (1 - k) := by
  have hne : k.val ≠ (1 - k).val := fun e => converter_ne_other k (Fin.ext e)
  simp [State.adc, vmod, hne]

/-- A test on both converters, by one of them and the other. -/
theorem any_converters (k : Fin 2) (p : Fin 2 → Bool) : (List.finRange 2).any p = (p k || p (1 - k)) := by
  have h : List.finRange 2 = [0, 1] := rfl
  rw [h, List.any_cons, List.any_cons, List.any_nil, Bool.or_false]
  match k with
  | 0 => rfl
  | 1 => exact Bool.or_comm (p 0) (p 1)

/-! ### Housekeeping (08 R221) -/

theorem execHousekeepingRun_of_idle {readings : List (U16 × Reading)} {amps : List Reading} (hcal : (s.adc k).cal ≠ .running) :
    let d := housekeepingDue k s.now
    let start := match (s.adc k).housekeeping with | some h => if d ≤ h then h + 1000000 else d | none => d
    let times := slotTimes (s.runSpans k) 16 start
    let t := (s.atDevice ((times.getLast?).getD start + 500)).modMeas (fun m => { m with
      convs := vmod m.convs k (fun x => { x with housekeeping := some start }) })
    let u := (((readings.take 16).zip times).zipIdx.foldl (fun t e => t.convert (48 + e.2) e.1.1 e.1.2) t).spread amps
    execHousekeepingRun k readings amps s = .next ((match readings[2]? with
      | some r => u.checkBandgap k r.2
      | none => u).recal) :=
  if_neg (by simpa using hcal)

/-! ### Self-calibration (08 R232) -/

/-- A converter after an attempt that ends at device time `now`: the calibration is good, its second attempt begins, or it
has failed (08 R232). -/
def Converter.attemptEnds (good : Bool) (now : Nat) (x : Converter) : Converter :=
  if good then { x with cal := .good, attempt := 0, failed := false, bandgap := none, calEnd := now }
  else if x.attempt = 0 then { x with cal := .running, attempt := 1 }
  else { x with cal := .failed, attempt := 0, failed := true, calEnd := now }

/-- The state in which converter k has ended an attempt. -/
def State.attemptEnds (k : Fin 2) (good : Bool) (s : State) : State :=
  s.modMeas (fun m => { m with convs := vmod m.convs k (Converter.attemptEnds good s.now) })

/-- A sequence that waited for the converter starts once it no longer calibrates. -/
def State.afterAttempt (k : Fin 2) (good : Bool) (s : State) : State :=
  let t := s.attemptEnds k good
  (if !good && decide ((s.adc k).attempt = 0) then t else t.startPending k).refreshThermal

theorem Converter.attemptEnds_running (good : Bool) (now : Nat) (x : Converter) :
    ((x.attemptEnds good now).cal == .running) = (!good && decide (x.attempt = 0)) := by
  cases good
  · by_cases h : x.attempt = 0 <;> simp [Converter.attemptEnds, h]
  · rfl

theorem State.afterAttempt_adc (good : Bool) (j : Fin 2) : (s.afterAttempt k good).adc j = (s.attemptEnds k good).adc j := by
  unfold State.afterAttempt
  dsimp only
  rw [State.refreshThermal_adc]
  split
  · rfl
  · exact State.startPending_adc j

theorem State.afterAttempt_adc_self (good : Bool) : (s.afterAttempt k good).adc k = (s.adc k).attemptEnds good s.now := by
  rw [State.afterAttempt_adc, State.attemptEnds, State.modMeas_convs_adc_self]

theorem State.afterAttempt_adc_other (good : Bool) : (s.afterAttempt k good).adc (1 - k) = s.adc (1 - k) := by
  rw [State.afterAttempt_adc, State.attemptEnds, State.modMeas_convs_adc_other]

theorem State.afterAttempt_eq (good : Bool) :
    s.afterAttempt k good = (if ((s.attemptEnds k good).adc k).cal == .running then s.attemptEnds k good
      else (s.attemptEnds k good).startPending k).refreshThermal := by
  have hself : (((s.attemptEnds k good).adc k).cal == .running) = (!good && decide ((s.adc k).attempt = 0)) := by
    rw [State.attemptEnds, State.modMeas_convs_adc_self, Converter.attemptEnds_running]
  rw [hself]
  rfl

/-- With the other converter still calibrating, MEAS_CALIBRATE waits on. -/
theorem execSelfCalibrationComplete_of_otherRunning {good : Bool} (hrun : (s.adc k).cal = .running)
    (hother : (s.adc (1 - k)).cal = .running) :
    execSelfCalibrationComplete k good s = .next (s.afterAttempt k good) := by
  have hbusy : (List.finRange 2).any (fun j =>
      ((s.afterAttempt k good).adc j).cal == .running || ((s.afterAttempt k good).adc j).cal == .never) = true := by
    rw [any_converters k, State.afterAttempt_adc_other, hother]
    exact Bool.or_true _
  rw [State.afterAttempt_eq] at hbusy ⊢
  exact (if_neg (by simp [hrun])).trans (if_pos hbusy)

/-- The calibration has ended: its temperature is kept, and no command waits for it any more. -/
def State.calTaken (temp : Int) (s : State) : State :=
  (s.modMeas (fun m => { m with calTemp := temp, selfCal := none })).calEnded

theorem State.calTaken_adc (temp : Int) (j : Fin 2) : (s.calTaken temp).adc j = s.adc j := by
  simp only [State.calTaken, State.adc, State.calEnded_meas, State.modMeas_meas]

/-- With both converters good, a waiting MEAS_CALIBRATE ends. -/
theorem execSelfCalibrationComplete_of_otherGood {r : Req} (hrun : (s.adc k).cal = .running)
    (hother : (s.adc (1 - k)).cal = .good) (hwaits : s.meas.selfCal = some r) :
    execSelfCalibrationComplete k true s =
      .next (((s.afterAttempt k true).calTaken (s.chan 48).result).complete r 0x0804 done) := by
  have hself : ((s.afterAttempt k true).adc k).cal = .good := by
    rw [State.afterAttempt_adc_self]
    rfl
  have hidle : (List.finRange 2).any (fun j =>
      ((s.afterAttempt k true).adc j).cal == .running || ((s.afterAttempt k true).adc j).cal == .never) = false := by
    rw [any_converters k, State.afterAttempt_adc_other, hself, hother]
    rfl
  have hgood : (List.finRange 2).any (fun j =>
      (((s.afterAttempt k true).calTaken (s.chan 48).result).adc j).cal == .failed) = false := by
    rw [any_converters k, State.calTaken_adc, State.calTaken_adc, State.afterAttempt_adc_other, hself, hother]
    rfl
  rw [State.afterAttempt_eq] at hidle hgood ⊢
  refine (if_neg (by simp [hrun])).trans ((if_neg (ne_true_of_eq_false hidle)).trans ?_)
  rw [hwaits]
  exact congrArg _ (if_neg (ne_true_of_eq_false hgood))

/-! ### Sequences (08 R226, R227, R229) -/

theorem execSequenceTrigger_of_period (hi : i.val < s.nSeq) (hkind : s.seqByte i.val 1 = 1) :
    let p := 1000 * max 1 (s.seqNum (1288 + 40 * i.val) 4)
    execSequenceTrigger i s = .next ((s.atLeast (s.clk + (p - s.now % p) % p)).trigger i) := by
  refine (if_neg (Nat.not_le.mpr hi)).trans ?_
  rw [hkind]
  rfl

theorem execSequenceTrigger_of_group (hi : i.val < s.nSeq) (hkind : s.seqByte i.val 1 = 2) :
    let w := s.seqNum (1288 + 40 * i.val) 4
    let x := s.group (Fin.ofNat 8 (bitsOf w 2 0))
    x.period % (bitsOf w 15 8 + 1) = 0 →
    execSequenceTrigger i s =
      .next ((s.atDevice ((x.periodStart + bitsOf w 31 16 * x.periodLen / 65536) / 16)).trigger i) := by
  intro w x hdue
  refine (if_neg (Nat.not_le.mpr hi)).trans ?_
  rw [hkind]
  exact if_neg (not_not_intro hdue)

theorem execSequenceRunComplete_of_running {codes : List (U16 × Reading)} (hrun : (s.meas.seqs[i.val]).run = 2) :
    let x := s.meas.seqs[i.val]
    let cs := s.seqChannels i.val
    let k := s.seqAdc i.val
    let u := ((cs.zip codes).zipIdx.filter (fun e => !(s.adc k).holds (x.start + 500 * e.2))).foldl
      (fun t e => t.convert e.1.1 e.1.2 (x.start + 500 * e.2)) (s.atDevice (x.start + 500 * cs.length))
    let v := if bitAt (s.seqByte i.val 3) 0 then u.emit .adc (.capture (1 + 256 * i.val)) (u.captureRec i) else u
    let w := v.modSeq i (fun y => { y with run := 0, runs := y.runs + 1#32 })
    let w := if (List.finRange 16).any (fun j => (w.meas.seqs[j.val]).run == 2) then w
      else w.modMeas (fun m => { m with oldScale := [] })
    execSequenceRunComplete i codes s = .next ((w.startPending k).refreshThermal) :=
  if_neg (by simp [hrun])

theorem execSequenceTableActivation_of_idle (hpending : s.seqPending = true)
    (hruns : s.meas.seqs.toList.any (fun x => x.run != 0) = false)
    (hcal : s.meas.convs.toList.any (fun c => c.cal == .running) = false) :
    let b := s.nextNamed 0x0A (bitsOf (s.param 0x0B74) 7 0)
    let u := s.modMeas (fun m => { m with
      table := b, seqs := Vector.replicate 16 { run := 0, overruns := 0, runs := 0, trigger := 0, start := 0 } })
    let t := if s.meas.table = b then s else (((u.loadComparators 0).loadComparators 1).vsdRecords u.vsdInvalid).refreshThermal
    execSequenceTableActivation s = .next (((t.takeType 0x0A 15).checkInputs).settle s) := by
  intro b u t
  refine (if_neg (by simp [hpending, hruns, hcal])).trans ?_
  simp only [beq_iff_eq, t, u, b]

/-! ### Board calibration (08 R233) -/

section BoardCalibration

variable {c : BoardCal} {sum : Nat} {least most : U16}

theorem execBoardCalibrationComplete_of_spread (hboard : s.meas.board = some c)
    (hbad : (sum : Rat) / 1024 + 64 < (most.toNat : Rat) ∨ (least.toNat : Rat) < (sum : Rat) / 1024 - 64 ∨
      c.mode = 2 ∧ (sum : Rat) / 1024 < 8192) :
    execBoardCalibrationComplete sum least most s =
      .next ((s.modMeas (fun m => { m with board := none })).finish c.req 0x0804 ⟨stValue, 0, 0x0103, []⟩) := by
  simp only [execBoardCalibrationComplete, hboard]
  refine if_pos (Bool.or_eq_true_iff.mpr (.inl ?_))
  simpa [or_assoc] using hbad

/-- Mode 1 finds the offset. -/
theorem execBoardCalibrationComplete_of_offset (hboard : s.meas.board = some c) (hmode : c.mode = 1)
    (hmost : (most.toNat : Rat) ≤ (sum : Rat) / 1024 + 64) (hleast : (sum : Rat) / 1024 - 64 ≤ (least.toNat : Rat)) :
    let x : Int := roundQ ((c.volts : Rat) * 65536 / 25000 - s.paramQ (0x0B00 + 2 * c.channel) * ((sum : Rat) / 1024))
    x ≤ 4096 → -4096 ≤ x →
    execBoardCalibrationComplete sum least most s = .next (((s.modMeas (fun m => { m with board := none })).applyItems c.req
      [(0x0B00 + 2 * c.channel + 1, BitVec.ofNat 64 (codeOf 16 x))]).complete c.req 0x0804 done) := by
  intro x hhi hlo
  simp only [execBoardCalibrationComplete, hboard, hmode]
  refine if_neg ?_
  simp [Rat.not_lt.mpr hmost, Rat.not_lt.mpr hleast, hlo, hhi, x]

/-- Mode 2 finds the gain, from readings of at least an eighth of the range. -/
theorem execBoardCalibrationComplete_of_gain (hboard : s.meas.board = some c) (hmode : c.mode = 2)
    (hmost : (most.toNat : Rat) ≤ (sum : Rat) / 1024 + 64) (hleast : (sum : Rat) / 1024 - 64 ≤ (least.toNat : Rat))
    (hmean : 8192 ≤ (sum : Rat) / 1024) :
    let x : Int := roundQ (((c.volts : Rat) * 65536 / 25000 - s.paramI (0x0B00 + 2 * c.channel + 1)) / ((sum : Rat) / 1024) * 65536)
    x ≤ 131072 → 32768 ≤ x →
    execBoardCalibrationComplete sum least most s = .next (((s.modMeas (fun m => { m with board := none })).applyItems c.req
      [(0x0B00 + 2 * c.channel, BitVec.ofNat 64 (codeOf 32 x))]).complete c.req 0x0804 done) := by
  intro x hhi hlo
  have hzero : (sum : Rat) / 1024 ≠ 0 := by
    intro hzero
    rw [hzero] at hmean
    exact absurd hmean (by decide)
  simp only [execBoardCalibrationComplete, hboard, hmode, if_neg hzero, if_neg (show (2 : Nat) ≠ 1 by decide)]
  refine if_neg ?_
  simp [Rat.not_lt.mpr hmost, Rat.not_lt.mpr hleast, Rat.not_lt.mpr hmean, hlo, hhi, x]

end BoardCalibration

end ConverterRows

/-- Settles O31. `exec` of each of these rows is its meaning by definition. -/
theorem converterEvents : Obligations.ConverterEvents := by
  unfold Obligations.ConverterEvents
  refine ⟨?_, ?_, ?_, ?_, ?_, ?_, ?_, ?_, ?_⟩
  · exact fun _ _ _ _ hcal => execHousekeepingRun_of_idle hcal
  · exact fun _ _ _ hrun hother => execSelfCalibrationComplete_of_otherRunning hrun hother
  · exact fun _ _ _ hrun hother hwaits => execSelfCalibrationComplete_of_otherGood hrun hother hwaits
  · exact fun _ _ hi hkind => execSequenceTrigger_of_period hi hkind
  · exact fun _ _ hi hkind => execSequenceTrigger_of_group hi hkind
  · exact fun _ _ _ hrun => execSequenceRunComplete_of_running hrun
  · exact fun _ hpending hruns hcal => execSequenceTableActivation_of_idle hpending hruns hcal
  · intro c sum least most s hboard mean v gid x hmost hleast hfound
    obtain ⟨hmode, hlo, hhi⟩ | ⟨hmode, hmean, hlo, hhi⟩ := hfound
    · simp only [x, hmode, if_true] at hlo hhi ⊢
      exact execBoardCalibrationComplete_of_offset hboard hmode hmost hleast hhi hlo
    · have hgain : c.mode ≠ 1 := by simp [hmode]
      simp only [x, if_neg hgain] at hlo hhi ⊢
      exact execBoardCalibrationComplete_of_gain hboard hmode hmost hleast hmean hhi hlo
  · exact fun _ _ _ _ _ hboard hbad => execBoardCalibrationComplete_of_spread hboard hbad

end Sys2Proof.Machine
end

section
/-! Comparators, isolated inputs and coulomb channels (08 R234 to R245; 16 R448): what each row does, by its outcome. -/

namespace Sys2Proof.Machine

section StreamRows

variable {n : Fin 12} {uv : Nat} {s : State}

/-! ### Comparators (08 R234, R235) -/

theorem execComparatorAssert_of_kept
    (hkept : bitAt (s.param (0x0B60 + n.val)) 20 = false ∨ cmpBeyond (s.param (0x0B60 + n.val)) uv = false) :
    execComparatorAssert n uv s = .next (s.cmpSees n uv) := by
  refine if_pos ?_
  rcases hkept with hoff | hinside
  · simp [hoff]
  · simp [hinside]

theorem execComparatorAssert_of_beyond (hen : bitAt (s.param (0x0B60 + n.val)) 20 = true)
    (hfree : (s.meas.cmps[n.val]).asserted = false) (hbeyond : cmpBeyond (s.param (0x0B60 + n.val)) uv = true)
    (hawake : s.chg.low.run ≠ .dustSheet) :
    let w := s.param (0x0B60 + n.val)
    let t := (((s.cmpSees n uv).cmpQualified n).modCmp n
      (fun y => { y with asserted := true, latched := bitAt w 23 })).raise (80 + n.val)
    let t := (if bitAt w 21 then t.triggerKind 4 (fun par => bitsOf par 3 0 == n.val) else t).refreshThermal
    execComparatorAssert n uv s = .next ((if bitAt w 22 then t.safeState 2 0 else t).settle s) :=
  if_neg (by simp [hen, hfree, hbeyond, hawake])

theorem execComparatorRelease_of_back (hheld : (s.meas.cmps[n.val]).asserted = true)
    (hlatch : bitAt (s.param (0x0B60 + n.val)) 23 = false) (hback : cmpBack (s.param (0x0B60 + n.val)) uv = true)
    (hawake : s.chg.low.run ≠ .dustSheet) :
    execComparatorRelease n uv s = .next (((s.cmpSees n uv).cmpQualified n).cmpRelease n) :=
  if_neg (by simp [hheld, hlatch, hback, hawake])

theorem execComparatorRelease_of_kept
    (hkept : bitAt (s.param (0x0B60 + n.val)) 23 = true ∨ cmpBack (s.param (0x0B60 + n.val)) uv = false) :
    execComparatorRelease n uv s = .next (s.cmpSees n uv) := by
  refine if_pos ?_
  rcases hkept with hlatch | hout
  · simp [hlatch]
  · simp [hout]

/-! ### Isolated inputs and coulomb streams (08 R240 to R242, R245): inputs 0 to 15, and 16 to 19 -/

theorem ofNat_coulombStream (v : Fin 4) : Fin.ofNat 4 (16 + v.val) = v :=
  Fin.ext (by simp [Fin.ofNat]; omega)

theorem execVsdInputInvalid_of_isolated (v : Fin 16) :
    let t := s.modMeas (fun m => { m with vsd := vmod m.vsd v (fun x => { x with stuck := true }) })
    execVsdInputInvalid ⟨v.val, by omega⟩ s =
      .next (((if s.vsdInvalid v.val then t else t.vsdRecord v.val).checkInputs).settle s) := by
  simp [execVsdInputInvalid]

theorem execVsdInputInvalid_of_coulomb (v : Fin 4) :
    execVsdInputInvalid ⟨16 + v.val, by omega⟩ s = .next ((((s.modMeas (fun m => { m with
      cc := vmod m.cc v (fun x => { x with stuck := true }) }))).checkInputs).settle s) := by
  refine (if_neg (by simp)).trans ?_
  simp only [ofNat_coulombStream]

theorem execVsdInputValid_of_isolated (v : Fin 16) :
    execVsdInputValid ⟨v.val, by omega⟩ s = .next ((s.modMeas (fun m => { m with
      vsd := vmod m.vsd v (fun x => { x with stuck := false }) })).inputLevel) := by
  simp [execVsdInputValid]

theorem execVsdInputValid_of_coulomb (v : Fin 4) :
    execVsdInputValid ⟨16 + v.val, by omega⟩ s = .next ((s.modMeas (fun m => { m with
      cc := vmod m.cc v (fun x => { x with stuck := false }) })).inputLevel) := by
  refine congrArg (fun t => Host.Outcome.next (State.inputLevel t)) ((if_neg (by simp)).trans ?_)
  simp only [ofNat_coulombStream]

/-! ### Coulomb channels (08 R243; 16 R448) -/

/-- The four channels after a tick, with all that follows their charge; the resets that wait for it have not had effect. -/
def State.coulombTicked (counts : List Reading) (s : State) : State :=
  let last := (s.meas.cc[0]).time.toNat
  let t := (List.finRange 4).foldl (fun t c => (t.ccTick c (counts.getD c.val 0)).ccWakeCount c)
    (s.atDevice (multipleFrom 1000000 (if last ≤ s.now then max s.now (last + 1) else s.now))).pickCoulomb
  ((List.finRange 4).foldl (fun t p => (t.sessionTick p).estTick p)
    (t.modMeas (fun m => { m with cc := m.cc.map Coulomb.remember }))).rateTick

theorem execCoulombTick_of_awake {counts : List Reading} (hawake : s.chg.low.run ≠ .dustSheet) :
    execCoulombTick counts s = .next ((s.coulombTicked counts).meas.tickWaits.foldl (fun v r => v.ccResetNow r)
      ((s.coulombTicked counts).modMeas (fun m => { m with tickWaits := [] }))) := by
  have hrun : (s.chg.low.run == .dustSheet) = false := by simp [hawake]
  simp only [execCoulombTick, hrun, Bool.false_eq_true, if_false, State.coulombTicked]

/-- The one ring of a channel whose record is due takes it now. -/
theorem execCoulombTelemetryInterval_of_single {c : Fin 4} {e : Nat × Ring}
    (hmine : s.sys.ring.rings.filter (fun e => e.2.kind == 0 && e.2.source.toNat % 65536 == 3 + 256 * c.val) = [e])
    (hdue : e.2.due ≤ s.clk) :
    execCoulombTelemetryInterval c s =
      .next ((s.emit .adc (.ring e.1) (s.ccItem c ++ zeros 16)).modSys (fun y => { y with
        ring := { y.ring with rings := y.ring.rings.map (fun z => if z.1 == e.1 then
          (z.1, { z.2 with due := z.2.due + bitsOf z.2.source.toNat 31 16 * 1000000 }) else z) } })) := by
  have hclk : s.atLeast e.2.due = s := by simp [State.atLeast, hdue]
  simp only [execCoulombTelemetryInterval, hmine, List.map_nil, List.foldl_nil, List.foldl_cons, hclk,
    Nat.not_lt.mpr hdue, if_false]

end StreamRows

/-- Settles O32. -/
theorem streamEvents : Obligations.StreamEvents := by
  unfold Obligations.StreamEvents
  refine ⟨?_, ?_, ?_, ?_, ?_, ?_, ?_, ?_, ?_, ?_, ?_, ?_⟩
  · exact fun _ _ _ hkept => execComparatorAssert_of_kept hkept
  · exact fun _ _ _ hen hfree hbeyond hawake => execComparatorAssert_of_beyond hen hfree hbeyond hawake
  · exact fun _ _ _ hheld hlatch hback hawake => execComparatorRelease_of_back hheld hlatch hback hawake
  · exact fun _ _ _ hkept => execComparatorRelease_of_kept hkept
  · exact fun v _ => execVsdInputInvalid_of_isolated v
  · exact fun v _ => execVsdInputValid_of_isolated v
  · exact fun v _ => execVsdInputInvalid_of_coulomb v
  · exact fun v _ => execVsdInputValid_of_coulomb v
  · exact fun _ _ => rfl
  · exact fun _ _ => rfl
  · intro counts s hawake last t u
    -- Named first: to compare the two by their waiting requests would run the tick.
    have hu : u = s.coulombTicked counts := rfl
    rw [hu]
    exact execCoulombTick_of_awake hawake
  · exact fun _ _ _ hmine hdue => execCoulombTelemetryInterval_of_single hmine hdue

end Sys2Proof.Machine
end

section
/-! The measurement opcodes (08 R231, R233, R234, R249 to R252), one lemma for each outcome. -/

namespace Sys2Proof.Machine

section MeasurementOpcodes

variable {r : Req} {s : State}

/-! ### Channels, inputs and sequences (08 R250, R251) -/

theorem execMeasRead_of_ready (h : Ready 0x0801 observe r s) (hlen : r.payload.length = 8) :
    execMeasRead r s = .next (s.complete r 0x0801 (done ((maskList 64 (numAt r.payload 0 8)).map (fun n =>
      leBytes 1 n ++ leBytes 1 (s.adcFlags n) ++ leBytes 2 (s.chan n).raw.toNat ++ leBytes 4 (fitS 32 (s.adcResult n)) ++
        leBytes 8 (s.chan n).time.toNat)).flatten)) :=
  h.next_ok (len_none.mpr hlen) rfl

theorem execMeasVsdRead_of_ready (h : Ready 0x0802 observe r s) (hlen : r.payload.length = 2) :
    execMeasVsdRead r s = .next (s.complete r 0x0802 (done ((maskList 16 (numAt r.payload 0 2)).map (fun v =>
      leBytes 1 v ++ leBytes 1 (flag (s.vsdInvalid v)) ++ zeros 2 ++ leBytes 4 (fitS 32 (s.vsdRaw v)) ++
        leBytes 8 (s.meas.vsd[v % 16]).time.toNat)).flatten)) :=
  h.next_ok (len_none.mpr hlen) rfl

theorem execMeasTrigger_of_software (h : Ready 0x0803 configure r s) (hlen : r.payload.length = 2)
    (hsoftware : (maskList 16 (numAt r.payload 0 2)).any (fun i => s.nSeq ≤ i || s.seqByte i 1 != 0) = false) :
    execMeasTrigger r s = .next ((((List.finRange 16).filter (fun i => bitAt (numAt r.payload 0 2) i.val)).foldl
      (fun t i => t.trigger i) s).complete r 0x0803 done) :=
  h.next_ok (len_none.mpr hlen) (if_neg (ne_true_of_eq_false hsoftware))

theorem execMeasSeqStatus_of_ready (h : Ready 0x0809 observe r s) (hlen : r.payload = []) :
    execMeasSeqStatus r s = .next (s.complete r 0x0809
      (done (((List.finRange 16).filter (fun i => i.val < s.nSeq)).map (fun i =>
        leBytes 1 i.val ++ leBytes 1 (s.meas.seqs[i]).run ++ leBytes 2 (s.meas.seqs[i]).overruns.toNat ++
          leBytes 4 (s.meas.seqs[i]).runs.toNat)).flatten)) :=
  h.next_ok (len_zero hlen) rfl

/-! ### MEAS_CALIBRATE (08 R231, R233) -/

theorem execMeasCalibrate_of_selfCalibration (h : Ready 0x0804 service r s) (hshape : lenZ 8 [(2, 2)] r.payload = none)
    (hmode : numAt r.payload 0 1 = 0) (hidle : s.calRunning = false) :
    execMeasCalibrate r s =
      .next (((s.calibrate (fun _ => true)).modMeas (fun x => { x with selfCal := some r })).park r 0x0804) :=
  h.next_wait hshape (by simp [hmode, hidle])

theorem execMeasCalibrate_of_boardCalibration (h : Ready 0x0804 service r s) (hshape : lenZ 8 [(2, 2)] r.payload = none)
    (hmode : numAt r.payload 0 1 = 1 ∨ numAt r.payload 0 1 = 2) (hain : numAt r.payload 1 1 < 48)
    (hidle : s.calRunning = false) :
    execMeasCalibrate r s = .next ((s.modMeas (fun x => { x with
      board := some { mode := numAt r.payload 0 1, channel := numAt r.payload 1 1, req := r
                      volts := intAt r.payload 4 4 } })).park r 0x0804) := by
  have hnamed : ¬ 47 < numAt r.payload 1 1 := by omega
  refine h.next_wait hshape ?_
  obtain hm | hm := hmode <;> simp [hm, hnamed, hidle]

/-! ### Comparators (08 R234) -/

theorem execMeasCmpStatus_of_ready (h : Ready 0x0805 observe r s) (hlen : r.payload = []) :
    execMeasCmpStatus r s =
      .next (s.complete r 0x0805 (done (leBytes 2 (s.cmpMask (·.asserted)) ++ leBytes 2 (s.cmpMask (·.latched))))) :=
  h.next_ok (len_zero hlen) rfl

theorem execMeasCmpClear_of_holder (h : Ready 0x0806 control r s) (hlen : r.payload.length = 2)
    (hlease : s.holdsLease r.owner = true) (hmask : numAt r.payload 0 2 < 4096) :
    let named_ := (List.finRange 12).filter (fun n => bitAt (numAt r.payload 0 2) n.val && (s.meas.cmps[n.val]).latched)
    let back (n : Fin 12) : Bool := cmpBack (s.param (0x0B60 + n.val)) (s.cmpInput n)
    let free := named_.filter back
    let held := named_.filter (fun n => !back n)
    execMeasCmpClear r s = .next ((free.foldl (fun t n => t.cmpRelease n) s).complete r 0x0806
      (done (leBytes 2 (free.map (fun n => 2 ^ n.val)).sum ++ leBytes 2 (held.map (fun n => 2 ^ n.val)).sum))) :=
  h.next_ok (len_none.mpr hlen) ((State.needLease_holds hlease).trans (if_neg (Nat.not_le.mpr hmask)))

/-! ### Coulomb channels (08 R249, R252) -/

theorem execCcRead_of_mask (h : Ready 0x0807 observe r s) (hlen : r.payload.length = 1) (hmask : numAt r.payload 0 1 < 16) :
    execCcRead r s = .next (s.complete r 0x0807
      (done (((List.finRange 4).filter (fun c => bitAt (numAt r.payload 0 1) c.val)).map s.ccItem).flatten)) :=
  h.next_ok (len_none.mpr hlen) (if_neg (Nat.not_le.mpr hmask))

/-- Only O0 may name THROUGHPUT. -/
theorem execCcReset_of_permitted (h : Ready 0x0808 service r s) (hlen : r.payload.length = 2)
    (hflags : numAt r.payload 1 1 < 8) (hpermitted : bitAt (numAt r.payload 1 1) 2 = true → r.owner = 0)
    (hmask : numAt r.payload 0 1 < 16) :
    execCcReset r s = .next ((s.modMeas (fun x => { x with tickWaits := x.tickWaits ++ [r] })).park r 0x0808) := by
  have hallowed : (bitAt (numAt r.payload 1 1) 2 && r.owner != 0) = false := by simpa using hpermitted
  refine h.next_wait (len_none.mpr hlen) ?_
  simp [Nat.not_le.mpr hflags, Nat.not_le.mpr hmask, hallowed]

end MeasurementOpcodes

/-- Settles O33. `exec` of each of these opcodes is its meaning by definition. -/
theorem measurementCommands : Obligations.MeasurementCommands := by
  unfold Obligations.MeasurementCommands
  refine ⟨?_, ?_, ?_, ?_, ?_, ?_, ?_, ?_, ?_, ?_⟩
  · exact fun _ _ h hlen => execMeasRead_of_ready h hlen
  · exact fun _ _ h hlen => execMeasVsdRead_of_ready h hlen
  · exact fun _ _ h hlen hsoftware => execMeasTrigger_of_software h hlen hsoftware
  · exact fun _ _ h hshape hmode hidle => execMeasCalibrate_of_selfCalibration h hshape hmode hidle
  · exact fun _ _ h hshape hmode hain hidle => execMeasCalibrate_of_boardCalibration h hshape hmode hain hidle
  · exact fun _ _ h hlen => execMeasCmpStatus_of_ready h hlen
  · exact fun _ _ h hlen hlease hmask => execMeasCmpClear_of_holder h hlen hlease hmask
  · exact fun _ _ h hlen hmask => execCcRead_of_mask h hlen hmask
  · exact fun _ _ h hlen hflags hpermitted hmask => execCcReset_of_permitted h hlen hflags hpermitted hmask
  · exact fun _ _ h hlen => execMeasSeqStatus_of_ready h hlen

end Sys2Proof.Machine
end

section
/-! The lath chain: receivers, enumeration, delays, marks and the sample instant (09 R256 to R286): what each row does, by its
outcome. -/

namespace Sys2Proof.Machine

/-! ### What leaves the chain as it is -/

/-- What no step of a fold changes, the fold does not change. -/
theorem foldl_kept {α β : Type} {l : List α} {f : State → α → State} (g : State → β) (hf : ∀ t a, g (f t a) = g t) (s : State) :
    g (l.foldl f s) = g s :=
  List.foldlRecOn (motive := fun t => g t = g s) l f rfl (fun t ht a _ => (hf t a).trans ht)

theorem foldl_chain {α : Type} {l : List α} {f : State → α → State} (hf : ∀ t a, (f t a).stack.chain = t.stack.chain) (s : State) :
    (l.foldl f s).stack.chain = s.stack.chain :=
  foldl_kept (fun t => t.stack.chain) hf s

section ChainKept

variable {s : State}

@[simp] theorem State.raiseIf_stack (b : Bool) (n : Nat) : (s.raiseIf b n).stack = s.stack := by
  cases b <;> rfl

@[simp] theorem State.atDevice_stack (t : Nat) : (s.atDevice t).stack = s.stack := rfl

@[simp] theorem State.pickChain_chain : s.pickChain.stack.chain = s.stack.chain :=
  foldl_chain (f := fun t id => t.pickParam id) (fun _ _ => rfl) s

theorem State.modSweep_chain (p : Fin 4) (f : StippleSweep → StippleSweep) : (s.modSweep p f).stack.chain = s.stack.chain := by
  simp [State.modSweep]

@[simp] theorem State.stippleMark_chain (p : Fin 4) : (s.stippleMark p).stack.chain = s.stack.chain := by
  unfold State.stippleMark
  dsimp only
  split
  · rfl
  · split
    · rfl
    · exact State.modSweep_chain p _

@[simp] theorem State.trigger_chain (i : Fin 16) : (s.trigger i).stack.chain = s.stack.chain := by
  unfold State.trigger
  dsimp only
  split
  · simp
  · split <;> rfl

theorem State.activate_chain (key : Nat) (x : Table) : (s.activate key x).stack.chain = s.stack.chain := by
  unfold State.activate
  dsimp only
  split <;> simp

theorem State.takeTable_chain (key bit : Nat) : (s.takeTable key bit).stack.chain = s.stack.chain := by
  unfold State.takeTable
  split
  · rfl
  · dsimp only
    split
    · rfl
    · split
      · exact State.activate_chain key _
      · rfl

@[simp] theorem State.takeType_chain (ty bit : Nat) : (s.takeType ty bit).stack.chain = s.stack.chain :=
  foldl_chain (fun _ key => State.takeTable_chain key bit) s

end ChainKept

/-! ### Receivers and the state of the ring (09 R256, R264) -/

section RingRows

variable {q origin : Fin 2} {s : State}

theorem execRingStateChange_of_working (hrun : s.stack.chain.run ≠ .enumerating) (hlock : s.chainDown = false)
    (hfound : s.stack.chain.found ≠ 0) : execRingStateChange q origin s = .next (s.ringSees q origin) :=
  if_neg (by simp [hrun, hlock, hfound])

theorem execRingStateChange_of_idle
    (hidle : s.stack.chain.run = .enumerating ∨ s.chainDown = true ∨ s.stack.chain.found = 0) :
    execRingStateChange q origin s = .next s := by
  refine if_pos ?_
  obtain hrun | hlock | hfound := hidle
  · simp [hrun]
  · simp [hlock]
  · simp [hfound]

end RingRows

/-! ### Enumeration (09 R266 to R268) -/

/-- What an enumeration leaves: no other enumeration, and how far each port reached. -/
def ChainState.outcome (c : ChainState) : Option (Option Req) × Nat × Nat × Nat := (c.enumerate, c.reachA, c.reachB, c.found)

theorem foldl_outcome {α : Type} {l : List α} {f : State → α → State}
    (hf : ∀ t a, (f t a).stack.chain.outcome = t.stack.chain.outcome) (s : State) :
    (l.foldl f s).stack.chain.outcome = s.stack.chain.outcome :=
  foldl_kept (fun t => t.stack.chain.outcome) hf s

section Enumeration

variable {s : State}

@[simp] theorem State.modModule_outcome (m : Fin 64) (f : Module → Module) :
    (s.modModule m f).stack.chain.outcome = s.stack.chain.outcome := rfl

@[simp] theorem State.moduleTo_outcome (m : Fin 64) (r : ModuleRun) :
    (s.moduleTo m r).stack.chain.outcome = s.stack.chain.outcome := by
  unfold State.moduleTo
  split <;> rfl

@[simp] theorem State.bind_outcome (m : Fin 64) (x : Option NodeInfo) (closed : Bool) (n : Nat) :
    (s.bind m x closed n).stack.chain.outcome = s.stack.chain.outcome := by
  cases x <;> simp [State.bind]

@[simp] theorem State.takeRingDelay_outcome (closed : Bool) (a b : Nat) :
    (s.takeRingDelay closed a b).stack.chain.outcome = s.stack.chain.outcome := by
  simp [State.takeRingDelay, ChainState.outcome]

@[simp] theorem State.delayOf_outcome (closed : Bool) (a b : Nat) (m : Fin 64) (delta : Int) :
    (s.delayOf closed a b m delta).stack.chain.outcome = s.stack.chain.outcome := rfl

@[simp] theorem State.ringTo_outcome (r : RingRun) : (s.ringTo r).stack.chain.outcome = s.stack.chain.outcome := by
  unfold State.ringTo
  split <;> rfl

/-- The CHAIN_ENUMERATE that waits completes; an enumeration at start-up answers no one. -/
theorem enumerationAnswered_chain (r : Option Req) (t : State) :
    (match r with | some r => t.complete r 0x0902 done | none => t).stack.chain = t.stack.chain := by
  cases r with
  | none => rfl
  | some r => rw [State.complete_stack]

/-- The ring is DOWN, or takes the state that the enumeration found. -/
theorem ringEnumerated_outcome (r : RingRun) :
    (if s.chainDown then s.modChain (fun c => { c with run := .down }) else s.ringTo r).stack.chain.outcome =
      s.stack.chain.outcome := by
  split
  · rfl
  · exact State.ringTo_outcome r

variable {found : List NodeInfo} {ra rb a b : Nat}

theorem execEnumerationEnd_outcome {r : Option Req} (h : s.stack.chain.enumerate = some r) :
    ∃ t, execEnumerationEnd found ra rb a b s = .next t ∧ t.stack.chain.outcome = (none, ra, rb, found.length) := by
  simp only [execEnumerationEnd, h]
  refine ⟨_, rfl, ?_⟩
  refine (congrArg ChainState.outcome (enumerationAnswered_chain r _)).trans ?_
  rw [State.takeType_chain, State.raiseIf_stack, State.raise_stack, ringEnumerated_outcome]
  refine (foldl_outcome (fun t e => ?_) _).trans ((State.takeRingDelay_outcome _ a b).trans (foldl_outcome (fun t m => ?_) _))
  · split <;> simp
  · split <;> simp

theorem execEnumerationEnd_of_idle (h : s.stack.chain.enumerate = none) :
    execEnumerationEnd found ra rb a b s = .next s := by
  simp only [execEnumerationEnd, h]

end Enumeration

/-! ### Delays, marks and the sample instant (09 R270, R271, R285, R286) -/

section MarkRows

variable {q : Fin 2} {s : State}

theorem execDelayMeasurement_of_up {a b : Nat} {deltas : List (Fin 64 × Reading)} (hup : s.stack.chain.run.up = true)
    (hdue : s.stack.chain.probing = true ∨ s.held 0x0D05 ≠ 0) :
    let u := if s.stack.chain.probing then s else s.atLeast (s.stack.chain.probedAt + s.held 0x0D05 * 1000000000)
    let closed := s.stack.chain.run == .closed
    let t := deltas.foldl (fun t e => t.delayOf closed a b e.1 e.2) (u.takeRingDelay closed a b)
    execDelayMeasurement a b deltas s = .next (t.stack.chain.probeWaits.foldl (fun t r => t.complete r 0x0906 done)
      (t.modChain (fun c => { c with probing := false, probeWaits := [], probedAt := t.clk }))) := by
  refine if_neg ?_
  obtain hprobing | hevery := hdue
  · simp [hup, hprobing]
  · simp [hup, hevery]

theorem execMarkSend_of_window (hon : s.engineOn = true) (hup : s.stack.chain.run.up = true) (hen : s.chainEn q = true)
    (hnew : (s.chainPort q).markFor ≠ some (s.stack.chain.sweepId + 1#8))
    (hwindow : max (max s.now (s.markBy - 30000)) (s.chainPort q).busyUntil ≤ s.markBy) :
    let at_ := max (max s.now (s.markBy - 30000)) (s.chainPort q).busyUntil
    execMarkSend q s = .next ((s.atDevice at_).modChainPort q
      (fun x => { x with markFor := some (s.stack.chain.sweepId + 1#8)
                         mark := markBytes (s.stack.chain.sweepId + 1#8) (s.nextMark - at_) q })) :=
  if_neg (by simpa [hon, hup, hen, hnew] using hwindow)

/-- What follows the instant, in the stipple sweeps and the sequences, does not touch the chain. -/
theorem execSampleInstant_of_up (hon : s.engineOn = true) (hup : s.stack.chain.run.up = true) :
    ∃ t, execSampleInstant s = .next t ∧ t.stack.chain.sweepId = s.stack.chain.sweepId + 1#8 ∧
      t.stack.chain.toRead = true ∧ t.stack.chain.sweepTime = BitVec.ofNat 64 s.nextMark ∧
      t.stack.chain.period = s.wantedPeriod := by
  refine ⟨_, if_neg (by simp [hon, hup]), ?_⟩
  rw [foldl_chain (fun _ i => State.trigger_chain i), foldl_chain (fun _ p => State.stippleMark_chain p), State.pickChain_chain]
  exact ⟨rfl, rfl, rfl, rfl⟩

theorem execMarkSend_of_rest (hrest : s.engineOn = false ∨ s.stack.chain.run.up = false) : execMarkSend q s = .next s := by
  refine if_pos ?_
  obtain hoff | hdown := hrest
  · simp [hoff]
  · simp [hdown]

theorem execSampleInstant_of_rest (hrest : s.engineOn = false ∨ s.stack.chain.run.up = false) :
    execSampleInstant s = .next s :=
  if_pos (by simpa using hrest)

theorem execSweepReadsStart_of_rest (hrest : s.engineOn = false ∨ s.stack.chain.run.up = false) :
    execSweepReadsStart s = .next s := by
  refine if_pos ?_
  obtain hoff | hdown := hrest
  · simp [hoff]
  · simp [hdown]

theorem execChainPortStop_of_disabled (hen : s.chainEn q = false) :
    execChainPortStop q s = .next ((s.atDevice (s.chainPort q).busyUntil).modChainPort q
      (fun x => { x with transmitting := false })) :=
  if_neg (ne_true_of_eq_false hen)

theorem execChainPortStop_of_enabled (hen : s.chainEn q = true) : execChainPortStop q s = .next s := if_pos hen

end MarkRows

/-- Settles O34: each row takes the branch that its hypotheses name; what an enumeration stores, and what a sample instant
stores, no later part of the row changes. -/
theorem chainEvents : Obligations.ChainEvents := by
  unfold Obligations.ChainEvents
  refine ⟨?_, ?_, ?_, ?_, ?_, ?_, ?_, ?_, ?_, ?_, ?_⟩
  · exact fun _ _ _ => rfl
  · exact fun _ _ _ hrun hlock hfound => execRingStateChange_of_working hrun hlock hfound
  · exact fun _ _ _ hidle => execRingStateChange_of_idle hidle
  · intro found ra rb a b s henumerating
    obtain ⟨t, ht, hout⟩ := execEnumerationEnd_outcome (found := found) (ra := ra) (rb := rb) (a := a) (b := b) henumerating
    obtain ⟨hnone, hreachA, hreachB, hfound⟩ : _ = none ∧ _ = ra ∧ _ = rb ∧ _ = found.length := by
      simpa only [ChainState.outcome, Prod.mk.injEq] using hout
    exact ⟨t, ht, (exec_keeps (.enumerationEnd found ra rb a b) s t ht).clk, hnone, hreachA, hreachB, hfound⟩
  · exact fun _ _ _ _ _ _ hidle => execEnumerationEnd_of_idle hidle
  · exact fun _ _ _ _ hup hdue => execDelayMeasurement_of_up hup hdue
  · exact fun _ _ hon hup hen hnew hwindow => execMarkSend_of_window hon hup hen hnew hwindow
  · exact fun _ hon hup _ => execSampleInstant_of_up hon hup
  · exact fun _ hrest =>
      ⟨execSampleInstant_of_rest hrest, execSweepReadsStart_of_rest hrest, fun _ => execMarkSend_of_rest hrest⟩
  · exact fun _ _ hen => execChainPortStop_of_disabled hen
  · exact fun _ _ hen => execChainPortStop_of_enabled hen

end Sys2Proof.Machine
end

section
/-! Sweeps and balancing requests (09 R258, R277 to R283): what each row does, by its outcome. -/

namespace Sys2Proof.Machine

section SweepRows

variable {q : Fin 2} {s : State}

/-! ### The reads of a sweep (09 R277, R280) -/

theorem execSweepReadsStart_of_due (hon : s.engineOn = true) (hup : s.stack.chain.run.up = true)
    (hdue : s.stack.chain.toRead = true) :
    let t0 := s.atDevice (s.stack.chain.sweepTime.toNat + s.held 0x0D03 * 1000)
    let t := (if s.stack.chain.sweeping then t0.closeSweep true else t0).modChain
      (fun c => { c with toRead := false, sweeping := true, reissuedNow := 0, crossA := false, crossB := false, returned := false
                         modules := c.modules.map (fun m => { m with answer := none, reroutedNow := false }) })
    let onPort (q : Fin 2) : List (Fin 64) := (t.sweepModules.filter (fun m => t.primary m == q && t.chainEn q)).foldl
      (fun l m => insertBy (fun k => if q = 0 then (t.module_ k).posA else (t.module_ k).posB) m l) []
    execSweepReadsStart s = .next ((List.finRange 2).foldl (fun u q => (onPort q).foldl (fun v m =>
      v.sendRequest q .sweep m.val 0x10#8 (BitVec.ofNat 8 m.val) [s.stack.chain.sweepId] 0 false none) u) t) :=
  if_neg (by simp [hon, hup, hdue])

theorem execSweepComplete_of_answered (hon : s.engineOn = true) (hsweeping : s.stack.chain.sweeping = true)
    (hpending : s.readsPending = false) : execSweepComplete s = .next (s.closeSweep false) :=
  if_neg (by simp [hon, hsweeping, hpending])

theorem execSweepComplete_of_pending (hpending : s.readsPending = true) : execSweepComplete s = .next s :=
  if_pos (by simp [hpending])

theorem execSweepDeadline_of_pending (hon : s.engineOn = true) (hsweeping : s.stack.chain.sweeping = true)
    (hpending : s.readsPending = true) :
    execSweepDeadline s = .next ((s.atDevice (s.stack.chain.sweepTime.toNat + s.stack.chain.period +
      s.held 0x0D03 * 1000)).closeSweep true) :=
  if_neg (by simp [hon, hsweeping, hpending])

theorem execSweepDeadline_of_answered (hpending : s.readsPending = false) : execSweepDeadline s = .next s :=
  if_pos (by simp [hpending])

/-! ### Replies and time-outs (09 R258, R278) -/

variable {frame : List Byte}

/-- A frame with the length that it states, and its CRC. -/
def WholeFrame (frame : List Byte) : Prop :=
  frame.length = 10 + numAt frame 4 2 ∧ numAt frame 4 2 ≤ 256 ∧
    BitVec.ofNat 32 (numAt frame (6 + numAt frame 4 2) 4) = crc32c (frame.take (6 + numAt frame 4 2))

theorem WholeFrame.passes (h : WholeFrame frame) :
    ¬ (frame.length ≠ 10 + numAt frame 4 2 || 256 < numAt frame 4 2 ||
      BitVec.ofNat 32 (numAt frame (6 + numAt frame 4 2) 4) != crc32c (frame.take (6 + numAt frame 4 2))) = true := by
  obtain ⟨hlen, hmax, hcrc⟩ := h
  simp [hlen, hcrc, hmax]

theorem execChainReply_of_request (hwhole : WholeFrame frame) (htype : bitsOf (numAt frame 0 1) 1 0 ≠ 1) :
    execChainReply q frame s =
      .next ((s.chainCount q 1).ringSees q (if bitAt (numAt frame 0 1) 2 then 1 else 0)) :=
  (if_neg hwhole.passes).trans (if_pos htype)

theorem execChainReply_of_response (hwhole : WholeFrame frame) (htype : bitsOf (numAt frame 0 1) 1 0 = 1) :
    let org : Fin 2 := if bitAt (numAt frame 0 1) 2 then 1 else 0
    let hit := s.stack.chain.outstanding.find? (fun x =>
      x.port == org && x.seq == BitVec.ofNat 8 (numAt frame 1 1) && x.addr == BitVec.ofNat 8 (numAt frame 2 1) &&
        x.cmd == BitVec.ofNat 8 (numAt frame 3 1))
    execChainReply q frame s = .next (match hit with
      | some x => ((s.chainCount q 1).ringSees q org).takeReply x (slice frame 6 (numAt frame 4 2))
      | none => ((s.chainCount q 1).ringSees q org).chainCount q 7) := by
  intro org hit
  refine ((if_neg hwhole.passes).trans (if_neg (not_not_intro htype))).trans ?_
  change (match hit with | some x => _ | none => _) = _
  cases hit <;> rfl

/-- A frame that states too long a payload is bad, whatever it says; with nothing awaited no read fails by it. -/
theorem execChainReply_of_long (hlong : 256 < numAt frame 4 2) (hnone : s.stack.chain.outstanding = []) :
    execChainReply q frame s = .next (s.chainCount q 2) := by
  refine (if_pos (by simp [hlong])).trans ?_
  simp only [hnone, List.find?_nil]

theorem execChainReadTimeout_of_oldest {x : ChainRequest} {xs : List ChainRequest} (hout : s.stack.chain.outstanding = x :: xs)
    (hport : x.port = q) :
    execChainReadTimeout q s = .next (((s.atDevice (x.slotEnd + s.effTimeout)).chainCount q 5).failRead x) := by
  simp [execChainReadTimeout, hout, hport]

/-! ### Lost modules (09 R282) -/

variable {m : Fin 64}

theorem execModuleChainLost_of_missed (hbound : (s.module_ m).run.bound = true)
    (hmissed : bitsOf (s.held 0x0D00) 23 20 ≤ (s.module_ m).missRun) :
    execModuleChainLost m s = .next ((List.finRange 4).foldl (fun t p =>
      if (t.readModules p).contains m then (t.latchFaults p 32#7).portChanged s p else t) (s.moduleTo m .chainLost)) :=
  if_pos (by simp [hbound, hmissed])

theorem execModuleChainLost_of_answering (hlost : (s.module_ m).run = .chainLost)
    (hgood : bitsOf (s.held 0x0D00) 23 20 ≤ (s.module_ m).goodRun) :
    execModuleChainLost m s = .next ((List.finRange 4).foldl (fun t p =>
      if (t.readModules p).contains m then t.portChanged s p else t) (s.moduleTo m .ok)) :=
  (if_neg (by simp [hlost, ModuleRun.bound])).trans (if_pos (by simp [hlost, hgood]))

end SweepRows

/-! ### Balancing requests (09 R283) -/

theorem mem_insertBy {key : Fin 64 → Nat} {m x : Fin 64} {l : List (Fin 64)} : x ∈ insertBy key m l ↔ x = m ∨ x ∈ l := by
  induction l with
  | nil => simp [insertBy]
  | cons y ys ih =>
    unfold insertBy
    split
    · simp
    · simp only [List.mem_cons, ih]
      exact or_left_comm

theorem mem_foldl_insertBy {key : Fin 64 → Nat} {x : Fin 64} {l acc : List (Fin 64)}
    (h : x ∈ l.foldl (fun l m => insertBy key m l) acc) : x ∈ l ∨ x ∈ acc := by
  induction l generalizing acc with
  | nil => exact .inr h
  | cons y ys ih =>
    rcases ih h with hys | hacc
    · exact .inl (List.mem_cons_of_mem y hys)
    · rcases mem_insertBy.mp hacc with rfl | hacc
      · exact .inl List.mem_cons_self
      · exact .inr hacc

/-- Time has not passed, no mask has changed, and no module but some of `due` has been sent its mask, now. -/
structure MasksSent (due : List (Fin 64)) (s t : State) : Prop where
  clk : t.clk = s.clk
  mask : ∀ m, (t.module_ m).mask = (s.module_ m).mask
  others : ∀ m, m ∉ due → t.module_ m = s.module_ m
  each : ∀ m, t.module_ m = s.module_ m ∨
    ((t.module_ m).maskSent = (s.module_ m).mask ∧ (t.module_ m).sentAt = s.clk ∧ (t.module_ m).override_ = none)

section Balancing

variable {due : List (Fin 64)} {q : Fin 2} {s t : State}

theorem MasksSent.refl (due : List (Fin 64)) (s : State) : MasksSent due s s :=
  ⟨rfl, fun _ => rfl, fun _ _ => rfl, fun _ => .inl rfl⟩

theorem MasksSent.of_eq {u : State} (h : MasksSent due s t) (hclk : u.clk = t.clk) (hmodule : ∀ m, u.module_ m = t.module_ m) :
    MasksSent due s u where
  clk := hclk.trans h.clk
  mask m := (congrArg Module.mask (hmodule m)).trans (h.mask m)
  others m hm := (hmodule m).trans (h.others m hm)
  each m := by
    rw [hmodule m]
    exact h.each m

theorem State.sendMask_of_fits {m : Fin 64} (hfits : s.fits q 0x20#8 (BitVec.ofNat 8 m.val) 6 = true) :
    s.sendMask q m = (s.sendRequest q .balance m.val 0x20#8 (BitVec.ofNat 8 m.val)
      (leBytes 4 (s.module_ m).mask.toNat ++ leBytes 2 3000) 0 false none).modModule m (fun x =>
        { x with maskSent := x.mask, sentAt := s.clk, override_ := none }) :=
  if_neg (by simp [hfits])

theorem State.sendBalance_of_fits {r : Req} (hfits : s.fits q 0x20#8 (BitVec.ofNat 8 (numAt r.payload 0 1)) 6 = true) :
    s.sendBalance q r = (s.sendRequest q .balance (numAt r.payload 0 1) 0x20#8
      (BitVec.ofNat 8 (numAt r.payload 0 1)) (slice r.payload 4 4 ++ slice r.payload 2 2) 0 false (some r)).modChain (fun c =>
        { c with balance := c.balance.erase r }) :=
  if_neg (by simp [hfits])

/-- A module that is due, sent the mask it has. -/
theorem MasksSent.modModule {m : Fin 64} (h : MasksSent due s t) (hm : m ∈ due) :
    MasksSent due s (t.modModule m (fun x => { x with maskSent := x.mask, sentAt := t.clk, override_ := none })) where
  clk := h.clk
  mask k := by
    by_cases hk : m = k
    · subst hk
      rw [State.modModule_module__self]
      exact h.mask m
    · rw [State.modModule_module__ne t hk]
      exact h.mask k
  others k hk := by
    have hne : m ≠ k := fun e => hk (e ▸ hm)
    rw [State.modModule_module__ne t hne]
    exact h.others k hk
  each k := by
    by_cases hk : m = k
    · subst hk
      rw [State.modModule_module__self]
      exact .inr ⟨h.mask m, h.clk, rfl⟩
    · rw [State.modModule_module__ne t hk]
      exact h.each k

theorem MasksSent.sendMask {m : Fin 64} (h : MasksSent due s t) (hm : m ∈ due) : MasksSent due s (t.sendMask q m) := by
  unfold State.sendMask
  dsimp only
  split
  · exact h
  · exact MasksSent.modModule (h.of_eq rfl (fun _ => rfl)) hm

theorem MasksSent.sendBalance {r : Req} (h : MasksSent due s t) : MasksSent due s (t.sendBalance q r) := by
  unfold State.sendBalance
  dsimp only
  split
  · exact h
  · exact h.of_eq rfl (fun _ => rfl)

theorem MasksSent.sendNodeCmd {r : Req} (h : MasksSent due s t) : MasksSent due s (t.sendNodeCmd q r) := by
  unfold State.sendNodeCmd
  dsimp only
  split
  · exact h
  · exact h.of_eq rfl (fun _ => rfl)

theorem execBalanceRequestSend_of_window (hup : s.stack.chain.run.up = true) (hen : s.chainEn q = true)
    (hreads : s.stack.chain.toRead = false) :
    let due := s.sweepModules.filter (fun m => (s.module_ m).run.bound && s.primary m == q && bitAt (s.held (moId m 0)) 1 &&
      (s.module_ m).balanceDue s.clk)
    let t := (due.foldl (fun l m => insertBy (fun k => (s.module_ k).sentAt) m l) []).foldl (fun t m => t.sendMask q m) s
    let u := (t.stack.chain.balance.filter (fun r => t.primary (Fin.ofNat 64 (numAt r.payload 0 1)) == q)).foldl
      (fun t r => t.sendBalance q r) t
    execBalanceRequestSend q s = .next ((u.stack.chain.node.filter (fun r => numAt r.payload 0 1 == q.val)).foldl
      (fun t r => t.sendNodeCmd q r) u) :=
  if_neg (by simp [hup, hen, hreads])

/-- The requests of a window: masks to modules that are due, then what touches no module. -/
theorem execBalanceRequestSend_sends (hup : s.stack.chain.run.up = true) (hen : s.chainEn q = true)
    (hreads : s.stack.chain.toRead = false) :
    ∃ t, execBalanceRequestSend q s = .next t ∧
      MasksSent (s.sweepModules.filter (fun m => (s.module_ m).run.bound && s.primary m == q &&
        bitAt (s.held (moId m 0)) 1 && (s.module_ m).balanceDue s.clk)) s t := by
  refine ⟨_, execBalanceRequestSend_of_window hup hen hreads, ?_⟩
  refine List.foldlRecOn _ _ (List.foldlRecOn _ _ (List.foldlRecOn _ _ (MasksSent.refl _ s) ?_) ?_) ?_
  · intro t ht m hm
    exact ht.sendMask ((mem_foldl_insertBy hm).resolve_right List.not_mem_nil)
  · exact fun t ht _ _ => ht.sendBalance
  · exact fun t ht _ _ => ht.sendNodeCmd

theorem execBalanceRequestSend_of_mask {m : Fin 64} (hup : s.stack.chain.run.up = true) (hen : s.chainEn q = true)
    (hreads : s.stack.chain.toRead = false)
    (hdue : s.sweepModules.filter (fun m => (s.module_ m).run.bound && s.primary m == q && bitAt (s.held (moId m 0)) 1 &&
      (s.module_ m).balanceDue s.clk) = [m])
    (hbalance : s.stack.chain.balance = []) (hnode : s.stack.chain.node = [])
    (hfits : s.fits q 0x20#8 (BitVec.ofNat 8 m.val) 6 = true) :
    execBalanceRequestSend q s = .next ((s.sendRequest q .balance m.val 0x20#8 (BitVec.ofNat 8 m.val)
      (leBytes 4 (s.module_ m).mask.toNat ++ leBytes 2 3000) 0 false none).modModule m (fun x =>
        { x with maskSent := x.mask, sentAt := s.clk, override_ := none })) := by
  rw [← State.sendMask_of_fits hfits]
  have hbalance' : (s.sendMask q m).stack.chain.balance = [] := by
    rw [State.sendMask_of_fits hfits]
    exact hbalance
  have hnode' : (s.sendMask q m).stack.chain.node = [] := by
    rw [State.sendMask_of_fits hfits]
    exact hnode
  refine (execBalanceRequestSend_of_window hup hen hreads).trans ?_
  simp only [hdue, List.foldl_cons, List.foldl_nil, insertBy, hbalance', hnode', List.filter_nil]

theorem execBalanceRequestSend_of_command {r : Req} (hup : s.stack.chain.run.up = true) (hen : s.chainEn q = true)
    (hreads : s.stack.chain.toRead = false) (hmodules : s.sweepModules = []) (hbalance : s.stack.chain.balance = [r])
    (hport : s.primary (Fin.ofNat 64 (numAt r.payload 0 1)) = q) (hnode : s.stack.chain.node = [])
    (hfits : s.fits q 0x20#8 (BitVec.ofNat 8 (numAt r.payload 0 1)) 6 = true) :
    execBalanceRequestSend q s = .next ((s.sendRequest q .balance (numAt r.payload 0 1) 0x20#8
      (BitVec.ofNat 8 (numAt r.payload 0 1)) (slice r.payload 4 4 ++ slice r.payload 2 2) 0 false (some r)).modChain (fun c =>
        { c with balance := c.balance.erase r })) := by
  rw [← State.sendBalance_of_fits hfits]
  have hmine : s.stack.chain.balance.filter (fun r => s.primary (Fin.ofNat 64 (numAt r.payload 0 1)) == q) = [r] := by
    simp only [hbalance, List.filter_cons, hport, beq_self_eq_true, if_true, List.filter_nil]
  have hnode' : (s.sendBalance q r).stack.chain.node = [] := by
    rw [State.sendBalance_of_fits hfits]
    exact hnode
  refine (execBalanceRequestSend_of_window hup hen hreads).trans ?_
  simp only [hmodules, List.filter_nil, List.foldl_nil, hmine, List.foldl_cons, hnode']

theorem execBalanceRequestSend_of_barred
    (hbarred : s.stack.chain.run.up = false ∨ s.chainEn q = false ∨ s.stack.chain.toRead = true) :
    execBalanceRequestSend q s = .next s := by
  refine if_pos ?_
  obtain hdown | hoff | hreads := hbarred
  · simp [hdown]
  · simp [hoff]
  · simp [hreads]

end Balancing

/-- Settles O35: each row takes the branch that its hypotheses name; of BALANCE_REQUEST_SEND in general, what it sends is
followed through its three folds. -/
theorem sweepEvents : Obligations.SweepEvents := by
  unfold Obligations.SweepEvents
  refine ⟨?_, ?_, ?_, ?_, ?_, ?_, ?_, ?_, ?_, ?_, ?_, ?_, ?_⟩
  · exact fun _ hon hup hdue => execSweepReadsStart_of_due hon hup hdue
  · exact fun _ _ _ hlen hmax hcrc htype => execChainReply_of_request ⟨hlen, hmax, hcrc⟩ htype
  · exact fun _ _ _ hlen hmax hcrc htype => execChainReply_of_response ⟨hlen, hmax, hcrc⟩ htype
  · exact fun _ _ _ hlong hnone => execChainReply_of_long hlong hnone
  · exact fun _ _ _ _ hout hport => execChainReadTimeout_of_oldest hout hport
  · exact fun _ hon hsweeping hpending =>
      ⟨execSweepComplete_of_answered hon hsweeping hpending, execSweepDeadline_of_answered hpending⟩
  · exact fun _ hon hsweeping hpending =>
      ⟨execSweepDeadline_of_pending hon hsweeping hpending, execSweepComplete_of_pending hpending⟩
  · exact fun _ _ hbound hmissed => execModuleChainLost_of_missed hbound hmissed
  · exact fun _ _ hlost hgood => execModuleChainLost_of_answering hlost hgood
  · intro q s hup hen hreads due
    obtain ⟨t, ht, hsent⟩ := execBalanceRequestSend_sends hup hen hreads
    exact ⟨t, ht, hsent.clk, hsent.others, hsent.each⟩
  · exact fun _ _ _ hup hen hreads hdue hbalance hnode hfits =>
      execBalanceRequestSend_of_mask hup hen hreads hdue hbalance hnode hfits
  · exact fun _ _ _ hup hen hreads hmodules hbalance hport hnode hfits =>
      execBalanceRequestSend_of_command hup hen hreads hmodules hbalance hport hnode hfits
  · exact fun _ _ hbarred => execBalanceRequestSend_of_barred hbarred

end Sys2Proof.Machine
end

section
/-! The opcodes of the chain and of estimation (09 R288, R289; 10 R312, R318, R319), one lemma for each outcome. -/

namespace Sys2Proof.Machine

section StackOpcodes

variable {r : Req} {m : Fin 64} {s : State}

/-! ### The chain (09 R288, R289) -/

theorem execChainStatus_of_ready (h : Ready 0x0901 observe r s) (hlen : r.payload = []) :
    execChainStatus r s = .next (s.complete r 0x0901 (done (leBytes 4 s.lathStatus ++ leBytes 4 s.stack.chain.ringDelay.toNat ++
      leBytes 4 s.stack.chain.lastWord ++ zeros 4 ++
        (s.stack.chain.modules.toList.map (fun m => leBytes 4 m.statusWord)).flatten))) :=
  h.next_ok (len_zero hlen) rfl

theorem execChainEnumerate_of_quiet (h : Ready 0x0902 configure r s) (hlen : r.payload = [])
    (hidle : s.stack.chain.enumerate = none) (hquiet : s.allQuiet = true) (hlock : s.chainDown = false) :
    execChainEnumerate r s = .next ((s.startEnumeration (some r)).park r 0x0902) :=
  h.next_wait (len_zero hlen) (by simp [hidle, hquiet, hlock])

theorem execChainModuleRead_of_age (h : Ready 0x0903 observe r s) (hlen : r.payload.length = 2)
    (hm : numAt r.payload 0 1 = m.val) (hage : numAt r.payload 1 1 ≤ 3) :
    execChainModuleRead r s = .next (s.complete r 0x0903 (done (match (s.module_ m).sweeps[numAt r.payload 1 1]? with
      | none => zeros 80
      | some e => leBytes 8 e.time.toNat ++ [e.flags] ++ (if e.raw.length = 72 then e.raw else zeros 72).drop 1))) := by
  refine h.next_ok (len_none.mpr hlen) ?_
  simp only [hm, named_val, if_neg (Nat.not_lt.mpr hage)]
  cases (s.module_ m).sweeps[numAt r.payload 1 1]? <;> rfl

/-- The mask names cells of the module, no more of them than BAL_MAX. -/
theorem execChainBalance_of_bound (h : Ready 0x0904 service r s) (hshape : lenZ 8 [(1, 1)] r.payload = none)
    (hm : numAt r.payload 0 1 = m.val) (hlock : s.chainDown = false) (hbound : (s.module_ m).run.bound = true)
    (hen : bitAt (s.held (moId m 0)) 1 = true) (hcells : numAt r.payload 4 4 < 2 ^ s.nCell m)
    (hmax : (maskList 24 (numAt r.payload 4 4)).length ≤ bitsOf (s.held (moId m 0)) 23 16) (hshort : 1 ≤ numAt r.payload 2 2)
    (hlong : numAt r.payload 2 2 ≤ 10000) :
    execChainBalance r s = .next ((s.modChain (fun c => { c with balance := c.balance ++ [r] })).park r 0x0904) := by
  have hrange : (2 ^ s.nCell m ≤ numAt r.payload 4 4 ||
      decide (bitsOf (s.held (moId m 0)) 23 16 < (maskList 24 (numAt r.payload 4 4)).length) ||
      numAt r.payload 2 2 < 1 || 10000 < numAt r.payload 2 2) = false := by
    simp [hcells, hmax, Nat.ne_of_gt hshort, hlong]
  refine h.next_wait hshape ?_
  simp only [hm, named_val, hlock, hbound, hen, hrange, Bool.not_true, Bool.false_eq_true, if_false]

theorem execChainNodeCmd_of_port {q : Fin 2} (h : Ready 0x0905 service r s) (hmin : 4 ≤ r.payload.length)
    (hmax : r.payload.length ≤ 260) (hzero : zeroAt r.payload 3 1 = true) (hq : numAt r.payload 0 1 = q.val)
    (hnot2 : numAt r.payload 2 1 ≠ 2) (hnot3 : numAt r.payload 2 1 ≠ 3) (hnot6 : numAt r.payload 2 1 ≠ 6)
    (hlock : s.chainDown = false) (hen : s.chainEn q = true) :
    execChainNodeCmd r s = .next ((s.modChain (fun c => { c with node := c.node ++ [r] })).park r 0x0905) := by
  refine h.next_wait ?_ ?_
  · exact (if_neg (by omega)).trans (if_pos hzero)
  · simp [hq, hnot2, hnot3, hnot6, hlock, hen]

theorem execChainProbe_of_lock (h : Ready 0x0906 configure r s) (hlen : r.payload = []) (hlock : s.chainDown = false) :
    execChainProbe r s =
      .next ((s.modChain (fun c => { c with probing := true, probeWaits := c.probeWaits ++ [r] })).park r 0x0906) :=
  h.next_wait (len_zero hlen) (if_neg (ne_true_of_eq_false hlock))

/-- A request whose payload is one module position. -/
theorem named_modulePayload (hpayload : r.payload = [BitVec.ofNat 8 m.val]) : named 64 (numAt r.payload 0 1) = some m := by
  rw [hpayload, numAt_fin (by decide), named_val]

theorem len_modulePayload (hpayload : r.payload = [BitVec.ofNat 8 m.val]) : len 1 r.payload = none :=
  len_none.mpr (congrArg List.length hpayload)

theorem execModuleAccept_of_compatible (h : Ready 0x0907 service r s) (hpayload : r.payload = [BitVec.ofNat 8 m.val])
    (hrun : (s.module_ m).run = .uidMismatch) :
    let t := s.setParam (moId m 1) (s.module_ m).uid.toNat
    t.nCell m ≤ (s.module_ m).nCellMax → t.tMask m &&& (s.module_ m).tMaskMax.toNat = t.tMask m →
    execModuleAccept r s = .next ((((t.moduleTo m .ok).modModule m
      (fun y => { y with missRun := 0, goodRun := 0 })).relearn m).complete r 0x0907 done) := by
  intro t hcells hsensors
  refine h.next_ok (len_modulePayload hpayload) ?_
  have hfits : (decide (t.nCell m ≤ (s.module_ m).nCellMax) &&
      (t.tMask m &&& (s.module_ m).tMaskMax.toNat) == t.tMask m) = true := by
    simp [hcells, hsensors]
  simp only [named_modulePayload hpayload, hrun, bne_self_eq_false, Bool.false_eq_true, if_false]
  change Res.ok done (((t.moduleTo m (if (decide (t.nCell m ≤ (s.module_ m).nCellMax) &&
      (t.tMask m &&& (s.module_ m).tMaskMax.toNat) == t.tMask m) then .ok else .incompatible)).modModule m _).relearn m) = _
  rw [if_pos hfits]

/-! ### Estimation (10 R312, R318, R319) -/

theorem execEstStatusRead_of_ready (h : Ready 0x0A01 observe r s) (hlen : r.payload = []) :
    execEstStatusRead r s = .next (s.complete r 0x0A01 (done (leBytes 4 s.estWord ++ ((List.finRange 4).map (fun p =>
      leBytes 2 (s.socShown p) ++ leBytes 2 (match (s.sest p).x with | some x => field16 x | none => 0xFFFF) ++
        leBytes 2 (s.sohShown p) ++ zeros 2 ++ leBytes 4 (ahField (s.sest p).qDis) ++
        leBytes 4 (ahField (s.sest p).qChg))).flatten))) :=
  h.next_ok (len_zero hlen) rfl

theorem execEstCellRead_of_module (h : Ready 0x0A02 observe r s) (hpayload : r.payload = [BitVec.ofNat 8 m.val]) :
    execEstCellRead r s = .next (s.complete r 0x0A02 (done (leBytes 4 (s.mEstWord m) ++ leBytes 8 (s.mest m).updatedAt ++
      zeros 4 ++ (((s.mest m).used (s.nCell m)).map Cell.item).flatten))) :=
  h.next_ok (len_modulePayload hpayload) (by simp only [named_modulePayload hpayload])

theorem execEstLearnNow_of_open (h : Ready 0x0A03 configure r s) (hlen : r.payload = []) (hheld : s.nvmHeld = false) :
    execEstLearnNow r s = .next (((s.journalEst (fun m => (s.mest m).changed)).modEst
      (fun e => { e with learnWaits := e.learnWaits ++ [r] })).park r 0x0A03) :=
  h.next_wait (len_zero hlen) (if_neg (ne_true_of_eq_false hheld))

theorem execEstSetSoc_of_module (h : Ready 0x0A04 service r s) (hlen : r.payload.length = 4) (hscope : numAt r.payload 0 1 = 0)
    (hm : numAt r.payload 1 1 = m.val) (hsoc : numAt r.payload 2 2 ≤ 10000)
    (hquiet : ∀ p, s.portOfModule m = some p → (s.groupsOfPort p).any (fun g => !(s.group g).mode.isQuiet) = false)
    (hbarred : s.estBarred m = none) :
    execEstSetSoc r s =
      .next ((s.modEst (fun e => { e with sets := e.sets ++ [{ req := r, left := [m.val] }] })).park r 0x0A04) := by
  have hports : ([m].filterMap s.portOfModule).any
      (fun p => (s.groupsOfPort p).any (fun g => !(s.group g).mode.isQuiet)) = false := by
    cases hport : s.portOfModule m with
    | none => simp [hport]
    | some p => simpa [hport] using hquiet p hport
  refine h.next_wait (len_none.mpr hlen) ?_
  simp [hscope, hm, hsoc, hports, hbarred]

theorem execEstSetSoc_of_port {p : Fin 4} (h : Ready 0x0A04 service r s) (hlen : r.payload.length = 4)
    (hscope : numAt r.payload 0 1 = 1) (hp : numAt r.payload 1 1 = p.val) (hsoc : numAt r.payload 2 2 ≤ 10000)
    (hquiet : (s.groupsOfPort p).any (fun g => !(s.group g).mode.isQuiet) = false)
    (hbarred : (s.readModules p).findSome? s.estBarred = none) (hmodules : s.readModules p ≠ []) :
    execEstSetSoc r s = .next ((s.modEst (fun e => { e with
      sets := e.sets ++ [{ req := r, left := (s.readModules p).map (·.val) }] })).park r 0x0A04) := by
  refine h.next_wait (len_none.mpr hlen) ?_
  simp [hscope, hp, hsoc, hquiet, hbarred, hmodules]

theorem execEstRelearn_of_permitted (h : Ready 0x0A05 service r s) (hpayload : r.payload = [BitVec.ofNat 8 m.val])
    (hbarred : s.estBarred m = none) :
    execEstRelearn r s = .next (((s.relearn m).auditReplaced r 0x0A05).complete r 0x0A05 done) :=
  h.next_ok (len_modulePayload hpayload) (by simp only [named_modulePayload hpayload, hbarred])

end StackOpcodes

/-- Settles O36. `exec` of each of these opcodes is its meaning by definition. -/
theorem stackCommands : Obligations.StackCommands := by
  unfold Obligations.StackCommands
  refine ⟨?_, ?_, ?_, ?_, ?_, ?_, ?_, ?_, ?_, ?_, ?_, ?_, ?_⟩
  · exact fun _ _ h hlen => execChainStatus_of_ready h hlen
  · exact fun _ _ h hlen hidle hquiet hlock => execChainEnumerate_of_quiet h hlen hidle hquiet hlock
  · exact fun _ _ _ h hlen hm hage => execChainModuleRead_of_age h hlen hm hage
  · exact fun _ _ _ h hshape hm hlock hbound hen hcells hmax hshort hlong =>
      execChainBalance_of_bound h hshape hm hlock hbound hen hcells hmax hshort hlong
  · exact fun _ _ _ h hmin hmax hzero hq hnot2 hnot3 hnot6 hlock hen =>
      execChainNodeCmd_of_port h hmin hmax hzero hq hnot2 hnot3 hnot6 hlock hen
  · exact fun _ _ h hlen hlock => execChainProbe_of_lock h hlen hlock
  · exact fun _ _ h hlen => execEstStatusRead_of_ready h hlen
  · exact fun _ _ _ h hpayload => execEstCellRead_of_module h hpayload
  · exact fun _ _ h hlen hheld => execEstLearnNow_of_open h hlen hheld
  · exact fun _ _ _ h hlen hscope hm hsoc hquiet hbarred => execEstSetSoc_of_module h hlen hscope hm hsoc hquiet hbarred
  · exact fun _ _ _ h hlen hscope hp hsoc hquiet hbarred hmodules =>
      execEstSetSoc_of_port h hlen hscope hp hsoc hquiet hbarred hmodules
  · exact fun _ _ _ h hpayload hbarred => execEstRelearn_of_permitted h hpayload hbarred
  · exact fun _ _ _ h hpayload hrun hcells hsensors => execModuleAccept_of_compatible h hpayload hrun hcells hsensors

end Sys2Proof.Machine
end

section
/-! The events of state estimation (10 R293, R294, R302, R308, R312 to R316; the intervals of an MRAM with a retired bank, 19
R506): what each row does, by its outcome. -/

namespace Sys2Proof.Machine

section EstimationRows

variable {s : State}

/-! ### Updates, divergence and stale temperature (10 R293, R294, R302) -/

variable {m : Fin 64} {c : Fin 24}

theorem execFloatUpdate_of_on (hon : s.engineOn = true) :
    let t := multipleFrom s.updateStep ((s.mest m).updatedAt + 1)
    let u := (((s.atDevice t).pickEst m).applyFloat.takeType 3 16).takeType 4 16
    let v := u.floatModule m (u.mest m).x
    execFloatUpdate m s = .next ((v.modMest m (fun x => { x with
      updatedAt := max t x.updatedAt, window := x.window.filter (fun e => decide (v.now < e.time.toNat))
      dq := 0, gaps := 0 })).floatString m t) :=
  if_neg (by simp [hon])

theorem execFloatUpdate_of_off (hoff : s.engineOn = false) : execFloatUpdate m s = .next s :=
  if_pos (by simp [hoff])

theorem execCellDiverged_of_off (hoff : s.engineOn = false) : execCellDiverged m c s = .next s :=
  if_pos (by simp [hoff])

theorem execCellDiverged_of_bad (hon : s.engineOn = true) (hbad : 50 ≤ ((s.mest m).cells[c.val]).badRun) :
    let f := s.floatIn m ((s.portOfModule m).getD 0) false (s.mest m).temp
    let y := (s.mest m).cells[c.val]
    execCellDiverged m c s = .next ((s.modMest m (fun x => { x with
      diverged := true, cells := vmod x.cells c (fun z => { z with
        badRun := 0, diverged := true, cov := f.cov0 (ocvLookup f.ocv y.z f.temp y.h).2 }) })).raise 172) :=
  (if_neg (by simp [hon])).trans (if_pos (decide_eq_true hbad))

theorem execCellDiverged_of_good (hon : s.engineOn = true) (hfew : ((s.mest m).cells[c.val]).badRun < 50)
    (hdiverged : (s.mest m).diverged = true)
    (hgood : ((s.mest m).used (s.nCell m)).all (fun z => decide (600 ≤ z.goodRun)) = true) :
    execCellDiverged m c s = .next (s.modMest m (fun x =>
      { x with diverged := false, cells := x.cells.map (fun z => { z with diverged := false }) })) :=
  ((if_neg (by simp [hon])).trans (if_neg (by simp [hfew]))).trans
    (if_pos (Bool.and_eq_true_iff.mpr ⟨hdiverged, hgood⟩))

theorem execTempStale_of_off (hoff : s.engineOn = false) : execTempStale m s = .next s :=
  if_pos (by simp [hoff])

theorem execTempStale_of_predicting (hon : s.engineOn = true) (hruns : s.estRuns m = true)
    (hpredict : (s.mest m).predictOnly = true) (hfresh : (s.mest m).tempStale = false) :
    execTempStale m s = .next ((s.atLeast ((s.mest m).tempAt + 60000000000)).modMest m
      (fun y => { y with tempStale := true })) :=
  if_neg (by simp [hon, hruns, hpredict, hfresh])

/-! ### Balancing and learning (10 R308, R312) -/

theorem execBalancingDecision_of_on (hon : s.firmwareOn = true) :
    let t := s.atLeast (s.stack.est.lastBalance + 1000000000)
    execBalancingDecision s = .next (((List.finRange 64).foldl (fun u m => match t.portOfModule m with
      | some p => u.modModule m (fun x => { x with mask := t.chooseMask m p })
      | none => u) t).modEst (fun e => { e with lastBalance := t.clk })) :=
  if_neg (by simp [hon])

theorem execLearningInterval_of_on (hon : s.firmwareOn = true) :
    let t := s.atLeast (s.stack.est.lastLearn + (if s.nv.nvm.retired.isEmpty then 1 else 4) * s.held 0x1204 * 1000000000)
    let u := (t.journalEst (fun m => (t.mest m).changed)).journalCounters
    execLearningInterval s = .next (u.modEst (fun e => { e with lastLearn := u.clk })) :=
  if_neg (by simp [hon])

/-! ### Rates (10 R315, R316) -/

theorem execReducedRateEntry_of_quiet {q : Nanos} (hon : s.firmwareOn = true) (hsince : s.stack.est.quietSince = some q)
    (hfull : s.stack.est.rate = .full) (hallowed : bitAt (s.held 0x1211) 0 = true) (hquiet : s.quiet = true) :
    let t := s.atLeast (q + bitsOf (s.held 0x1211) 15 8 * 1000000000)
    execReducedRateEntry s =
      .next ((t.modEst (fun e => { e with rate := .reduced, reducedSince := t.clk, leave := false })).raise 168) := by
  simp [execReducedRateEntry, hsince, hon, hfull, hallowed, hquiet]

theorem execFullRateResume_of_leave (hon : s.firmwareOn = true) (hleave : s.stack.est.leave = true) :
    execFullRateResume s = .next s.fullRate :=
  if_pos (by simp [hon, hleave])

theorem execFullRateResume_of_stay (hstay : s.stack.est.leave = false) : execFullRateResume s = .next s :=
  if_neg (by simp [hstay])

theorem execHibernateEntry_of_reduced (hon : s.firmwareOn = true) (hreduced : s.stack.est.rate = .reduced)
    (hallowed : bitAt (s.held 0x1200) 2 = true) (hquiet : s.allQuiet = true) :
    let t := s.atLeast (s.stack.est.reducedSince + 900000000000)
    execHibernateEntry s = .next ((((t.modEst (fun e => { e with rate := .hibernate, lastRecord := t.clk })).modChain
      (fun c => { c with modules := c.modules.map (fun m => { m with mask := 0 }) })).hibernateRecords 0).raise 168) :=
  if_neg (by simp [hon, hreduced, hallowed, hquiet])

theorem execHibernateRecord_of_hibernate (hon : s.firmwareOn = true) (hhibernate : s.stack.est.rate = .hibernate) :
    let t := s.atLeast (s.stack.est.lastRecord + 60000000000)
    execHibernateRecord s = .next ((t.modEst (fun e => { e with lastRecord := t.clk })).hibernateRecords 2) :=
  if_neg (by simp [hon, hhibernate])

/-! ### End of life (10 R314) -/

theorem execEndOfLife_of_low {p : Fin 4} {t0 : Nanos} (hon : s.firmwareOn = true) (hsince : (s.sest p).eolSince = some t0)
    (hnew : (s.sest p).eol = false) :
    let t := (s.atLeast (t0 + 86400000000000)).modSest p (fun e => { e with eol := true })
    execEndOfLife p s = .next ((t.store 0x31 0 t.stringRecord).raise 171) := by
  simp [execEndOfLife, hsince, hon, hnew]

end EstimationRows

/-- Settles O37: each row takes the branch that its hypotheses name. -/
theorem estimationEvents : Obligations.EstimationEvents := by
  unfold Obligations.EstimationEvents
  refine ⟨?_, ?_, ?_, ?_, ?_, ?_, ?_, ?_, ?_, ?_, ?_, ?_, ?_⟩
  · exact fun _ _ hon => execFloatUpdate_of_on hon
  · exact fun _ _ _ hoff => ⟨execFloatUpdate_of_off hoff, execCellDiverged_of_off hoff, execTempStale_of_off hoff⟩
  · exact fun _ _ _ hon hfew hdiverged hgood => execCellDiverged_of_good hon hfew hdiverged hgood
  · exact fun _ _ _ hon hbad => execCellDiverged_of_bad hon hbad
  · exact fun _ _ hon hruns hpredict hfresh => execTempStale_of_predicting hon hruns hpredict hfresh
  · exact fun _ hon => execBalancingDecision_of_on hon
  · exact fun _ hon => execLearningInterval_of_on hon
  · exact fun _ _ hon hsince hfull hallowed hquiet => execReducedRateEntry_of_quiet hon hsince hfull hallowed hquiet
  · exact fun _ hon hleave => execFullRateResume_of_leave hon hleave
  · exact fun _ _ hstay => execFullRateResume_of_stay hstay
  · exact fun _ hon hreduced hallowed hquiet => execHibernateEntry_of_reduced hon hreduced hallowed hquiet
  · exact fun _ hon hhibernate => execHibernateRecord_of_hibernate hon hhibernate
  · exact fun _ _ _ hon hsince hnew => execEndOfLife_of_low hon hsince hnew

end Sys2Proof.Machine
end

section
/-! The events of a stipple sweep (11 R328 to R338): what each row does, by its outcome. -/

namespace Sys2Proof.Machine

section SweepRows

variable {p : Fin 4} {s : State}

/-! ### The start of a sweep (11 R321, R328) -/

/-- A scheduled sweep without an abort cause acts on the clock at its AT, by the conditions of R321. -/
theorem execStippleSweepStart_of_scheduled (hon : s.engineOn = true) (hrun : (s.stp p).run = .scheduled)
    (habort : (s.stp p).abort = 0) :
    let t := s.atDevice (s.stp p).at_.toNat
    execStippleSweepStart p s = if !t.sweepFits p then .next (t.modSweep p (fun y => { y with abort := 2 })) else
      .next (((t.modSweep p (fun y => t.placeTimes p { y with
        run := .waiting, point := 0, repeats := 0, base := (y.at_.toNat : Rat), discards := 0, skips := 0, donePoints := 0
        records := [], unwritten := 0, sums := [], discard := false, deferSince := none })).toCcm p).fullRate) :=
  if_neg (by simp [hon, hrun, habort])

theorem execStippleSweepStart_of_fits (hon : s.engineOn = true) (hrun : (s.stp p).run = .scheduled)
    (habort : (s.stp p).abort = 0) :
    let t := s.atDevice (s.stp p).at_.toNat
    t.sweepFits p = true →
    execStippleSweepStart p s = .next (((t.modSweep p (fun y => t.placeTimes p { y with
      run := .waiting, point := 0, repeats := 0, base := (y.at_.toNat : Rat), discards := 0, skips := 0, donePoints := 0
      records := [], unwritten := 0, sums := [], discard := false, deferSince := none })).toCcm p).fullRate) :=
  fun hfits => (execStippleSweepStart_of_scheduled hon hrun habort).trans (if_neg (by simp [hfits]))

theorem execStippleSweepStart_of_misfit (hon : s.engineOn = true) (hrun : (s.stp p).run = .scheduled)
    (habort : (s.stp p).abort = 0) :
    let t := s.atDevice (s.stp p).at_.toNat
    t.sweepFits p = false →
    execStippleSweepStart p s = .next (t.modSweep p (fun y => { y with abort := 2 })) :=
  fun hmisfit => (execStippleSweepStart_of_scheduled hon hrun habort).trans (if_pos (by simp [hmisfit]))

/-! ### The start of a point (11 R323, R326, R334) -/

/-- The state in which a point is placed: the clock at T_0, and the parameters as the point takes them (11 R341). -/
def State.atPoint (s : State) (p : Fin 4) : State :=
  let u := s.atDevice (ceilQ (s.stp p).t0).toNat
  u.modSweep p u.takePars

/-- A point that is due: the sweep is between points, has one left, and neither ends nor defers. -/
structure State.PointDue (s : State) (p : Fin 4) : Prop where
  on : s.engineOn = true
  between : (s.stp p).run = .waiting ∨ (s.stp p).run = .gap
  left : (s.stp p).finished = false
  going : (s.stp p).abort = 0
  notDeferred : (s.stp p).deferSince = none

/-- A due point off the grid aborts the sweep. One on it starts with the amplitude that the headroom gives; without one
it is skipped (PLANT), or defers (LOCAL). -/
theorem execStipplePointStart_of_due (h : s.PointDue p) :
    let t := s.atPoint p
    execStipplePointStart p s = if !t.gridOk (s.stp p).freq (s.stp p).cycles then .next (t.stippleAbort p 7)
      else match t.placeable p with
      | some a => .next (t.modSweep p (fun y => { y with
          run := .settling, amp := a, perturbing := true, discard := false, sums := [] }))
      | none =>
        if (s.stp p).plant then .next (((t.modSweep p (fun y => { y with skips := y.skips + 1 })).nextPoint p).raise 175)
        else .next (t.modSweep p (fun y => { y with run := .waiting, deferSince := some t.clk })) := by
  refine if_neg ?_
  rcases h.between with hwaiting | hgap
  · simp [h.on, hwaiting, h.left, h.going, h.notDeferred]
  · simp [h.on, hgap, h.left, h.going, h.notDeferred]

theorem execStipplePointStart_of_offGrid (h : s.PointDue p)
    (hgrid : (s.atPoint p).gridOk (s.stp p).freq (s.stp p).cycles = false) :
    execStipplePointStart p s = .next ((s.atPoint p).stippleAbort p 7) :=
  (execStipplePointStart_of_due h).trans (if_pos (by simp [hgrid]))

theorem execStipplePointStart_of_placed {a : Rat} (h : s.PointDue p)
    (hgrid : (s.atPoint p).gridOk (s.stp p).freq (s.stp p).cycles = true) (hplace : (s.atPoint p).placeable p = some a) :
    execStipplePointStart p s = .next ((s.atPoint p).modSweep p (fun y => { y with
      run := .settling, amp := a, perturbing := true, discard := false, sums := [] })) := by
  simp only [execStipplePointStart_of_due h, hgrid, hplace, Bool.not_true, Bool.false_eq_true, if_false]

theorem execStipplePointStart_of_deferred (h : s.PointDue p)
    (hgrid : (s.atPoint p).gridOk (s.stp p).freq (s.stp p).cycles = true) (hnone : (s.atPoint p).placeable p = none)
    (hlocal : (s.stp p).plant = false) :
    execStipplePointStart p s = .next ((s.atPoint p).modSweep p (fun y => { y with
      run := .waiting, deferSince := some (s.atPoint p).clk })) := by
  simp only [execStipplePointStart_of_due h, hgrid, hnone, hlocal, Bool.not_true, Bool.false_eq_true, if_false]

theorem execStipplePointStart_of_skipped (h : s.PointDue p)
    (hgrid : (s.atPoint p).gridOk (s.stp p).freq (s.stp p).cycles = true) (hnone : (s.atPoint p).placeable p = none)
    (hplant : (s.stp p).plant = true) :
    execStipplePointStart p s =
      .next ((((s.atPoint p).modSweep p (fun y => { y with skips := y.skips + 1 })).nextPoint p).raise 175) := by
  simp only [execStipplePointStart_of_due h, hgrid, hnone, hplant, Bool.not_true, Bool.false_eq_true, if_false, if_true]

/-! ### The end of a deferral (11 R334) -/

theorem execStippleDeferTimeout_of_deferred {d : Nanos} (hon : s.engineOn = true) (hdefer : (s.stp p).deferSince = some d)
    (habort : (s.stp p).abort = 0) :
    execStippleDeferTimeout p s = .next ((s.atLeast (d + (s.stp p).par 6 * 1000000000)).stippleAbort p 6) := by
  simp [execStippleDeferTimeout, hon, hdefer, habort]

/-! ### The end of a point (11 R331 to R335) -/

/-- A point whose perturbation stops by itself, at e. -/
structure State.PointStops (s : State) (p : Fin 4) (e : Rat) : Prop where
  on : s.engineOn = true
  perturbing : (s.stp p).perturbing = true
  going : (s.stp p).abort = 0
  left : (s.stp p).finished = false
  stop : (s.stp p).stopAt = some e

variable {e : Rat} {amps : List (List Capture × List Capture × Nat)}

/-- A discarded point is repeated while a LOCAL sweep has repetitions left (STP_REPEATS), else left. -/
theorem execStipplePointEnd_of_discard (h : s.PointStops p e) (hdiscard : (s.stp p).discard = true) :
    let t := (s.atDevice (ceilQ e).toNat).modSweep p (fun y => { y with discards := y.discards + 1 })
    execStipplePointEnd p amps s = if !(s.stp p).plant && decide ((s.stp p).repeats < (s.stp p).par 5) then
        .next ((t.modSweep p (fun y => t.placeTimes p { y with
          repeats := y.repeats + 1, base := y.stopAt.getD y.base, perturbing := false, discard := false, sums := []
          run := .gap })).raise 175)
      else
        .next (((t.modSweep p (fun y => { y with
          skips := if y.plant then y.skips + 1 else y.skips })).nextPoint p).raise 175) := by
  simp only [execStipplePointEnd, h.on, h.perturbing, h.going, h.left, h.stop, hdiscard, Bool.not_true, bne_self_eq_false,
    Bool.or_false, Bool.false_eq_true, if_false, if_true]

theorem execStipplePointEnd_of_good (h : s.PointStops p e) (hgood : (s.stp p).discard = false) :
    let t := s.atDevice (ceilQ e).toNat
    let rs := (t.readModules p).map (t.pointRecord p ((s.stp p).pointSums (amps.map (t.ampsAt p))))
    execStipplePointEnd p amps s = .next (((t.modSweep p (fun y => { y with
      records := y.records ++ rs, unwritten := y.unwritten + rs.length
      donePoints := y.donePoints ||| (1#32 <<< y.point) })).nextPoint p).writePoints p) := by
  simp only [execStipplePointEnd, h.on, h.perturbing, h.going, h.left, h.stop, hgood, Bool.not_true, bne_self_eq_false,
    Bool.or_false, Bool.false_eq_true, if_false]

/-! ### The end of a sweep (11 R338) -/

/-- The port's sweep becomes the last one, and its port is idle. -/
def StippleSweep.close (y : StippleSweep) : StippleSweep :=
  { y with
    run := .idle, perturbing := false, discard := false, deferSince := none, sums := [], abort := 0
    lastNumber := y.number, lastPoints := (maskList 32 y.donePoints.toNat).length, lastCause := y.abort }

theorem execStippleSweepEnd_of_abort (hon : s.firmwareOn = true) (hrun : (s.stp p).run ≠ .idle)
    (hstopped : (s.stp p).perturbing = false) (habort : (s.stp p).abort ≠ 0) :
    let t := s.writePoints p
    execStippleSweepEnd p s = .next ((((t.event .burpol .everyEvent 0x54 ((s.stp p).endBody p t.now 0)).modSweep p
      StippleSweep.close).modStp
      (fun y => { y with cntSweeps := y.cntSweeps + 1#32, cntAborts := satInc y.cntAborts })).raise 175) := by
  have hcause : ((s.stp p).abort == 0) = false := beq_false_of_ne habort
  simp only [execStippleSweepEnd, hon, beq_false_of_ne hrun, hcause, hstopped, bne, Bool.not_true, Bool.not_false,
    Bool.or_false, Bool.false_and, Bool.false_eq_true, if_false, if_true, State.raiseIf]
  rfl

theorem execStippleSweepEnd_of_finished (hon : s.firmwareOn = true) (hrun : (s.stp p).run ≠ .idle)
    (hstarted : (s.stp p).run ≠ .scheduled) (hstopped : (s.stp p).perturbing = false) (habort : (s.stp p).abort = 0)
    (hfinished : (s.stp p).finished = true) :
    let e := if bitAt (s.param 0x1400) 1 then ((s.writePoints p).readModules p).foldl (fun a m =>
        ((a.1.learnModule p m).1, a.2 + (a.1.learnModule p m).2)) (s.writePoints p, 0) else (s.writePoints p, 0)
    execStippleSweepEnd p s = .next (((e.1.event .burpol .everyEvent 0x54 ((s.stp p).endBody p e.1.now e.2)).modSweep p
      StippleSweep.close).modStp (fun y => { y with cntSweeps := y.cntSweeps + 1#32 })) := by
  simp only [execStippleSweepEnd, hon, beq_false_of_ne hrun, beq_false_of_ne hstarted, hstopped, habort, hfinished,
    bne_self_eq_false, beq_self_eq_true, Bool.not_true, Bool.or_false, Bool.and_false, Bool.true_and, Bool.false_eq_true,
    if_false, State.raiseIf]
  rfl

end SweepRows

/-- Settles O38: each row takes the branch that its hypotheses name. -/
theorem stippleEvents : Obligations.StippleEvents := by
  unfold Obligations.StippleEvents
  refine ⟨?_, ?_, ?_, ?_, ?_, ?_, ?_, ?_, ?_⟩
  · exact fun _ _ hon hrun habort hfits => execStippleSweepStart_of_fits hon hrun habort hfits
  · exact fun _ _ hon hrun habort hmisfit => execStippleSweepStart_of_misfit hon hrun habort hmisfit
  · intro p a s hon hbetween hleft hgoing hdefer
    have hdue : s.PointDue p := ⟨hon, hbetween, hleft, hgoing, hdefer⟩
    exact ⟨execStipplePointStart_of_placed hdue, execStipplePointStart_of_deferred hdue,
      execStipplePointStart_of_skipped hdue, execStipplePointStart_of_offGrid hdue⟩
  · exact fun _ _ _ hon hdefer habort => execStippleDeferTimeout_of_deferred hon hdefer habort
  · exact fun _ _ _ _ hon hpert hgoing hleft hstop hdiscard hplant =>
      (execStipplePointEnd_of_discard ⟨hon, hpert, hgoing, hleft, hstop⟩ hdiscard).trans (if_neg (by simp [hplant]))
  · exact fun _ _ _ _ hon hpert hgoing hleft hstop hgood =>
      execStipplePointEnd_of_good ⟨hon, hpert, hgoing, hleft, hstop⟩ hgood
  · exact fun _ _ _ _ hon hpert hgoing hleft hstop hdiscard hlocal hrepeats =>
      (execStipplePointEnd_of_discard ⟨hon, hpert, hgoing, hleft, hstop⟩ hdiscard).trans
        (if_pos (by simp [hlocal, hrepeats]))
  · exact fun _ _ hon hrun hstopped habort => execStippleSweepEnd_of_abort hon hrun hstopped habort
  · exact fun _ _ hon hrun hstarted hstopped habort hfinished =>
      execStippleSweepEnd_of_finished hon hrun hstarted hstopped habort hfinished

end Sys2Proof.Machine
end

section
/-! The opcodes of stipple sweeps (11 R336, R337, R342, R343): what each one does, by its outcome. -/

namespace Sys2Proof.Machine

section SweepOpcodes

variable {r : Req} {p : Fin 4} {s : State}

theorem execStippleStart_of_idle {b : List Byte} (h : Ready 0x0B01 control r s) (hshape : lenZ 12 [(3, 1)] r.payload = none)
    (hflags : numAt r.payload 2 1 < 2) (hp : numAt r.payload 0 1 = p.val) (hlease : s.holdsLease r.owner = true) :
    let id := if numAt r.payload 1 1 = 0xFF then s.param (0x1410 + 4 * p.val) else numAt r.payload 1 1
    bitAt (s.param 0x1400) 0 = true → (s.stp p).run = .idle → s.namedBody 9 id = some b →
    s.planGrid b = true → (s.groupsOfPort p).any (fun g => (s.group g).pair.paired) = false →
    (bitAt (numAt r.payload 2 1) 0 = true → numAt r.payload 4 8 % 1000000000 = 0 ∧
      s.now + 1000000000 ≤ numAt r.payload 4 8) →
    execStippleStart r s = .next ((s.modSweep p (fun y => { y with
      run := .scheduled, plant := bitAt (numAt r.payload 2 1) 0, planId := id, plan := b, number := (s.stp p).number + 1#16, abort := 0
      point := 0, repeats := 0, at_ := BitVec.ofNat 64 (max (numAt r.payload 4 8) s.now) })).complete r 0x0B01
        (done (leBytes 2 ((s.stp p).number + 1#16).toNat))) := by
  intro id hen hidle hplan hgrid hunpaired hat
  have haccepted : (bitAt (numAt r.payload 2 1) 0 && (decide (numAt r.payload 4 8 % 1000000000 ≠ 0) ||
      decide (numAt r.payload 4 8 < s.now + 1000000000))) = false := by
    cases hplant : bitAt (numAt r.payload 2 1) 0 with
    | false => rfl
    | true =>
      obtain ⟨hwhole, hlater⟩ := hat hplant
      simp [hwhole, hlater]
  refine h.next_ok ?_ ?_
  · simp [hshape, hflags]
  · simp only [State.needLease_holds hlease, hp, named_val, hen, hidle, hplan, hgrid, hunpaired, haccepted, bne_self_eq_false,
      Bool.not_true, Bool.false_eq_true, if_false, id]

theorem execStippleAbort_of_running (h : Ready 0x0B02 control r s) (hpayload : r.payload = [BitVec.ofNat 8 p.val])
    (hlease : s.holdsLease r.owner = true) (hrun : (s.stp p).run ≠ .idle) :
    execStippleAbort r s = .next ((s.stippleAbort p 1).complete r 0x0B02 done) :=
  h.next_ok (len_one_of_payload hpayload) (by
    simp only [State.needLease_holds hlease, named_of_payload (by decide) hpayload, beq_false_of_ne hrun,
      Bool.false_eq_true, if_false])

theorem execStippleStatus_of_mask (h : Ready 0x0B03 observe r s) (hlen : r.payload.length = 1)
    (hmask : numAt r.payload 0 1 < 16) :
    execStippleStatus r s = .next (s.complete r 0x0B03
      (done (((List.finRange 4).filter (fun p => bitAt (numAt r.payload 0 1) p.val)).map (fun p =>
        leBytes 1 p.val ++ zeros 3 ++ leBytes 4 (s.stp p).stateWord ++ leBytes 8 (s.stp p).atShown)).flatten)) :=
  h.next_ok (len_none.mpr hlen) (if_neg (Nat.not_le.mpr hmask))

theorem execStippleResult_of_record {m : Fin 64} {e : SweepRecord} (h : Ready 0x0B04 observe r s)
    (hlen : r.payload.length = 3) (hp : numAt r.payload 0 1 = p.val) (hm : numAt r.payload 1 1 = m.val)
    (hfound : (s.stp p).records.find? (fun e => e.module_ == m.val && e.point == numAt r.payload 2 1) = some e) :
    execStippleResult r s = .next (s.complete r 0x0B04 (done e.bytes)) :=
  h.next_ok (len_none.mpr hlen) (by simp only [hp, hm, named_val, hfound])

end SweepOpcodes

/-- Settles O39. `exec` of each of these opcodes is its meaning by definition. -/
theorem stippleCommands : Obligations.StippleCommands := by
  unfold Obligations.StippleCommands
  refine ⟨?_, ?_, ?_, ?_⟩
  · exact fun _ _ _ _ h hshape hflags hp hlease hen hidle hplan hgrid hunpaired hat =>
      execStippleStart_of_idle h hshape hflags hp hlease hen hidle hplan hgrid hunpaired hat
  · exact fun _ _ _ h hpayload hlease hrun => execStippleAbort_of_running h hpayload hlease hrun
  · exact fun _ _ h hlen hmask => execStippleStatus_of_mask h hlen hmask
  · exact fun _ _ _ _ _ h hlen hp hm hfound => execStippleResult_of_record h hlen hp hm hfound

end Sys2Proof.Machine
end

section
/-! What every step keeps of the stores, the fuses and the time (16 R428, R432; 02 R52; 19 R507, R508, R513; 13 R378, R382, R384),
and the step itself. -/

namespace Sys2Proof.Machine

/-- Settles O1: the front of a queue that is not empty is its first command. -/
theorem stepTakesFront : Obligations.StepTakesFront := fun _ _ _ => rfl

theorem step_of_idle {s : State} (h : s.pending = []) : step s = .next { s with clk := s.clk + 1 } := by
  simp only [step, h]

/-- Settles O2. -/
theorem idleStep : Obligations.IdleStep := fun _ h => step_of_idle h

/-- The idle step moves the clock and nothing else. -/
theorem tick_keeps (s : State) : Keeps s { s with clk := s.clk + 1 } :=
  ⟨rfl, Nat.le_succ _, .inl ⟨rfl, Int.le_refl _, id⟩, id, id, id, SecState.within_refl _, id⟩

/-- A step keeps what every command keeps, but for the command that it takes from the queue. -/
theorem step_keeps {s t : State} (h : step s = .next t) : Keeps { s with pending := t.pending } t := by
  cases hq : s.pending with
  | nil =>
    rw [step_of_idle hq] at h
    cases h
    exact tick_keeps s
  | cons c rest =>
    have hc : exec c { s with pending := rest } = .next t := by simpa only [step, hq] using h
    have hk := exec_keeps c _ t hc
    rw [hk.pending]
    exact hk

/-- Settles O5. -/
theorem storesStayCanonical : Obligations.StoresStayCanonical := by
  unfold Obligations.StoresStayCanonical
  intro s t hmem hparams ht
  exact ⟨(step_keeps ht).mem hmem, (step_keeps ht).params hparams⟩

/-- Settles O6. -/
theorem fusesBlowOneWay : Obligations.FusesBlowOneWay := by
  unfold Obligations.FusesBlowOneWay
  exact ⟨fun _ _ ht => (step_keeps ht).fuses, fun _ _ hs ht => (step_keeps ht).honest hs⟩

/-- Settles O7. -/
theorem timeNeverRunsBack : Obligations.TimeNeverRunsBack := by
  unfold Obligations.TimeNeverRunsBack
  exact fun _ _ ht => ⟨(step_keeps ht).clk, (step_keeps ht).aged⟩

end Sys2Proof.Machine
end

section
/-! What a store leaves in memory (16 R428, R432). -/

namespace Sys2Proof.Machine

theorem ite_of_iff {α : Type} {p q : Prop} [Decidable p] [Decidable q] (h : p ↔ q) {a b : α} :
    (if p then a else b) = if q then a else b :=
  ite_congr (propext h) (fun _ => rfl) (fun _ => rfl)

/-! ### A bank cut down by its keys -/

/-- A read of a canonical bank from which some keys have been taken: those keys are gone, the others as before. -/
theorem bankGet?_filterKey {α : Type} (q : Nat → Bool) (k : Nat) {lo : Nat} {b : Bank α} (h : bankRising lo b = true) :
    bankGet? k (b.filter (fun e => q e.1)) = if q k then bankGet? k b else none := by
  induction b generalizing lo with
  | nil => simp [bankGet?]
  | cons e b ih =>
    obtain ⟨j, x⟩ := e
    simp only [bankRising, Bool.and_eq_true, decide_eq_true_eq] at h
    obtain ⟨-, hrest⟩ := h
    have hbelow : k ≤ j → bankGet? k b = none := fun hk => bankGet?_below (Nat.lt_succ_of_le hk) hrest
    rcases Nat.lt_trichotomy k j with hlt | rfl | hgt
    · have hnone := ih hrest
      rw [hbelow (Nat.le_of_lt hlt), ite_self] at hnone
      cases hq : q j <;> simp [hq, bankGet?, hnone, hlt, Nat.ne_of_lt hlt]
    · have hnone := ih hrest
      rw [hbelow (Nat.le_refl k), ite_self] at hnone
      cases hq : q k <;> simp [hq, bankGet?, hnone]
    · have hskip : bankGet? k ((j, x) :: b) = bankGet? k b := by simp [bankGet?, Nat.ne_of_gt hgt, Nat.lt_asymm hgt]
      rw [hskip, ← ih hrest]
      cases hq : q j <;> simp [hq, bankGet?, Nat.ne_of_gt hgt, Nat.lt_asymm hgt]

theorem bankGet_filterKey {α : Type} [DecidableEq α] (d : α) (q : Nat → Bool) (k : Nat) {b : Bank α} (h : bankWf d b = true) :
    bankGet d k (b.filter (fun e => q e.1)) = if q k then bankGet d k b else d := by
  simp only [bankWf, Bool.and_eq_true] at h
  rw [bankGet, bankGet?_filterKey q k h.1]
  split <;> rfl

/-! ### Stores -/

namespace MemState

variable {m : MemState} {a c : Nat} {b : Byte}

theorem touch_of_written {g : Nat} (h : g ∈ m.written) : m.touch g = m := by
  simp [touch, h]

/-- The first store to a granule empties it (16 R432). -/
theorem byte_touch_of_unwritten {g : Nat} (h : g ∉ m.written) (hm : m.wf) :
    (m.touch g).byte c = if 0x1000000000 + g * 4096 ≤ c ∧ c < 0x1000000000 + (g + 1) * 4096 then 0#8 else m.byte c := by
  have hcut : (m.touch g).byte c = if (decide (c < 0x1000000000 + g * 4096) || decide (0x1000000000 + g * 4096 + 4096 ≤ c))
      then m.byte c else 0#8 := by
    rw [byte, touch, if_neg (by simpa using h)]
    exact bankGet_filterKey 0#8 (fun k => decide (k < 0x1000000000 + g * 4096) ||
      decide (0x1000000000 + g * 4096 + 4096 ≤ k)) c hm
  have houtside : (decide (c < 0x1000000000 + g * 4096) || decide (0x1000000000 + g * 4096 + 4096 ≤ c)) = true ↔
      ¬ (0x1000000000 + g * 4096 ≤ c ∧ c < 0x1000000000 + (g + 1) * 4096) := by
    rw [Bool.or_eq_true, decide_eq_true_eq, decide_eq_true_eq]
    omega
  rw [hcut, ite_of_iff houtside, ite_not]

/-- A store of a byte: the byte is read back, and every other address reads as after the touch of its granule. -/
theorem byte_putByte (hm : m.wf) :
    (m.putByte a b).byte c =
      if c = a then b else (if (regionAt a).isDram then m.touch (granule a) else m).byte c := by
  split
  next h => rw [h, byte_putByte_self a b hm]
  next h =>
    refine bankGet_set_ne 0#8 h b ?_
    split
    · exact touch_wf _ hm
    · exact hm

/-- Where a store finds its granule written, it touches nothing else. -/
theorem touched_of_written (h : (regionAt a).isDram = true → granule a ∈ m.written) :
    (if (regionAt a).isDram then m.touch (granule a) else m) = m := by
  split
  next hd => exact touch_of_written (h hd)
  next => rfl

theorem putByte_written (h : (regionAt a).isDram = true → granule a ∈ m.written) : (m.putByte a b).written = m.written :=
  (congrArg written (touched_of_written h) :)

/-- Bytes stored where every granule is written, or outside DRAM, read back; every other address reads as before. -/
theorem byte_putBytes (bs : List Byte) (hm : m.wf)
    (h : ∀ i, i < bs.length → (regionAt (a + i)).isDram = true → granule (a + i) ∈ m.written) :
    (putBytes bs a m).byte c = if a ≤ c ∧ c < a + bs.length then bs.getD (c - a) 0#8 else m.byte c := by
  induction bs generalizing a m with
  | nil => exact (if_neg (by simp only [List.length_nil]; omega)).symm
  | cons b bs ih =>
    have h0 : (regionAt a).isDram = true → granule a ∈ m.written := h 0 (Nat.succ_pos _)
    have hrest : ∀ i, i < bs.length → (regionAt (a + 1 + i)).isDram = true → granule (a + 1 + i) ∈ (m.putByte a b).written := by
      intro i hi hd
      rw [putByte_written h0]
      have hnext := h (i + 1) (Nat.succ_lt_succ hi)
      rw [show a + (i + 1) = a + 1 + i by omega] at hnext
      exact hnext hd
    have hfirst : (m.putByte a b).byte c = if c = a then b else m.byte c := by rw [byte_putByte hm, touched_of_written h0]
    rw [putBytes, ih (putByte_wf a b hm) hrest, hfirst]
    rcases Nat.lt_trichotomy c a with hlt | rfl | hgt
    · rw [if_neg (by omega), if_neg (Nat.ne_of_lt hlt), if_neg (by omega)]
    · rw [if_neg (by omega), if_pos rfl, if_pos ⟨Nat.le_refl c, by simp⟩, Nat.sub_self, List.getD_cons_zero]
    · obtain ⟨n, rfl⟩ := Nat.exists_eq_add_of_lt hgt
      rw [if_neg (Nat.ne_of_gt hgt), show a + n + 1 - (a + 1) = n by omega, show a + n + 1 - a = n + 1 by omega, List.getD_cons_succ]
      exact ite_of_iff (by simp only [List.length_cons]; omega)

end MemState

/-- Settles O59: a store changes the byte at its address, and only the first store to a granule touches the rest of it. -/
theorem storeThenLoad : Obligations.StoreThenLoad := by
  unfold Obligations.StoreThenLoad
  refine ⟨fun bs a c m hm h => MemState.byte_putBytes bs hm h, fun b a c m hm hd hu => ?_⟩
  rw [MemState.byte_putByte hm, if_pos hd, MemState.byte_touch_of_unwritten hu hm]

end Sys2Proof.Machine
end

section
/-! The opcodes that check 9 knows (02 R36; 20 R525, Table 20-4). -/

namespace Sys2Proof.Machine

/-- The ranges of opcodes in 20 Table 20-4. -/
def tableRanges : List (Nat × Nat) :=
  [(0x0130, 0x0132), (0x0140, 0x0141), (0x0150, 0x0152), (0x0160, 0x0163), (0x0201, 0x0206), (0x0301, 0x0307),
   (0x0401, 0x0406), (0x0501, 0x0506), (0x0601, 0x0603), (0x0610, 0x0612), (0x0701, 0x0708), (0x0801, 0x0809),
   (0x0901, 0x0907), (0x0A01, 0x0A05), (0x0B01, 0x0B04), (0x0C01, 0x0C04), (0x0D01, 0x0D07), (0x0D10, 0x0D12),
   (0x0E01, 0x0E08), (0x0F01, 0x0F0B), (0x1001, 0x1005), (0x1101, 0x1104)]

/-- An opcode of 20 Table 20-4. -/
def tableOpcode (op : Nat) : Bool := tableRanges.any (fun e => decide (e.1 ≤ op ∧ op ≤ e.2))

section Opcodes

variable {op : Nat}

theorem tableOpcode_of_mem {l : List Nat} (h : l.contains op = true) (hl : l.all tableOpcode = true) : tableOpcode op = true :=
  List.all_eq_true.mp hl op (List.contains_iff_mem.mp h)

/-- Check 9 knows no opcode beyond the table: each of its classes lists opcodes of the table. -/
theorem tableOpcode_of_known (h : (opcodeAlts op).isSome = true) : tableOpcode op = true := by
  unfold opcodeAlts at h
  split at h
  next hobserve => exact tableOpcode_of_mem hobserve (by decide)
  split at h
  next hcontrol => exact tableOpcode_of_mem hcontrol (by decide)
  split at h
  next hconfigure => exact tableOpcode_of_mem hconfigure (by decide)
  split at h
  next hservice => exact tableOpcode_of_mem hservice (by decide)
  split at h
  next hsecurity => exact tableOpcode_of_mem hsecurity (by decide)
  split at h
  next hring => exact tableOpcode_of_mem hring (by decide)
  split at h
  next hset => rw [hset]; decide
  split at h
  next hany => exact tableOpcode_of_mem hany (by decide)
  exact absurd h (by simp)

/-- Check 9 knows every opcode of every range of the table. -/
theorem known_of_tableOpcode (h : tableOpcode op = true) : (opcodeAlts op).isSome = true := by
  have hall : ∀ e ∈ tableRanges, ∀ k < e.2 + 1 - e.1, (opcodeAlts (e.1 + k)).isSome = true := by decide +kernel
  obtain ⟨e, he, hop⟩ := List.any_eq_true.mp h
  obtain ⟨hlo, hhi⟩ := of_decide_eq_true hop
  have hk := hall e he (op - e.1) (by omega)
  rwa [Nat.add_sub_cancel' hlo] at hk

theorem opcodeAlts_isSome : (opcodeAlts op).isSome = tableOpcode op :=
  Bool.eq_iff_iff.mpr ⟨tableOpcode_of_known, known_of_tableOpcode⟩

/-- A request of a free tag with an unknown opcode fails check 9, whatever runs (19 R511). -/
theorem State.checkCommand_of_unknown {r : Req} {s : State} (hop : opcodeAlts op = none)
    (hfree : s.host.record.any (sameCmd r) = false) : s.checkCommand op r = some (stOpcode, 0) := by
  simp [State.checkCommand, hop, hfree]

end Opcodes

/-- Settles O57. -/
theorem onlyTheseOpcodes : Obligations.OnlyTheseOpcodes := by
  unfold Obligations.OnlyTheseOpcodes
  intro listed
  refine ⟨fun op => opcodeAlts_isSome, by decide, fun op r s hop hfree => ?_⟩
  have hknown : (opcodeAlts op).isSome = false := opcodeAlts_isSome.trans hop
  exact State.checkCommand_of_unknown (Option.not_isSome_iff_eq_none.mp (by simp [hknown])) hfree

end Sys2Proof.Machine
end

section
/-! Rails and the sequencer (12 R348 to R365): what each row does, by its outcome. -/

namespace Sys2Proof.Machine

section RailRows

variable {k : Fin 32} {c : Fin 9} {mv : U16} {s : State}

/-! ### One rail (12 R348, R349, R361, R362) -/

theorem execRailPowerGood_of_inWindow (hk : k.val < 26) (hrun : (s.rail k.val).run = .rising)
    (hwindow : s.inRailWindow k.val mv.toNat = true) :
    execRailPowerGood k mv s = .next ((s.atLeast ((s.rail k.val).enabledAt + s.pgTime k.val)).modRail k.val
      (fun x => { x with run := .good, pg := true })).stageCheck :=
  if_neg (by simp [hrun, hwindow, Nat.not_le.mpr hk])

theorem execRailPowerGood_of_outside (hwindow : s.inRailWindow k.val mv.toNat = false) :
    execRailPowerGood k mv s = .next s :=
  if_pos (by simp [hwindow])

theorem execRailRiseTimeout_of_rising (hk : k.val < 26) (hrun : (s.rail k.val).run = .rising)
    (hcause : c.val = 1 ∨ (c.val ≠ 2 ∧ s.supervises k.val c.val mv.toNat = true)) :
    let rise := match s.entryOf k.val with | some e => e.riseMs * 1000000 | none => 0
    let u := if c.val = 1 then s.atLeast ((s.rail k.val).enabledAt + rise) else s
    let v := if c.val ≠ 1 ∧ mandatory k.val = true then u.modSafety (fun x => { x with clamp := true }) else u
    let t := (v.recordRail k.val c.val mv).modRail k.val (Rail.fail .failed c.val)
    execRailRiseTimeout k c mv s = .next (if t.railCritical k.val = false then t.stageCheck
      else if t.power.seq.run = .down ∨ t.power.seq.run = .holdUp then t else t.sequenceFails.settle s) := by
  intro rise u v t
  have hrises : ¬ (26 ≤ k.val || (s.rail k.val).run != .rising ||
      !(c.val == 1 || (c.val != 2 && s.supervises k.val c.val mv.toNat))) = true := by
    have hcaught : (c.val == 1 || (c.val != 2 && s.supervises k.val c.val mv.toNat)) = true := by
      simpa only [Bool.or_eq_true, Bool.and_eq_true, beq_iff_eq, bne_iff_ne] using hcause
    rw [hcaught]
    simp [hrun, Nat.not_le.mpr hk]
  refine (if_neg hrises).trans ?_
  simp only [bne_iff_ne, Bool.and_eq_true, Bool.not_eq_true', Bool.or_eq_true, beq_iff_eq]
  by_cases hcritical : t.railCritical k.val = false
  · exact (if_pos hcritical).trans (congrArg _ (if_pos hcritical).symm)
  · exact (if_neg hcritical).trans ((apply_ite Host.Outcome.next _ _ _).symm.trans (congrArg _ (if_neg hcritical).symm))

theorem execCriticalRailFault_of_good (hk : k.val < 26) (hsees : s.supervises k.val c.val mv.toNat = true)
    (hcritical : s.railCritical k.val = true) (hdown : s.power.seq.run ≠ .down) (hhold : s.power.seq.run ≠ .holdUp)
    (hgood : (s.rail k.val).run = .good) :
    let t := if mandatory k.val then s.modSafety (fun x => { x with clamp := true }) else s
    execCriticalRailFault k c mv s = .next (((((t.recordRail k.val c.val mv).modRail k.val
      (Rail.fail .fault c.val)).safeState 4 0).sequenceFails).settle s) := by
  intro t
  refine (if_neg (by simp [hsees, hcritical, Nat.not_le.mpr hk])).trans ?_
  refine (if_neg (by simp [hdown, hhold])).trans ?_
  exact if_neg (by simp [hgood])

theorem execCriticalRailFault_of_down (hk : k.val < 26) (hsees : s.supervises k.val c.val mv.toNat = true)
    (hcritical : s.railCritical k.val = true) (hdown : s.power.seq.run = .down ∨ s.power.seq.run = .holdUp)
    (hup : (s.rail k.val).run = .good ∨ (s.rail k.val).run = .lowering) :
    execCriticalRailFault k c mv s = .next (s.recordRail k.val c.val mv) := by
  refine (if_neg (by simp [hsees, hcritical, Nat.not_le.mpr hk])).trans ?_
  refine (if_pos (by simpa using hdown)).trans ?_
  exact congrArg _ (if_pos (by simpa using hup))

theorem execCriticalRailFault_of_unseen (hunseen : s.supervises k.val c.val mv.toNat = false) :
    execCriticalRailFault k c mv s = .next s :=
  if_pos (by simp [hunseen])

theorem execNoncriticalRailFault_of_unseen (hunseen : s.supervises k.val c.val mv.toNat = false) :
    execNoncriticalRailFault k c mv s = .next s :=
  if_pos (by simp [hunseen])

theorem execNoncriticalRailFault_of_good (hk : k.val < 26) (hsees : s.supervises k.val c.val mv.toNat = true)
    (hcritical : s.railCritical k.val = false) (hgood : (s.rail k.val).run = .good) :
    execNoncriticalRailFault k c mv s = .next ((((s.recordRail k.val c.val mv).dropDependents k.val).modRail k.val
      (Rail.fail .fault c.val)).stageCheck) :=
  if_neg (by simp [hsees, hcritical, hgood, Nat.not_le.mpr hk])

/-! ### The sequencer and STEP_N (12 R356, R359, R364, R365) -/

theorem execSequencerStageStart_of_free {k : Nat} {ks : List Nat} (hrun : s.power.seq.run = .up)
    (hended : s.power.seq.stageEnded = true) (hstep : s.power.seq.stepTaken = false ∨ s.power.seq.advanced = true)
    (hnext : s.power.seq.stagesAfter s.power.seq.stage = k :: ks) :
    execSequencerStageStart s =
      .next ((s.atLeast (s.power.seq.since + s.power.seq.table.gapUs * 1000)).beginStage k) := by
  have hready : ¬ (s.power.seq.stepTaken && !s.power.seq.advanced) = true := by
    obtain h | h := hstep <;> simp [h]
  simp only [execSequencerStageStart, hrun, hended, if_neg hready, hnext]
  rfl

theorem execSequencerStageStart_of_step (hrun : s.power.seq.run = .up) (hended : s.power.seq.stageEnded = true)
    (htaken : s.power.seq.stepTaken = true) (hadvanced : s.power.seq.advanced = false) :
    execSequencerStageStart s = .next s := by
  simp [execSequencerStageStart, hrun, hended, htaken, hadvanced]

theorem execStepNAdvance_of_released (hrun : s.power.seq.run = .up) (hended : s.power.seq.stageEnded = true)
    (htaken : s.power.seq.stepTaken = true) (hdriven : s.power.seq.stepDriven = false) :
    execStepNAdvance s = .next ((s.atLeast (s.power.seq.since + 5000)).modSqr
      (fun x => { x with stepLine := false, stepDriven := true, advanced := true })) :=
  if_pos (by simp [hrun, hended, htaken, hdriven])

theorem execStepNTimeout_of_waiting (hrun : s.power.seq.run = .up) (hended : s.power.seq.stageEnded = true)
    (htaken : s.power.seq.stepTaken = true) (hadvanced : s.power.seq.advanced = false) :
    execStepNTimeout s = .next (((s.atLeast (s.power.seq.since + s.power.seq.table.stepTmoMs * 1000000)).modSqr
      (fun x => { x with stepAlone := true, stepLine := false })).raise 188) :=
  if_pos (by simp [hrun, hended, htaken, hadvanced])

theorem execDownSequenceStage_of_down {k : Nat} {ks : List Nat} (hrun : s.power.seq.run = .down) :
    let t := (List.range 26).foldl (fun t i => if (t.rail i).run == .lowering then t.modRail i Rail.downNow else t) s
    t.stagesBelow s.power.seq.stage = k :: ks →
    execDownSequenceStage s =
      .next (((t.atLeast (s.power.seq.since + s.offWait + s.power.seq.table.gapUs * 1000)).lowerStage k).settle s) := by
  intro t hnext
  refine (if_neg (by simp [hrun])).trans ?_
  simp only [t] at hnext
  simp only [hnext]
  rfl

/-! ### Retries (12 R358) -/

theorem execSequenceRetryWaitEnd_of_waiting (hrun : s.power.seq.run = .retryWait) :
    execSequenceRetryWaitEnd s =
      .next ((s.atLeast (s.power.seq.since + s.power.seq.table.retryWaitMs * 1000000)).startUp false) :=
  if_neg (by simp [hrun])

theorem execLockoutExit_of_lockout (hrun : s.power.seq.run = .lockout) :
    execLockoutExit s = .next ((s.modSqr (fun x => { x with retries := 0 })).startUp false) :=
  if_neg (by simp [hrun])

theorem execSequenceRetryReset_of_complete (hrun : s.power.seq.run = .complete) :
    execSequenceRetryReset s = .next ((s.atLeast (s.power.seq.since + 600000000000)).modSqr
      (fun x => { x with retries := 0 })) :=
  if_neg (by simp [hrun])

end RailRows

/-- Settles O40. `exec` of each of these rows is its meaning by definition. -/
theorem railEvents : Obligations.RailEvents := by
  unfold Obligations.RailEvents
  refine ⟨?_, ?_, ?_, ?_, ?_, ?_, ?_, ?_, ?_, ?_, ?_, ?_, ?_, ?_, ?_⟩
  · exact fun _ _ _ hk hrun hwindow => execRailPowerGood_of_inWindow hk hrun hwindow
  · exact fun _ _ _ hwindow => execRailPowerGood_of_outside hwindow
  · exact fun _ _ _ _ hk hrun hcause => execRailRiseTimeout_of_rising hk hrun hcause
  · exact fun _ _ _ _ hk hsees hcritical hdown hhold hgood =>
      execCriticalRailFault_of_good hk hsees hcritical hdown hhold hgood
  · exact fun _ _ _ _ hk hsees hcritical hdown hup => execCriticalRailFault_of_down hk hsees hcritical hdown hup
  · exact fun _ _ _ _ hunseen =>
      ⟨execCriticalRailFault_of_unseen hunseen, execNoncriticalRailFault_of_unseen hunseen⟩
  · exact fun _ _ _ _ hk hsees hcritical hgood => execNoncriticalRailFault_of_good hk hsees hcritical hgood
  · exact fun _ _ _ hrun hended hstep hnext => execSequencerStageStart_of_free hrun hended hstep hnext
  · exact fun _ hrun hended htaken hadvanced => execSequencerStageStart_of_step hrun hended htaken hadvanced
  · exact fun _ hrun hended htaken hdriven => execStepNAdvance_of_released hrun hended htaken hdriven
  · exact fun _ hrun hended htaken hadvanced => execStepNTimeout_of_waiting hrun hended htaken hadvanced
  · exact fun _ _ _ hrun => execDownSequenceStage_of_down hrun
  · exact fun _ hrun => execSequenceRetryWaitEnd_of_waiting hrun
  · exact fun _ hrun => execLockoutExit_of_lockout hrun
  · exact fun _ hrun => execSequenceRetryReset_of_complete hrun

end Sys2Proof.Machine
end

section
/-! Supplies, retention, the release of the D-die, FAULT_N and the die link (12 R346 to R372; 01 R13, R21): what each row does,
by its outcome. -/

namespace Sys2Proof.Machine

section PowerRows

variable {aux : U16} {s : State}

/-! ### AUX and the hold-up (12 R346, R367, R368, R370) -/

theorem execAuxRise_of_inRange (hlow : 180 ≤ aux.toNat) (hhigh : aux.toNat ≤ 600) (hrun : s.chg.low.run ≠ .dustSheet) :
    let t := s.modSupply (fun x => { x with auxOk := true, aux := aux })
    let u := (if s.islandUp then t else (t.modSec SecState.latchFuses).portEnable).modSafety
      (fun x => { x with causes := x.causes &&& ~~~(1#12 <<< 5) })
    execAuxRise aux s = .next (if u.power.seq.run = .idle then u.startUp false else u) := by
  intro t u
  refine (if_neg (by simp [Nat.not_lt.mpr hlow, Nat.not_lt.mpr hhigh])).trans ?_
  refine (if_neg (by simpa using hrun)).trans ?_
  exact congrArg _ (ite_of_iff (by simp [u, t]))

theorem execAuxRise_of_dustSheet (hlow : 180 ≤ aux.toNat) (hhigh : aux.toNat ≤ 600) (hrun : s.chg.low.run = .dustSheet) :
    let t := s.modSupply (fun x => { x with auxOk := true, aux := aux })
    execAuxRise aux s = .next (if s.chg.low.record.auxWait then t.beginWake else t) := by
  refine (if_neg (by simp [Nat.not_lt.mpr hlow, Nat.not_lt.mpr hhigh])).trans ?_
  exact if_pos (by simpa using hrun)

theorem execAuxRise_of_outOfRange (hrange : aux.toNat < 180 ∨ 600 < aux.toNat) : execAuxRise aux s = .next s :=
  if_pos (by simpa using hrange)

theorem execAuxBrownOut_of_below (hok : s.power.supply.auxOk = true) (hbelow : aux.toNat < s.power.seq.table.auxBo) :
    let t := (s.modSupply (fun x => { x with auxOk := false, aux := aux, onHold := true, rideSince := s.clk })).raise 190
    execAuxBrownOut aux s = .next (if s.power.seq.run = .up then (t.startDown false .idle).settle s else t) := by
  intro t
  refine (if_neg (by simp [hok, Nat.not_le.mpr hbelow])).trans ?_
  by_cases hup : s.power.seq.run = .up
  · exact (if_pos (beq_iff_eq.mpr hup)).trans (congrArg _ (if_pos hup).symm)
  · exact (if_neg (mt beq_iff_eq.mp hup)).trans (congrArg _ (if_neg hup).symm)

theorem execAuxReturn_of_above (hhold : s.power.supply.onHold = true) (habove : s.power.seq.table.auxBo + 5 < aux.toNat) :
    let t := (((s.atLeast (s.power.supply.rideSince + 1000000)).modSupply (fun x =>
      { x with auxOk := true, aux := aux, onHold := false })).raise 190)
    execAuxReturn aux s = .next (if s.power.seq.run = .complete then t.openEvent .plumb .o0Event else t) := by
  intro t
  refine (if_neg (by simp [hhold, Nat.not_le.mpr habove])).trans ?_
  exact congrArg _ (ite_of_iff beq_iff_eq)

theorem execRideThroughExpiry_of_complete (hok : s.power.supply.auxOk = false) (hhold : s.power.supply.onHold = true)
    (hrun : s.power.seq.run = .complete) (hheld : s.nvmHeld = false) :
    let t := s.atLeast (s.power.supply.rideSince + s.power.seq.table.rideMs * 1000000)
    execRideThroughExpiry s = .next ((((t.safeState 5 (flag t.nvmHeld)).flush).modSqr
      (fun y => { y with run := .holdUp })).settle s) := by
  intro t
  refine (if_neg (by simp [hok, hhold, hrun])).trans ?_
  simp only [hheld, Bool.false_eq_true, if_false]
  rfl

theorem execHoldUpFlushComplete_of_holdUp (hrun : s.power.seq.run = .holdUp) (hheld : s.nvmHeld = false) :
    execHoldUpFlushComplete s = .next ((s.journalled.startDown false .idle).settle s) := by
  simp [execHoldUpFlushComplete, hrun, hheld]

/-! ### Loss of retention and release of the D-die (12 R357, R371, R372) -/

theorem State.raiseIf_eq (b : Bool) (n : Nat) :
    s.raiseIf b n = s.modSys (fun y => if b then { y with irq := y.irq.modSrc n IrqSource.raise } else y) := by
  cases b <;> rfl

theorem State.send_nv (x : Response) : (s.send x).nv = s.nv := by
  simp only [State.send]
  repeat' split
  all_goals simp

/-- What the service port, an answer and the end of a command leave as they are: the clock, the MRAM, the supply, the low-power
state and the latches of the option fuses. -/
def State.beyondPort (s : State) : Nanos × List NvmRecord × PowerState × ChargeState × (Fin 4 → Bool) :=
  (s.clk, s.nv.nvm.records, s.power, s.chg, fun k => (s.nv.sec.fuse k).latched)

@[simp] theorem State.modSp_beyondPort (f : ServicePort → ServicePort) : (s.modSp f).beyondPort = s.beyondPort := rfl
@[simp] theorem State.modSys_beyondPort (f : SystemState → SystemState) : (s.modSys f).beyondPort = s.beyondPort := rfl
@[simp] theorem State.modConv_beyondPort (f : ConverterState → ConverterState) : (s.modConv f).beyondPort = s.beyondPort := rfl

@[simp] theorem State.raiseIf_beyondPort (b : Bool) (n : Nat) : (s.raiseIf b n).beyondPort = s.beyondPort := by
  rw [State.raiseIf_eq, State.modSys_beyondPort]

@[simp] theorem SecState.fuse_authFail (c : SecState) (n : U32) (k : Nat) :
    ({ c with authFail := n } : SecState).fuse k = c.fuse k :=
  rfl

theorem State.respond_fuse (r : Req) (op : Nat) (a : Reply) (k : Nat) : (s.respond r op a).nv.sec.fuse k = s.nv.sec.fuse k := by
  simp only [State.respond, State.answer]
  split <;> split <;> simp [State.send_nv]

theorem State.finish_fuse (r : Req) (op : Nat) (a : Reply) (k : Nat) : (s.finish r op a).nv.sec.fuse k = s.nv.sec.fuse k := by
  simp only [State.finish, State.respond_fuse, State.auditReq]
  split <;> simp

@[simp] theorem State.finish_beyondPort (r : Req) (op : Nat) (a : Reply) : (s.finish r op a).beyondPort = s.beyondPort := by
  simp [State.beyondPort, State.finish_fuse]

@[simp] theorem State.failSends_beyondPort (d : Nat) : (s.failSends d).beyondPort = s.beyondPort :=
  foldl_kept State.beyondPort (fun _ r => State.finish_beyondPort r _ _) _

@[simp] theorem State.portDetach_beyondPort (run : SpRun) : (s.portDetach run).beyondPort = s.beyondPort := by
  simp [State.portDetach, State.pdVoid]

@[simp] theorem State.portSourceLost_beyondPort : s.portSourceLost.beyondPort = s.beyondPort := by
  unfold State.portSourceLost
  split
  · simp
  · split <;> simp

@[simp] theorem State.portEnable_beyondPort : s.portEnable.beyondPort = s.beyondPort := by
  unfold State.portEnable
  split
  · split <;> simp
  · split <;> simp [State.raise]

@[simp] theorem State.settle_beyondPort (s0 : State) : (s.settle s0).beyondPort = s.beyondPort :=
  foldl_kept State.beyondPort (fun t g => by simp [settleGroup, State.modGroup]) s

/-- What both branches leave as it was, the choice leaves as it was. -/
theorem ite_kept {α β : Type} (g : α → β) {c : Prop} [Decidable c] {a b : α} {x : β} (ha : g a = x) (hb : g b = x) :
    g (if c then a else b) = x := by split <;> assumption

/-- The clock and the MRAM. -/
def State.archive (s : State) : Nanos × List NvmRecord := (s.clk, s.nv.nvm.records)

theorem State.portSourceLost_archive : s.portSourceLost.archive = s.archive :=
  congrArg (fun x => (x.1, x.2.1)) State.portSourceLost_beyondPort

/-- A rail has its say in the supply and in the service port, not in the clock and the MRAM. -/
theorem State.modRail_archive (i : Nat) (f : Rail → Rail) : (s.modRail i f).archive = s.archive := by
  have hraised (g : PowerState → PowerState) (b : Bool) (n : Nat) : ((s.modPower g).raiseIf b n).archive = s.archive := by
    rw [State.raiseIf_eq]
    rfl
  exact ite_kept State.archive (State.portSourceLost_archive.trans (hraised _ _ _)) (hraised _ _ _)

theorem State.dieDown_archive : s.dieDown.archive = s.archive := ite_kept State.archive rfl rfl

theorem State.dieDown_dieRunning : s.dieDown.power.safety.dieRunning = false := by
  unfold State.dieDown
  split
  · rfl
  · next h => exact eq_false_of_ne_true h

/-- The state in which the retention SRAM, the sequencer, the supplies, the latches and the low-power state have lost what they
held (12 R371, R372), before the service port follows. -/
theorem execRetentionLoss_eq : ∃ v : State, execRetentionLoss s = .next (v.portEnable.settle s) ∧ v.archive = s.archive ∧
    v.power.safety.dieRunning = false ∧ v.power.keep.lost = true ∧ v.power.supply.auxOk = false ∧ v.power.supply.kaOk = false ∧
    v.power.seq.run = .idle ∧ v.power.safety.causes = 0 ∧ v.chg.low = ChargeState.initial.low ∧
    (∀ k : Fin 4, (v.nv.sec.fuse k).latched = false) := by
  have hrails : ((List.range 26).foldl (fun t i => t.modRail i (fun x => { x with run := .off, pg := false })) s).archive =
      s.archive := foldl_kept State.archive (fun _ i => State.modRail_archive i _) s
  have harchive := State.dieDown_archive.trans hrails
  have hdie := State.dieDown_dieRunning
    (s := (List.range 26).foldl (fun t i => t.modRail i (fun x => { x with run := .off, pg := false })) s)
  unfold execRetentionLoss
  dsimp only
  generalize State.dieDown _ = u at harchive hdie ⊢
  refine ⟨_, rfl, harchive, hdie, rfl, rfl, rfl, rfl, rfl, rfl, fun k => ?_⟩
  match k with
  | 0 => rfl
  | 1 => rfl
  | 2 => rfl
  | 3 => rfl

theorem execRetentionLoss_clears : ∃ t, execRetentionLoss s = .next t ∧ t.clk = s.clk ∧ t.nv.nvm.records = s.nv.nvm.records ∧
    t.power.safety.dieRunning = false ∧ t.power.keep.lost = true ∧ t.power.supply.auxOk = false ∧ t.power.supply.kaOk = false ∧
    t.power.seq.run = .idle ∧ t.power.safety.causes = 0 ∧ t.chg.low = ChargeState.initial.low ∧
    (∀ k : Fin 4, (t.nv.sec.fuse k).latched = false) := by
  obtain ⟨v, hexec, harchive, hdie, hlost, haux, hka, hrun, hcauses, hlow, hlatched⟩ := execRetentionLoss_eq (s := s)
  obtain ⟨hclk, hrecords⟩ := Prod.mk.inj harchive
  have hport : (v.portEnable.settle s).beyondPort = v.beyondPort :=
    (State.settle_beyondPort s).trans State.portEnable_beyondPort
  simp only [State.beyondPort, Prod.mk.injEq] at hport
  obtain ⟨hpclk, hprecords, hpower, hchg, hlatches⟩ := hport
  refine ⟨_, hexec, hpclk.trans hclk, hprecords.trans hrecords, ?_, ?_, ?_, ?_, ?_, ?_, ?_, fun k => ?_⟩
  · rw [hpower, hdie]
  · rw [hpower, hlost]
  · rw [hpower, haux]
  · rw [hpower, hka]
  · rw [hpower, hrun]
  · rw [hpower, hcauses]
  · rw [hchg, hlow]
  · exact (congrFun hlatches k).trans (hlatched k)

theorem execDDieResetRelease_of_good {role bs : BitVec 8} {banks : List Nat} (hdie : s.power.safety.dieRunning = false)
    (hgood : s.allMandatory = true) :
    ∃ t, execDDieResetRelease role bs banks s = .next t ∧ t.power.safety.dieRunning = true ∧ t.sys.hawk = .booting ∧
      t.conv.link.roleStrap = strapHigh role ∧ t.power.safety.bootSel0 = strapHigh bs ∧ t.now = 0 ∧
      ∀ k : Fin 8, (t.conv.banks[k]).high = decide (2500 < banks.getD k.val 0) := by
  have hgo : ¬ (s.power.safety.dieRunning || !s.allMandatory) = true := by simp [hdie, hgood]
  have hnow : ((s.clk - s.clk : Nat) + 0 : Int).toNat = 0 := by simp
  by_cases hfused : s.wdFused = true
  · exact ⟨_, (if_neg hgo).trans (congrArg _ (if_pos hfused)), rfl, rfl, rfl, rfl, hnow,
      fun k => congrArg PhaseBank.high (Vector.getElem_ofFn k.isLt)⟩
  · exact ⟨_, (if_neg hgo).trans (congrArg _ (if_neg hfused)), rfl, rfl, rfl, rfl, hnow,
      fun k => congrArg PhaseBank.high (Vector.getElem_ofFn k.isLt)⟩

theorem execDDieResetRelease_of_kept {role bs : BitVec 8} {banks : List Nat}
    (hkept : s.power.safety.dieRunning = true ∨ s.allMandatory = false) :
    execDDieResetRelease role bs banks s = .next s :=
  if_pos (by simpa using hkept)

/-! ### FAULT_N and the die link (01 R13, R21; 12 R366) -/

theorem execFaultNExternalLow_of_fall (hext : s.power.safety.external = false) (hdrive : s.power.safety.driving = false)
    (hup : s.islandUp = true) :
    execFaultNExternalLow true s = .next ((((((s.modSafety (fun y => { y with external := true })).wakeBy 6)).recordExternal).faultNFalls
      (fun _ => 1)).settle s) := by
  simp [execFaultNExternalLow, hext, hdrive, hup]

theorem execFaultNExternalLow_of_release (hext : s.power.safety.external = true)
    (hdrive : s.power.safety.driving = false) (hup : s.islandUp = true) :
    execFaultNExternalLow false s = .next ((s.modSafety (fun y => { y with external := false })).raise 189) := by
  simp [execFaultNExternalLow, hext, hdrive, hup]

theorem execFaultNExternalLow_of_noted (hext : s.power.safety.external = false)
    (hnoted : s.power.safety.driving = true ∨ s.islandUp = false) :
    execFaultNExternalLow true s = .next ((s.modSafety (fun y => { y with external := true })).wakeBy 6) := by
  refine (if_neg (by simp [hext])).trans ?_
  exact if_pos (by simpa using hnoted)

theorem execFaultNRelease_of_clear (hdrive : s.levelCauses.power.safety.driving = true)
    (hcauses : s.levelCauses.power.safety.causes = 0) (hrun : s.levelCauses.power.seq.run ≠ .lockout) :
    let u := (s.levelCauses.atLeast (s.levelCauses.power.safety.lastCauseAt + 100000000)).modSafety
      (fun y => { y with driving := false })
    execFaultNRelease s = .next (if s.levelCauses.power.safety.external then u.recordExternal else u.raise 189) := by
  intro u
  refine (if_neg (by simp [hdrive])).trans ?_
  exact if_neg (by simp [hcauses, hrun])

theorem execDieLinkTimeout_of_up (hlink : s.power.safety.dieLinkUp = true) (hup : s.islandUp = true) :
    execDieLinkTimeout s =
      .next (((s.modSafety (fun x => { x with dieLinkUp := false })).safeState 1 0).settle s) :=
  if_neg (by simp [hlink, hup])

theorem execDieLinkRestored_of_down (hlink : s.power.safety.dieLinkUp = false) :
    execDieLinkRestored s =
      .next (s.modSafety (fun x => { x with dieLinkUp := true, causes := x.causes &&& ~~~(1#12 <<< 1) })) :=
  if_neg (by simp [hlink])

end PowerRows

/-- Settles O41. `exec` of each of these rows is its meaning by definition. -/
theorem powerEvents : Obligations.PowerEvents := by
  unfold Obligations.PowerEvents
  refine ⟨?_, ?_, ?_, ?_, ?_, ?_, ?_, ?_, ?_, ?_, ?_, ?_, ?_, ?_, ?_, ?_, ?_⟩
  · exact fun _ _ hlow hhigh hrun => execAuxRise_of_inRange hlow hhigh hrun
  · exact fun _ _ hlow hhigh hrun => execAuxRise_of_dustSheet hlow hhigh hrun
  · exact fun _ _ hrange => execAuxRise_of_outOfRange hrange
  · exact fun _ _ hok hbelow => execAuxBrownOut_of_below hok hbelow
  · exact fun _ _ hhold habove => execAuxReturn_of_above hhold habove
  · exact fun _ hok hhold hrun hheld => execRideThroughExpiry_of_complete hok hhold hrun hheld
  · exact fun _ hrun hheld => execHoldUpFlushComplete_of_holdUp hrun hheld
  · exact fun _ _ => rfl
  · exact fun _ => execRetentionLoss_clears
  · exact fun _ _ _ _ hdie hgood => execDDieResetRelease_of_good hdie hgood
  · exact fun _ _ _ _ hkept => execDDieResetRelease_of_kept hkept
  · exact fun _ hext hdrive hup => execFaultNExternalLow_of_fall hext hdrive hup
  · exact fun _ hext hdrive hup => execFaultNExternalLow_of_release hext hdrive hup
  · exact fun _ hext hnoted => execFaultNExternalLow_of_noted hext hnoted
  · exact fun _ hdrive hcauses hrun => execFaultNRelease_of_clear hdrive hcauses hrun
  · exact fun _ hlink hup => execDieLinkTimeout_of_up hlink hup
  · exact fun _ hlink => execDieLinkRestored_of_down hlink

end Sys2Proof.Machine
end

section
/-! The rail opcodes (12 R355, R362, R374, R375) and the ride-through (12 R346, R367, R376). -/

namespace Sys2Proof.Machine

section RailOpcodes

variable {i : Nat} {r : Req} {s : State}

theorem execRailStatus_of_flag (h : Ready 0x0C01 observe r s) (hlen : r.payload.length = 1)
    (hflag : numAt r.payload 0 1 < 2) :
    let clear (x : Rail) : Rail := { x with minMv := x.mv, maxMv := x.mv }
    let t := if numAt r.payload 0 1 = 1 then s.modPower (fun p => { p with
      rails := p.rails.map clear, slots := p.slots.map clear }) else s
    execRailStatus r s = .next (t.complete r 0x0C01 (done (leBytes 4 s.seqStatus ++
      leBytes 2 s.power.supply.hold.toNat ++ leBytes 2 s.power.supply.aux.toNat ++ (s.railsInUse.map (fun i =>
        leBytes 1 (railCode i) ++ [0#8] ++ leBytes 2 (s.rail i).minMv.toNat ++ leBytes 2 (s.rail i).maxMv.toNat ++ zeros 2 ++
          leBytes 4 ((s.rail i).status (10 ≤ i)))).flatten))) := by
  intro clear t
  refine h.next_ok ?_ rfl
  simp [hlen, Nat.le_of_lt_succ hflag]

theorem execRailOn_of_idle {e : SeqEntry} (h : Ready 0x0C02 service r s) (hlen : r.payload.length = 1)
    (hi : railOfCode (numAt r.payload 0 1) = some i) (he : s.power.seq.store.entry (railCode i) = some e)
    (hbusy : s.railBusy i = false) (hoff : (s.rail i).run ≠ .good)
    (hdeps : (List.range 26).all (fun k => !bitAt e.deps (railCode k) || (s.rail k).run == .good) = true) :
    execRailOn r s = .next ((((s.modSqr (fun q => { q with table := { q.table with
      entries := q.table.entries.filter (fun x => x.rail != e.rail) ++ [e] } })).enableRail i s.clk)).complete
        r 0x0C02 done) := by
  refine h.next_ok (len_none.mpr hlen) ?_
  simp only [hi, he, hbusy, hdeps, beq_eq_false_iff_ne.mpr hoff, Bool.not_true, Bool.false_eq_true, if_false]

theorem execRailOff_of_noncritical (h : Ready 0x0C03 service r s) (hlen : r.payload.length = 1)
    (hi : railOfCode (numAt r.payload 0 1) = some i) (hcritical : s.railCritical i = false)
    (hbusy : s.railBusy i = false) :
    execRailOff r s = .next ((if (s.rail i).run = .good then (s.dropDependents i).modRail i Rail.disable
      else s.modRail i (fun x => { x with run := .off })).complete r 0x0C03 done) := by
  refine h.next_ok (len_none.mpr hlen) ?_
  simp only [hi, hcritical, hbusy, Bool.false_eq_true, if_false, beq_iff_eq]
  split <;> rfl

theorem execRailHistory_of_ready (h : Ready 0x0C04 observe r s) (hlen : r.payload = []) :
    let b := (s.power.keep.rail.map RailFault.bytes).flatten
    execRailHistory r s = .next (s.complete r 0x0C04 (done (b ++ zeros (512 - b.length) ++ s.startRecords))) :=
  h.next_ok (len_zero hlen) rfl

end RailOpcodes

/-- Settles O42. `exec` of each of these opcodes is its meaning by definition. -/
theorem railCommands : Obligations.RailCommands := by
  unfold Obligations.RailCommands
  refine ⟨?_, ?_, ?_, ?_⟩
  · exact fun _ _ h hlen hflag => execRailStatus_of_flag h hlen hflag
  · exact fun _ _ _ _ h hlen hi he hbusy hoff hdeps => execRailOn_of_idle h hlen hi he hbusy hoff hdeps
  · exact fun _ _ _ h hlen hi hcritical hbusy => execRailOff_of_noncritical h hlen hi hcritical hbusy
  · exact fun _ _ h hlen => execRailHistory_of_ready h hlen

section RideThrough

variable {aux : U16} {s : State}

/-- What waits for the ring writer after a record that its source has room for (16 R454). -/
theorem State.openEvent_queue {src : RingSource} {d : RingDest}
    (h : (s.sys.ring.queue.filter (fun x => x.source == src)).length < 16) :
    (s.openEvent src d).sys.ring.queue = s.sys.ring.queue ++ [⟨src, d, s.freeBytes 64⟩] := by
  simp [State.openEvent, State.emit, h]

theorem execAuxBrownOut_starts_rideThrough (hok : s.power.supply.auxOk = true)
    (hbelow : aux.toNat < s.power.seq.table.auxBo) (hrun : s.power.seq.run = .complete) :
    ∃ t, execAuxBrownOut aux s = .next t ∧ t.power.supply.onHold = true ∧ t.power.supply.auxOk = false ∧
      t.power.supply.rideSince = s.clk ∧ t.sys.irq = s.sys.irq.modSrc 190 IrqSource.raise ∧
      t.power.seq = s.power.seq ∧ t.power.rails = s.power.rails ∧ t.power.slots = s.power.slots ∧
      t.power.safety = s.power.safety ∧ t.clk = s.clk ∧ t.conv = s.conv ∧ t.chg = s.chg ∧ t.bus = s.bus ∧ t.meas = s.meas ∧
      t.stack = s.stack ∧ t.clock = s.clock ∧ t.host = s.host ∧ t.link = s.link ∧ t.port = s.port ∧ t.nv = s.nv := by
  have hup : s.power.seq.run ≠ .up := by simp [hrun]
  exact ⟨_, (execAuxBrownOut_of_below hok hbelow).trans (congrArg _ (if_neg hup)),
    rfl, rfl, rfl, rfl, rfl, rfl, rfl, rfl, rfl, rfl, rfl, rfl, rfl, rfl, rfl, rfl, rfl, rfl, rfl⟩

theorem execAuxReturn_ends_rideThrough (hhold : s.power.supply.onHold = true)
    (habove : s.power.seq.table.auxBo + 5 < aux.toNat) (hrun : s.power.seq.run = .complete)
    (hroom : (s.sys.ring.queue.filter (fun x => x.source == .plumb)).length < 16) :
    ∃ t bytes, execAuxReturn aux s = .next t ∧ t.power.supply.onHold = false ∧ t.power.supply.auxOk = true ∧
      t.sys.ring.queue = s.sys.ring.queue ++ [⟨.plumb, .o0Event, bytes⟩] ∧
      t.sys.irq = s.sys.irq.modSrc 190 IrqSource.raise ∧ t.power.seq = s.power.seq ∧ t.power.rails = s.power.rails ∧
      t.power.slots = s.power.slots ∧ t.power.safety = s.power.safety ∧
      t.clk = max s.clk (s.power.supply.rideSince + 1000000) ∧ t.conv = s.conv ∧ t.chg = s.chg ∧
      t.bus = s.bus ∧ t.meas = s.meas ∧ t.stack = s.stack ∧ t.clock = s.clock ∧ t.link = s.link ∧ t.port = s.port := by
  refine ⟨_, _, (execAuxReturn_of_above hhold habove).trans (congrArg _ (if_pos hrun)), ?_, ?_, State.openEvent_queue hroom,
    ?_, ?_, ?_, ?_, ?_, ?_, ?_, ?_, ?_, ?_, ?_, ?_, ?_, ?_⟩
  all_goals simp [State.modSupply]

end RideThrough

/-- Settles O55: AUX that falls and returns changes the supply and the interrupt source, and leaves the event. -/
theorem rideThrough : Obligations.RideThrough := by
  unfold Obligations.RideThrough
  refine ⟨?_, ?_⟩
  · exact fun _ _ hok hbelow hrun => execAuxBrownOut_starts_rideThrough hok hbelow hrun
  · exact fun _ _ hhold habove hrun hroom _ => execAuxReturn_ends_rideThrough hhold habove hrun hroom

end Sys2Proof.Machine
end

section
/-! Device time (13 R377 to R389): what each row does, by its outcome. -/

namespace Sys2Proof.Machine

section TimeRows

variable {time : Nat} {falling refclk lock : Bool} {s : State}

/-! ### PPS_IN (13 R380, R384) -/

@[simp] theorem State.trigger_clock (i : Fin 16) : (s.trigger i).clock = s.clock := by
  unfold State.trigger
  dsimp only
  split
  · simp
  · split <;> rfl

theorem State.triggerKind_clock (kind : Nat) (sel : Nat → Bool) : (s.triggerKind kind sel).clock = s.clock :=
  foldl_kept State.clock (fun _ i => State.trigger_clock i) s

/-- When the last edge came, and how many in a row have been off. -/
def Timebase.edges (b : Timebase) : Option Nanos × Nat := (b.ppsAt, b.ppsOffRun)

theorem State.modTb_edges {f : Timebase → Timebase} (hf : ∀ b, (f b).edges = b.edges) :
    (s.modTb f).clock.tb.edges = s.clock.tb.edges := hf _

theorem State.pickParams_clock (ids : List Nat) : (ids.foldl (fun t id => State.pickParam id t) s).clock = s.clock :=
  foldl_kept (f := fun t id => State.pickParam id t) State.clock (fun _ _ => rfl) s

theorem State.pickTime_edges : s.pickTime.clock.tb.edges = s.clock.tb.edges := by
  have hfree (y : Rat) (now : Nanos) : (s.modTb (fun x =>
      if x.run == .free then { x with freq := y, holdSince := now } else x)).clock.tb.edges = s.clock.tb.edges :=
    State.modTb_edges (fun _ => ite_kept Timebase.edges rfl rfl)
  have hpicked (t : State) (ids : List Nat) :
      (ids.foldl (fun t id => t.pickParam id) t).clock.tb.edges = t.clock.tb.edges :=
    congrArg (fun c : ClockState => c.tb.edges) (State.pickParams_clock ids)
  unfold State.pickTime
  refine ite_kept (fun t : State => t.clock.tb.edges) ((hpicked _ _).trans (hfree _ _)) ?_
  refine Eq.trans (State.modTb_edges ?_) ((hpicked _ _).trans (hfree _ _))
  exact fun _ => rfl

/-- A selected edge finds the edges before it as they were when it came. -/
theorem State.edges_at_edge : (((s.atDevice time).pickTime).triggerKind 5 (fun _ => true)).clock.tb.edges = s.clock.tb.edges :=
  (congrArg (fun c : ClockState => c.tb.edges) (State.triggerKind_clock _ _)).trans State.pickTime_edges

theorem execPpsInEdge_of_next {p : Nat} (hat : s.clock.tb.ppsAt = some p)
    (hselected : falling = bitAt (s.held 0x1607) 0) :
    let t := ((s.atDevice time).pickTime).triggerKind 5 (fun _ => true)
    let at_ : Int := (time : Int) - t.heldI 0x1608
    let d : Int := (t.clk - p : Nat)
    let off := decide (100000 < (d - nearestSecond d).natAbs)
    let run := if off then s.clock.tb.ppsOffRun + 1 else 0
    let ok := decide (d ≤ 1500000000) && decide (run ≤ 2)
    let u := (((t.modTb (fun x => { x with ppsLast := BitVec.ofNat 64 at_.toNat })).raise 318).modTb
      (fun x => { x with ppsAt := some t.clk, ppsOffRun := run, ppsPresent := ok })).followSources
    execPpsInEdge time falling s = .next (if (ok && !off && (u.usesSource 1 || u.usesSource 3)) = true then
      u.measureOffset (u.ppsOffset at_) else u) := by
  obtain ⟨hedge, hoff⟩ := Prod.mk.inj (State.edges_at_edge (time := time) (s := s))
  rw [hat] at hedge
  rw [← hoff]
  refine (if_neg (by simp [hselected])).trans ?_
  simp only [State.raise_clock, State.modTb, hedge]

theorem execPpsInEdge_of_first (hat : s.clock.tb.ppsAt = none) (hselected : falling = bitAt (s.held 0x1607) 0) :
    let t := ((s.atDevice time).pickTime).triggerKind 5 (fun _ => true)
    execPpsInEdge time falling s = .next (((t.modTb (fun x => { x with
      ppsLast := BitVec.ofNat 64 ((time : Int) - t.heldI 0x1608).toNat })).raise 318).modTb
        (fun x => { x with ppsAt := some t.clk })) := by
  obtain ⟨hedge, -⟩ := Prod.mk.inj (State.edges_at_edge (time := time) (s := s))
  rw [hat] at hedge
  refine (if_neg (by simp [hselected])).trans ?_
  simp only [State.raise_clock, State.modTb, hedge]

theorem execPpsInEdge_of_other (hother : falling ≠ bitAt (s.held 0x1607) 0) :
    execPpsInEdge time falling s = .next s :=
  if_pos (by simpa using hother)

theorem execPpsSourceLoss_of_present {p : Nanos} (hpresent : s.clock.tb.ppsPresent = true)
    (hat : s.clock.tb.ppsAt = some p) :
    execPpsSourceLoss s =
      .next ((s.atLeast (p + 1500000001)).modTb (fun x => { x with ppsPresent := false })).followSources := by
  simp [execPpsSourceLoss, hpresent, hat]

/-! ### Holdover, the primary source and PPS_OUT (13 R380, R385) -/

theorem execHoldoverTimeout_of_holdover (hrun : s.clock.tb.run = .holdover) :
    let t := s.atLeast (s.clock.tb.holdSince + s.held 0x1606 * 1000000000)
    execHoldoverTimeout s = .next ((t.tbTo .free 0).modTb (fun x => { x with holdSince := t.clk })) :=
  if_neg (by simp [hrun])

theorem execPrimarySourceReturn_of_present {t0 : Nanos} (hsince : s.clock.tb.src1Since = some t0)
    (hrun : s.clock.tb.run = .locked ∨ s.clock.tb.run = .acquiring) (hsrc : s.clock.tb.src = 2)
    (hpresent : s.srcPresent 1 = true) :
    execPrimarySourceReturn s = .next ((s.atLeast (t0 + 60000000000)).tbTo .acquiring 1) := by
  have hready : ((s.clock.tb.run == .acquiring || s.clock.tb.run == .locked) && s.clock.tb.src == 2 &&
      s.srcPresent 1) = true := by
    obtain h | h := hrun <;> simp [h, hsrc, hpresent]
  simp only [execPrimarySourceReturn, hsince]
  exact if_pos hready

theorem execPpsOutPulse_of_high (hout : s.clock.tb.ppsOut = true) :
    execPpsOutPulse s = .next ((s.atLeast (s.clock.tb.ppsOutAt + bitsOf (s.held 0x1607) 15 8 * 1000000)).modTb
      (fun x => { x with ppsOut := false })) :=
  if_pos hout

theorem execPpsOutPulse_of_low (hout : s.clock.tb.ppsOut = false) (hen : bitAt (s.held 0x1607) 1 = true) :
    let t := s.atDevice (multipleFrom 1000000000 s.now)
    execPpsOutPulse s = .next (t.modTb (fun x => { x with ppsOut := true, ppsOutAt := t.clk })) :=
  (if_neg (by simp [hout])).trans (if_neg (by simp [hen]))

/-! ### References and the PLLs (13 R377, R389) -/

theorem execReferenceFailure_of_running (hok : s.clock.tb.refOk refclk = true) :
    let t := (s.modTb (fun x => if refclk then { x with refclkOk := false } else { x with xtalOk := false })).raise 319
    execReferenceFailure refclk s = .next (if s.clock.tb.refOk (!refclk) = false then (t.safeState 6 0).settle s
      else if s.clock.tb.refclk = refclk ∧ s.clock.tb.refAuto = true then t.switchRef (!refclk) else t) := by
  intro t
  refine (if_neg (by simp [hok])).trans ?_
  have hboth : (!t.clock.tb.refOk true && !t.clock.tb.refOk false) = !s.clock.tb.refOk (!refclk) := by
    cases refclk <;> simp [t, State.modTb, Timebase.refOk]
  have hself : t.clock.tb.refclk = s.clock.tb.refclk ∧ t.clock.tb.refAuto = s.clock.tb.refAuto := by
    cases refclk <;> exact ⟨rfl, rfl⟩
  change (if (!t.clock.tb.refOk true && !t.clock.tb.refOk false) = true then Host.Outcome.next ((t.safeState 6 0).settle s)
    else if (t.clock.tb.refclk == refclk && t.clock.tb.refAuto) = true then .next (t.switchRef (!refclk)) else .next t) = _
  rw [hboth, hself.1, hself.2, apply_ite Host.Outcome.next, apply_ite Host.Outcome.next]
  simp only [Bool.not_eq_true', Bool.and_eq_true, beq_iff_eq]

theorem execReferenceRestored_of_failed (hfailed : s.clock.tb.refOk refclk = false) :
    let t := (s.modTb (fun x => if refclk then { x with refclkOk := true } else { x with xtalOk := true })).modSafety
      (fun x => { x with causes := x.causes &&& ~~~(1#12 <<< 6) })
    execReferenceRestored refclk s = .next (if s.clock.tb.refOk (!refclk) = false ∧ s.clock.tb.refclk ≠ refclk then
      t.switchRef refclk else t) := by
  intro t
  refine (if_neg (by simp [hfailed])).trans ?_
  refine congrArg _ (ite_of_iff ?_)
  cases refclk <;> simp

theorem execPllLockChange_of_change (hchange : s.clock.tb.pllLock ≠ lock) :
    execPllLockChange lock s = .next ((s.modTb (fun x => { x with pllLock := lock })).raise 319) := by
  simp [execPllLockChange, State.raiseIf, hchange.symm]

theorem execPllLockChange_of_same (hsame : s.clock.tb.pllLock = lock) : execPllLockChange lock s = .next s := by
  subst hsame
  simp [execPllLockChange, State.raiseIf]
  rfl

end TimeRows

/-- Settles O43. `exec` of each of these rows is its meaning by definition. -/
theorem timebaseEvents : Obligations.TimebaseEvents := by
  unfold Obligations.TimebaseEvents
  refine ⟨?_, ?_, ?_, ?_, ?_, ?_, ?_, ?_, ?_, ?_, ?_, ?_⟩
  · exact fun _ _ _ _ hat hselected => execPpsInEdge_of_next hat hselected
  · exact fun _ _ _ hat hselected => execPpsInEdge_of_first hat hselected
  · exact fun _ _ _ hother => execPpsInEdge_of_other hother
  · exact fun _ _ hpresent hat => execPpsSourceLoss_of_present hpresent hat
  · exact fun _ hrun => execHoldoverTimeout_of_holdover hrun
  · exact fun _ _ hsince hrun hsrc hpresent => execPrimarySourceReturn_of_present hsince hrun hsrc hpresent
  · exact fun _ hout => execPpsOutPulse_of_high hout
  · exact fun _ hout hen => execPpsOutPulse_of_low hout hen
  · exact fun _ _ hok => execReferenceFailure_of_running hok
  · exact fun _ _ hfailed => execReferenceRestored_of_failed hfailed
  · exact fun _ _ hchange => execPllLockChange_of_change hchange
  · exact fun _ _ hsame => execPllLockChange_of_same hsame

end Sys2Proof.Machine
end

section
/-! The timebase, thermal, watchdog and interrupt opcodes (13 R383, R388; 14 R402; 15 R414, R425). -/

namespace Sys2Proof.Machine

section ClockOpcodes

variable {r : Req} {s : State}

theorem execTbStatusRead_of_ready (h : Ready 0x0130 observe r s) (hp : r.payload = []) :
    execTbStatusRead r s = .next (s.complete r 0x0130 (done (leBytes 4 s.tbStatus ++ leBytes 4 (codeOf 32 s.clock.tb.offset) ++
      leBytes 4 (fitS 32 (roundQ s.freqNow)) ++ leBytes 8 s.now))) :=
  h.next_ok (len_zero hp) rfl

theorem execTbAlignNow_of_pending (h : Ready 0x0131 configure r s) (hp : r.payload = [])
    (hpending : s.clock.tb.alignPending = true) (hstep : s.stepPermitted s.clock.tb.offset = true) :
    execTbAlignNow r s = .next ((s.timeStep s.clock.tb.offset.toNat).complete r 0x0131 done) := by
  refine h.next_ok (len_zero hp) ?_
  simp [hpending, hstep]

theorem execTbSetTod_of_later (h : Ready 0x0132 service r s) (hlen : r.payload.length = 8)
    (hlater : s.now < numAt r.payload 0 8)
    (hfree : s.clock.tb.run = .free ∨ s.clock.tb.run = .holdover ∨ (s.srcCode s.clock.tb.src ≠ 2 ∧ s.srcCode s.clock.tb.src ≠ 3))
    (hstep : s.stepPermitted ((numAt r.payload 0 8 : Int) - s.now) = true) :
    execTbSetTod r s = .next ((s.timeStep (numAt r.payload 0 8 - s.now)).complete r 0x0132 done) := by
  refine h.next_ok (len_none.mpr hlen) ?_
  have hnone : ¬ ((if s.clock.tb.run == .acquiring || s.clock.tb.run == .locked then s.srcCode s.clock.tb.src else 0) = 2 ∨
      (if s.clock.tb.run == .acquiring || s.clock.tb.run == .locked then s.srcCode s.clock.tb.src else 0) = 3) := by
    obtain h | h | ⟨hpps, hptp⟩ := hfree
    · simp [h]
    · simp [h]
    · split <;> simp [hpps, hptp]
  simp only [Nat.not_le.mpr hlater, hnone, hstep, if_false, Bool.not_true, Bool.false_eq_true]

theorem execThStatusRead_of_ready (h : Ready 0x0140 observe r s) (hp : r.payload = []) :
    execThStatusRead r s = .next (s.complete r 0x0140 (done (leBytes 4 s.thStatus ++ leBytes 4 s.thTj ++
      leBytes 2 s.graceLeft ++ leBytes 4 s.thSpeed))) :=
  h.next_ok (len_zero hp) rfl

theorem execThPvtRead_of_ready (h : Ready 0x0141 service r s) (hp : r.payload = []) :
    execThPvtRead r s = .next (s.complete r 0x0141 (done ((List.finRange 16).map (fun i =>
      leBytes 1 i.val ++ [0#8] ++ leBytes 2 (fitS 16 s.clock.th.pvt[i.val]) ++ leBytes 4 s.clock.th.pvtRaw[i.val])).flatten)) :=
  h.next_ok (len_zero hp) rfl

theorem execWdStatusRead_of_ready (h : Ready 0x0150 observe r s) (hp : r.payload = []) :
    execWdStatusRead r s = .next (s.complete r 0x0150 (done (leBytes 4 s.wdStatus ++ leBytes 4 s.sys.wd.cntResets.toNat ++
      leBytes 4 s.wdLast ++ leBytes 4 ((s.clk - s.sys.wd.restart) / 1000000)))) :=
  h.next_ok (len_zero hp) rfl

theorem ofLe_leBytes {n v : Nat} (h : v < 256 ^ n) : ofLe (leBytes n v) = v := by
  induction n generalizing v with
  | zero => simp [leBytes, ofLe] at h ⊢; omega
  | succ n ih =>
    have hv : v / 256 < 256 ^ n := Nat.div_lt_of_lt_mul (by rwa [Nat.pow_succ, Nat.mul_comm] at h)
    simp only [leBytes, ofLe, ih hv, BitVec.toNat_ofNat]
    omega

theorem execIrqCounts_of_range {a n : Nat} (h : Ready 0x0151 observe r s) (hp : r.payload = leBytes 2 a ++ leBytes 2 n)
    (hn : 1 ≤ n) (hrange : a + n ≤ 384) :
    let ns := (List.range n).map (· + a)
    let t := s.modIrq (fun q => ns.foldl (fun q m => q.fold m) q)
    execIrqCounts r s = .next (t.complete r 0x0151
      (done ((ns.map (fun m => leBytes 4 (bankGet 0#32 m t.sys.irq.totals).toNat)).flatten))) := by
  intro ns t
  have hfirst : numAt r.payload 0 2 = a := (congrArg (numAt · 0 2) hp).trans (ofLe_leBytes (n := 2) (by omega))
  have hcount : numAt r.payload 2 2 = n := (congrArg (numAt · 2 2) hp).trans (ofLe_leBytes (n := 2) (by omega))
  refine h.next_ok (len_none.mpr (congrArg List.length hp)) ?_
  simp only [hfirst, hcount]
  refine (if_neg ?_).trans rfl
  simp only [Bool.or_eq_true, decide_eq_true_eq]
  omega

theorem execWdTest_of_quiet (h : Ready 0x0152 service r s) (hp : r.payload = []) (hlease : s.holdsLease r.owner = true)
    (hquiet : s.allQuiet = true) :
    execWdTest r s = .next ((s.modWd (fun x => { x with withhold := true })).complete r 0x0152 done) := by
  refine h.next_ok (len_zero hp) ?_
  simp [State.needLease_holds hlease, hquiet]

end ClockOpcodes

/-- Settles O44. `exec` of each of these opcodes is its meaning by definition. -/
theorem clockAndSupervisionCommands : Obligations.ClockAndSupervisionCommands := by
  unfold Obligations.ClockAndSupervisionCommands
  refine ⟨?_, ?_, ?_, ?_, ?_, ?_, ?_, ?_⟩
  · exact fun _ _ h hp => execTbStatusRead_of_ready h hp
  · exact fun _ _ h hp hpending hstep => execTbAlignNow_of_pending h hp hpending hstep
  · exact fun _ _ h hlen hlater hfree hstep => execTbSetTod_of_later h hlen hlater hfree hstep
  · exact fun _ _ h hp => execThStatusRead_of_ready h hp
  · exact fun _ _ h hp => execThPvtRead_of_ready h hp
  · exact fun _ _ h hp => execWdStatusRead_of_ready h hp
  · exact fun _ _ _ _ h hp hn hrange => execIrqCounts_of_range h hp hn hrange
  · exact fun _ _ h hp hlease hquiet => execWdTest_of_quiet h hp hlease hquiet

end Sys2Proof.Machine
end

section
/-! The monitors (14 R390 to R401): what each row does, by its outcome. -/

namespace Sys2Proof.Machine

section ThermalRows

variable {mv ns : Nat} {t0 : Nanos} {dDie : Bool} {s : State}

theorem execThermalEvaluation_of_up {samples : List Reading} (hup : s.islandUp = true) :
    let u := (s.atLeast (s.clock.th.evalAt + 100000000)).pickThermal
    let a (x : Thermal) : Int := if x.brokenA then 1500 else meanI x.tjA x.winA
    let d (x : Thermal) : Int := if x.brokenD then 1500 else meanI x.tjD samples
    let tj (x : Thermal) := max (a x) (d x)
    execThermalEvaluation samples s = .next ((u.modTh (fun x => { x with
      tjA := a x, tjD := d x, tjMax := max x.tjMax (tj x), evalAt := u.clk
      belowSince := runSince u.clk (decide (tj x < u.tRelease)) x.belowSince
      belowTrip := runSince u.clk (decide (tj x < u.heldI 0x1705 - 150)) x.belowTrip
      hotTime := if 1100 ≤ tj x then x.hotTime else x.hotTime + u.since x.hotSince
      hotSince := runSince u.clk (decide (1100 ≤ tj x)) x.hotSince })).thermalRows) := by
  intro u a d tj
  refine (if_neg (by simp [hup])).trans ?_
  simp only [decide_eq_true_eq]
  rfl

theorem execThermalGraceExpiry_of_request (hrun : s.clock.th.run = .request) (hsince : s.clock.th.graceSince = some t0)
    (hwarm : s.tRelease ≤ s.clock.th.tj) :
    execThermalGraceExpiry s = .next ((s.atLeast (t0 + s.param 0x1703 * 1000000000)).thTo .enforced) := by
  simp only [execThermalGraceExpiry, hrun, hsince]
  exact if_pos hwarm

theorem execThermalRelease_of_enforced (hbelow : s.clock.th.belowSince = some t0) (hrun : s.clock.th.run = .enforced) :
    execThermalRelease s = .next ((s.atLeast (t0 + s.held 0x1706 * 1000000000)).thTo .normal) := by
  simp only [execThermalRelease, hbelow, hrun]

theorem execThermalRelease_of_request (hbelow : s.clock.th.belowSince = some t0) (hrun : s.clock.th.run = .request) :
    execThermalRelease s = .next ((s.atLeast (t0 + 10000000000)).thTo .normal) := by
  simp only [execThermalRelease, hbelow, hrun]

theorem execHardwareThermalTrip_of_hot {v w : Reading}
    (hhot : s.heldI 0x1705 ≤ (if (if dDie then s.clock.th.brokenD else s.clock.th.brokenA) then 1500 else min v w))
    (hrun : s.clock.th.run ≠ .tripped) :
    execHardwareThermalTrip dDie v w s = .next (((((((s.modTh (fun x => { x with
      cntTrips := satInc x.cntTrips, belowTrip := none })).raise 193).thTo .tripped).modSafety
        (fun y => { y with clamp := true })).safeState 8 0)).settle s) := by
  refine if_neg ?_
  simpa only [Bool.or_eq_true, decide_eq_true_eq, beq_iff_eq, not_or, Int.not_lt] using ⟨hhot, hrun⟩

theorem execThermalTripRelease_of_tripped (hrun : s.clock.th.run = .tripped) (hbelow : s.clock.th.belowTrip = some t0) :
    execThermalTripRelease s = .next (((s.atLeast (t0 + 10000000000)).modSafety
      (fun y => { y with causes := y.causes &&& ~~~(1#12 <<< 8) })).thTo
        (if s.tRelease ≤ s.clock.th.tj then .enforced else .normal)) := by
  simp only [execThermalTripRelease, hrun, hbelow]

theorem execDiodeBroken_sets_reading {mv : U16} :
    let broken := decide (mv.toNat < 200 ∨ 900 < mv.toNat)
    let t := s.modTh (fun x => if dDie then { x with brokenD := broken, tjD := if broken then 1500 else x.tjD }
      else { x with brokenA := broken, tjA := if broken then 1500 else x.tjA })
    execDiodeBroken dDie mv s = .next (t.raiseIf (t.clock.th.sensor != s.clock.th.sensor) 194) := by
  have hbroken : (decide (mv.toNat < 200) || decide (900 < mv.toNat)) = decide (mv.toNat < 200 ∨ 900 < mv.toNat) :=
    (Bool.decide_or _ _).symm
  unfold execDiodeBroken
  rw [hbroken]
  cases dDie <;> cases decide (mv.toNat < 200 ∨ 900 < mv.toNat) <;> rfl

theorem execPvtMeasurement_of_sixteen {readings : List Reading} {counts : List Nat} (hlen : readings.length = 16) :
    let u := s.atLeast (s.clock.th.pvtAt + 1000000000)
    let worst := readings.foldl min (readings.headD 0)
    let mean := roundQ ((readings.sum : Rat) / 16)
    let age := decide (mean < -((bitsOf (u.held 0x1700) 15 8 * 100 : Nat) : Int))
    let t := (u.modTh (fun x => { x with
      pvt := Vector.ofFn (fun i => readings.getD i.val 0), pvtRaw := Vector.ofFn (fun i => counts.getD i.val 0)
      pvtWorst := worst, pvtMean := mean, pvtAt := u.clk, ageing := x.ageing || age })).raiseIf (age && !s.clock.th.ageing) 196
    execPvtMeasurement readings counts s = .next (if (bitAt (s.held 0x1700) 0 &&
        decide (worst < -((bitsOf (s.held 0x1700) 23 16 * 100 : Nat) : Int)) && s.sys.hawk == .running) = true then
      ((t.moveSet 4 (t.modTh (fun x => { x with avsOfs := clampI (-32768) 32767 (x.avsOfs + 5) }))).raise 197).openEvent
        .burpol .o0Event
      else t) :=
  (if_neg (by simp [hlen])).trans (apply_ite Host.Outcome.next _ _ _).symm

theorem execDroopEvent_of_droop (hbelow : mv < s.held 0x170A) (hlong : 2 < ns) :
    let t := s.modTh (fun x => { x with cntDroop := satInc x.cntDroop, droopSecond := some (s.now / 1000000000) })
    execDroopEvent mv ns s =
      .next (t.raiseIf (s.clock.th.droopSecond != some (s.now / 1000000000)) 198) :=
  if_neg (by simp [hbelow, hlong])

theorem execDroopEvent_of_none (hnone : s.held 0x170A ≤ mv ∨ ns ≤ 2) : execDroopEvent mv ns s = .next s :=
  if_pos (by simpa using hnone)

theorem execHotHourCount_of_hot (hsince : s.clock.th.hotSince = some t0) :
    let u := s.atLeast (t0 + (3600000000000 - s.clock.th.hotTime))
    execHotHourCount s = .next (u.modTh (fun y => { y with
      hoursHot := satInc y.hoursHot, hotTime := 0, hotSince := some u.clk })) := by
  simp only [execHotHourCount, hsince]

theorem execNvmWriteHold_of_outside (hhold : s.clock.th.nvmHold = false)
    (hout : s.clock.th.tjD < s.heldI 0x1708 ∨ s.heldI 0x1709 < s.clock.th.tjD) :
    let t := (((s.modTh (fun x => { x with nvmHold := true })).raise 195).completeSaves
      (partial_ 3 dtNvmDeferred)).completeLearns (partial_ 3 dtNvmDeferred)
    execNvmWriteHold s = .next ((t.host.committing.foldl (fun u e => u.installTable e.1 e.2)
      (t.modHost (fun h => { h with committing := [] }))).settle s) := by
  refine if_neg ?_
  simp only [hhold, Bool.false_or, Bool.and_eq_true, decide_eq_true_eq]
  omega

theorem execNvmWriteResume_of_inside (hhold : s.clock.th.nvmHold = true) (hlow : s.heldI 0x1708 + 30 ≤ s.clock.th.tjD)
    (hhigh : s.clock.th.tjD + 30 ≤ s.heldI 0x1709) :
    execNvmWriteResume s = .next ((s.modTh (fun x => { x with nvmHold := false })).raise 195) :=
  if_pos (by simp [hhold, hlow, hhigh])

/-! ### Droop events (14 R400) -/

theorem execDroopEvent_of_first (hbelow : mv < s.held 0x170A) (hlong : 2 < ns)
    (hfirst : s.clock.th.droopSecond ≠ some (s.now / 1000000000)) :
    execDroopEvent mv ns s = .next ((s.modTh (fun x => { x with
      cntDroop := satInc x.cntDroop, droopSecond := some (s.now / 1000000000) })).raise 198) := by
  rw [execDroopEvent_of_droop hbelow hlong]
  simp [State.raiseIf, hfirst]

theorem execDroopEvent_of_later (hbelow : mv < s.held 0x170A) (hlong : 2 < ns)
    (hlater : s.clock.th.droopSecond = some (s.now / 1000000000)) :
    execDroopEvent mv ns s = .next (s.modTh (fun x => { x with
      cntDroop := satInc x.cntDroop, droopSecond := some (s.now / 1000000000) })) := by
  rw [execDroopEvent_of_droop hbelow hlong]
  simp [State.raiseIf, hlater]

theorem execDroopEvent_droopSecond {t : State} (hbelow : mv < s.held 0x170A) (hlong : 2 < ns)
    (ht : execDroopEvent mv ns s = .next t) : t.clock.th.droopSecond = some (s.now / 1000000000) := by
  rw [execDroopEvent_of_droop hbelow hlong, State.raiseIf_eq] at ht
  cases ht
  rfl

theorem execDroopEvent_again_keeps_irq {mv2 ns2 : Nat} {t u : State} (hbelow : mv < s.held 0x170A) (hlong : 2 < ns)
    (ht : execDroopEvent mv ns s = .next t) (hsecond : t.now / 1000000000 = s.now / 1000000000)
    (hu : execDroopEvent mv2 ns2 t = .next u) : u.sys.irq = t.sys.irq := by
  have hlater := execDroopEvent_droopSecond hbelow hlong ht
  rw [← hsecond] at hlater
  by_cases hdroop : mv2 < t.held 0x170A ∧ 2 < ns2
  · rw [execDroopEvent_of_later hdroop.1 hdroop.2 hlater] at hu
    cases hu
    rfl
  · rw [execDroopEvent_of_none (by omega)] at hu
    cases hu
    rfl

end ThermalRows

/-- Settles O45. `exec` of each of these rows is its meaning by definition. -/
theorem thermalEvents : Obligations.ThermalEvents := by
  unfold Obligations.ThermalEvents
  refine ⟨?_, ?_, ?_, ?_, ?_, ?_, ?_, ?_, ?_, ?_, ?_, ?_, ?_⟩
  · exact fun _ _ hup => execThermalEvaluation_of_up hup
  · exact fun _ _ hrun hsince hwarm => execThermalGraceExpiry_of_request hrun hsince hwarm
  · exact fun _ _ hbelow hrun => execThermalRelease_of_enforced hbelow hrun
  · exact fun _ _ hbelow hrun => execThermalRelease_of_request hbelow hrun
  · exact fun _ _ _ _ hhot hrun => execHardwareThermalTrip_of_hot hhot hrun
  · exact fun _ _ hrun hbelow => execThermalTripRelease_of_tripped hrun hbelow
  · exact fun _ _ _ => execDiodeBroken_sets_reading
  · exact fun _ _ _ hlen => execPvtMeasurement_of_sixteen hlen
  · exact fun _ _ _ hbelow hlong => execDroopEvent_of_droop hbelow hlong
  · exact fun _ _ _ hnone => execDroopEvent_of_none hnone
  · exact fun _ _ hsince => execHotHourCount_of_hot hsince
  · exact fun _ hhold hout => execNvmWriteHold_of_outside hhold hout
  · exact fun _ hhold hlow hhigh => execNvmWriteResume_of_inside hhold hlow hhigh

/-- Settles O56: the second of device time that an event keeps is what holds IS198 back. -/
theorem droopEvents : Obligations.DroopEvents := by
  unfold Obligations.DroopEvents
  refine ⟨?_, ?_, ?_, ?_⟩
  · exact fun _ _ _ hbelow hlong hfirst => execDroopEvent_of_first hbelow hlong hfirst
  · exact fun _ _ _ hbelow hlong hlater => execDroopEvent_of_later hbelow hlong hlater
  · exact fun _ _ _ _ _ _ _ hbelow hlong ht hsecond hu => execDroopEvent_again_keeps_irq hbelow hlong ht hsecond hu
  · exact fun _ _ _ hnone => execDroopEvent_of_none hnone

end Sys2Proof.Machine
end

section
/-! The watchdog (15 R404 to R411): what each row does, by its outcome. -/

namespace Sys2Proof.Machine

section WatchdogRows

variable {hc1 drained : Bool} {s : State}

theorem State.modWd_congr {f g : Watchdog → Watchdog} (h : f s.sys.wd = g s.sys.wd) : s.modWd f = s.modWd g :=
  State.modSys_congr (congrArg (fun w => { s.sys with wd := w }) h)

/-! ### The count (15 R404 to R408) -/

theorem execWatchdogKick_of_accepted
    (hrun : s.sys.wd.run = .running ∨ s.sys.wd.run = .suspended ∨ (s.sys.wd.run = .off ∧ bitAt (s.param 0x1780) 0 = true))
    (hsent : s.sys.wd.withhold = false) (hhawk : s.sys.hawk = .running ∨ s.sys.hawk = .recovery) :
    let t := s.modWd (fun y => if hc1 then { y with kick1 := true } else { y with kick0 := true })
    let y := t.sys.wd
    execWatchdogKick hc1 s = .next (if (y.kick0 && (y.kick1 || !bitAt (y.set 0) 1)) = false then t
      else if y.set 3 ≠ 0 ∧ t.clk < y.restart + y.set 3 * 1000000 then (t.wdExpire 2).settle s
      else t.wdRestart.modWd (fun z => { z with consec := 0, policy := false })) := by
  intro t y
  have hcounts : ((s.sys.wd.run == .off && !bitAt (s.param 0x1780) 0) || s.sys.wd.run == .paused || s.sys.wd.withhold ||
      (s.sys.hawk != .running && s.sys.hawk != .recovery)) = false := by
    have hcount : (s.sys.wd.run == .off && !bitAt (s.param 0x1780) 0) = false ∧ s.sys.wd.run ≠ .paused := by
      obtain h | h | ⟨h, hen⟩ := hrun
      · simp [h]
      · simp [h]
      · simp [h, hen]
    obtain h | h := hhawk <;> simp [hcount.1, hcount.2, hsent, h]
  refine (if_neg (by simp [hcounts])).trans ?_
  simp only [apply_ite Host.Outcome.next, Bool.not_eq_true', Bool.and_eq_true, decide_eq_true_eq]
  rfl

theorem execWatchdogKick_of_withheld (hnone : s.sys.wd.run = .paused ∨ s.sys.wd.withhold = true) :
    execWatchdogKick hc1 s = .next s := by
  refine if_pos ?_
  obtain h | h := hnone <;> simp [h]

theorem execWatchdogWarning_of_running (hrun : s.sys.wd.run = .running) (hset : s.sys.wd.set 2 ≠ 0)
    (hwarned : s.sys.wd.warned = false) (hclk : s.clk < s.sys.wd.reaches (s.sys.wd.set 1)) :
    execWatchdogWarning s = .next (((s.atLeast (s.sys.wd.reaches (s.sys.wd.set 1 - s.sys.wd.set 2))).modWd
      (fun y => { y with warned := true })).raise 200) :=
  if_neg (by simp [hrun, hset, hwarned, hclk])

theorem execWatchdogExpiry_of_running (hrun : s.sys.wd.run = .running) (hheld : s.sys.hawk ≠ .held)
    (hoff : s.sys.hawk ≠ .off) :
    execWatchdogExpiry drained s = .next ((((s.atLeast (s.sys.wd.reaches (s.sys.wd.set 1))).modWd (fun y =>
      { y with drainLost := y.drainLost + flag (!drained) })).wdExpire 1).settle s) :=
  if_neg (by simp [hrun, hheld, hoff])

theorem execHawkResetHoldEnd_of_held (hheld : s.sys.hawk = .held) :
    execHawkResetHoldEnd s = .next (((((s.atLeast (s.sys.heldSince + 1000000000)).modSys
      (fun y => { y with hawk := .booting })).modSafety (fun x => { x with causes := x.causes &&& ~~~(1#12 <<< 7) })).wdRestart).modWd
        (fun x => { x with consec := 0 })) :=
  if_neg (by simp [hheld])

theorem execWatchdogHoldTimeout_of_policy (hpolicy : s.sys.wd.policy = true) (hramped : s.sys.wd.ramped = false)
    (hset : s.sys.wd.set 5 ≠ 0) :
    execWatchdogHoldTimeout s = .next ((((s.atLeast (s.sys.wd.policySince + s.sys.wd.set 5 * 1000000000)).modWd
      (fun y => { y with ramped := true })).rampSetpoints).settle s) :=
  if_neg (by simp [hpolicy, hramped, hset])

/-! ### LONG_OP (15 R408) -/

theorem execLongOpStart_of_running (hop : s.sys.wd.longOp = false) (hrun : s.sys.wd.run = .running)
    (hclk : s.clk < s.sys.wd.reaches (s.sys.wd.set 1)) :
    execLongOpStart s = .next (s.modWd (fun y => { y with
      longOp := true, longOpSince := s.clk, longOpOver := false, counted := y.countAt s.clk, run := .suspended })) := by
  refine congrArg _ ((if_neg (by simp [hop])).trans (State.modWd_congr ?_))
  simp [hrun, hclk]

theorem execLongOpStart_of_asserted (hop : s.sys.wd.longOp = true) : execLongOpStart s = .next s :=
  congrArg _ (if_pos hop)

theorem execLongOpEnd_of_suspended (hop : s.sys.wd.longOp = true) (hrun : s.sys.wd.run = .suspended) :
    execLongOpEnd s = .next ((s.modWd (fun y => { y with longOp := false, run := .running })).wdRestart) := by
  have hresumed :
      s.modWd (fun y => { y with longOp := false, run := if y.run == .suspended then .running else y.run }) =
        s.modWd (fun y => { y with longOp := false, run := .running }) := State.modWd_congr (by simp [hrun])
  refine congrArg _ ((if_neg (by simp [hop])).trans ?_)
  rw [hresumed]
  exact if_pos rfl

theorem execLongOpEnd_of_released (hop : s.sys.wd.longOp = false) : execLongOpEnd s = .next s :=
  congrArg _ (if_pos (by simp [hop]))

theorem execLongOpSuspendTimeout_of_suspended (hrun : s.sys.wd.run = .suspended) :
    let t := s.atLeast (s.sys.wd.longOpSince + s.sys.wd.set 6 * 1000000)
    execLongOpSuspendTimeout s = .next (t.modWd (fun y => { y with run := .running, resume := t.clk, longOpOver := true })) :=
  if_neg (by simp [hrun])

/-! ### The customer image (15 R411) -/

theorem execCustomerHeartbeatMissing_of_running (hon : s.firmwareOn = true) (hset : bitAt (s.sys.wd.set 0) 2 = true)
    (hcust : s.nv.fw.cust = .running) :
    let t := s.atLeast (s.sys.wd.custBeat + s.sys.wd.set 8 * 1000000)
    execCustomerHeartbeatMissing s = .next (((t.resetCust.modWd (fun x => { x with custBeat := t.clk })).raise 203).modNv
      (fun k => { k with fw := { k.fw with custResets := satInc k.fw.custResets } })) :=
  if_neg (by simp [hon, hset, hcust])

end WatchdogRows

/-- Settles O46. `exec` of each of these rows is its meaning by definition. -/
theorem watchdogEvents : Obligations.WatchdogEvents := by
  unfold Obligations.WatchdogEvents
  refine ⟨?_, ?_, ?_, ?_, ?_, ?_, ?_, ?_, ?_, ?_, ?_, ?_⟩
  · exact fun _ _ hrun hsent hhawk => execWatchdogKick_of_accepted hrun hsent hhawk
  · exact fun _ _ hnone => execWatchdogKick_of_withheld hnone
  · exact fun _ hrun hset hwarned hclk => execWatchdogWarning_of_running hrun hset hwarned hclk
  · exact fun _ _ hrun hheld hoff => execWatchdogExpiry_of_running hrun hheld hoff
  · exact fun _ hheld => execHawkResetHoldEnd_of_held hheld
  · exact fun _ hpolicy hramped hset => execWatchdogHoldTimeout_of_policy hpolicy hramped hset
  · exact fun _ hop hrun hclk => execLongOpStart_of_running hop hrun hclk
  · exact fun _ hop => execLongOpStart_of_asserted hop
  · exact fun _ hop hrun => execLongOpEnd_of_suspended hop hrun
  · exact fun _ hop => execLongOpEnd_of_released hop
  · exact fun _ hrun => execLongOpSuspendTimeout_of_suspended hrun
  · exact fun _ hon hset hcust => execCustomerHeartbeatMissing_of_running hon hset hcust

end Sys2Proof.Machine
end

section
/-! The interrupt controller (15 R414 to R424): what each row does, by its outcome. -/

namespace Sys2Proof.Machine

section ControllerRows

variable {core k : Fin 4} {n : Fin 384} {v : U32} {s : State}

/-! ### Raises, routing and counts (15 R414, R415) -/

theorem execInterruptRouting_withdraws_and_offers :
    let q := s.withdrawStale.sys.irq
    let ns := (q.sources.filter (fun e => e.2.pending && e.2.en && !e.2.offered && !e.2.active)).map (·.1)
    execInterruptRouting s = .next (if q.en then
      (ns.foldl (fun l n => insertPrio q n l) []).foldl (fun t n => t.offer n) s.withdrawStale else s.withdrawStale) := by
  intro q ns
  unfold execInterruptRouting
  rw [apply_ite Host.Outcome.next]
  cases hen : s.withdrawStale.sys.irq.en <;> simp [hen, q, ns]

theorem execIrqCountFold_of_on (hon : s.firmwareOn = true) :
    execIrqCountFold s = .next (s.modIrq (fun q => (q.sources.map (·.1)).foldl (fun q n => q.fold n) q)) :=
  if_neg (by simp [hon])

/-! ### Claims and ends (15 R416, R417) -/

theorem execIcClaimRead_of_none (hoffer : (s.sys.irq.cores[k.val]).offer = none) :
    execIcClaimRead k s = .next (s.irqRead 0x1FF) := by
  simp only [execIcClaimRead, hoffer]

theorem execIcClaimRead_of_offer {n : Nat} (hoffer : (s.sys.irq.cores[k.val]).offer = some n) :
    execIcClaimRead k s = .next ((s.modIrq (fun q =>
      let p := q.modSrc n (fun y => { y with pending := false, active := true, offered := false, core := k })
      { p with cores := vmod p.cores k (fun c => { c with
          offer := none, stack := (n, c.run) :: c.stack
          run := if (s.sys.irq.src n).fast then 0x10 else (s.sys.irq.src n).prio.setWidth 8 }) })).irqRead
      (n + fieldAt 12 4 (s.sys.irq.src n).prio.toNat + fieldAt 16 1 (flag (s.sys.irq.src n).fast))) := by
  simp only [execIcClaimRead, hoffer]

theorem execIcEoiWrite_of_innermost {n : Nat} {run : Byte} {rest : List (Nat × Byte)}
    (hstack : (s.sys.irq.cores[k.val]).stack = (n, run) :: rest) (hn : n = bitsOf v.toNat 8 0) :
    execIcEoiWrite k v s = .next (s.modIrq (fun q =>
      let p := q.modSrc n (fun y => { y with active := false })
      { p with cores := vmod p.cores k (fun c => { c with stack := rest, run := run }) })) := by
  simp only [execIcEoiWrite, hstack]
  exact if_pos hn

theorem execIcEoiWrite_of_empty (hstack : (s.sys.irq.cores[k.val]).stack = []) :
    execIcEoiWrite k v s = .next (s.modIrq (fun q => { q with eoiErr := true })) := by
  simp only [execIcEoiWrite, hstack]

/-! ### The registers (15 R414, R415, R418 to R420, R422, R424) -/

theorem execIcSwsetWrite_of_software (hcust : s.isCust core = false) (hlow : 320 ≤ bitsOf v.toNat 8 0)
    (hhigh : bitsOf v.toNat 8 0 < 384) :
    execIcSwsetWrite core v s = .next ((s.raise (bitsOf v.toNat 8 0)).modIrq (fun q => q.modSrc (bitsOf v.toNat 8 0)
      (fun x => { x with pending := true }))) := by
  simp [execIcSwsetWrite, hcust, hlow, Nat.not_le.mpr hhigh]

theorem execIcSwsetWrite_of_hardware (hcust : s.isCust core = false) (hlow : bitsOf v.toNat 8 0 < 320) :
    execIcSwsetWrite core v s = .next (s.modIrq (fun q => q.modSrc (bitsOf v.toNat 8 0)
      (fun x => { x with pending := true }))) := by
  have hhigh : ¬ 384 ≤ bitsOf v.toNat 8 0 := by omega
  simp [execIcSwsetWrite, hcust, hhigh, Nat.not_le.mpr hlow]

theorem execIcSwclrWrite_of_source (hcust : s.isCust core = false) (hn : bitsOf v.toNat 8 0 < 384) :
    execIcSwclrWrite core v s = .next (s.modIrq (fun q => (q.withdraw (bitsOf v.toNat 8 0)).modSrc (bitsOf v.toNat 8 0)
      (fun x => { x with pending := false }))) :=
  (if_neg (by simp [hcust])).trans (if_neg (Nat.not_le.mpr hn))

theorem bitAt_eq_getLsbD {w : Nat} (x : BitVec w) (i : Nat) : bitAt x.toNat i = x.getLsbD i := by
  simp [bitAt, BitVec.getLsbD, Nat.testBit, Nat.one_and_eq_mod_two]

theorem execIcCfgWrite_of_slow (hcust : s.isCust core = false) (hslow : v.getLsbD 4 = false) :
    execIcCfgWrite core n v s =
      .next (s.modIrq (fun _ => (s.sys.irq.withdraw n.val).modSrc n.val (IrqSource.configure n.val v.toNat))) := by
  have hbit : bitAt v.toNat 4 = false := by rw [bitAt_eq_getLsbD, hslow]
  refine (if_neg (by simp [hcust])).trans (if_neg ?_)
  simp [hbit]

theorem execIcStatRead_of_hawk (hcust : s.isCust core = false) :
    execIcStatRead core n s = .next ((s.irqRead (s.sys.irq.src n.val).statWord).modIrq (fun q => q.modSrc n.val
      (fun x => { x with count := 0, ovf := false }))) :=
  if_neg (by simp [hcust])

theorem execIcThrWrite_of_level (hcust : s.isCust core = false)
    (hlevel : bitsOf v.toNat 7 0 < 16 ∨ bitsOf v.toNat 7 0 = 255) :
    execIcThrWrite core k v s = .next ((s.modIrq (fun q => { q with
      cores := vmod q.cores k (fun c => { c with thr := BitVec.ofNat 8 (bitsOf v.toNat 7 0) }) })).withdrawStale) :=
  (if_neg (by simp [hcust])).trans (if_pos hlevel)

end ControllerRows

/-- Settles O47. `exec` of each of these rows is its meaning by definition. -/
theorem controllerEvents : Obligations.ControllerEvents := by
  unfold Obligations.ControllerEvents
  refine ⟨?_, ?_, ?_, ?_, ?_, ?_, ?_, ?_, ?_, ?_, ?_, ?_, ?_⟩
  · exact fun _ _ => rfl
  · exact fun _ => execInterruptRouting_withdraws_and_offers
  · exact fun _ hon => execIrqCountFold_of_on hon
  · exact fun _ _ hoffer => execIcClaimRead_of_none hoffer
  · exact fun _ _ _ hoffer => execIcClaimRead_of_offer hoffer
  · exact fun _ _ _ _ _ _ hstack hn => execIcEoiWrite_of_innermost hstack hn
  · exact fun _ _ _ hstack => execIcEoiWrite_of_empty hstack
  · exact fun _ _ _ hcust hlow hhigh => execIcSwsetWrite_of_software hcust hlow hhigh
  · exact fun _ _ _ hcust hlow => execIcSwsetWrite_of_hardware hcust hlow
  · exact fun _ _ _ hcust hn => execIcSwclrWrite_of_source hcust hn
  · exact fun _ _ _ _ hcust hslow => execIcCfgWrite_of_slow hcust hslow
  · exact fun _ _ _ hcust => execIcStatRead_of_hawk hcust
  · exact fun _ _ _ _ hcust hlevel => execIcThrWrite_of_level hcust hlevel

end Sys2Proof.Machine
end

section
/-! Frames that do not arrive whole, and the TW0 window (17 R466, R473 to R476; 18 R491). -/

namespace Sys2Proof.Machine

section FramingRows

variable {q : Fin 2} {a : BitVec 7} {s : State}

theorem State.modTw_congr {f g : TwoWire → TwoWire} (h : f s.link.tw = g s.link.tw) : s.modTw f = s.modTw g :=
  congrArg (fun w => { s with link := { s.link with tw := w } }) h

/-! ### Reassembly and the service UART (17 R466; 18 R491) -/

theorem execSmuSegmentReassemblyTimeout_of_found {addr : U32} {udp id : U16} {x : Reassembly}
    (hfound : s.link.reassemblies.find? (fun y => y.isOf q addr udp id) = some x) :
    execSmuSegmentReassemblyTimeout q addr udp id s =
      .next (((s.atLeast (x.since + s.param (etId q 9) * 1000000)).dropReassembly q addr udp id).ethError q) := by
  simp only [execSmuSegmentReassemblyTimeout, hfound]

theorem execUartInterByteTimeout_of_part {part : List Byte} (halt : s.port.alt = true) (hpart : part ≠ []) :
    execUartInterByteTimeout part s =
      .next { s with port := { s.port with cntFrameErr := satInc s.port.cntFrameErr } } :=
  if_neg (by simp [halt, hpart])

/-! ### TW0 (17 R473 to R476) -/

theorem execTw0ReleaseResponse_of_queue {x : Response} {xs : List Response} (haddr : s.link.tw.address = some a)
    (hqueue : s.link.tw.queue = x :: xs) :
    execTw0ReleaseResponse s =
      .next ((s.pickParam 0x1A21).modTw (fun w => { w with pointer := 9, queue := xs, cntTx := w.cntTx + 1#32 })) := by
  refine (if_neg (by simp [haddr])).trans (congrArg _ ?_)
  have hwaiting : (s.pickParam 0x1A21).link.tw.queue = x :: xs := hqueue
  exact State.modTw_congr (s := s.pickParam 0x1A21) (f := fun w => if w.queue.isEmpty then { w with pointer := 9 }
    else { w with pointer := 9, queue := w.queue.tail, cntTx := w.cntTx + 1#32 }) (by simp [hwaiting])

theorem execTw0StatusRead_of_up (haddr : s.link.tw.address = some a) :
    execTw0StatusRead s =
      .next ((s.pickParam 0x1A21).modTw (fun w => { w with pointer := 2, data := BitVec.ofNat 8 s.twStatusByte, attn := false })) :=
  if_neg (by simp [haddr])

theorem execTw0AttnCauseRead_of_up (haddr : s.link.tw.address = some a) :
    execTw0AttnCauseRead s =
      .next ((s.pickParam 0x1A21).modTw (fun w => { w with pointer := 3, data := w.attnCause, attnCause := 0 })) :=
  if_neg (by simp [haddr])

theorem execAttentionWrite_of_sent (haddr : s.link.tw.address = some a) (hattn : s.link.tw.attn = true)
    (hen : bitAt (s.param 0x1A20) 0 = true) :
    execAttentionWrite .sent s =
      .next ((((s.atLeast (max s.link.tw.attnFrom (s.clk + bitsOf (s.param 0x1A20) 23 16 * 100))).pickParam 0x1A21).modTw
        (fun w => { w with
          attn := false
          attnOut := w.attnOut ++ [(BitVec.ofNat 7 (bitsOf (s.param 0x1A20) 7 1), leBytes 1 a.toNat ++
              leBytes 1 w.attnCause.toNat)] })).raise 253) := by
  refine (if_neg (by simp [haddr, hattn, hen])).trans ?_
  simp only [haddr]

theorem strapHigh_eq (x : BitVec 8) : strapHigh x = decide (x = 255) := rfl

theorem execTw0IslandResetRelease_of_running {addr0 addr1 : BitVec 8} (haddr : s.link.tw.address = none)
    (hrun : s.power.safety.dieRunning = true) :
    ∃ t, execTw0IslandResetRelease addr0 addr1 s = .next t ∧
      t.link.tw.address = some (BitVec.ofNat 7 (0x58 + 2 * flag (decide (addr1 = 255)) + flag (decide (addr0 = 255)))) ∧
          t.link.tw.vio = true ∧
      t.conv = s.conv ∧ t.host = s.host ∧ t.power = s.power ∧ t.nv = s.nv := by
  refine ⟨_, if_neg (by simp [haddr, hrun]), ?_, rfl, rfl, rfl, rfl, rfl⟩
  simp [strapHigh_eq]

end FramingRows

/-- Settles O12. `exec` of each of these rows is its meaning by definition. -/
theorem mailboxFramingEvents : Obligations.MailboxFramingEvents := by
  unfold Obligations.MailboxFramingEvents
  refine ⟨?_, ?_, ?_, ?_, ?_, ?_, ?_, ?_⟩
  · exact fun _ _ _ _ _ _ hfound => execSmuSegmentReassemblyTimeout_of_found hfound
  · exact fun _ _ halt hpart => execUartInterByteTimeout_of_part halt hpart
  · exact fun _ _ _ _ haddr hqueue => execTw0ReleaseResponse_of_queue haddr hqueue
  · exact fun _ _ haddr => execTw0StatusRead_of_up haddr
  · exact fun _ _ haddr => execTw0AttnCauseRead_of_up haddr
  · exact fun _ _ haddr hattn hen => execAttentionWrite_of_sent haddr hattn hen
  · exact fun _ _ _ haddr hrun => execTw0IslandResetRelease_of_running haddr hrun
  · exact fun _ => rfl

end Sys2Proof.Machine
end

section
/-! The host links (17 R457 to R464, R470 to R479): what each row does, by its outcome. -/

namespace Sys2Proof.Machine

section LinkRows

variable {q : Fin 2} {p : PtpParent} {s : State}

/-! ### The ports (17 R457 to R460) -/

theorem execEthLinkChange_of_up {speed : Fin 3} (hdown : (s.eth q).up = false)
    (hen : (s.eth q).set.cfg.getLsbD 0 = true) (hauto : bitsOf (s.eth q).set.cfg.toNat 3 2 = 0) :
    execEthLinkChange q true speed true s = .next (((s.modEth q (fun y => { y with
      up := true, speed := speed.val + 1, duplex := true })).raise (etSource q 0)).ptpDecide) := by
  simp only [execEthLinkChange, hdown, hen, hauto, Bool.and_self]
  rfl

theorem EthPort.maxFrame_ge (x : EthPort) : 1518 ≤ x.maxFrame false := by
  unfold EthPort.maxFrame
  split <;> simp

theorem State.modEth_prp {f : EthPort → EthPort} (hset : (f (s.eth q)).set = (s.eth q).set) :
    (s.modEth q f).link.prp = s.link.prp := by
  change ((s.modEth q f).eth 0).set.cfg.getLsbD 4 = (s.eth 0).set.cfg.getLsbD 4
  by_cases hq : q = 0
  · subst hq
    rw [State.modEth_eth_self, hset]
  · rw [State.modEth_eth_ne _ hq]

theorem State.lanHeard_of_single {src : U64} (hprp : s.link.prp = false) : s.lanHeard q src = s :=
  if_pos (by simp [hprp])

/-- An ARP request for the address of a port with one (17 R458). -/
theorem State.frameContent_of_request {f : EthFrame} {sender target : U32} (hip : (s.eth q).set.ip ≠ 0)
    (hpayload : f.payload = .arp sender target true) (htarget : target = (s.eth q).set.ip) :
    s.frameContent q f = (s.modLink (LinkState.learn q sender)).modLink
      (fun l => ({ l with out := l.out ++ [.arpReply q sender] } : LinkState).transmit q 1) := by
  simp only [State.frameContent, hpayload]
  refine (if_neg (by simpa using hip)).trans ((if_pos trivial).trans (if_pos ?_))
  simp [htarget]

theorem execEthFrameReceived_of_request {f : EthFrame} {sender target : U32} (hup : (s.eth q).up = true)
    (hfcs : f.fcsOk = true) (hsum : f.sumOk = true) (hover : f.overflow = false) (hvlan : f.vlan = none)
    (hlen : f.length ≤ 1518) (hdest : f.dest.getLsbD 40 = true) (hprp : s.link.prp = false) (hplain : f.prp = none)
    (hip : (s.eth q).set.ip ≠ 0) (hpayload : f.payload = .arp sender target true) (htarget : target = (s.eth q).set.ip) :
    execEthFrameReceived q f s = .next (((s.modEth q (fun y => { y with cntRx := y.cntRx + 1#32 })).modLink
      (LinkState.learn q sender)).modLink (fun l => ({ l with out := l.out ++ [.arpReply q sender] } : LinkState).transmit q 1)) := by
  have hlong : ¬ (s.eth q).maxFrame false < f.length := Nat.not_lt.mpr (Nat.le_trans hlen (EthPort.maxFrame_ge _))
  have hvlanOk : (s.eth q).vlanOk f.vlan = true := by rw [hvlan]; rfl
  have htakes : (s.eth q).takes f.dest = true := by rw [EthPort.takes, hdest, Bool.true_or]
  have hself : (s.modEth q (fun y => { y with cntRx := y.cntRx + 1#32 })).eth q =
      { s.eth q with cntRx := (s.eth q).cntRx + 1#32 } := State.modEth_eth_self _ q _
  refine (if_neg (by simp [hup])).trans ((if_neg (by simp [hfcs, hsum, hover, hvlan, hlong])).trans
    ((if_neg (by simp [hvlanOk, htakes])).trans ?_))
  have hsingle : (s.modEth q (fun y => { y with cntRx := y.cntRx + 1#32 })).link.prp = false :=
    (State.modEth_prp rfl).trans hprp
  simp only [State.lanHeard_of_single hsingle]
  refine (if_neg (by simp [State.prpDuplicate, hplain])).trans (congrArg _ ?_)
  simp only [State.prpRemember, hplain]
  exact State.frameContent_of_request (by rwa [hself]) hpayload (by rwa [hself])

theorem execEthPortRestart_of_down (hrestarting : (s.eth q).restarting = true) (hdown : (s.eth q).up = false) :
    execEthPortRestart q s = .next ((s.modEth q (fun x => { x with
      set := s.ethSettings q, restarting := false, addrConflict := false
      up := x.up && (s.ethSettings q).cfg.getLsbD 0 })).ptpDecide) := by
  refine (if_pos hrestarting).trans ?_
  simp [State.ethRestart, State.raiseIf, hdown]

/-! ### PRP (17 R464) -/

@[simp] theorem LinkState.transmit_out (n : Nat) (l : LinkState) : (l.transmit q n).out = l.out := by
  unfold LinkState.transmit
  split <;> rfl

@[simp] theorem LinkState.transmit_prpSent (n : Nat) (l : LinkState) : (l.transmit q n).prpSent = l.prpSent := by
  unfold LinkState.transmit
  split <;> rfl

theorem execPrpSupervisionSend_of_prp (hprp : s.link.prp = true) :
    ∃ t, execPrpSupervisionSend s = .next t ∧ t.clk = max s.clk (s.link.prpSent + 2000000000) ∧ t.link.prpSent = t.clk ∧
      t.link.out = s.link.out ++ [.supervision s.link.prpSeq] ∧ t.conv = s.conv ∧ t.host = s.host ∧ t.nv = s.nv := by
  refine ⟨_, if_neg (by simp [hprp]), rfl, ?_, ?_, rfl, rfl, rfl⟩
  all_goals simp

theorem execPrpLanTimeout_of_heard (hprp : s.link.prp = true) (hok : (s.eth q).lanOk = true) :
    execPrpLanTimeout q s = .next (((s.atLeast ((s.eth q).lanSeen + 6000000000)).modEth q
      (fun x => { x with lanOk := false })).raise (etSource q 4)) :=
  if_neg (by simp [hprp, hok])

/-! ### PTP (17 R461 to R463) -/

theorem State.modEth_congr {f g : EthPort → EthPort} (h : f (s.eth q) = g (s.eth q)) : s.modEth q f = s.modEth q g :=
  congrArg (fun x => { s with link := { s.link with eth := s.link.eth.set q.val x q.isLt } }) h

theorem execPtpSyncReceived_of_slave {offset logSync : Reading} (hslave : (s.eth q).ptp = .slave)
    (hdelays : 2 ≤ (s.eth q).delays.length) :
    let u := (s.modEth q (fun y => { y with
      lastSync := some s.clk, parent := y.parent.map (fun p => { p with logSync := logSync }) })).pickTime
    let theta := roundQ ((offset + (u.ptpLatency q).1 : Int) + (s.eth q).delay + (u.heldI 0x1609 : Int))
    let t := u.modTb (fun b => { b with ptpOffset := theta })
    execPtpSyncReceived q offset logSync s = .next (if t.usesSource 2 then t.measureOffset theta else t) := by
  intro u theta t
  refine (if_neg (by simp [hslave])).trans ((if_neg (Nat.not_lt.mpr hdelays)).trans ?_)
  rw [State.modEth_congr (s := s) (q := q) (g := fun y => { y with
    lastSync := some s.clk, parent := y.parent.map (fun p => { p with logSync := logSync }) })
    (by cases (s.eth q).parent <;> rfl)]
  simp only [hslave, beq_self_eq_true, if_true]
  rfl

/-- The port has sent a Delay_Req (17 R462). -/
def State.delayReqSent (q : Fin 2) (s : State) : State :=
  s.modLink (fun l => ({ l with
    out := l.out ++ [.delayReq q], eth := vmod l.eth q (fun y => { y with lastDelayReq := s.clk }) } : LinkState).transmitPtp q 1)

theorem execPtpDelayReqSend_of_slave {x : Nanos} (hparent : (s.eth q).parent = some p) (hslave : (s.eth q).ptp = .slave)
    (hsync : (s.eth q).lastSync = some x) :
    ∃ t, execPtpDelayReqSend q s = .next t ∧
      t.clk = max s.clk ((s.eth q).lastDelayReq + logInterval (max (s.ptpLog q 28) p.logDreq)) ∧
      t.link.out = s.link.out ++ [.delayReq q] ∧ (t.eth q).lastDelayReq = t.clk ∧ t.conv = s.conv ∧ t.nv = s.nv := by
  have hsent : execPtpDelayReqSend q s =
      .next ((s.atLeast ((s.eth q).lastDelayReq + logInterval (max (s.ptpLog q 28) p.logDreq))).delayReqSent q) := by
    simp only [execPtpDelayReqSend, hparent]
    exact if_neg (by simp [hslave, hsync])
  refine ⟨_, hsent, rfl, rfl, ?_, rfl, rfl⟩
  simp [State.delayReqSent, State.eth, LinkState.transmitPtp, vmod]

/-- The clock class and the steps that a MASTER announces (17 R461). -/
def State.announced (s : State) : Nat × Nat :=
  match s.clock.tb.run with
  | .locked => (match (match s.slavePort with | some m => s.parentOf m | none => none) with
    | some p => (p.clockClass, p.steps + 1)
    | none => ((Config.freeByte s.freeCtr 0).toNat, 0))
  | .holdover => (187, 0)
  | _ => (248, 0)

/-- The port has sent Sync and Announce, with the clock class and the steps given (17 R461). -/
def State.masterSent (q : Fin 2) (c : Nat × Nat) (s : State) : State :=
  State.modLink (fun l => ({ l with
    out := l.out ++ [.sync q (bitAt (s.param (etId q 6)) 1) s.now, .announce q c.1 c.2]
    eth := vmod l.eth q (fun y => { y with lastMaster := s.clk }) } : LinkState).transmitPtp q 2) { s with freeCtr := s.freeCtr + 1 }

theorem State.announced_atLeast (t : Nanos) : (s.atLeast t).announced = s.announced := by
  have hon (m : Fin 2) : (s.atLeast t).ptpOn m = s.ptpOn m := by
    simp only [State.ptpOn, State.eth, State.atLeast_param, State.atLeast_link]
  have heth (m : Fin 2) : (s.atLeast t).eth m = s.eth m := rfl
  have hparent (m : Fin 2) : (s.atLeast t).parentOf m = s.parentOf m := by
    rw [State.parentOf, hon, heth, State.parentOf]
  have hport : (s.atLeast t).slavePort = s.slavePort := by simp only [State.slavePort, hparent]
  simp only [State.announced, hport, hparent, State.atLeast_clock, State.atLeast_freeCtr]

theorem State.masterSent_clk (c : Nat × Nat) : (s.masterSent q c).clk = s.clk := rfl

theorem State.masterSent_out (c : Nat × Nat) : (s.masterSent q c).link.out =
    s.link.out ++ [.sync q (bitAt (s.param (etId q 6)) 1) (s.masterSent q c).now, .announce q c.1 c.2] := rfl

theorem execPtpMasterSend_of_master (hmaster : (s.eth q).ptp = .master) :
    ∃ t cls steps, execPtpMasterSend q s = .next t ∧
      t.clk = max s.clk ((s.eth q).lastMaster + logInterval (s.ptpLog q 16)) ∧ (t.eth q).lastMaster = t.clk ∧
      t.link.out = s.link.out ++ [.sync q (bitAt (s.param (etId q 6)) 1) t.now, .announce q cls steps] ∧ t.conv = s.conv ∧
      (s.clock.tb.run = .holdover → cls = 187 ∧ steps = 0) ∧ (s.clock.tb.run = .free → cls = 248 ∧ steps = 0) ∧
      (∀ (m : Fin 2) (p : PtpParent), s.clock.tb.run = .locked → s.slavePort = some m → s.parentOf m = some p →
        cls = p.clockClass ∧ steps = p.steps + 1) := by
  have hstays : ((s.eth q).ptp == .listening && s.masterOk q) = false := by simp [hmaster]
  have hsent : execPtpMasterSend q s =
      .next ((s.atLeast ((s.eth q).lastMaster + logInterval (s.ptpLog q 16))).masterSent q
        (s.atLeast ((s.eth q).lastMaster + logInterval (s.ptpLog q 16))).announced) := by
    refine (if_neg (by simp [hmaster])).trans ?_
    simp only [hstays, Bool.false_eq_true, if_false]
    generalize s.atLeast _ = u
    rfl
  generalize (s.eth q).lastMaster + logInterval (s.ptpLog q 16) = due at hsent ⊢
  rw [State.announced_atLeast] at hsent
  refine ⟨_, s.announced.1, s.announced.2, hsent, State.masterSent_clk _, ?_, ?_, rfl, ?_, ?_, ?_⟩
  · simp [State.masterSent, State.eth, LinkState.transmitPtp, vmod]
  · rw [State.masterSent_out, State.atLeast_param, State.atLeast_link]
  · intro hrun
    simp [State.announced, hrun]
  · intro hrun
    simp [State.announced, hrun]
  · intro m p hrun hport hparent
    simp [State.announced, hrun, hport, hparent]

theorem execPtpSourceLoss_of_parent (hparent : (s.eth q).parent = some p) (hsync : (s.eth q).lastSync = none) :
    execPtpSourceLoss q s = .next (((s.atLeast ((s.eth q).lastAnnounce +
      bitsOf (s.param (etId q 6)) 27 24 * logInterval p.logAnn)).modEth q
        (fun y => { y with parent := none, lastSync := none, delays := [] })).ptpDecide) := by
  simp only [execPtpSourceLoss, hparent, hsync]

end LinkRows

section LinkOpcodes

variable {r : Req} {i slot : Fin 32} {s : State}

theorem execLinkStatus_of_ready (h : Ready 0x0160 observe r s) (hp : r.payload = []) :
    let port (q : Fin 2) := leBytes 4 (s.eth q).status ++ leBytes 4 (s.eth q).delayWord ++ leBytes 4 (s.eth q).cntRx.toNat ++
      leBytes 4 (s.eth q).cntTx.toNat ++ leBytes 4 (s.eth q).cntErr.toNat ++ leBytes 4 (s.eth q).cntDrop.toNat
    execLinkStatus r s = .next (s.complete r 0x0160 (done (port 0 ++ port 1 ++ leBytes 4 s.link.tw.status))) :=
  h.next_ok (len_zero hp) rfl

theorem execEthRestart_of_mask (h : Ready 0x0161 configure r s) (hlen : r.payload.length = 1)
    (hmask : numAt r.payload 0 1 < 4) :
    execEthRestart r s = .next (((List.finRange 2).foldl (fun t q => if bitAt (numAt r.payload 0 1) q.val then
      t.modEth q (fun x => { x with restarting := true }) else t) s).complete r 0x0161 done) :=
  h.next_ok (len_none.mpr hlen) (if_neg (Nat.not_le.mpr hmask))

theorem execTwCycle_of_other (h : Ready 0x0162 service r s) (hp : r.payload = []) (hvia : r.via.transport ≠ .tw0) :
    execTwCycle r s = .next ((s.twCycle 10000000).complete r 0x0162 done) :=
  h.next_ok (len_zero hp) (if_neg (by simpa using hvia))

theorem execTw1Xfer_of_done {bytes : List Byte} (h : Ready 0x0163 service r s) (hidle : s.link.tw.tw1 = none)
    (_hlong : 8 ≤ r.payload.length) (hwr : numAt r.payload 2 2 ≤ 256)
    (hlen : r.payload.length = 8 + numAt r.payload 2 2) (hzero : zeroAt r.payload 1 1 = true)
    (hzero2 : zeroAt r.payload 6 2 = true) (haddr : numAt r.payload 0 1 < 128) (hrd : numAt r.payload 4 2 ≤ 256) :
    execTw1Xfer r (.done bytes) s = .next (((s.modTw (fun w => { w with
      tw1Out := some (BitVec.ofNat 7 (numAt r.payload 0 1), slice r.payload 8 (numAt r.payload 2 2),
          numAt r.payload 4 2) })).raise 256).complete r 0x0163
      (done (bytes.take (numAt r.payload 4 2) ++ zeros (numAt r.payload 4 2 - bytes.length)))) := by
  simp only [execTw1Xfer, hidle]
  refine h.next_ok ?_ ?_
  · exact (if_neg (by omega)).trans ((if_neg (by simp [hlen, Nat.not_lt.mpr hwr])).trans (if_neg (by simp [hzero, hzero2])))
  · exact if_neg (by omega)

theorem execTw1StretchTimeout_of_lost (hbusy : s.link.tw.tw1 = some r) :
    execTw1StretchTimeout true s = .next (((s.modTw (fun w => { w with tw1 := none })).complete r 0x0163
      ⟨stState, 0, 0x0103, []⟩).raise 258) := by
  simp [execTw1StretchTimeout, hbusy, State.tw1End]

/-! ### Streams (17 R470, R471, R479) -/

theorem execStreamFlushTimeout_of_oldest {x : Stream} {t0 : Nanos} (hstream : s.stream slot = some x)
    (holdest : x.oldest = some t0) :
    execStreamFlushTimeout slot s = .next ((s.atLeast (t0 + x.flushMs * 1000000)).streamSend slot) := by
  simp only [execStreamFlushTimeout, hstream, holdest]

theorem execStreamFlushTimeout_of_none (hnone : (s.stream slot).bind (·.oldest) = none) :
    execStreamFlushTimeout slot s = .next s := by
  cases hstream : s.stream slot with
  | none => simp only [execStreamFlushTimeout, hstream]
  | some x =>
    rw [hstream] at hnone
    simp only [execStreamFlushTimeout, hstream, show x.oldest = none from hnone]

theorem execStreamCreate_of_free {x : Ring} (h : Ready 0x0D10 observe r s) (hshape : lenZ 16 [(14, 2)] r.payload = none)
    (hring : s.ring? (numAt r.payload 0 4) = some x) (howner : x.owner = r.owner) (hmask : numAt r.payload 10 1 < 4)
    (hn : 1 ≤ numAt r.payload 11 1) (hflush : 1 ≤ numAt r.payload 12 2) (hflush2 : numAt r.payload 12 2 ≤ 10000)
    (hn2 : numAt r.payload 11 1 ≤ 140) :
    let ports := (List.finRange 2).filter (fun q => bitAt (numAt r.payload 10 1) q.val)
    ports.any (fun q => decide ((s.eth q).maxUdp < 48 + 64 * numAt r.payload 11 1)) = false →
    ports.all (fun q => (s.eth q).set.ip == 0) = false →
    (List.finRange 32).find? (fun i => (s.stream i).isNone) = some i →
    let no := (s.owner r.owner).streamCreations
    let y : Stream :=
      { owner := r.owner, ring := numAt r.payload 0 4, portMask := numAt r.payload 10 1
        addr := BitVec.ofNat 32 (numAt r.payload 4 4), udp := BitVec.ofNat 16 (numAt r.payload 8 2),
            records := numAt r.payload 11 1, flushMs := numAt r.payload 12 2
        createNo := no, dseq := 0, deferrals := 0, paused := false, oldest := waitingFrom s.clk x }
    let t := (s.modOwner r.owner (fun o => { o with streamCreations := o.streamCreations + 1#32 })).modLink
      (fun l => { l with streams := vmod l.streams i (fun _ => some y) })
    execStreamCreate r s = .next (((if numAt r.payload 11 1 ≤ x.fill then t.streamSend i else t).storeSecure 17).complete r 0x0D10
        (done (leBytes 1 i.val ++ zeros 3 ++ leBytes 4 no.toNat))) := by
  intro ports hfits haddr hfree no y t
  refine h.next_ok hshape ?_
  simp only [hring]
  refine (if_neg (by simp [howner])).trans ((if_neg (by omega)).trans ((if_neg (Bool.eq_false_iff.mp hfits)).trans
    ((if_neg (Bool.eq_false_iff.mp haddr)).trans ?_)))
  simp only [hfree]
  rfl

theorem execStreamDelete_of_owner {x : Stream} (h : Ready 0x0D11 [1, 16] r s) (hlen : r.payload.length = 1)
    (hslot : numAt r.payload 0 1 = i.val) (hstream : s.stream i = some x) (howner : x.owner = r.owner)
    (hpriv : s.hasPriv r.owner 0 = true) :
    execStreamDelete r s = .next (((s.modLink (fun l => { l with streams := vmod l.streams i (fun _ => none) })).storeSecure 17).complete
      r 0x0D11 done) := by
  refine h.next_ok (len_none.mpr hlen) ?_
  simp [hslot, hstream, howner, hpriv]

theorem execStreamStatus_of_stream {x : Stream} (h : Ready 0x0D12 observe r s) (hlen : r.payload.length = 1)
    (hslot : numAt r.payload 0 1 = i.val) (hstream : s.stream i = some x) :
    execStreamStatus r s = .next (s.complete r 0x0D12
      (done (leBytes 4 x.createNo.toNat ++ leBytes 8 x.dseq.toNat ++ leBytes 4 x.deferrals.toNat))) := by
  refine h.next_ok (len_none.mpr hlen) ?_
  simp [hslot, hstream]

end LinkOpcodes

/-- Settles O17. `exec` of each of these rows is its meaning by definition. -/
theorem linkPortEvents : Obligations.LinkPortEvents := by
  unfold Obligations.LinkPortEvents
  refine ⟨?_, ?_, ?_, ?_, ?_⟩
  · exact fun _ _ _ hdown hen hauto => execEthLinkChange_of_up hdown hen hauto
  · exact fun _ _ _ _ _ hup hfcs hsum hover hvlan hlen hdest hprp hplain hip hpayload htarget =>
      execEthFrameReceived_of_request hup hfcs hsum hover hvlan hlen hdest hprp hplain hip hpayload htarget
  · exact fun _ _ hrestarting hdown => execEthPortRestart_of_down hrestarting hdown
  · exact fun _ hprp => execPrpSupervisionSend_of_prp hprp
  · exact fun _ _ hprp hok => execPrpLanTimeout_of_heard hprp hok

/-- Settles O18. `exec` of each of these rows is its meaning by definition. -/
theorem ptpEvents : Obligations.PtpEvents := by
  unfold Obligations.PtpEvents
  refine ⟨?_, ?_, ?_, ?_⟩
  · exact fun _ _ _ _ hslave hdelays => execPtpSyncReceived_of_slave hslave hdelays
  · exact fun _ _ _ _ hparent hslave hsync => execPtpDelayReqSend_of_slave hparent hslave hsync
  · exact fun _ _ hmaster => execPtpMasterSend_of_master hmaster
  · exact fun _ _ _ hparent hsync => execPtpSourceLoss_of_parent hparent hsync

/-- Settles O19. `exec` of each of these rows is its meaning by definition. -/
theorem linkAndStreamCommands : Obligations.LinkAndStreamCommands := by
  unfold Obligations.LinkAndStreamCommands
  refine ⟨?_, ?_, ?_, ?_, ?_, ?_, ?_, ?_, ?_, ?_⟩
  · exact fun _ _ h hp => execLinkStatus_of_ready h hp
  · exact fun _ _ h hlen hmask => execEthRestart_of_mask h hlen hmask
  · exact fun _ _ h hp hvia => execTwCycle_of_other h hp hvia
  · exact fun _ _ _ h hidle _hlong hwr hlen hzero hzero2 haddr hrd =>
      execTw1Xfer_of_done h hidle _hlong hwr hlen hzero hzero2 haddr hrd
  · exact fun _ _ hbusy => execTw1StretchTimeout_of_lost hbusy
  · exact fun _ _ _ _ hstream holdest => execStreamFlushTimeout_of_oldest hstream holdest
  · exact fun _ _ hnone => execStreamFlushTimeout_of_none hnone
  · exact fun _ _ _ _ h hshape hring howner hmask hn hflush hflush2 hn2 =>
      execStreamCreate_of_free h hshape hring howner hmask hn hflush hflush2 hn2
  · exact fun _ _ _ _ h hlen hslot hstream howner hpriv => execStreamDelete_of_owner h hlen hslot hstream howner hpriv
  · exact fun _ _ _ _ h hlen hslot hstream => execStreamStatus_of_stream h hlen hslot hstream

end Sys2Proof.Machine
end

section
/-! The service port (18 R481 to R496): what each row does, by its outcome. -/

namespace Sys2Proof.Machine

section PortRows

variable {source orient : Bool} {vbus : U16} {bytes : List Byte} {ns ohms : Nat} {s : State}

/-! ### Attach and detach (18 R481) -/

theorem execCcAttach_of_unattached (hon : s.portOn = true) (hrun : s.port.run = .unattached)
    (hsource : source = true → s.maySource = true ∧ vbus.toNat < 80) :
    let t := (((s.modSp (fun x => { x with
      run := if source then .attachedSrc else .attachedSnk, orient := orient, vbus := vbus, srcOn := source
      cntAttach := x.cntAttach + 1#32 })).raise 260).wakeBy 4).pdBegin
    execCcAttach source orient vbus s =
      .next (if t.port.run = .attachedSrc ∧ t.port.inForce.srcI ≠ 0 then
        t.pdSend (.sourceCapabilities t.port.inForce.srcI) else t) := by
  intro t
  have hwet : (s.port.run == .wet && !source && decide (400 < vbus.toNat)) = false := by simp [hrun]
  have hok : (s.portOn && (s.port.run == .unattached || s.port.run == .wet && !source && decide (400 < vbus.toNat)) &&
      (!source || (s.maySource && decide (vbus.toNat < 80)))) = true := by
    cases source
    · simp [hon, hrun]
    · simp [hon, hrun, hsource rfl]
  refine (if_neg (by simp [hok])).trans ?_
  simp only [hwet, Bool.and_eq_true, beq_iff_eq, decide_eq_true_eq]
  rfl

theorem execCcAttach_of_off (hoff : s.portOn = false) : execCcAttach source orient vbus s = .next s :=
  if_pos (by simp [hoff])

theorem execCcDetach_of_gone (hgone : s.port.run = .attachedSrc ∨ (s.port.run = .attachedSnk ∧ vbus.toNat < 367)) :
    execCcDetach vbus s = .next ((s.portDetach .unattached).modSp (fun p => { p with vbus := vbus })) :=
  if_pos (by simpa using hgone)

theorem execCcDetach_of_fed (hrun : s.port.run = .attachedSnk) (hfed : 367 ≤ vbus.toNat) :
    execCcDetach vbus s = .next s :=
  if_neg (by simp [hrun, hfed])

theorem execDrpToggle_of_unattached (hrun : s.port.run = .unattached) (hmay : s.maySource = true) :
    let t := s.atLeast (s.port.toggledAt + 37500000)
    execDrpToggle s = .next (t.modSp (fun p => { p with rd := !p.rd, toggledAt := t.clk })) :=
  (if_neg (by simp [hrun])).trans (if_neg (by simp [hrun, hmay]))

/-! ### PD messages and VBUS (18 R482 to R488) -/

theorem execPdSourceCapabilities_of_sink {objects : List U32} {k v i : Nat} {m : Bool}
    (hrun : s.port.run = .attachedSnk) (hon : s.pdBegin.port.run ≠ .disabled)
    (hchoice : s.pdBegin.port.inForce.choose objects = (k, v, i, m)) :
    execPdSourceCapabilities objects s = .next ((s.pdBegin.modSp (fun p => { p with
      reqVolt := v, reqCurr := i, requested := true, inSequence := true })).pdSend (.request k i m)) := by
  refine (if_neg (by simp [hrun])).trans ((if_neg (by simp [hon])).trans ?_)
  simp only [hchoice]

theorem execPdPsRdy_of_accepted (hrun : s.port.run = .attachedSnk) (haccepted : s.port.accepted = true) :
    let changed := !s.port.contract || decide (s.port.vc ≠ s.port.reqVolt) || decide (s.port.curr ≠ s.port.reqCurr)
    execPdPsRdy vbus s = .next (((s.modSp (fun x => { x with
      contract := true, vc := x.reqVolt, curr := x.reqCurr, accepted := false, inSequence := false
      snkOn := s.port.reqVolt == s.port.inForce.snkV && s.vbusInside s.port.reqVolt vbus.toNat
      ready := s.vbusInside s.port.reqVolt vbus.toNat, vbus := vbus
      transMs := s.transition })).raiseIf changed 262).pdNextSend) := by
  intro changed
  exact if_neg (by simp [hrun, haccepted])

/-- A message other than GoodCRC. -/
theorem execPdMessageReceived_of_message (hattached : s.port.attached = true) (hsop : numAt bytes 0 1 = 0)
    (hmessage : bitsOf (numAt bytes 1 2) 4 0 ≠ 1 ∨ bitsOf (numAt bytes 1 2) 14 12 ≠ 0 ∨ bitAt (numAt bytes 1 2) 15 = true) :
    execPdMessageReceived bytes true s = if (s.port.rxId == some (bitsOf (numAt bytes 1 2) 11 9)) = true then .next s else
      let t := (s.modSp (fun p => { p with
        cntRx := p.cntRx + 1#32, rxId := some (bitsOf (numAt bytes 1 2) 11 9) })).pdRx 0 (numAt bytes 1 2) (bytes.drop 3)
      let t := t.pdDiscard.pdBegin
      .next (if t.port.run == .disabled then t else t.pdReact (numAt bytes 1 2) (bytes.drop 3)) := by
  refine (if_neg (by simp [hattached, hsop])).trans ((if_neg (by simp)).trans (if_neg ?_))
  obtain h | h | h := hmessage <;> simp [h]

theorem execPdMessageReceived_of_goodCrc (hattached : s.port.attached = true) (hsop : numAt bytes 0 1 = 0)
    (htype : bitsOf (numAt bytes 1 2) 4 0 = 1) (hcount : bitsOf (numAt bytes 1 2) 14 12 = 0)
    (hext : bitAt (numAt bytes 1 2) 15 = false) :
    execPdMessageReceived bytes true s = .next s.pdGoodCrc :=
    (if_neg (by simp [hattached, hsop])).trans ((if_neg (by simp)).trans (if_pos (by simp [htype, hcount, hext])))

theorem execPdMessageReceived_of_badCrc (hattached : s.port.attached = true) (hsop : numAt bytes 0 1 = 0) :
    execPdMessageReceived bytes false s = .next (s.modSp (fun p => { p with cntCrcErr := satInc p.cntCrcErr })) :=
  (if_neg (by simp [hattached, hsop])).trans (if_pos rfl)

theorem execPdMessageReceived_of_repeat (hattached : s.port.attached = true) (hsop : numAt bytes 0 1 = 0)
    (hmessage : bitsOf (numAt bytes 1 2) 4 0 ≠ 1 ∨ bitsOf (numAt bytes 1 2) 14 12 ≠ 0 ∨ bitAt (numAt bytes 1 2) 15 = true)
    (hid : s.port.rxId = some (bitsOf (numAt bytes 1 2) 11 9)) :
    execPdMessageReceived bytes true s = .next s :=
    (execPdMessageReceived_of_message hattached hsop hmessage).trans (if_pos (by simp [hid]))

theorem execPdMessageReceived_of_new (hattached : s.port.attached = true) (hsop : numAt bytes 0 1 = 0)
    (hmessage : bitsOf (numAt bytes 1 2) 4 0 ≠ 1 ∨ bitsOf (numAt bytes 1 2) 14 12 ≠ 0 ∨ bitAt (numAt bytes 1 2) 15 = true)
    (hid : s.port.rxId ≠ some (bitsOf (numAt bytes 1 2) 11 9)) :
    let t := (s.modSp (fun p => { p with
      cntRx := p.cntRx + 1#32, rxId := some (bitsOf (numAt bytes 1 2) 11 9) })).pdRx 0 (numAt bytes 1 2) (bytes.drop 3)
    let u := t.pdDiscard.pdBegin
    execPdMessageReceived bytes true s =
      .next (if u.port.run = .disabled then u else u.pdReact (numAt bytes 1 2) (bytes.drop 3)) := by
  refine (execPdMessageReceived_of_message hattached hsop hmessage).trans ((if_neg (by simpa using hid)).trans ?_)
  simp only [beq_iff_eq]

theorem execPdHardResetReceived_of_attached (hattached : s.port.attached = true) :
    execPdHardResetReceived s = .next (((s.pdRx 3 0 []).pdDiscard).pdHardReset) :=
  if_neg (by simp [hattached])

theorem execPdRetriesExhausted_discards_send :
    let t := s.modSp (fun p => { p with cntRetry := satInc p.cntRetry })
    let u := match s.port.sends with
      | r :: rest => if s.port.inSequence then t
          else (t.modSp (fun p => { p with sends := rest })).finish r 0x1005 ⟨stState, 0, 0x0105, []⟩
      | [] => t
    execPdRetriesExhausted s = .next (((u.modSp (fun p => { p with
      requested := false, accepted := false, inSequence := false, txId := 0, rxId := none })).pdSend .softReset).pdNextSend) := by
  intro t u
  cases hsends : s.port.sends with
  | nil => simp [execPdRetriesExhausted, u, t, hsends]
  | cons r rest => simp [execPdRetriesExhausted, u, t, hsends]

theorem execVbusMonitorBreach_of_inside (hrun : s.port.run = .attachedSnk) (haccepted : s.port.accepted = false)
    (hinside : s.vbusInside s.port.present vbus.toNat = true ∨ ns ≤ 1000000) :
    execVbusMonitorBreach vbus ns s = .next (s.modSp (fun x => { x with
      vbus := vbus, ready := x.ready && s.vbusInside s.port.present vbus.toNat
      snkOn := x.snkOn && s.vbusInside s.port.present vbus.toNat })) := by
  refine (if_neg (by simp [hrun])).trans ((if_pos ?_).trans ?_)
  · obtain h | h := hinside <;> simp [haccepted, h]
  · simp [haccepted]

theorem execVbusMonitorBreach_of_outside (hrun : s.port.run = .attachedSnk) (haccepted : s.port.accepted = false)
    (hlong : 1000000 < ns) (houtside : s.vbusInside s.port.present vbus.toNat = false) :
    execVbusMonitorBreach vbus ns s = .next ((((s.modSp (fun x => { x with
      vbus := vbus, vbusFault := true, transMs := s.port.transMs })).pdSend .hardReset).pdHardReset).raise 264) := by
  refine (if_neg (by simp [hrun])).trans ((if_neg ?_).trans ?_)
  · simp [haccepted, houtside, hlong]
  · simp [haccepted]

/-! ### The alternate mode, moisture and corrosion (18 R489, R493, R494) -/

theorem execPdEnterMode_of_attached {position : Nat} (hattached : s.port.attached = true)
    (hon : s.pdBegin.port.run ≠ .disabled) :
    let ack := position == 1 && bitAt s.pdBegin.port.inForce.alt 0 && !s.pdBegin.port.corroded
    let t := s.pdBegin.pdSend (.enterMode ack)
    execPdEnterMode position s = .next (if ack = true ∧ t.port.alt = false then
      (t.modSp (fun p => { p with alt := true })).raise 265 else t) := by
  intro ack t
  refine (if_neg (by simp [hattached])).trans ((if_neg (by simp [hon])).trans ?_)
  rw [apply_ite Host.Outcome.next]
  refine ite_of_iff ?_
  simp [ack, t]

theorem execPdExitMode_of_alt (halt : s.port.alt = true) :
    execPdExitMode s = .next (((s.pdSend .exitMode).modSp (fun p => { p with alt := false })).raise 265) :=
  if_neg (by simp [halt])

theorem execMoistureCheck_of_unattached :
    let v := s.pickService.portEnable
    v.port.run = .unattached → bitAt (v.held 0x1B00) 5 = true →
    let t := v.atLeast (v.port.checkAt + 1000000000)
    let u := t.modSp (fun x => { x with checkAt := t.clk })
    execMoistureCheck ohms s = .next (if bitsOf (v.held 0x1B07) 7 0 * 10000 ≤ ohms then u
      else ((u.modSp (fun x => { x with
        run := .wet, srcOn := false, rd := true, dryRun := 0, cntMoist := satInc x.cntMoist })).raise 266).raise 260) := by
  intro v hrun hen t u
  refine (if_pos (by simp [v, hrun, hen])).trans ?_
  simp only [apply_ite Host.Outcome.next, decide_eq_true_eq]
  rfl

theorem execMoistureCheck_of_wet :
    let v := s.pickService.portEnable
    v.port.run = .wet →
    let t := v.atLeast (v.port.checkAt + bitsOf (v.held 0x1B07) 15 8 * 1000000000)
    let n := if bitsOf (v.held 0x1B07) 7 0 * 10000 ≤ ohms then v.port.dryRun + 1 else 0
    let u := t.modSp (fun x => { x with checkAt := t.clk, dryRun := n })
    execMoistureCheck ohms s = .next (if n < bitsOf (v.held 0x1B07) 23 16 then u
      else ((u.modSp (fun x => { x with run := .unattached, dryRun := 0 })).raise 266).raise 260) := by
  intro v hrun t n u
  refine (if_neg (by simp [v, hrun])).trans ((if_pos (by simp [v, hrun])).trans ?_)
  simp only [apply_ite Host.Outcome.next, decide_eq_true_eq]
  rfl

theorem execSbuCorrosion_of_high {v : Reading} (hattached : s.port.attached = true) (halt : s.port.alt = false)
    (hcorroded : s.port.corroded = false) (hhigh : 1000 < v) :
    execSbuCorrosion v s = .next ((s.modSp (fun x => { x with corroded := true, cntCorroded := satInc x.cntCorroded })).raise 266) :=
  if_neg (by simp [hattached, halt, hcorroded, hhigh])

end PortRows

section PortOpcodes

variable {r : Req} {s : State}

theorem State.needPort_on {b : Res} (hon : s.portFused = false) : s.needPort b = b := if_neg (by simp [hon])

theorem State.needClaim_held {b : Res} (hclaim : s.port.policyOwner = some r.owner) : s.needClaim r b = b :=
  if_pos (by simp [hclaim])

theorem execSpStatusRead_of_ready (h : Ready 0x1001 observe r s) (hp : r.payload = []) :
    execSpStatusRead r s = .next (s.complete r 0x1001 (done (leBytes 4 s.port.status ++ leBytes 4 s.port.contractWord ++
      leBytes 2 s.port.vbus.toNat ++ leBytes 1 s.port.ownerByte ++ zeros 1))) :=
  h.next_ok (len_zero hp) rfl

theorem execSpPolicyClaim_of_free (h : Ready 0x1002 service r s) (hp : r.payload = []) (hon : s.portFused = false)
    (hfree : s.port.policyOwner = none) :
    execSpPolicyClaim r s = .next ((s.modSp (fun p => { p with
      policyOwner := some r.owner, record := some p.inForce })).complete r 0x1002 (done s.port.inForce.bytes)) := by
  refine h.next_ok (len_zero hp) ?_
  rw [State.needPort_on hon]
  exact if_neg (by simp [hfree])

theorem execSpPolicyRelease_of_owner (h : Ready 0x1003 service r s) (hp : r.payload = []) (hon : s.portFused = false)
    (hclaim : s.port.policyOwner = some r.owner) :
    execSpPolicyRelease r s =
      .next ((s.modSp (fun p => { p with policyOwner := none, record := none })).complete r 0x1003 done) := by
  refine h.next_ok (len_zero hp) ?_
  rw [State.needPort_on hon, State.needClaim_held hclaim]

theorem execSpPdPolicy_of_owner (h : Ready 0x1004 service r s) (hlen : r.payload.length = 16)
    (hswap : numAt r.payload 8 1 < 4) (halt : numAt r.payload 9 1 < 2) (hzero : zeroAt r.payload 10 6 = true)
    (hon : s.portFused = false) (hclaim : s.port.policyOwner = some r.owner) (hok : (recordOf r.payload).ok = true) :
    execSpPdPolicy r s =
      .next ((s.modSp (fun p => { p with record := some (recordOf r.payload) })).complete r 0x1004 done) := by
  refine h.next_ok ?_ ?_
  · simp [hlen, hzero, hswap, halt]
  · rw [State.needPort_on hon, State.needClaim_held hclaim]
    exact if_neg (by simp [hok])

/-- The shape of an SP_PD_SEND: whole data objects, as many as its header says unless it is a Hard Reset. -/
theorem pdSend_shape (hlow : 4 ≤ r.payload.length) (hhigh : r.payload.length ≤ 32) (hwhole : r.payload.length % 4 = 0)
    (hzero : zeroAt r.payload 1 1 = true)
    (hkind : numAt r.payload 0 1 = 3 ∨ numAt r.payload 0 1 = 0 ∧
        bitsOf (numAt r.payload 2 2) 14 12 = (r.payload.length - 4) / 4) :
    (if r.payload.length < 4 ∨ 32 < r.payload.length ∨ r.payload.length % 4 ≠ 0 then some dtLength
      else if numAt r.payload 0 1 = 0 ∧ bitsOf (numAt r.payload 2 2) 14 12 ≠ (r.payload.length - 4) / 4 then some dtLength
      else if !zeroAt r.payload 1 1 then some dtReserved else none) = none :=
  (if_neg (by omega)).trans ((if_neg (by omega)).trans (if_neg (by simp [hzero])))

theorem execSpPdSend_of_owner (h : Ready 0x1005 service r s) (hlow : 4 ≤ r.payload.length)
    (hhigh : r.payload.length ≤ 32) (hwhole : r.payload.length % 4 = 0) (hzero : zeroAt r.payload 1 1 = true)
    (hkind : numAt r.payload 0 1 = 3 ∨ numAt r.payload 0 1 = 0 ∧ bitsOf (numAt r.payload 2 2) 14 12 = (r.payload.length - 4) / 4)
    (hon : s.portFused = false) (hclaim : s.port.policyOwner = some r.owner) (hattached : s.port.attached = true) :
    execSpPdSend r s = .next (if numAt r.payload 0 1 = 3 ∧ s.port.inSequence = false ∧ s.port.sends = [] then
        (s.pdSend .hardReset).pdHardReset.complete r 0x1005 done
      else if s.port.sends = [] then ((s.modSp (fun p => { p with sends := [r] })).pdNextSend).park r 0x1005
      else (s.modSp (fun p => { p with sends := p.sends ++ [r] })).park r 0x1005) := by
  have hshape := pdSend_shape hlow hhigh hwhole hzero hkind
  have hrange : ¬ (numAt r.payload 0 1 ≠ 0 ∧ numAt r.payload 0 1 ≠ 3) := by omega
  by_cases hnow : numAt r.payload 0 1 = 3 ∧ s.port.inSequence = false ∧ s.port.sends = []
  · obtain ⟨hreset, hidle, hsends⟩ := hnow
    rw [if_pos ⟨hreset, hidle, hsends⟩]
    refine h.next_ok hshape ?_
    rw [State.needPort_on hon, State.needClaim_held hclaim]
    simp [hreset, hattached, hidle, hsends]
  · rw [if_neg hnow]
    have hlater : ¬ (decide (numAt r.payload 0 1 = 3) && !s.port.inSequence && s.port.sends.isEmpty) = true := by
      simpa using hnow
    by_cases hsends : s.port.sends = []
    · rw [if_pos hsends]
      refine h.next_wait hshape ?_
      rw [State.needPort_on hon, State.needClaim_held hclaim]
      exact (if_neg hrange).trans ((if_neg (by simp [hattached])).trans ((if_neg hlater).trans (if_pos (by simp [hsends]))))
    · rw [if_neg hsends]
      refine h.next_wait hshape ?_
      rw [State.needPort_on hon, State.needClaim_held hclaim]
      exact (if_neg hrange).trans ((if_neg (by simp [hattached])).trans ((if_neg hlater).trans (if_neg (by simp [hsends]))))

end PortOpcodes

/-- Settles O50. `exec` of each of these rows is its meaning by definition. -/
theorem servicePortEvents : Obligations.ServicePortEvents := by
  unfold Obligations.ServicePortEvents
  refine ⟨?_, ?_, ?_, ?_, ?_, ?_, ?_, ?_, ?_, ?_, ?_, ?_, ?_, ?_, ?_, ?_, ?_, ?_, ?_, ?_⟩
  · exact fun _ _ _ _ hon hrun hsource => execCcAttach_of_unattached hon hrun hsource
  · exact fun _ _ _ _ hoff => execCcAttach_of_off hoff
  · exact fun _ _ hgone => execCcDetach_of_gone hgone
  · exact fun _ _ hrun hfed => execCcDetach_of_fed hrun hfed
  · exact fun _ hrun hmay => execDrpToggle_of_unattached hrun hmay
  · exact fun _ _ _ _ _ _ hrun hon hchoice => execPdSourceCapabilities_of_sink hrun hon hchoice
  · exact fun _ _ hrun haccepted => execPdPsRdy_of_accepted hrun haccepted
  · exact fun _ _ hattached hsop htype hcount hext => execPdMessageReceived_of_goodCrc hattached hsop htype hcount hext
  · exact fun _ _ hattached hsop => execPdMessageReceived_of_badCrc hattached hsop
  · exact fun _ _ hattached hsop hmessage hid => execPdMessageReceived_of_repeat hattached hsop hmessage hid
  · exact fun _ _ hattached hsop hmessage hid => execPdMessageReceived_of_new hattached hsop hmessage hid
  · exact fun _ hattached => execPdHardResetReceived_of_attached hattached
  · exact fun _ => execPdRetriesExhausted_discards_send
  · exact fun _ _ _ hrun haccepted hinside => execVbusMonitorBreach_of_inside hrun haccepted hinside
  · exact fun _ _ _ hrun haccepted hlong houtside => execVbusMonitorBreach_of_outside hrun haccepted hlong houtside
  · exact fun _ _ hattached hon => execPdEnterMode_of_attached hattached hon
  · exact fun _ halt => execPdExitMode_of_alt halt
  · exact fun _ _ => execMoistureCheck_of_unattached
  · exact fun _ _ => execMoistureCheck_of_wet
  · exact fun _ _ hattached halt hcorroded hhigh => execSbuCorrosion_of_high hattached halt hcorroded hhigh

/-- Settles O51. `exec` of each of these opcodes is its meaning by definition. -/
theorem servicePortCommands : Obligations.ServicePortCommands := by
  unfold Obligations.ServicePortCommands
  refine ⟨?_, ?_, ?_, ?_, ?_⟩
  · exact fun _ _ h hp => execSpStatusRead_of_ready h hp
  · exact fun _ _ h hp hon hfree => execSpPolicyClaim_of_free h hp hon hfree
  · exact fun _ _ h hp hon hclaim => execSpPolicyRelease_of_owner h hp hon hclaim
  · exact fun _ _ h hlen hswap halt hzero hon hclaim hok =>
      execSpPdPolicy_of_owner h hlen hswap halt hzero hon hclaim hok
  · exact fun _ _ h hlow hhigh hwhole hzero hkind hon hclaim hattached =>
      execSpPdSend_of_owner h hlow hhigh hwhole hzero hkind hon hclaim hattached

end Sys2Proof.Machine
end

section
/-! The MRAM, the fuses and customer images (19 R499 to R508, R519, R521): what each row does, by its outcome. -/

namespace Sys2Proof.Machine

section MramRows

variable {w : NvmWrite} {ws : List NvmWrite} {r : Req} {s : State}

/-! ### The MRAM (19 R499 to R506, R521) -/

theorem execNvmRecordWrite_of_waiting (hheld : s.nvmHeld = false) (hrun : s.power.safety.dieRunning = true)
    (hwaiting : s.nv.nvm.waiting = w :: ws) (hfree : s.nv.nvm.blocked w.type = false) :
    execNvmRecordWrite s =
      .next ((((s.modNvm (fun x => { x with waiting := ws })).writeRecord w).recordWritten w).settle s) := by
  refine (if_neg (by simp [hheld, hrun])).trans ?_
  simp only [hwaiting]
  exact if_neg (by simp [hfree])

theorem execNvmRecordWrite_of_queue (hheld : s.nvmHeld = false) (hrun : s.power.safety.dieRunning = true)
    (hwaiting : s.nv.nvm.waiting = []) (hlost : s.nv.nvm.lost = none) (hfree : s.nv.nvm.blocked 0x20#8 = false)
    (hqueue : s.nv.nvm.queue = w :: ws) :
    execNvmRecordWrite s = .next ((s.modNvm (fun x => { x with queue := ws })).writeRecord w) := by
  refine (if_neg (by simp [hheld, hrun])).trans ?_
  simp only [hwaiting, hlost, hqueue]
  exact if_neg (by simp [hfree])

theorem execNvmScrub_of_correctable {sector corrected : Nat} (hsector : sector < 512)
    (hen : bitAt (s.param 0x1C00) 0 = true) (hrun : s.power.safety.dieRunning = true)
    (hfew : corrected ≤ bitsOf (s.param 0x1C00) 15 8) :
    let t := s.atLeast (bankGet 0 sector s.nv.nvm.lastScrub + bitsOf (s.param 0x1C00) 31 16 * 3600000000000)
    ∃ u, execNvmScrub sector corrected [] s = .next u ∧ u.clk = t.clk ∧
      u.nv.nvm.cntCorr = satAdd s.nv.nvm.cntCorr corrected ∧ u.nv.nvm.cntUncorr = satAdd s.nv.nvm.cntUncorr 0 ∧
      u.nv.nvm.lastScrub = bankSet 0 sector t.clk s.nv.nvm.lastScrub ∧ u.host = s.host ∧ u.conv = s.conv := by
  intro t
  refine ⟨_, (if_neg (by simp [hen, hrun, hsector])).trans (congrArg _ (if_neg ?_)), rfl, rfl, rfl, rfl, rfl, rfl⟩
  simp [hfew]

theorem execSectorMigrationComplete_of_one {x : Nat} (hmigrating : s.nv.nvm.migrating = [x]) :
    execSectorMigrationComplete s = .next ((((s.modNvm (fun n => { n with
      migrating := [], spares := n.spares - 1, migrated := satInc n.migrated
      remap := (x, 64 - n.spares) :: n.remap.filter (fun e => e.1 != x) })).longOpEnd).raise 268).nvmChanged s) := by
  simp [execSectorMigrationComplete, hmigrating]

theorem execNvmStatusRead_of_ready (h : Ready 0x0F01 observe r s) (hp : r.payload = []) :
    execNvmStatusRead r s = .next (s.complete r 0x0F01
      (done (leBytes 4 s.nvmStatus ++ leBytes 4 s.fwStatus ++ leBytes 4 s.fwLevels ++ leBytes 4 s.fwPend))) :=
  h.next_ok (len_zero hp) rfl

theorem execLogRead_of_records (h : Ready 0x0F08 security r s) (hlen : r.payload.length = 4)
    (hrecords : s.nv.nvm.logRecords.drop (numAt r.payload 0 4) ≠ []) :
    execLogRead r s = .next (s.complete r 0x0F08
      (done (((s.nv.nvm.logRecords.drop (numAt r.payload 0 4)).take 63).map (fun x => pad64 x.payload)).flatten)) :=
  h.next_ok (len_none.mpr hlen) (if_neg (by simpa using hrecords))

/-! ### Fuses and customer images (19 R507, R508, R519) -/

theorem State.needSmu_of_secure {loader : Bool} {b : Res} (hvia : s.secureVia loader r = true) : s.needSmu loader r b = b :=
  if_pos hvia

theorem State.needSmu_of_smu {loader : Bool} {b : Res} (hvia : r.via.transport = .smuAuth) : s.needSmu loader r b = b :=
  State.needSmu_of_secure (by simp [State.secureVia, hvia])

theorem execFuseRead_of_ready (h : Ready 0x0F09 observe r s) (hp : r.payload = []) :
    execFuseRead r s = .next (s.complete r 0x0F09 (done (leBytes 256 s.fuseArray))) :=
  h.next_ok (len_zero hp) rfl

theorem execFuseBlow_of_window {k : Fin 4} {a b : Bool} (h : Ready 0x0F0A security r s)
    (hp : r.payload = [BitVec.ofNat 8 k.val]) (howner : r.owner = 0) (hvia : r.via.transport = .smuAuth)
    (hwindow : s.fuseWindow = true) :
    let t := s.modSec (SecState.modFuse k.val (Fuse.blow a b))
    execFuseBlow r a b s = .next ((t.raise 273).complete r 0x0F0A
      (if (t.nv.sec.fuse k.val).reads then done else partial_ 0 0x010A)) := by
  intro t
  have hk : numAt r.payload 0 1 = k.val := by rw [hp, numAt_fin (by omega)]
  have hrange : ¬ 3 < k.val := by omega
  refine h.next_ok (len_one_of_payload hp) ?_
  refine (if_neg (by simp [howner])).trans ((State.needSmu_of_smu hvia).trans ?_)
  simp only [hk]
  exact (if_neg hrange).trans (if_neg (by simp [hwindow]))

theorem execCustCommit_of_enabled (h : Ready 0x0F0B security r s) (hp : r.payload = [])
    (hvia : r.via.transport = .smuAuth) (hcores : s.nv.sec.customerCores.latched = true) :
    let t := match s.custImage s.nv.fw.custSlot with
      | some i => if s.nv.fw.cust == CustRun.running then
          s.modFw (fun f => { f with custLevel := BitVec.ofNat 16 (max f.custLevel.toNat i.level) }) else s
      | none => s
    execCustCommit r s = .next (t.complete r 0x0F0B done) := by
  intro t
  refine h.next_ok (len_zero hp) ((State.needSmu_of_smu hvia).trans ((if_neg (by simp [hcores])).trans ?_))
  cases himage : s.custImage s.nv.fw.custSlot <;> simp only [t, himage]

theorem execCustKeySet_of_owner (h : Ready 0x0E08 security r s) (hlen : r.payload.length = 48) (howner : r.owner = 0)
    (hvia : r.via.transport = .smuAuth) (hcores : s.nv.sec.customerCores.latched = true) :
    execCustKeySet r s = .next (((s.modSec (fun c => { c with custKey := some r.payload })).storeSecure 18).complete r 0x0E08 done) :=
  h.next_ok (len_none.mpr hlen) ((if_neg (by simp [howner])).trans
    ((State.needSmu_of_smu hvia).trans (if_neg (by simp [hcores]))))

end MramRows

/-- Settles O52. `exec` of each of these rows is its meaning by definition. -/
theorem mramAndSecurityCommands : Obligations.MramAndSecurityCommands := by
  unfold Obligations.MramAndSecurityCommands
  refine ⟨?_, ?_, ?_, ?_, ?_, ?_, ?_, ?_, ?_, ?_⟩
  · exact fun _ _ _ hheld hrun hwaiting hfree => execNvmRecordWrite_of_waiting hheld hrun hwaiting hfree
  · exact fun _ _ _ hheld hrun hwaiting hlost hfree hqueue =>
      execNvmRecordWrite_of_queue hheld hrun hwaiting hlost hfree hqueue
  · exact fun _ _ _ hsector hen hrun hfew => execNvmScrub_of_correctable hsector hen hrun hfew
  · exact fun _ _ hmigrating => execSectorMigrationComplete_of_one hmigrating
  · exact fun _ _ h hp => execNvmStatusRead_of_ready h hp
  · exact fun _ _ h hlen hrecords => execLogRead_of_records h hlen hrecords
  · exact fun _ _ h hp => execFuseRead_of_ready h hp
  · exact fun _ _ _ _ _ h hp howner hvia hwindow => execFuseBlow_of_window h hp howner hvia hwindow
  · exact fun _ _ h hp hvia hcores => execCustCommit_of_enabled h hp hvia hcores
  · exact fun _ _ h hlen howner hvia hcores => execCustKeySet_of_owner h hlen howner hvia hcores

end Sys2Proof.Machine
end

section
/-! Firmware images (19 R509 to R513): what each row does, by its outcome. -/

namespace Sys2Proof.Machine

section FirmwareRows

variable {r : Req} {u : Upload} {k : Fin 2} {s : State}

/-! ### The upload (19 R509, R512) -/

theorem execFwOpen_of_closed (h : Ready 0x0F02 security r s) (hshape : lenZ 8 [(1, 3)] r.payload = none)
    (hvia : s.secureVia true r = true) (hk : numAt r.payload 0 1 = k.val)
    (hcust : k = 1 → s.sys.hawk ≠ .recovery ∧ s.nv.sec.customerCores.latched = true) (hlow : 512 ≤ numAt r.payload 4 4)
    (hhigh : numAt r.payload 4 4 ≤ sectionSize k) (htrial : s.nv.fw.trial = false) (hclosed : s.nv.fw.upload = none)
    (hmedia : s.nv.nvm.retired.any (fun x => decide (x < 512)) = false) :
    ∃ t : State, execFwOpen r s = .next (t.complete r 0x0F02 done) ∧
      t.nv.fw.upload = some { owner := r.owner, section_ := k.val, total := numAt r.payload 4 4, bytes := [], units := [] } ∧
      t.nv.fw.images = vmod s.nv.fw.images (imageAt s.loadSlot k) (fun _ => none) ∧
      t.nv.fw.ready = (s.nv.fw.ready && k != 0) ∧ t.nv.sec = s.nv.sec ∧ t.conv = s.conv ∧ t.host = s.host := by
  have hsection : Fin.ofNat 2 (numAt r.payload 0 1) = k := by simp [hk]
  have hrange : (decide (1 < numAt r.payload 0 1) || decide (numAt r.payload 0 1 = 1) && s.sys.hawk == .recovery) = false := by
    obtain rfl | rfl : k = 0 ∨ k = 1 := by omega
    · simp [hk]
    · simp [hk, hcust]
  have henabled : (decide (numAt r.payload 0 1 = 1) && !s.nv.sec.customerCores.latched) = false := by
    obtain rfl | rfl : k = 0 ∨ k = 1 := by omega
    · simp [hk]
    · simp [hk, hcust]
  have hsize : numAt r.payload 4 4 ≤ sectionSize (Fin.ofNat 2 (numAt r.payload 0 1)) := by rwa [hsection]
  refine ⟨_, h.next_ok hshape ((State.needSmu_of_secure hvia).trans ((if_neg (by simp [hrange])).trans
    ((if_neg (by simpa [hlow] using hsize)).trans ((if_neg (by simp [henabled])).trans ((if_neg (by simp [htrial])).trans
    ((if_neg (by simp [hclosed])).trans (if_neg (by simp [hmedia])))))))), ?_, ?_, ?_, rfl, rfl, rfl⟩
  · simp [State.modFw, State.modNvm, hk]
  · simp [State.modFw, State.modNvm, hk]
  · obtain rfl | rfl : k = 0 ∨ k = 1 := by omega
    · simp [State.modFw, State.modNvm, hk]
    · simp [State.modFw, State.modNvm, hk]

/-- An upload with bytes written to it. -/
def Upload.written (off : Nat) (data : List Byte) (u : Upload) : Upload :=
  { u with bytes := (List.range data.length).foldl (fun b i => bankPut (off + i) (data.getD i 0#8) b) u.bytes }

/-- An upload that counts the units which have become complete. -/
def Upload.counted (u : Upload) : Upload := { u with units := u.units ++ u.newUnits }

/-- An upload takes bytes; the units that become complete go to the slot, the header apart (19 R512). -/
def State.uploadWritten (off : Nat) (data : List Byte) (u : Upload) (s : State) : State :=
  (s.modFw (fun f => { f with upload := some (u.written off data).counted })).modNvm
    (NvmState.writeLines (sectionLine s.loadSlot (Fin.ofNat 2 u.section_)) (u.written off data).counted
      (((u.written off data).newUnits.flatMap (fun k => (List.range 64).map (64 * k + ·))).filter (fun l => decide (8 ≤ l))))

theorem execFwWrite_of_upload (h : Ready 0x0F03 security r s) (hlow : 4 ≤ r.payload.length)
    (hhigh : r.payload.length ≤ 4064) (hvia : s.secureVia true r = true) (hupload : s.uploadOf r.owner = some u)
    (hfits : numAt r.payload 0 4 + (r.payload.drop 4).length ≤ u.total) :
    ∃ (t : State) (w : Upload), execFwWrite r s = .next (t.complete r 0x0F03 done) ∧ t.nv.fw.upload = some w ∧
      w.total = u.total ∧ w.bytes = (List.range (r.payload.drop 4).length).foldl
        (fun b i => bankPut (numAt r.payload 0 4 + i) ((r.payload.drop 4).getD i 0#8) b) u.bytes ∧
      t.nv.sec = s.nv.sec ∧ t.conv = s.conv ∧ t.host = s.host := by
  have hwritten : execFwWrite r s =
      .next ((s.uploadWritten (numAt r.payload 0 4) (r.payload.drop 4) u).complete r 0x0F03 done) := by
    refine h.next_ok (by simp [lenIn, hlow, hhigh]) ((State.needSmu_of_secure hvia).trans ?_)
    simp only [hupload]
    exact if_neg (Nat.not_lt.mpr hfits)
  exact ⟨_, _, hwritten, rfl, rfl, rfl, rfl, rfl, rfl⟩

theorem execFwAbort_of_upload (h : Ready 0x0F07 security r s) (hp : r.payload = []) (hvia : s.secureVia false r = true)
    (hupload : s.uploadOf r.owner = some u) :
    execFwAbort r s = .next ((s.modFw (fun f => { f with upload := none })).complete r 0x0F07 done) := by
  refine h.next_ok (len_zero hp) ((State.needSmu_of_secure hvia).trans ?_)
  simp only [hupload]

theorem execFwFinish_of_good (h : Ready 0x0F04 security r s) (hp : r.payload = []) (hvia : s.secureVia true r = true)
    (hupload : s.uploadOf r.owner = some u) (hformat : u.formatOk = true)
    (hkey : u.section_ = 0 ∨ s.nv.sec.custKey.isSome = true) (hlevel : s.levelOk (u.image s.nv.sec.custKey) = true) :
    let sec := Fin.ofNat 2 u.section_
    let lines := (List.range ((u.total + 63) / 64)).filter (fun l => decide (l < 8) || !u.units.contains (l / 64))
    let t := (s.modNvm (NvmState.writeLines (sectionLine s.loadSlot sec) u lines)).modFw (fun f => { f with
      upload := none, images := vmod f.images (imageAt s.loadSlot sec) (fun _ => some (u.image s.nv.sec.custKey))
      ready := f.ready || u.section_ == 0 })
    execFwFinish r true true true s = .next
      ((if u.section_ = 1 && bitsOf (t.param 0x1C13) 1 1 = s.loadSlot.val then t.custStart else t).complete r 0x0F04 done) := by
  intro sec lines t
  have hkey : (u.section_ == 0 || s.nv.sec.custKey.isSome) = true := by simpa using hkey
  refine h.next_ok (len_zero hp) ((State.needSmu_of_secure hvia).trans ?_)
  simp only [hupload, hformat, hkey, hlevel]
  rfl

theorem execFwFinish_of_badSignature {sigOk hashOk keyOk : Bool} (h : Ready 0x0F04 security r s) (hp : r.payload = [])
    (hvia : s.secureVia true r = true) (hupload : s.uploadOf r.owner = some u) (hformat : u.formatOk = true)
    (hbad : (sigOk && hashOk && keyOk) = false) :
    execFwFinish r sigOk hashOk keyOk s = .next (s.finish r 0x0F04 ⟨stValue, 0, dtSignature, []⟩) := by
  refine congrArg _ (h.run_fail (len_zero hp) ((State.needSmu_of_secure hvia).trans ?_))
  simp only [hupload, hformat, hbad]
  rfl

/-! ### The trial and the boot (19 R510, R511, R513) -/

theorem execFwActivate_of_ready (h : Ready 0x0F05 security r s) (hp : r.payload = []) (hvia : s.secureVia true r = true)
    (hhawk : s.sys.hawk ≠ .recovery) (htrial : s.nv.fw.trial = false) (hready : s.nv.fw.ready = true)
    (hengines : s.allQuiet = true ∨ ((s.nv.fw.images[2 * s.loadSlot.val]).map (fun i => i.engineMin.toNat)).getD 0 ≤ s.nv.fw.engineSet.toNat) :
    execFwActivate r s = .next ((((((s.startTrial s.loadSlot).modFw (fun f => { f with activate := some r })).hawkReset 3
      .booting).park r 0x0F05)).settle s) := by
  have hcompatible : ¬ (decide (s.nv.fw.engineSet.toNat < (match s.nv.fw.images[2 * s.loadSlot.val] with
      | some i => i.engineMin.toNat
      | none => 0)) && !s.allQuiet) = true := by
    obtain hquiet | hmin := hengines
    · simp [hquiet]
    · cases himage : s.nv.fw.images[2 * s.loadSlot.val] with
      | none => simp
      | some i =>
        rw [himage] at hmin
        simpa using fun hless => absurd hmin (Nat.not_le.mpr hless)
  exact h.settle_wait (len_zero hp) ((State.needSmu_of_secure hvia).trans ((if_neg (by simpa using hhawk)).trans
    ((if_neg (by simp [htrial])).trans ((if_neg (by simp [hready])).trans (if_neg hcompatible)))))

theorem execFwActivate_of_recovery (h : Ready 0x0F05 security r s) (hp : r.payload = [])
    (hvia : s.secureVia true r = true) (hhawk : s.sys.hawk = .recovery) (hready : s.nv.fw.ready = true) :
    execFwActivate r s = .next ((((s.startTrial 0).hawkReset 3 .booting).complete r 0x0F05 done).settle s) :=
  h.settle_ok (len_zero hp) ((State.needSmu_of_secure hvia).trans ((if_pos (by simp [hhawk])).trans
    (if_neg (by simp [hready]))))

theorem execFwCommit_of_trial (h : Ready 0x0F06 security r s) (hp : r.payload = []) (hvia : s.secureVia false r = true)
    (htrial : s.nv.fw.trial = true) :
    let level := match s.nv.fw.images[2 * s.nv.fw.run.val] with | some i => i.level | none => 0
    execFwCommit r s = .next (((((s.modFw (fun f => { f with trial := false, boots := 0, bootSlot := f.run })).storeOpen 0x03 0
      16).modSec (fun c => { c with rollback := max c.rollback level })).raise 272).complete r 0x0F06 done) := by
  intro level
  exact h.next_ok (len_zero hp) ((State.needSmu_of_secure hvia).trans (if_neg (by simp [htrial])))

theorem execTrialTimeout_of_running (htrial : s.nv.fw.trial = true) (hrun : s.sys.hawk = .running) :
    execTrialTimeout s = .next ((((s.atLeast (s.nv.fw.trialStart + bitsOf s.nv.fw.trialCfg 15 0 * 1000000000)).trialFails).hawkReset 3
      .booting).settle s) :=
  if_neg (by simp [htrial, hrun])

theorem execFirmwareBoot_of_booting {validA validB : Bool} {bt bs : List Nat} {br : BitVec 8}
    (hhawk : s.sys.hawk = .booting) :
    let u := s.countBoot
    let t := if u.sys.wd.raiseAtRelease then (u.raise 201).modWd (fun x => { x with raiseAtRelease := false }) else u
    execFirmwareBoot validA validB bt bs br s = .next (match t.bootChoice validA validB with
      | (some slot, first) => (t.bootSlotNow slot (slot != first) bt bs br).settle s
      | (none, _) => t.enterRecovery.settle s) := by
  intro u t
  refine (if_neg (by simp [hhawk])).trans ?_
  change (match t.bootChoice validA validB with
    | (some slot, first) => Host.Outcome.next ((t.bootSlotNow slot (slot != first) bt bs br).settle s)
    | (none, _) => .next (t.enterRecovery.settle s)) = _
  generalize t.bootChoice validA validB = c
  obtain ⟨_ | slot, first⟩ := c <;> rfl

end FirmwareRows

/-- Settles O53. `exec` of each of these rows is its meaning by definition. -/
theorem firmwareCommands : Obligations.FirmwareCommands := by
  unfold Obligations.FirmwareCommands
  refine ⟨?_, ?_, ?_, ?_, ?_, ?_, ?_, ?_, ?_, ?_⟩
  · exact fun _ _ _ h hshape hvia hk hcust hlow hhigh htrial hclosed hmedia =>
      execFwOpen_of_closed h hshape hvia hk hcust hlow hhigh htrial hclosed hmedia
  · exact fun _ _ _ h hlow hhigh hvia hupload hfits => execFwWrite_of_upload h hlow hhigh hvia hupload hfits
  · exact fun _ _ _ h hp hvia hupload => execFwAbort_of_upload h hp hvia hupload
  · exact fun _ _ _ h hp hvia hupload hformat hkey hlevel => execFwFinish_of_good h hp hvia hupload hformat hkey hlevel
  · exact fun _ _ _ _ _ _ h hp hvia hupload hformat hbad => execFwFinish_of_badSignature h hp hvia hupload hformat hbad
  · exact fun _ _ h hp hvia hhawk htrial hready hengines =>
      execFwActivate_of_ready h hp hvia hhawk htrial hready hengines
  · exact fun _ _ h hp hvia hhawk hready => execFwActivate_of_recovery h hp hvia hhawk hready
  · exact fun _ _ h hp hvia htrial => execFwCommit_of_trial h hp hvia htrial
  · exact fun _ htrial hrun => execTrialTimeout_of_running htrial hrun
  · exact fun _ _ _ _ _ _ hhawk => execFirmwareBoot_of_booting hhawk

end Sys2Proof.Machine
end
